-- ==== Sys2Proof/Word.lean ====
section
/-! DEFINITION. The word and byte types. A parameter word is 64 bits (R25); packets, frames and flash are bytes. -/
namespace Sys2Proof

/-- One byte of a packet, frame, table entry or flash cell. -/
abbrev Byte := BitVec 8

/-- One 64-bit parameter word (R25). -/
abbrev Word := BitVec 64

end Sys2Proof
end

