-- ==== Sys2Proof/Syntax.lean ====
section
/-! DEFINITION. The commands the part takes and the events that happen to it: one constructor of Instr per row of
spec/opcode_table.json, with the operands the spec gives it. A measured or external quantity that the spec has an event
depend on (a reading, a received frame, what DMA reads) is an operand of that event's row. -/
namespace Sys2Proof

/-- The transports of R61: the PCIe rings, in-band control and the SPI side-band. -/
inductive Via where
  | pcie | inband | sideband
  deriving DecidableEq, Repr

/-- The two masters; in-band requests belong to the host (R84). -/
inductive Master where
  | host | sideband
  deriving DecidableEq, Repr

/-- A Mivik request that has arrived whole (R54): the header fields of its packet but for the opcode, which the row names,
and its payload, authentication block included. `buf` and `slot` are the reply buffer and command ring entry of a PCIe
request (R77); `port`, `src` and `vlan` the arrival port, source address and VLAN tag (its four bytes) of an in-band one (R84). -/
structure Request where
  via : Via
  version : Nat
  flags : Nat
  tag : Nat
  status : Nat
  seq : Nat
  payload : List Byte
  buf : Nat
  slot : Nat
  port : Nat
  src : Nat
  vlan : Option Nat
  deriving DecidableEq, Repr

/-- One command ring entry as DMA reads it, with the packet it points to (R77). -/
structure RingEntry where
  buf : Nat
  len : Nat
  packet : List Byte
  deriving DecidableEq, Repr

/-- How a write to a parameter word arrives: in a PARAM command of a master, or as a BAR0 access of so many bytes (R25). -/
inductive WritePath where
  | command (m : Master)
  | bar0 (bytes : Nat)
  deriving DecidableEq, Repr

/-- The host rings that have an ENABLE (R78). -/
inductive RingId where
  | command | reply | event
  | p80 (r : Nat)
  | qmon
  | ledger (r : Nat)
  deriving DecidableEq, Repr

/-- A lane: high lane n or edge lane n (R126). -/
inductive Lane where
  | hl (n : Nat)
  | el (n : Nat)
  deriving DecidableEq, Repr

/-- What a lane counts at a lock (R138): ALIGN_UI, GBX_UI, DESKEW_UI and LANE_ORDER. -/
structure LaneReport where
  align : Nat
  gbx : Nat
  deskew : Nat
  order : Nat
  deriving DecidableEq, Repr

/-- What the PCS and the merge sublayer found up to a frame's end (R158, R168, R180): a reassembly error, an invalid code or
block and an uncorrectable codeword within the frame; the fragments it came in; the codewords corrected and not, the
symbols corrected and the invalid blocks since the frame before; and whether a Verify mPacket came before it (R167). -/
structure PcsReport where
  assembly : Bool
  code : Bool
  uncorr : Bool
  fragments : Nat
  corrCw : Nat
  uncorrCw : Nat
  corrSymbols : Nat
  errBlocks : Nat
  verify : Bool
  deriving DecidableEq, Repr

/-- A phase detector: of a lane's receive or transmit boundary clock, or of the replica offset of PCS island 14 + i (R346). -/
inductive Detector where
  | rx (l : Lane)
  | tx (l : Lane)
  | island (i : Nat)
  deriving DecidableEq, Repr

/-- A reading of a closed DPLL loop (R373): its frequency in units of 2^-40 without any slew, and the measured offset of the
domain or plane against the selected reference in 2^-16 ns. -/
structure LoopReading where
  dpll : Nat
  freq : Int
  phase : Int
  deriving DecidableEq, Repr

/-- The parent and grandmaster data of a PTP instance (R337), with the UTC offset and flags of its timePropertiesDS (bit 0
LEAP61, bit 1 LEAP59, bit 2 valid). -/
structure PtpParent where
  clock : Nat
  port : Nat
  gm : Nat
  cls : Nat
  accuracy : Nat
  variance : Nat
  priority1 : Nat
  priority2 : Nat
  steps : Nat
  utc : Int
  flags : Nat
  deriving DecidableEq, Repr

/-- What the protocol machines of IEEE 1588 that an engine runs (R329) find at a message or timeout: whether the message is
malformed; of a delay exchange it completes, t4 - t1 and t3 - t2 at the reference planes (R349), and whether a stamp of it
precedes the settle moment (R356); of a Sync exchange, t2 - t1 at the reference planes (R350), all in 2^-16 ns; the port
states the BMCA chooses; the parent; and 802.1AS capability and L1SYNC. -/
structure PtpFindings where
  malformed : Bool
  delay : Option (Int × Int)
  straddles : Bool
  sync : Option Int
  states : List (Nat × Nat)
  parent : Option PtpParent
  capable : Option Bool
  l1sync : Option Bool
  deriving DecidableEq, Repr

/-- What E0 finds in the body of the configuration block it takes, whose format the spec does not give: the values of the FW
fields, and the PCIe vendor, subsystem vendor and subsystem IDs (R76, R110). -/
structure ConfigBody where
  values : List (Nat × Word)
  ids : Nat × Nat × Nat
  deriving DecidableEq, Repr

/-- Why a receive direction loses its lock (R135-R137): its signal, its alignment, with which of the last 64 blocks' sync headers
were valid, or its recovered clock. -/
inductive LockLoss where
  | signal
  | alignment (headers : List Bool)
  | clock
  deriving DecidableEq, Repr

/-- Where a calibration step is taken (R396): in a gate-calendar entry with CAL set, a transmit idle, a receive idle, or the
sleep of a direction (tx) of port p, or, for the background item i of a class, on the calibration channel. -/
inductive CalGap where
  | entry (p : Nat)
  | txIdle (p : Nat)
  | rxIdle (p : Nat)
  | sleep (p : Nat) (tx : Bool)
  | channel (cls i : Nat)
  deriving DecidableEq, Repr

/-- A calibration step in progress: of a direction of port p, or of a background item. -/
inductive CalStep where
  | lane (p : Nat) (tx : Bool)
  | item (cls i : Nat)
  deriving DecidableEq, Repr


/-- The commands and events of spec/opcode_table.json, one constructor a row, in the table's order. -/
inductive Instr where
  /-- NOP (R70): A command that does nothing and replies with an empty payload; it counts as master activity. -/
  | nop (q : Request)
  /-- SESSION_OPEN (R62): Ends the transport's current session and starts a new one, optionally authenticated with a key slot, and returns the session number. -/
  | sessionOpen (q : Request)
  /-- SESSION_CLOSE (R70): Ends the session; the next request starts a new implicit unauthenticated session. -/
  | sessionClose (q : Request)
  /-- IDENTITY_GET (R70): Returns the device code, silicon revision, unique identifier, image interface levels, boot ROM version and the request's transport. -/
  | identityGet (q : Request)
  /-- PARAM_READ (R71): Reads a list of 1 to 256 shelfmarks, each word atomically. -/
  | paramRead (q : Request)
  /-- PARAM_WRITE (R72): Checks every entry and then writes 1 to 252 parameter words in list order, with no write of the other master landing between them. -/
  | paramWrite (q : Request)
  /-- PARAM_RMW (R73): Applies masked read-modify-write to 1 to 168 words atomically and returns the old values. -/
  | paramRmw (q : Request)
  /-- PARAM_READ_BLOCK (R74): Reads 1 to 505 consecutive indices of one instance. -/
  | paramReadBlock (q : Request)
  /-- TABLE_STAGE_WRITE (R204): Stages written entries for one forwarding table after checking their ranges and the staging limit. -/
  | tableStageWrite (q : Request)
  /-- TABLE_STAGE_CLEAR (R204): Stages the invalidation or deletion by key of entries of one table. -/
  | tableStageClear (q : Request)
  /-- TABLE_STAGE_DISCARD (R204): Discards all staging of one table. -/
  | tableStageDiscard (q : Request)
  /-- TABLE_COMMIT (R205): Freezes the staged entries of the named blocks into a new accession epoch that takes effect at T_eff. -/
  | tableCommit (q : Request)
  /-- EPOCH_STATUS (R209): Returns the current and other epoch, their effective times, drain count and staged entries. -/
  | epochStatus (q : Request)
  /-- TIME_GET (R312): Returns level, generation, time and frequency offset of the selected domains, sampled at one instant. -/
  | timeGet (q : Request)
  /-- TIME_STEP (R313): Steps a domain relatively or absolutely, at once or as a one-shot action at T. -/
  | timeStep (q : Request)
  /-- TIME_ADJ_FREQ (R315): Sets a FREE domain's rate or a HOLDOVER domain's holdover frequency, at once or at T; gives BUSY for ACQUIRING or LOCKED domains. -/
  | timeAdjFreq (q : Request)
  /-- TIME_SCHEDULE_LIST (R317): Lists the pending one-shot actions in handle order. -/
  | timeScheduleList (q : Request)
  /-- TIME_SCHEDULE_CANCEL (R317): Cancels a pending one-shot action by handle, with the side effects of its kind. -/
  | timeScheduleCancel (q : Request)
  /-- REF_FORCE (R372): Forces a selector to one reference, switching to it if qualified or holding over otherwise. -/
  | refForce (q : Request)
  /-- REF_RELEASE (R372): Ends a forced selection so that automatic selection resumes at the next evaluation. -/
  | refRelease (q : Request)
  /-- REF_CLEAR_WTR (R372): Makes every named reference in WTR QUALIFIED at once. -/
  | refClearWtr (q : Request)
  /-- OUT_REALIGN (R387): Realigns the masked outputs to their domain by step or slew, at once or as a one-shot action at T. -/
  | outRealign (q : Request)
  /-- OUT_OWN (R386): Sets the ownership state HIGHZ, DRIVE, SQUELCH or PAIR of the masked timing outputs. -/
  | outOwn (q : Request)
  /-- OUT_FORCE (R469): Forces the masked GPIO output pins to given levels. -/
  | outForce (q : Request)
  /-- OUT_FORCE_RELEASE (R469): Ends the force on the masked GPIO pins. -/
  | outForceRelease (q : Request)
  /-- GATE_LOAD (R259): Checks a port's gate calendar under R260 and stages it as the admin calendar, replying with the carrel gate waits. -/
  | gateLoad (q : Request)
  /-- GATE_LOAD_CHECK_ONLY (R260): Runs the calendar acceptance checks without staging and reports the first failed check. -/
  | gateLoadCheckOnly (q : Request)
  /-- GATE_SWITCH (R263): Switches the named ports' admin calendars in at a cycle boundary, at once or as a one-shot action at T. -/
  | gateSwitch (q : Request)
  /-- PAIR_TAKE (R436): Requests the active role by handover or takeover, optionally forced. -/
  | pairTake (q : Request)
  /-- PAIR_YIELD (R437): Offers the active role to a clean standby partner and blocks revertive return for HOLD_S. -/
  | pairYield (q : Request)
  /-- PAIR_STATUS (R438): Returns pair state, own and partner health and the partner's identity, sampled at one instant. -/
  | pairStatus (q : Request)
  /-- PWR_SET (R120): Starts power transitions of the masked domains, adding required domains and refusing off-switches that break dependencies. -/
  | pwrSet (q : Request)
  /-- PWR_PLAN (R123): Replaces the whole power plan of LPI and speed-step permissions. -/
  | pwrPlan (q : Request)
  /-- CAL_RUN (R404): Makes every item of the named scope due at once and returns a run number. -/
  | calRun (q : Request)
  /-- CAL_STATUS (R405): Counts the named calibration items by state and reports the longest time since completion. -/
  | calStatus (q : Request)
  /-- TDC_ARM (R414): Arms a TIME, INTERVAL or PERIOD measurement of the edge measurement unit, at once or at T. -/
  | tdcArm (q : Request)
  /-- TDC_ABORT (R414): Ends a pending or running edge measurement with cause ABORTED. -/
  | tdcAbort (q : Request)
  /-- TDC_RESULT (R417): Returns the state and statistics of the current or last measurement, sampled at one instant. -/
  | tdcResult (q : Request)
  /-- STAT_SNAPSHOT (R179): Requests a consistent counter snapshot at a domain time, now or as a one-shot action. -/
  | statSnapshot (q : Request)
  /-- FW_STAGE (R113): Erases and/or writes part of an image slot, configuration block or boot header copy, optionally checking it. -/
  | fwStage (q : Request)
  /-- FW_ACTIVATE (R114): Makes a checked slot primary, permanently or on trial, at the next reset or now. -/
  | fwActivate (q : Request)
  /-- FW_ACTIVATE_CONFIRM (R114): Ends a trial of an image kind, keeping the trial slot. -/
  | fwActivateConfirm (q : Request)
  /-- WATCH_SET_WRITE (R292): Writes stream watch entries, resetting their state and releasing their actions. -/
  | watchSetWrite (q : Request)
  /-- WATCH_SET_CLEAR (R292): Invalidates stream watch entries and releases their actions. -/
  | watchSetClear (q : Request)
  /-- WATCH_SET_RELEASE (R292): Releases the actions of stream watch entries and restarts their condition timers. -/
  | watchSetRelease (q : Request)
  /-- PROOF_RUN_START (R299): Starts an evening primrose run over the masked path slots, now or as a one-shot action at T. -/
  | proofRunStart (q : Request)
  /-- PROOF_RUN_ABORT (R299): Ends a running proof run with verdict ABORTED. -/
  | proofRunAbort (q : Request)
  /-- PERF_SELECT (R443): Changes a performance counter's selection and threshold at one DBG cycle, optionally zeroing it. -/
  | perfSelect (q : Request)
  /-- PERF_READ (R444): Returns PERF_CYCLES and the masked counters, all at one DBG cycle. -/
  | perfRead (q : Request)
  /-- LEASE_TAKE (R88): Takes the leases of named blocks that are unheld or already held by the requester. -/
  | leaseTake (q : Request)
  /-- LEASE_SEIZE (R88): Takes named blocks from whichever master holds them when the grant set or the holder's silence allows. -/
  | leaseSeize (q : Request)
  /-- LEASE_DROP (R88): Releases the requester's leases on named blocks and discards its uncommitted staging on them. -/
  | leaseDrop (q : Request)
  /-- REGISTER_WRITE (R482): A write, by PARAM command or BAR0, to a parameter word that has no row of its own, carried out or discarded whole. -/
  | registerWrite (path : WritePath) (addr : Nat) (value : Word)
  /-- CMD_DB_CMD (R78): The host writes its command producer count, making new command ring entries available or raising a doorbell error. -/
  | cmdDbCmd (path : WritePath) (value : Word)
  /-- COMMAND_FETCH (R79): The device fetches a command ring entry once the reply ring has room for it and every outstanding command. -/
  | commandFetch (entries : List RingEntry)
  /-- CMD_DB_RPL (R79): The host writes its reply consumer count, freeing reply ring entries or being refused. -/
  | cmdDbRpl (path : WritePath) (value : Word)
  /-- CMD_DB_EVT (R79): The host writes its event consumer count, freeing event ring entries or being refused. -/
  | cmdDbEvt (path : WritePath) (value : Word)
  /-- RING_ENABLE (R78): Setting ENABLE of a ring restarts its device counts at 0, or is refused if its size is out of range. -/
  | ringEnable (path : WritePath) (ring : RingId) (value : Word)
  /-- INBAND_CONTROL_FRAME (R83): A frame to CMD_INBAND_MAC with Ethertype 0x88B5 on an enabled port is taken as a Mivik request and answered by the arrival port. -/
  | inbandControlFrame (port : Nat) (frame : List Byte)
  /-- REQ_WRITE (R85): A side-band SPI transaction delivering one Mivik request, queued or answered BUSY when the queue is full. -/
  | reqWrite (packet : List Byte)
  /-- STATUS_READ (R85): A side-band transaction returning reply, event and queue status. -/
  | statusRead
  /-- REPLY_READ (R85): A side-band transaction returning the oldest reply, removed when all its bytes were clocked. -/
  | replyRead (clocked : Nat)
  /-- EVENT_READ (R85): A side-band transaction returning the oldest side-band event. -/
  | eventRead (clocked : Nat)
  /-- SPI_INVALID_COMMAND (R85): A side-band transaction with an unknown command byte is voided and counted as a framing error. -/
  | spiInvalidCommand (b : Nat)
  /-- SIDEBAND_COMMAND_START (R86): A queued side-band command starts executing once a reply slot is free for it. -/
  | sidebandCommandStart
  /-- CHAIN_TIMEOUT (R67): More than 100 ms between two packets of a chain ends it with TRUNCATED. -/
  | chainTimeout (via : Via)
  /-- AUTH_LOCKOUT_END (R65): The 1 s lockout after 16 consecutive AUTH results ends and the count restarts from zero. -/
  | authLockoutEnd (via : Via)
  /-- HOST_SILENT (R89): The host's idle count exceeds its silence time, making its blocks seizable and queuing an event for the side-band. -/
  | hostSilent
  /-- SB_SILENT (R89): The side-band's idle count exceeds its silence time, making its blocks seizable and queuing an event for the host. -/
  | sbSilent
  /-- ENGINE_WATCHDOG_EXPIRY (R44): An engine's 50 ms watchdog expires; E0 restarts it and its mailbox answers NOT_READY. -/
  | engineWatchdogExpiry (e : Nat)
  /-- MAILBOX_REPLY_DEADLINE (R44): An engine has not replied by 80 % of the class bound, so the mailbox replies INTERNAL and treats the engine as stalled. -/
  | mailboxReplyDeadline (q : Request) (opcode : Nat) (completed : Bool)
  /-- ENGINE_RESTART (R44): A restarted engine runs again, its readiness bit rises and the restart event is raised. -/
  | engineRestart (e : Nat)
  /-- COLD_RESET (R98): COLD_RST_N low, or the cold code taking effect, returns every field to reset and reruns start-up. -/
  | coldReset (straps : Option (Bool × Bool))
  /-- WARM_RESET (R99): WARM_RST_N low, or the warm code taking effect, resets PD1-PD13, PD15 and optionally PD14 and repeats start-up from the boot header. -/
  | warmReset (pin : Bool)
  /-- DEV_RESET_COLD (R101): A write of the cold code to DEV_RESET schedules a cold reset 1 ms after the command's end point. -/
  | devResetCold (path : WritePath)
  /-- DEV_RESET_WARM (R101): A write of the warm code to DEV_RESET schedules a warm reset 1 ms after the command's end point. -/
  | devResetWarm (path : WritePath)
  /-- PERST_ASSERT (R100): PERST_N low resets the PCIe controller and BAR0 logic, discarding unfetched commands and disabling the rings. -/
  | perstAssert
  /-- PERST_DEASSERT (R100): PERST_N rising lets PCIe link training restart. -/
  | perstDeassert
  /-- PCIE_LINK_UP (R116): The PCIe link trains and HOST_PCIE rises. -/
  | pcieLinkUp
  /-- COLD_BOOT_COUNT (R103): E0 reads the flash journal and programs the next cold-boot count, or sets COUNT_FAIL. -/
  | coldBootCount (readable programs : Bool)
  /-- BOOT_HEADER_READ (R104): E0 reads both boot header copies and uses the valid one with the higher sequence, or enters BOOT_HOLD or NO_HEADER. -/
  | bootHeaderRead
  /-- IMAGE_SELECTION (R109): E0 checks and selects the configuration block and the two images, fixing the device mode. -/
  | imageSelection (cfg : ConfigBody)
  /-- IMAGE_LOAD_DONE (R97): An image has been loaded and verified and its engines start. -/
  | imageLoadDone (kind : Nat)
  /-- HARDWARE_TABLES_LOADED (R210): The configuration block's tables are loaded into PD4 and form a new epoch, and SWITCH and PIPE bits rise. -/
  | hardwareTablesLoaded (entries : List (Nat × Nat × Nat × List Byte)) (calendars : List (List Byte))
  /-- TABLE_REFILL_DONE (R47): E8 finishes refilling the tables of pairs 3-5 after PD5 came on, and their PIPE bits rise. -/
  | tableRefillDone
  /-- POWER_UP_COMPLETE (R122): A domain finishes powering up and its functions go on toward readiness. -/
  | powerUpComplete (pd : Nat)
  /-- POWER_DOWN_COMPLETE (R121): A domain is cut off after its drain, dropping frames still inside it. -/
  | powerDownComplete (pd : Nat) (frames : List Nat)
  /-- FLASH_OPERATION_DONE (R113): A FW_STAGE erase, program and optional check complete and the reply is written. -/
  | flashOperationDone (ok : Bool)
  /-- IMAGE_ACTIVATION_DONE (R115): After activation now, the engines of the new image report running and the reply is written. -/
  | imageActivationDone
  /-- TRIAL_REVERTED (R114): No confirm arrives within FW_TRIAL_S, so E0 restores the previous slot and restarts that image kind. -/
  | trialReverted (kind : Nat)
  /-- SEC_KEY_WRITE (R65): A write to a key word loads it, with word 0 clearing and word 3 setting the slot's valid bit, unless locked. -/
  | secKeyWrite (path : WritePath) (word : Nat) (value : Word)
  /-- SEC_LOCK (R65): Writing 1 to SEC_CTRL.LOCK locks keys and RWL fields of SEC until cold reset. -/
  | secLock (path : WritePath)
  /-- ISLAND_LOCK_LOSS (R52): A clock island's PLL loses lock; the island stops, its frames drop and its ready bits fall. -/
  | islandLockLoss (n : Nat)
  /-- ISLAND_RESTART (R52): An island restarts after its PLL has held lock for 1 ms; a TIME restart restarts every domain FREE. -/
  | islandRestart (n : Nat)
  /-- CROSSING_FIFO_ERROR (R51): A crossing FIFO overflows or underflows, a hardware fault that is counted, reported and entered in health. -/
  | crossingFifoError (n : Nat)
  /-- BUF_MEM_FAULT (R217): A queue, descriptor or free-list memory reports an ECC error; uncorrectable ones drop the affected frame. -/
  | bufMemFault (mem : Nat) (corrected : Bool) (frame : Option Nat) (cells : List Nat)
  /-- REPLICA_REALIGN (R39): Every 1,024 TIME cycles the PCS-island replicas of the domains are realigned and pending steps land. -/
  | replicaRealign
  /-- LANE_SIGNAL_DETECT (R135): A signal is detected on a lane receive direction, which enters ACQUIRE. -/
  | laneSignalDetect (lane : Lane)
  /-- LANE_CLOCK_STABLE (R135): The recovered clock becomes stable and the direction enters ALIGN. -/
  | laneClockStable (lane : Lane) (found : Nat)
  /-- LANE_LOCK (R141): A receive direction reaches LOCKED and publishes its boundary report, invalidating the link's delay. -/
  | laneLock (p : Nat) (reports : List LaneReport)
  /-- LANE_LOCK_LOST (R135): A receive direction leaves LOCKED other than into SLEEP, with every lane of a multi-lane port. -/
  | laneLockLost (lane : Lane) (cause : LockLoss)
  /-- DESKEW_RETRY (R137): Lanes whose skew exceeds the range retry deskew every 10 ms. -/
  | deskewRetry (p : Nat)
  /-- LANE_RECEIVE_SLEEP (R148): Received LPI puts a locked receive direction into SLEEP. -/
  | laneReceiveSleep (p : Nat)
  /-- LANE_WAKE (R148): The partner's wake signal takes a sleeping receive direction through WAKE to a new lock. -/
  | laneWake (p : Nat)
  /-- CTLE_ADAPT_STEP (R133): In CONTINUOUS mode a non-timing locked lane adjusts its CTLE by at most one step per 10 ms. -/
  | ctleAdaptStep (lane : Lane) (up : Bool)
  /-- EYE_REFRESH (R150): Each locked receive direction refreshes its eye and SNR readouts every 10 ms. -/
  | eyeRefresh (lane : Lane) (heights widths : List Nat) (snr : Nat)
  /-- HLANE_RESTART_TX (R140): A write forces a transmitter start, publishing a new transmit gearbox depth. -/
  | hlaneRestartTx (path : WritePath) (lane : Lane)
  /-- HLANE_RESTART_RX (R135): A write forces a re-lock of the receive direction. -/
  | hlaneRestartRx (path : WritePath) (lane : Lane)
  /-- MARGIN_START (R151): Writing MARGIN_START starts a margin probe, or ends it at once when the lane is not locked. -/
  | marginStart (path : WritePath) (lane : Lane) (target : Nat)
  /-- MARGIN_DONE (R151): A margin probe completes or is aborted and its result is reported. -/
  | marginDone (lane : Lane) (margins : List Nat)
  /-- TIMING_MARK_EVALUATION (R143): Within 1 ms of a feeding configuration change the timing marks of each port direction are re-evaluated. -/
  | timingMarkEvaluation (p : Nat)
  /-- MAC_PORT_TYPE_WRITE (R155): A change of port type takes the port down, restarts its lanes and resets its link model. -/
  | macPortTypeWrite (path : WritePath) (p : Nat) (value : Word)
  /-- PORT_LINK_UP (R118): The port's PCS aligns with its lanes ready and the port becomes ready. -/
  | portLinkUp (p cause : Nat)
  /-- PORT_LINK_DOWN (R118): The port stops being ready and its queued copies are dropped within 1 ms. -/
  | portLinkDown (p cause : Nat)
  /-- FRAME_RECEIVE (R157): A frame arrives on a port and is stamped, checked, classified, policed, given FRER treatment, mirrored and admitted. -/
  | frameReceive (p : Nat) (frame : List Byte) (pcs : PcsReport) (under : List Nat)
  /-- FDB_LEARN (R189): A queued source address is learned or moved, or lost when the queue or bucket is full. -/
  | fdbLearn
  /-- FDB_AGE_OUT (R189): A learned entry not renewed for FDB_AGE_S is removed. -/
  | fdbAgeOut
  /-- FDB_FLUSH (R190): A write to FDB_FLUSH removes learned entries by port, FID or all. -/
  | fdbFlush (path : WritePath) (value : Word)
  /-- HOST_FRAME_SUBMIT (R162): A frame from a P80 transmit entry is checked for length, admitted or rejected and completed. -/
  | hostFrameSubmit (entry frame : List Byte)
  /-- P80_RING_DB (R201): The host writes a P80 ring count, posting buffers, producing transmit entries or consuming completions. -/
  | p80RingDb (path : WritePath) (r : Nat) (value : Word)
  /-- EGRESS_FRAME_START (R249): A free transmitter takes the head of the first eligible queue, applying ageing, gate fit and preemption. -/
  | egressFrameStart (p buf : Nat)
  /-- COPY_DEPARTURE (R35): A copy finishes leaving its port, releasing cells and updating drain counts. -/
  | copyDeparture (p : Nat)
  /-- PFC_XOFF_REFRESH (R170): While above XON, XOFF is repeated each half quanta time. -/
  | pfcXoffRefresh (p pri : Nat)
  /-- PAUSE_FRAME_RECEIVE (R169): A received PAUSE frame stops or releases the port's transmitter. -/
  | pauseFrameReceive (p quanta : Nat)
  /-- PFC_FRAME_RECEIVE (R169): A received PFC frame stops or releases queues of the port. -/
  | pfcFrameReceive (p enable : Nat) (quanta : List Nat)
  /-- PAUSE_QUANTA_EXPIRY (R169): A received pause's quanta run out and the transmitter or queue resumes. -/
  | pauseQuantaExpiry (p queues : Nat)
  /-- PAUSE_WATCHDOG_TRIP (R171): A stop longer than PAUSE_WD_MS trips the watchdog so that pause is ignored. -/
  | pauseWatchdogTrip (p queues : Nat)
  /-- PAUSE_IGNORE_END (R171): PAUSE_IGNORE_MS ends and pause is honoured again. -/
  | pauseIgnoreEnd (p queues : Nat)
  /-- LPI_ENTRY (R173): A permitted non-timing transmit direction enters LPI after its queues are idle for MAC_LPI_IDLE_US. -/
  | lpiEntry (p : Nat) (advertised : Bool)
  /-- MERGE_VERIFY_TIMER (R167): The verify interval of the MAC merge sublayer expires and verification advances. -/
  | mergeVerifyTimer (p : Nat) (answered : Bool)
  /-- SPEED_STEP_EVALUATE (R174): Load or queue depth over the window triggers a step proposal within the plan. -/
  | speedStepEvaluate (p rxDown txDown rxUp txUp : Nat)
  /-- STEP_TLV_RECEIVE (R175): An LLDP step TLV from the partner is answered or completes an agreement. -/
  | stepTlvReceive (p code number : Nat) (loadOk : Bool)
  /-- STEP_RETUNE (R175): 50 ms after agreement the port retunes to the new speed. -/
  | stepRetune (p : Nat)
  /-- STEP_PROPOSAL_TIMEOUT (R175): No answer within 3 s withdraws a step proposal. -/
  | stepProposalTimeout (p : Nat)
  /-- SCHEDULED_SNAPSHOT (R178): At T the counters are captured into a bank as one consistent snapshot. -/
  | scheduledSnapshot (h : Nat)
  /-- STAT_SNAPSHOT_DONE (R179): The snapshot bank becomes VALID and the done event is raised. -/
  | statSnapshotDone
  /-- EPOCH_COMMITTED (R206): The commit domain reaches T_eff and frames from then on are classified under the new epoch. -/
  | epochCommitted
  /-- EPOCH_RETIRED (R208): The last frame of a draining epoch leaves and its superseded entries are freed. -/
  | epochRetired
  /-- EPOCH_DRAIN_SLOW (R208): A drain lasting longer than DRAIN_WARN_MS is reported once. -/
  | epochDrainSlow
  /-- MIRROR_RESUME (R198): A session's queue stays below RESUME_CELLS for RESUME_MS and the session returns to FULL. -/
  | mirrorResume (m : Nat)
  /-- CARREL_POOL_WRITE (R222): A change of CARREL_POOL_CELLS moves K toward the new value as cells allow. -/
  | carrelPoolWrite (path : WritePath) (value : Word)
  /-- PAGE_PACK_TIMER (R227): A partial tail page whose oldest cell waited PACK_US is written to the stacks. -/
  | pagePackTimer (p q : Nat)
  /-- PAGE_WRITE_DONE (R227): A page write completes and its on-chip cells are released, or is retried after a CRC failure. -/
  | pageWriteDone (p q page : Nat) (failed : Bool)
  /-- PAGE_READ_DONE (R228): A refill page read completes into new cells, or an uncorrectable read drops its frames and retires the page. -/
  | pageReadDone (p q corrected : Nat) (bad : Bool)
  /-- STACK_CHAIN_ABANDONED (R243): The background sweep frees the pages of abandoned chain remainders. -/
  | stackChainAbandoned
  /-- DDR_TRAINING_DONE (R238): A channel's training ends IN_SERVICE or OUT_OF_SERVICE. -/
  | ddrTrainingDone (c step readEye writeEye vref : Nat)
  /-- DQS_DRIFT_TRACK (R238): Every 100 ms the controller tracks DQS drift and adjusts refresh. -/
  | dqsDriftTrack (c : Nat)
  /-- STACK_RETIRED_WRITE (R242): A host write to the retirement list retires a page at once or when freed. -/
  | stackRetiredWrite (path : WritePath) (c : Nat) (entry : Nat) (value : Word)
  /-- STACK_CH_EN_CLEAR (R243): Clearing a CH_EN bit takes the channel out of service. -/
  | stackChEnClear (path : WritePath) (value : Word)
  /-- AUDIT_PASS (R244): Every PERIOD_US the inventory audit marks carrel cells and checks counts, finding leaks, crosslinks and mismatches. -/
  | auditPass (crosslinks strayed : List Nat)
  /-- QMON_SAMPLE (R268): At each sampling instant records of the selected queues are written to the monitoring ring. -/
  | qmonSample
  /-- QMON_DB (R270): The host writes its monitoring ring consumer count, or is refused. -/
  | qmonDb (path : WritePath) (value : Word)
  /-- GATE_ACTIVE (R262): A committed calendar reaches its operational start S and comes into force. -/
  | gateActive (p : Nat)
  /-- GATE_RESTART (R266): After a domain step the calendar resumes from entry 0 at the next cycle start in the new time. -/
  | gateRestart (p : Nat)
  /-- SCHEDULED_GATE_SWITCH (R263): At T a scheduled gate switch executes and fixes each port's switch instant. -/
  | scheduledGateSwitch (h : Nat)
  /-- FRER_RESET_TIMER (R286): No frame passes a recovery function for RESET_MS, so it sets take_any and counts a reset. -/
  | frerResetTimer (r : Nat)
  /-- LATENT_TEST (R289): Every LATENT_TEST_MS E5 tests a recovery function for a latent error. -/
  | latentTest (r : Nat)
  /-- LATENT_BASE_RESET (R289): Every LATENT_RESET_MS the latent-error base is recorded afresh. -/
  | latentBaseReset (r : Nat)
  /-- WATCH_EVALUATE (R294): Every ms E5 evaluates each watch entry, setting or clearing conditions and applying or releasing actions. -/
  | watchEvaluate
  /-- SCHEDULED_PROOF_START (R299): At T a scheduled evening primrose run starts. -/
  | scheduledProofStart (h : Nat)
  /-- PROBE_SEND (R300): At each probe interval the current slot sends its next probe on P82. -/
  | probeSend
  /-- PROBE_REFLECT (R297): A received probe addressed to the device on a reflect port is echoed back, or dropped. -/
  | probeReflect (p : Nat) (frame : List Byte)
  /-- ECHO_RECEIVE (R298): An echo of the run in progress is taken and its delay and count recorded. -/
  | echoReceive (p : Nat) (frame : List Byte)
  /-- SLOT_END (R300): TIMEOUT_MS after its last probe a slot ends with its verdict and the next slot starts. -/
  | slotEnd
  /-- SCHEDULED_STEP (R306): At T a scheduled time step lands, re-evaluating pending actions and writing discontinuity records. -/
  | scheduledStep (h : Nat)
  /-- SCHEDULED_FREQ_CHANGE (R315): At T a scheduled frequency change takes effect, or does nothing if the domain is steered. -/
  | scheduledFreqChange (h : Nat)
  /-- SCHEDULED_REALIGN (R388): At T a scheduled output realignment executes. -/
  | scheduledRealign (h : Nat)
  /-- SCHEDULED_TDC_START (R414): At T a pending edge measurement starts running. -/
  | scheduledTdcStart (h : Nat)
  /-- LEDGER_ANCHOR (R325): ANCHOR_MS of step-free time after the last anchor an anchor record is written for each domain of a ring. -/
  | ledgerAnchor (r : Nat)
  /-- LEDGER_RING_DB (R327): The host writes a ledger ring consumer count, or is refused. -/
  | ledgerRingDb (path : WritePath) (r : Nat) (value : Word)
  /-- RING_GAP (R326): A full ledger ring regains 16 free entries and writes a gap record and anchors. -/
  | ringGap (r : Nat)
  /-- FIFO_GAP (R323): A port stamp FIFO's gap record leaves once the stamps ahead of it have drained. -/
  | fifoGap (p : Nat)
  /-- EVIN_EDGE (R409): An edge on an enabled EVIN input is stamped coarsely into the ledger. -/
  | evinEdge (n : Nat)
  /-- TDC_EDGE (R413): A presented edge of an armed input is captured on a delay line and yields a sample. -/
  | tdcEdge (input fine : Nat)
  /-- TDC_INTERVAL_SAMPLE (R413): WINDOW after a B edge the interval sample is taken. -/
  | tdcIntervalSample
  /-- TDC_TIMEOUT (R416): TIMEOUT_S passes without a sample and the measurement ends. -/
  | tdcTimeout
  /-- PTP_MESSAGE_RECEIVE (R331): A PTP message of an engine-mode instance is processed, yielding state changes and offset results. -/
  | ptpMessageReceive (p : Nat) (frame : List Byte) (f : PtpFindings)
  /-- PTP_MESSAGE_SEND (R332): At a message interval an engine-mode instance sends its PTP messages. -/
  | ptpMessageSend (d p dst : Nat) (body : List Byte) (f : PtpFindings)
  /-- SYNC_RECEIPT_TIMEOUT (R361): No accepted offset within the Sync receipt timeout disqualifies the DREF. -/
  | syncReceiptTimeout (d : Nat)
  /-- ANNOUNCE_RECEIPT_TIMEOUT (R332): No Announce within announceReceiptTimeout intervals is counted and drives the BMCA. -/
  | announceReceiptTimeout (d p : Nat) (f : PtpFindings)
  /-- DDMTD_READING (R347): At each beat interval a phase detector takes a reading and updates its fit. -/
  | ddmtdReading (d : Detector) (phase rate departure : Int)
  /-- LINK_MEASUREMENT_COMPLETE (R353): A MEASURING link meets settling, calibration and exchange conditions and becomes VALID or SUSPECT. -/
  | linkMeasurementComplete (p : Nat)
  /-- PCS_LINK_REMEASURE (R352): Writing REMEASURE takes the link to INVALID to be measured again. -/
  | pcsLinkRemeasure (path : WritePath) (p : Nat) (value : Word)
  /-- PCS_LINK_ACCEPT (R354): Writing ACCEPT moves a SUSPECT link to VALID. -/
  | pcsLinkAccept (path : WritePath) (p : Nat) (value : Word)
  /-- REF_EVALUATE (R366): Every ms E4 applies reference state changes and selects, switches or holds over each selector. -/
  | refEvaluate (edges : Nat) (freqs : List (Nat × Int)) (loops : List LoopReading)
  /-- REF_FAILURE (R361): Monitoring detects a failed qualification condition and the reference enters FAILED. -/
  | refFailure (r : Nat) (lost : Bool)
  /-- REF_MONITOR_PASS (R362): Every condition has held for QUAL_MS and the reference enters WTR. -/
  | refMonitorPass (r : Nat)
  /-- WTR_EXPIRY (R362): WTR_S passes and the reference becomes QUALIFIED. -/
  | wtrExpiry (r : Nat)
  /-- DISAGREE_CLEAR (R371): A marked reference agreeing for DISAGREE_CLEAR_S loses its DISAGREE mark. -/
  | disagreeClear (sel r : Nat)
  /-- SWITCH_MEASUREMENT_END (R368): SWITCH_MEAS_MS ends and the loop closes on the target with build-out, slew or first step. -/
  | switchMeasurementEnd (sel : Nat) (phi : Int)
  /-- DPLL_LOCK (R374): Phase error within LOCK_PS for LOCK_S with no pending phase makes the DPLL LOCKED. -/
  | dpllLock (n : Nat)
  /-- DPLL_UNLOCK (R374): Error plus pending phase exceeds UNLOCK_PS and the DPLL returns to ACQUIRING. -/
  | dpllUnlock (n : Nat) (phi : Int)
  /-- HOLDOVER_ESTIMATE_WRITE (R375): Once per second while LOCKED the DPLL writes its averaged frequency to DPLL_HO_FREQ. -/
  | holdoverEstimateWrite (n : Nat)
  /-- HOLDOVER_STORE (R111): The timing image stores a locked domain's holdover frequency in flash at most every 10 minutes. -/
  | holdoverStore (d : Nat)
  /-- CLEAR_OFFSET (R381): Writing CLEAR_OFFSET sets the written offset U to 0 and the domain slews back. -/
  | clearOffset (path : WritePath) (d : Nat) (value : Word)
  /-- TX_PLANE_WRITE (R378): A change of a port's transmit clock source restarts its transmitters. -/
  | txPlaneWrite (path : WritePath) (p : Nat) (value : Word)
  /-- ESMC_INFO_SEND (R379): Once per second an information PDU carrying the plane's QL is sent on each ESMC port. -/
  | esmcInfoSend (p : Nat)
  /-- ESMC_RECEIVE (R380): A valid ESMC PDU sets the port's received QL. -/
  | esmcReceive (p : Nat) (frame : List Byte)
  /-- ESMC_TIMEOUT (R380): No ESMC PDU for 5 s makes the port's level FAILED. -/
  | esmcTimeout (p : Nat)
  /-- OUTPUT_DRIVE_CHANGE (R386): An output stops driving at the end of its low phase or starts at its first grid edge after the ownership or role change. -/
  | outputDriveChange (n : Nat)
  /-- OUT_REALIGNED (R388): An output's step or slew realignment completes. -/
  | outRealigned (n : Nat)
  /-- TOD_MESSAGE_START (R390): LEAD_MS before each linked pulse a time-of-day message is composed and sent. -/
  | todMessageStart (n : Nat)
  /-- SENSOR_SAMPLE (R393): Every 10 ms the calibration scheduler samples the sensors and makes items due. -/
  | sensorSample
  /-- CAL_STEP_START (R396): A due item's 128 ns step starts in a gap or on the calibration channel. -/
  | calStepStart (g : CalGap)
  /-- CAL_STEP_COMPLETE (R396): A step completes; after 2^STEPS_LOG2 steps the item completes and its correction applies. -/
  | calStepComplete (which : CalStep) (values : List (Int × Int))
  /-- CAL_DEADLINE (R394): DEADLINE_MS passes for a due item, which becomes STALE. -/
  | calDeadline (cls item : Nat)
  /-- FORCED_WINDOW (R401): On a FORCE_EN port the scheduler holds frame starts for one step for a transmit item near its deadline. -/
  | forcedWindow (p : Nat)
  /-- BELLFLOWER_SEND (R423): Every PERIOD_US hardware sends a bellflower on each heartbeat path. -/
  | bellflowerSend
  /-- BELLFLOWER_RECEIVE (R426): A received bellflower is validated and updates the partner's path, role and verdict, including handover flags. -/
  | bellflowerReceive (path : Nat) (bytes : List Byte)
  /-- PATH_SILENT (R426): No valid bellflower for three periods makes a heartbeat path silent. -/
  | pathSilent (path : Nat)
  /-- PAIR_INIT_TIMEOUT (R421): INIT_MS or twice it passes and the unit takes over or becomes STANDBY. -/
  | pairInitTimeout
  /-- TAKEOVER (R427): The takeover conditions hold and the standby becomes ACTIVE, fencing first when both paths are silent. -/
  | takeover
  /-- FENCE_SETTLE (R427): FENCE_SETTLE_US after asserting the fence the unit becomes ACTIVE. -/
  | fenceSettle
  /-- FENCE_IN_FALL (R429): PAIR_FENCE_IN_N low makes the unit FENCED and releases its pair drivers. -/
  | fenceInFall
  /-- FENCE_IN_RISE (R421): PAIR_FENCE_IN_N rising returns a fenced unit to STANDBY. -/
  | fenceInRise
  /-- TAKE_REQ_TIMEOUT (R432): No YIELDED within three periods withdraws TAKE_REQ. -/
  | takeReqTimeout
  /-- PAIR_WTR_EXPIRY (R432): The revertive wait-to-restore ends and the preferred unit requests a handover. -/
  | pairWtrExpiry
  /-- PAIR_MODE_SET (R421): Writing MODE to PAIR puts the unit into INIT. -/
  | pairModeSet (path : WritePath) (value : Word)
  /-- HEALTH_REPORT (R433): Every HEALTH_PERIOD_MS E6 composes the health report and verdict. -/
  | healthReport
  /-- SCRUB_PASS (R435): The memory scrub self-test completes a pass and records any uncorrectable error. -/
  | scrubPass (bad : Bool)
  /-- CELL_TEST (R435): In STANDBY free cells are tested in batches and failing cells held out of service. -/
  | cellTest (failing : List Nat)
  /-- CROSS_CHECK (R435): Every 1 s locked DPLLs on the same reference are compared. -/
  | crossCheck
  /-- FENCE_LOOP_TEST (R435): Every 1 s PAIR_FENCE_OUT is read back at the ball. -/
  | fenceLoopTest (readback : Bool)
  /-- PERF_OVERFLOW (R445): A sampling counter wraps, capturing context and signalling vector 7, or counting LOST. -/
  | perfOverflow (n address after : Nat)
  /-- PERF_OVF_CLEAR (R445): Writing 1 to OVF clears it and the sample word. -/
  | perfOvfClear (path : WritePath) (n : Nat) (value : Word)
  /-- THERM_CONVERSION (R447): Each sensor converts once per ms and its alarms are evaluated. -/
  | thermConversion (values : List (Option Int))
  /-- I2C_GO (R470): Writing GO starts a single-register I2C read or write. -/
  | i2cGo (path : WritePath) (k : Nat) (value : Word)
  /-- I2C_DONE (R470): An I2C transfer completes with its result. -/
  | i2cDone (k : Nat) (ack : Bool) (value : Nat)
  /-- I2C_BUS_STUCK (R470): SCL or SDA held low for 35 ms ends the transfer and recovers the bus. -/
  | i2cBusStuck (k : Nat)
  /-- BAR0_READ (R27): A BAR0 read of a parameter word, which clears RC fields and latches TIME_NOW_HI seconds for its path. -/
  | bar0Read (offset : Nat)
  /-- HEAD_AGE_EXPIRY (R234): A bulk queue's head copy passes its AGE_US and is dropped even while its gate is closed or its port is not ready. -/
  | headAgeExpiry (p q : Nat)
  /-- PCIE_LINK_DOWN (R116): The PCIe link goes down without PERST_N, HOST_PCIE falls and READY_CHANGE is raised. -/
  | pcieLinkDown
  /-- LPI_TRANSMIT_EXIT (R147): A sleeping transmit direction completes its wake after a frame becomes eligible, within the transmit exit time. -/
  | lpiTransmitExit (p : Nat)
  /-- MSIX_MODERATION_TIMER (R201): MOD_US passes since a ring's last signal and its held MSI-X vector is issued. -/
  | msixModerationTimer (v : Nat)
  /-- IGMP_MLD_SNOOPING (R190): E10 or E11 processes a snooped IGMP or MLD message and writes an FDB multicast entry effective 2 µs after the write. -/
  | igmpMldSnooping (fid mac : Nat) (dest : Option (Nat × Nat))
  deriving DecidableEq, Repr

end Sys2Proof
end

