-- ==== Sys2Proof/Config.lean ====
section
/-! DEFINITION. The values the spec leaves open: constants without a body, applied to a count of the draws or to the
operands they depend on, so that nothing can be proved of them but what the spec says (notes/assumptions/5.md). -/
namespace Sys2Proof.Config

/-- E0's estimate, in µs, of the time until the cold-boot count is known (R62): at least 1,000, otherwise open. -/
opaque bootEstimate : Nat → Nat

/-- The retry hint, in µs, of a BUSY reply for which the spec gives no number. -/
opaque retryHint : Nat → Nat

/-- The depth at which a transmit gearbox starts (R140): within its window (R342), otherwise open. -/
opaque gearboxDepth : Nat → Nat

/-- The bucket of an FDB key, FID and MAC address (R188): the hash is open. -/
opaque fdbBucket : Nat → Nat

/-- Which of a bucket's learned entries is displaced (R188): open. -/
opaque fdbVictim : Nat → Nat

/-- Which of the free cells the circulation desk issues (R213): open. -/
opaque cellPick : Nat → Nat

/-- The gate waits, in ps, in a CHECK_ONLY reply whose calendar fails a check before the waits have a meaning (R261): open. -/
opaque openWait : Nat → Nat

/-- What a queue monitoring gap record holds beside its marker and count (R269): open. -/
opaque qmonGap : Nat → Nat

/-- The quality level shown or sent for a reference that has none (R365, R379): open. -/
opaque noLevel : Nat → Nat

/-- The factory constant between RAW and FIX of a background calibration item (R403), by item number: per part, open. -/
opaque calConst : Nat → Int

/-- What an engine presents to its performance events in a DBG cycle (R441): by event, engine and cycle, open. -/
opaque engineEvent : Nat → Nat → Nat → Nat

/-- The level that the board presents at a GPIO ball which the device does not drive: by tick and pin, open. -/
opaque ballLevel : Nat → Nat → Bool

/-- Whether something else on a contact line overdrives its bus keeper (R476), and to what level: by tick and pin, open. -/
opaque overdriven : Nat → Nat → Option Bool

/-- The gap, in µs, of a takeover by a unit that has heard no bellflower (R431): open. -/
opaque noGap : Nat → Nat

/-- The version of the mask boot ROM (R70): per part, open. -/
opaque bootRom : Nat

/-- The event code of an island's lock loss (0) or a crossing error (1) (R51, R52): the spec raises an event and names none. -/
opaque faultEvent : Nat → Nat

/-- The payload of that event, by kind, island and draw: open. -/
opaque faultPayload : Nat → Nat → Nat → List Byte

/-- The frequency of the PCIe island in Hz as measured against XO_SYS (R50): its reference clock is the host's, open. -/
opaque pcieHz : Nat → Nat

end Sys2Proof.Config
end

