-- ==== Sys2Proof/Machine/Bits.lean ====
section
/-! DEFINITION. Bit fields, sign and byte order: every multi-byte field of a Mivik packet is little-endian (R54),
phase amounts and frequency offsets are signed (R21, R22), and MAC addresses in bytes are in network order (R481). -/
namespace Sys2Proof.Machine

/-- Bits lo .. lo + n - 1 of v, as a number. -/
def bits (v lo n : Nat) : Nat := (v >>> lo) % 2 ^ n

/-- v with bits lo .. lo + n - 1 replaced by the low n bits of x. -/
def setBits (v lo n x : Nat) : Nat :=
  v % 2 ^ lo + (x % 2 ^ n) * 2 ^ lo + (v >>> (lo + n)) * 2 ^ (lo + n)

/-- The signed value of an n-bit field. -/
def signed (n v : Nat) : Int := if bits v (n - 1) 1 = 1 then (v % 2 ^ n : Nat) - (2 ^ n : Int) else (v % 2 ^ n : Nat)

/-- The n-bit two's complement of an integer. -/
def unsigned (n : Nat) (i : Int) : Nat := (i % (2 ^ n : Int)).toNat

/-- A flag as a number. -/
def bit (b : Bool) : Nat := if b then 1 else 0

/-- The number a little-endian byte list spells (R54). -/
def leNat : List Byte → Nat
  | [] => 0
  | b :: bs => b.toNat + 256 * leNat bs

/-- The number a big-endian byte list spells. -/
def beNat (bs : List Byte) : Nat := leNat bs.reverse

/-- n bytes of v, little-endian. -/
def toLe : Nat → Nat → List Byte
  | 0, _ => []
  | n + 1, v => BitVec.ofNat 8 v :: toLe n (v / 256)

/-- n bytes of v, big-endian (network order, R481). -/
def toBe (n v : Nat) : List Byte := (toLe n v).reverse

/-- n bytes of l from offset off. -/
def slice (l : List Byte) (off n : Nat) : List Byte := (l.drop off).take n

/-- The byte of l at off (0 past its end). -/
def u8 (l : List Byte) (off : Nat) : Nat := leNat (slice l off 1)
/-- The 16-bit little-endian field of l at off. -/
def u16 (l : List Byte) (off : Nat) : Nat := leNat (slice l off 2)
/-- The 32-bit little-endian field of l at off. -/
def u32 (l : List Byte) (off : Nat) : Nat := leNat (slice l off 4)
/-- The 64-bit little-endian field of l at off. -/
def u64 (l : List Byte) (off : Nat) : Nat := leNat (slice l off 8)
/-- The 16-bit big-endian field of a frame at off. -/
def be16 (l : List Byte) (off : Nat) : Nat := beNat (slice l off 2)
/-- The 32-bit big-endian field of a frame at off. -/
def be32 (l : List Byte) (off : Nat) : Nat := beNat (slice l off 4)
/-- The 48-bit network-order field of a frame at off: a MAC address (R481). -/
def be48 (l : List Byte) (off : Nat) : Nat := beNat (slice l off 6)

/-- Whether the n bytes of l at off are all zero. -/
def zeroAt (l : List Byte) (off n : Nat) : Bool := (slice l off n).all (· == 0)

/-- n copies of the zero byte. -/
def zeros (n : Nat) : List Byte := List.replicate n 0

/-- The lowest set bits of a mask below n, in rising order. -/
def bitsSet (mask n : Nat) : List Nat := (List.range n).filter (fun i => mask.testBit i)

/-- The mask with exactly the bits of a list set. -/
def maskOf (l : List Nat) : Nat := l.foldl (fun m i => m ||| 2 ^ i) 0

/-- An n-bit counter that saturates at its largest value. -/
def satAdd (n v d : Nat) : Nat := min (v + d) (2 ^ n - 1)

/-- The list with its entry at i replaced by f of it. -/
def modifyAt {α : Type} (l : List α) (i : Nat) (f : α → α) : List α :=
  match l, i with
  | [], _ => []
  | a :: as, 0 => f a :: as
  | a :: as, i + 1 => a :: modifyAt as i f

/-- The value kept for a key in an association list. -/
def assoc {α : Type} (l : List (Nat × α)) (k : Nat) : Option α := (l.find? (fun p => p.1 == k)).map (·.2)

/-- The association list with the key's value set, the keys kept in rising order. -/
def assocSet {α : Type} (l : List (Nat × α)) (k : Nat) (v : α) : List (Nat × α) :=
  match l with
  | [] => [(k, v)]
  | p :: ps => if k < p.1 then (k, v) :: p :: ps else if k = p.1 then (k, v) :: ps else p :: assocSet ps k v

/-- The association list without the key. -/
def assocDel {α : Type} (l : List (Nat × α)) (k : Nat) : List (Nat × α) := l.filter (fun p => !(p.1 == k))

/-- The integer nearest to a / b (halves away from zero), for b > 0. -/
def roundDiv (a : Int) (b : Nat) : Int :=
  if a < 0 then -(((a.natAbs * 2 + b) / (2 * b) : Nat) : Int) else ((a.natAbs * 2 + b) / (2 * b) : Nat)

/-- The whole square root of n, found bit by bit from 2 ^ k down. -/
def sqrtFrom : Nat → Nat → Nat → Nat
  | 0, r, n => if (r + 1) * (r + 1) ≤ n then r + 1 else r
  | k + 1, r, n => sqrtFrom k (if (r + 2 ^ (k + 1)) * (r + 2 ^ (k + 1)) ≤ n then r + 2 ^ (k + 1) else r) n

/-- The whole square root of a number below 2 ^ 128. -/
def natSqrt (n : Nat) : Nat := sqrtFrom 64 0 n

end Sys2Proof.Machine
end

