-- ==== Sys2Proof/Machine/Registers.lean ====
section
/-! DEFINITION. The parameter words of the spec's parameter tables (R24-R29): for every word its place, its fields'
bits, access codes and reset values, and the raw values each writable field admits. A field the tables call "RO" with
reset 0 has no entry: it reads what the machine keeps in the word and a write does not touch it. A reset of FW, per part,
fuses or strap stands as 0 (R29 and notes/assumptions/3.md). Each list is one block of R26's table; the tables are those of
the spec files named beside them. -/
namespace Sys2Proof.Machine

/-- The access codes of R27. -/
inductive Access where
  | rw | ro | rc | w1c | wo | rws | rwl
  deriving DecidableEq, Repr

/-- One field of a parameter word: its lowest bit, width, access code (R27), reset value (R29), and the raw intervals a
write may hold (empty: every value). -/
structure RegField where
  lo : Nat
  width : Nat
  acc : Access
  reset : Nat
  ok : List (Nat × Nat)
  deriving DecidableEq, Repr

/-- One row of a parameter table: the instances (first, count) that define it, the indices first, first + stride, …, its
fields, and the mask of the bits whose reset the table gives as FW (R29). -/
structure RegRow where
  name : String
  insts : List (Nat × Nat)
  first : Nat
  count : Nat
  stride : Nat
  fields : List RegField
  fw : Nat
  deriving DecidableEq, Repr

/-- The shelfmark of R24 as a number: block in bits 31:24, instance in bits 21:12, index in bits 8:0. -/
def shelf (block inst index : Nat) : Nat := block * 0x1000000 + inst * 0x1000 + index

/-- Block 0x00 (DEV): 03_startup_images.md. -/
def rowsDev0 : List RegRow := [
  ⟨"DEV_ID", [(0x0, 1)], 0x0, 1, 1, [⟨32, 16, .ro, 0, []⟩, ⟨0, 32, .ro, 0x4480, []⟩], 0⟩,
  ⟨"DEV_UID", [(0x0, 1)], 0x1, 1, 1, [⟨0, 64, .ro, 0, []⟩], 0⟩,
  ⟨"DEV_STATE", [(0x0, 1)], 0x2, 1, 1, [], 0⟩,
  ⟨"DEV_READY", [(0x0, 1)], 0x3, 1, 1, [], 0⟩,
  ⟨"DEV_TD_LEVEL", [(0x0, 1)], 0x4, 1, 1, [], 0⟩,
  ⟨"DEV_PORT_READY_LO", [(0x0, 1)], 0x5, 1, 1, [], 0⟩,
  ⟨"DEV_PORT_READY_HI", [(0x0, 1)], 0x6, 1, 1, [], 0⟩,
  ⟨"DEV_LANE_READY_HL", [(0x0, 1)], 0x7, 1, 1, [], 0⟩,
  ⟨"DEV_LANE_READY_EL", [(0x0, 1)], 0x8, 1, 1, [], 0⟩,
  ⟨"DEV_RESET", [(0x0, 1)], 0x9, 1, 1, [⟨0, 16, .wo, 0, [(160, 160), (192, 192)]⟩], 0⟩,
  ⟨"DEV_WARM_KEEP", [(0x0, 1)], 0xA, 1, 1, [⟨0, 1, .rws, 0, []⟩], 0⟩,
  ⟨"DEV_RESET_CAUSE", [(0x0, 1)], 0xB, 1, 1, [], 0⟩]

/-- Block 0x00 (DEV): 03_startup_images.md. -/
def rowsDev1 : List RegRow := [
  ⟨"DEV_STRAPS", [(0x0, 1)], 0xC, 1, 1, [⟨0, 1, .ro, 0, []⟩], 0⟩]

/-- All rows of block 0x00 (DEV). -/
def rowsDev : List RegRow := rowsDev0 ++ rowsDev1

/-- Block 0x01 (PWR): 03_startup_images.md. -/
def rowsPwr0 : List RegRow := [
  ⟨"PWR_STATE", [(0x0, 1)], 0x0, 1, 1, [⟨0, 32, .ro, 2, []⟩], 0⟩,
  ⟨"PWR_BOOT_ON", [(0x0, 1)], 0x1, 1, 1, [⟨0, 16, .rws, 0, []⟩], 0xffff⟩,
  ⟨"PWR_PLAN_P", [(0x0, 1)], 0x100, 80, 1, [], 0⟩]

/-- All rows of block 0x01 (PWR). -/
def rowsPwr : List RegRow := rowsPwr0

/-- Block 0x02 (CLK): 01_architecture.md. -/
def rowsClk0 : List RegRow := [
  ⟨"CLK_ISL_INFO", [(0x0, 22)], 0x0, 1, 1, [⟨16, 8, .ro, 0, []⟩, ⟨0, 8, .ro, 0, []⟩], 0⟩,
  ⟨"CLK_ISL_STATUS", [(0x0, 22)], 0x1, 1, 1, [⟨2, 1, .ro, 1, []⟩], 0⟩,
  ⟨"CLK_ISL_FREQ_HZ", [(0x0, 22)], 0x2, 1, 1, [], 0⟩,
  ⟨"CLK_ISL_XING_ERR", [(0x0, 22)], 0x3, 1, 1, [⟨0, 32, .rc, 0, []⟩], 0⟩,
  ⟨"CLK_ISL_LOCK_LOSS", [(0x0, 22)], 0x4, 1, 1, [⟨0, 32, .rc, 0, []⟩], 0⟩]

/-- All rows of block 0x02 (CLK). -/
def rowsClk : List RegRow := rowsClk0

/-- Block 0x03 (FW): 03_startup_images.md. -/
def rowsFw0 : List RegRow := [
  ⟨"FW_OP_RUN", [(0x0, 1)], 0x0, 1, 1, [⟨48, 8, .ro, 0xff, []⟩], 0⟩,
  ⟨"FW_TIME_RUN", [(0x0, 1)], 0x1, 1, 1, [⟨48, 8, .ro, 0xff, []⟩], 0⟩,
  ⟨"FW_BOOT_RESULT", [(0x0, 1)], 0x2, 1, 1, [], 0⟩,
  ⟨"FW_PRIMARY", [(0x0, 1)], 0x3, 1, 1, [], 0⟩,
  ⟨"FW_TRIAL_S", [(0x0, 1)], 0x4, 1, 1, [⟨0, 32, .rw, 0x258, [(60, 86400)]⟩], 0⟩,
  ⟨"FW_COLD_BOOTS", [(0x0, 1)], 0x5, 1, 1, [], 0⟩,
  ⟨"FW_KEY_STATUS", [(0x0, 1)], 0x6, 1, 1, [⟨4, 4, .ro, 0, []⟩, ⟨0, 4, .ro, 0, []⟩], 0⟩]

/-- All rows of block 0x03 (FW). -/
def rowsFw : List RegRow := rowsFw0

/-- Block 0x04 (CMD): 02_mivik_control.md. -/
def rowsCmd0 : List RegRow := [
  ⟨"CMD_CMDR_BASE", [(0x0, 1)], 0x0, 1, 1, [⟨12, 52, .rw, 0, []⟩], 0⟩,
  ⟨"CMD_CMDR_CTRL", [(0x0, 1)], 0x1, 1, 1, [⟨31, 1, .rw, 0, []⟩, ⟨0, 4, .rw, 0, []⟩], 0⟩,
  ⟨"CMD_DB_CMD", [(0x0, 1)], 0x2, 1, 1, [⟨0, 16, .wo, 0, []⟩], 0⟩,
  ⟨"CMD_CMDR_CONS", [(0x0, 1)], 0x3, 1, 1, [], 0⟩,
  ⟨"CMD_RPLR_BASE", [(0x0, 1)], 0x8, 1, 1, [⟨12, 52, .rw, 0, []⟩], 0⟩,
  ⟨"CMD_RPLR_CTRL", [(0x0, 1)], 0x9, 1, 1, [⟨31, 1, .rw, 0, []⟩, ⟨0, 4, .rw, 0, []⟩], 0⟩,
  ⟨"CMD_DB_RPL", [(0x0, 1)], 0xA, 1, 1, [⟨0, 16, .wo, 0, []⟩], 0⟩,
  ⟨"CMD_RPLR_PROD", [(0x0, 1)], 0xB, 1, 1, [], 0⟩,
  ⟨"CMD_EVTR_BASE", [(0x0, 1)], 0x10, 1, 1, [⟨12, 52, .rw, 0, []⟩], 0⟩,
  ⟨"CMD_EVTR_CTRL", [(0x0, 1)], 0x11, 1, 1, [⟨31, 1, .rw, 0, []⟩, ⟨0, 4, .rw, 0, []⟩], 0⟩,
  ⟨"CMD_DB_EVT", [(0x0, 1)], 0x12, 1, 1, [⟨0, 16, .wo, 0, []⟩], 0⟩,
  ⟨"CMD_EVTR_PROD", [(0x0, 1)], 0x13, 1, 1, [], 0⟩]

/-- Block 0x04 (CMD): 02_mivik_control.md. -/
def rowsCmd1 : List RegRow := [
  ⟨"CMD_HOST_STATUS", [(0x0, 1)], 0x18, 1, 1, [⟨1, 1, .w1c, 0, []⟩, ⟨0, 1, .w1c, 0, []⟩], 0⟩,
  ⟨"CMD_EVT_LOST", [(0x0, 1)], 0x19, 1, 1, [⟨0, 32, .rc, 0, []⟩], 0⟩,
  ⟨"CMD_PCIE_MARKER_ERR", [(0x0, 1)], 0x1A, 1, 1, [⟨0, 32, .rc, 0, []⟩], 0⟩,
  ⟨"CMD_SB_FRAMING_ERR", [(0x1, 1)], 0x0, 1, 1, [⟨0, 32, .rc, 0, []⟩], 0⟩,
  ⟨"CMD_SB_EVT_MASK", [(0x1, 1)], 0x1, 1, 1, [⟨0, 64, .rw, 0, []⟩], 0xffffffffffffffff⟩,
  ⟨"CMD_SB_EVT_LOST", [(0x1, 1)], 0x2, 1, 1, [⟨0, 32, .rc, 0, []⟩], 0⟩,
  ⟨"CMD_LEASE_OWNER_LO", [(0x2, 1)], 0x0, 1, 1, [⟨0, 64, .ro, 0, []⟩], 0⟩,
  ⟨"CMD_LEASE_OWNER_HI", [(0x2, 1)], 0x1, 1, 1, [⟨0, 64, .ro, 0, []⟩], 0⟩,
  ⟨"CMD_SB_GRANT", [(0x2, 1)], 0x2, 1, 1, [⟨0, 64, .rws, 0, []⟩], 0xffffffffffffffff⟩,
  ⟨"CMD_HOST_SILENCE_MS", [(0x2, 1)], 0x3, 1, 1, [⟨0, 16, .rw, 0xfa, [(10, 60000)]⟩], 0⟩,
  ⟨"CMD_SB_SILENCE_MS", [(0x2, 1)], 0x4, 1, 1, [⟨0, 16, .rw, 0xfa, [(10, 60000)]⟩], 0⟩,
  ⟨"CMD_HOST_IDLE_MS", [(0x2, 1)], 0x5, 1, 1, [], 0⟩]

/-- Block 0x04 (CMD): 02_mivik_control.md. -/
def rowsCmd2 : List RegRow := [
  ⟨"CMD_SB_IDLE_MS", [(0x2, 1)], 0x6, 1, 1, [], 0⟩,
  ⟨"CMD_BAR0_LEASE_DROP", [(0x2, 1)], 0x7, 1, 1, [⟨0, 32, .rc, 0, []⟩], 0⟩,
  ⟨"CMD_INBAND_PORTS_LO", [(0x2, 1)], 0x8, 1, 1, [⟨0, 64, .rw, 0, []⟩], 0xffffffffffffffff⟩,
  ⟨"CMD_INBAND_PORTS_HI", [(0x2, 1)], 0x9, 1, 1, [⟨0, 16, .rw, 0, []⟩], 0xffff⟩,
  ⟨"CMD_INBAND_MAC", [(0x2, 1)], 0xA, 1, 1, [⟨0, 48, .rw, 0, []⟩], 0xffffffffffff⟩,
  ⟨"CMD_INBAND_DROP", [(0x2, 1)], 0xB, 1, 1, [⟨0, 32, .rc, 0, []⟩], 0⟩,
  ⟨"CMD_BAR0_REFUSED", [(0x2, 1)], 0xC, 1, 1, [⟨0, 32, .rc, 0, []⟩], 0⟩,
  ⟨"P80_RING_BASE", [(0x3, 1)], 0x0, 10, 8, [⟨12, 52, .rw, 0, []⟩], 0⟩,
  ⟨"P80_RING_CTRL", [(0x3, 1)], 0x1, 10, 8, [⟨31, 1, .rw, 0, []⟩, ⟨24, 4, .rw, 0, []⟩, ⟨4, 20, .rw, 0, []⟩, ⟨0, 4, .rw, 0, []⟩], 0⟩,
  ⟨"P80_RING_DB", [(0x3, 1)], 0x2, 10, 8, [⟨0, 16, .wo, 0, []⟩], 0⟩,
  ⟨"P80_RING_DEV", [(0x3, 1)], 0x3, 10, 8, [], 0⟩,
  ⟨"P80_RX_TRUNC", [(0x3, 1)], 0x50, 1, 1, [⟨0, 32, .rc, 0, []⟩], 0⟩]

/-- All rows of block 0x04 (CMD). -/
def rowsCmd : List RegRow := rowsCmd0 ++ rowsCmd1 ++ rowsCmd2

/-- Block 0x05 (SEC): 02_mivik_control.md. -/
def rowsSec0 : List RegRow := [
  ⟨"SEC_CTRL", [(0x0, 1)], 0x0, 1, 1, [⟨1, 1, .rwl, 0, []⟩, ⟨0, 1, .rw, 0, []⟩], 0x2⟩,
  ⟨"SEC_KEY_VALID", [(0x0, 1)], 0x1, 1, 1, [⟨0, 4, .ro, 0, []⟩], 0xf⟩,
  ⟨"SEC_KEY_W", [(0x0, 1)], 0x10, 16, 1, [⟨0, 64, .wo, 0, []⟩], 0xffffffffffffffff⟩,
  ⟨"SEC_AUTH_FAIL", [(0x0, 1)], 0x20, 1, 1, [⟨32, 16, .rc, 0, []⟩, ⟨16, 16, .rc, 0, []⟩, ⟨0, 16, .rc, 0, []⟩], 0⟩,
  ⟨"SEC_SESSION_NUM", [(0x0, 1)], 0x21, 1, 1, [], 0⟩]

/-- All rows of block 0x05 (SEC). -/
def rowsSec : List RegRow := rowsSec0

/-- Block 0x08 (HLANE): 04_serial_lanes.md. -/
def rowsHlane0 : List RegRow := [
  ⟨"HLANE_MODE", [(0x0, 32)], 0x0, 1, 1, [], 0⟩,
  ⟨"HLANE_CFG", [(0x0, 32)], 0x1, 1, 1, [⟨10, 1, .rw, 0, []⟩, ⟨9, 1, .rw, 0, []⟩, ⟨8, 1, .rw, 0, []⟩, ⟨7, 1, .rw, 0, []⟩, ⟨6, 1, .rw, 0, []⟩, ⟨5, 1, .rw, 0, []⟩, ⟨3, 2, .rw, 0, []⟩], 0x7e0⟩,
  ⟨"HLANE_TXEQ", [(0x0, 32)], 0x2, 1, 1, [⟨24, 8, .rw, 0, []⟩, ⟨16, 8, .rw, 0, []⟩, ⟨8, 8, .rw, 0, []⟩, ⟨0, 8, .rw, 0, []⟩], 0xffffffff⟩,
  ⟨"HLANE_CTLE", [(0x0, 32)], 0x3, 1, 1, [⟨8, 2, .rw, 0, [(0, 2)]⟩, ⟨0, 4, .rw, 0, []⟩], 0x30f⟩,
  ⟨"HLANE_CTLE_STATUS", [(0x0, 32)], 0x4, 1, 1, [], 0⟩,
  ⟨"HLANE_STATE", [(0x0, 32)], 0x5, 1, 1, [], 0⟩,
  ⟨"HLANE_RESTART", [(0x0, 32)], 0x6, 1, 1, [⟨1, 1, .wo, 0, []⟩, ⟨0, 1, .wo, 0, []⟩], 0⟩,
  ⟨"HLANE_LOCK_RX", [(0x0, 32)], 0x8, 1, 1, [], 0⟩,
  ⟨"HLANE_RX_VAR", [(0x0, 32)], 0x9, 1, 1, [], 0⟩,
  ⟨"HLANE_LOCK_TX", [(0x0, 32)], 0xA, 1, 1, [], 0⟩,
  ⟨"HLANE_LOCK_CNT", [(0x0, 32)], 0xB, 1, 1, [⟨32, 32, .rc, 0, []⟩, ⟨0, 32, .rc, 0, []⟩], 0⟩,
  ⟨"HLANE_SLEEP_CNT", [(0x0, 32)], 0xC, 1, 1, [⟨32, 32, .rc, 0, []⟩, ⟨0, 32, .rc, 0, []⟩], 0⟩]

/-- Block 0x08 (HLANE): 04_serial_lanes.md. -/
def rowsHlane1 : List RegRow := [
  ⟨"HLANE_EYE", [(0x0, 32)], 0x10, 1, 1, [], 0⟩,
  ⟨"HLANE_SNR", [(0x0, 32)], 0x11, 1, 1, [], 0⟩,
  ⟨"HLANE_MARGIN_CTRL", [(0x0, 32)], 0x12, 1, 1, [⟨4, 1, .rw, 0, []⟩, ⟨0, 4, .rw, 9, [(6, 12)]⟩], 0⟩,
  ⟨"HLANE_MARGIN_RES", [(0x0, 32)], 0x13, 1, 1, [], 0⟩,
  ⟨"HLANE_DDMTD_RX", [(0x0, 32)], 0x18, 1, 1, [], 0⟩,
  ⟨"HLANE_DDMTD_TX", [(0x0, 32)], 0x19, 1, 1, [], 0⟩,
  ⟨"HLANE_DDMTD_RATE", [(0x0, 32)], 0x1A, 1, 1, [], 0⟩,
  ⟨"HLANE_DDMTD_STATUS", [(0x0, 32)], 0x1B, 1, 1, [⟨16, 16, .rc, 0, []⟩, ⟨0, 16, .rc, 0, []⟩], 0⟩]

/-- All rows of block 0x08 (HLANE). -/
def rowsHlane : List RegRow := rowsHlane0 ++ rowsHlane1

/-- Block 0x09 (ELANE): 04_serial_lanes.md. -/
def rowsElane0 : List RegRow := [
  ⟨"ELANE_MODE", [(0x0, 48)], 0x0, 1, 1, [], 0⟩,
  ⟨"ELANE_CFG", [(0x0, 48)], 0x1, 1, 1, [⟨10, 1, .rw, 0, []⟩, ⟨9, 1, .rw, 0, []⟩, ⟨8, 1, .rw, 0, []⟩, ⟨7, 1, .rw, 0, []⟩, ⟨3, 2, .rw, 0, []⟩], 0x780⟩,
  ⟨"ELANE_TXEQ", [(0x0, 48)], 0x2, 1, 1, [⟨16, 8, .rw, 0, []⟩, ⟨8, 8, .rw, 0, []⟩, ⟨0, 8, .rw, 0, []⟩], 0xffffff⟩,
  ⟨"ELANE_CTLE", [(0x0, 48)], 0x3, 1, 1, [⟨8, 2, .rw, 0, [(0, 2)]⟩, ⟨0, 4, .rw, 0, [(0, 11)]⟩], 0x30f⟩,
  ⟨"ELANE_CTLE_STATUS", [(0x0, 48)], 0x4, 1, 1, [], 0⟩,
  ⟨"ELANE_STATE", [(0x0, 48)], 0x5, 1, 1, [], 0⟩,
  ⟨"ELANE_RESTART", [(0x0, 48)], 0x6, 1, 1, [⟨1, 1, .wo, 0, []⟩, ⟨0, 1, .wo, 0, []⟩], 0⟩,
  ⟨"ELANE_LOCK_RX", [(0x0, 48)], 0x8, 1, 1, [], 0⟩,
  ⟨"ELANE_RX_VAR", [(0x0, 48)], 0x9, 1, 1, [], 0⟩,
  ⟨"ELANE_LOCK_TX", [(0x0, 48)], 0xA, 1, 1, [], 0⟩,
  ⟨"ELANE_LOCK_CNT", [(0x0, 48)], 0xB, 1, 1, [⟨32, 32, .rc, 0, []⟩, ⟨0, 32, .rc, 0, []⟩], 0⟩,
  ⟨"ELANE_SLEEP_CNT", [(0x0, 48)], 0xC, 1, 1, [⟨32, 32, .rc, 0, []⟩, ⟨0, 32, .rc, 0, []⟩], 0⟩]

/-- Block 0x09 (ELANE): 04_serial_lanes.md. -/
def rowsElane1 : List RegRow := [
  ⟨"ELANE_EYE", [(0x0, 48)], 0x10, 1, 1, [], 0⟩,
  ⟨"ELANE_SNR", [(0x0, 48)], 0x11, 1, 1, [], 0⟩,
  ⟨"ELANE_MARGIN_CTRL", [(0x0, 48)], 0x12, 1, 1, [⟨4, 1, .rw, 0, []⟩, ⟨0, 4, .rw, 9, [(6, 12)]⟩], 0⟩,
  ⟨"ELANE_MARGIN_RES", [(0x0, 48)], 0x13, 1, 1, [], 0⟩,
  ⟨"ELANE_DDMTD_RX", [(0x0, 48)], 0x18, 1, 1, [], 0⟩,
  ⟨"ELANE_DDMTD_TX", [(0x0, 48)], 0x19, 1, 1, [], 0⟩,
  ⟨"ELANE_DDMTD_RATE", [(0x0, 48)], 0x1A, 1, 1, [], 0⟩,
  ⟨"ELANE_DDMTD_STATUS", [(0x0, 48)], 0x1B, 1, 1, [⟨16, 16, .rc, 0, []⟩, ⟨0, 16, .rc, 0, []⟩], 0⟩]

/-- All rows of block 0x09 (ELANE). -/
def rowsElane : List RegRow := rowsElane0 ++ rowsElane1

/-- Block 0x0A (PCS): 11_link_phase.md. -/
def rowsPcs0 : List RegRow := [
  ⟨"PCS_LINK_CFG", [(0x0, 80)], 0x0, 1, 1, [⟨32, 1, .rw, 0, []⟩, ⟨0, 32, .rw, 0x3e8, [(10, 1000000)]⟩], 0⟩,
  ⟨"PCS_LINK_ASYM_COEFF", [(0x0, 80)], 0x1, 1, 1, [⟨0, 32, .rw, 0, []⟩], 0xffffffff⟩,
  ⟨"PCS_LINK_ASYM_CONST", [(0x0, 80)], 0x2, 1, 1, [⟨0, 64, .rw, 0, [(0, 655360000), (18446744073054191616, 18446744073709551615)]⟩], 0xffffffffffffffff⟩,
  ⟨"PCS_LINK_RX_FIX", [(0x0, 80)], 0x3, 1, 1, [⟨0, 64, .ro, 0, []⟩], 0⟩,
  ⟨"PCS_LINK_TX_FIX", [(0x0, 80)], 0x4, 1, 1, [⟨0, 64, .ro, 0, []⟩], 0⟩,
  ⟨"PCS_LINK_RX_DELAY", [(0x0, 80)], 0x5, 1, 1, [], 0⟩,
  ⟨"PCS_LINK_TX_DELAY", [(0x0, 80)], 0x6, 1, 1, [], 0⟩,
  ⟨"PCS_LINK_STATE", [(0x0, 80)], 0x7, 1, 1, [], 0⟩,
  ⟨"PCS_LINK_CTRL", [(0x0, 80)], 0x8, 1, 1, [⟨1, 1, .wo, 0, []⟩, ⟨0, 1, .wo, 0, []⟩], 0⟩,
  ⟨"PCS_LINK_T_IN", [(0x0, 80)], 0x9, 1, 1, [], 0⟩,
  ⟨"PCS_LINK_T_OUT", [(0x0, 80)], 0xA, 1, 1, [], 0⟩,
  ⟨"PCS_LINK_LAST", [(0x0, 80)], 0xB, 1, 1, [], 0⟩]

/-- Block 0x0A (PCS): 11_link_phase.md. -/
def rowsPcs1 : List RegRow := [
  ⟨"PCS_LINK_CNT", [(0x0, 80)], 0xC, 1, 1, [⟨32, 32, .rc, 0, []⟩, ⟨16, 16, .rc, 0, []⟩, ⟨0, 16, .rc, 0, []⟩], 0⟩]

/-- All rows of block 0x0A (PCS). -/
def rowsPcs : List RegRow := rowsPcs0 ++ rowsPcs1

/-- Block 0x0C (MAC): 05_ports_mac.md. -/
def rowsMac0 : List RegRow := [
  ⟨"MAC_PORT_TYPE", [(0x0, 83)], 0x0, 1, 1, [⟨0, 8, .rw, 0, []⟩], 0xff⟩,
  ⟨"MAC_CFG", [(0x0, 83)], 0x1, 1, 1, [⟨8, 3, .rw, 0, [(0, 4)]⟩, ⟨4, 1, .rw, 1, []⟩, ⟨3, 1, .rw, 1, []⟩, ⟨2, 1, .rw, 0, []⟩, ⟨1, 1, .rw, 1, []⟩, ⟨0, 1, .rw, 1, []⟩], 0⟩,
  ⟨"MAC_MAX_FRAME", [(0x0, 83)], 0x2, 1, 1, [⟨0, 14, .rw, 0x5f2, [(64, 16000)]⟩], 0⟩,
  ⟨"MAC_LINK_STATUS", [(0x0, 80)], 0x3, 1, 1, [], 0⟩,
  ⟨"MAC_MERGE_CFG", [(0x0, 80)], 0x4, 1, 1, [⟨24, 4, .rw, 3, [(1, 15)]⟩, ⟨16, 8, .rw, 0xa, [(1, 128)]⟩, ⟨8, 2, .rw, 0, []⟩, ⟨1, 1, .rw, 0, []⟩, ⟨0, 1, .rw, 0, []⟩], 0⟩,
  ⟨"MAC_MERGE_STATUS", [(0x0, 80)], 0x5, 1, 1, [], 0⟩,
  ⟨"MAC_LPI_IDLE_US", [(0x0, 80)], 0x6, 1, 1, [⟨0, 20, .rw, 0x64, [(1, 1000000)]⟩], 0⟩,
  ⟨"MAC_STEP_CFG", [(0x0, 80)], 0x7, 1, 1, [⟨32, 16, .rw, 0x100, [(1, 65535)]⟩, ⟨24, 8, .rw, 0x50, [(1, 100)]⟩, ⟨16, 8, .rw, 0x14, [(1, 100)]⟩, ⟨0, 16, .rw, 0x3c, [(1, 3600)]⟩], 0⟩,
  ⟨"MAC_STEP_STATUS", [(0x0, 80)], 0x8, 1, 1, [], 0⟩,
  ⟨"MAC_STEP_TLV", [(0x0, 1)], 0x10, 1, 1, [⟨8, 24, .rw, 0, []⟩, ⟨0, 8, .rw, 0, []⟩], 0xffffffff⟩]

/-- All rows of block 0x0C (MAC). -/
def rowsMac : List RegRow := rowsMac0

/-- Block 0x0D (PAUSE): 05_ports_mac.md. -/
def rowsPause0 : List RegRow := [
  ⟨"PAUSE_CFG", [(0x0, 80)], 0x0, 1, 1, [⟨16, 8, .rw, 0, []⟩, ⟨8, 8, .rw, 0, []⟩, ⟨1, 1, .rw, 0, []⟩, ⟨0, 1, .rw, 0, []⟩], 0⟩,
  ⟨"PAUSE_WD", [(0x0, 80)], 0x1, 1, 1, [⟨16, 16, .rw, 0x3e8, [(1, 60000)]⟩, ⟨0, 16, .rw, 0xa, [(1, 10000)]⟩], 0⟩,
  ⟨"PFC_QUANTA", [(0x0, 80)], 0x2, 1, 1, [⟨0, 16, .rw, 0xffff, [(1, 65535)]⟩], 0⟩,
  ⟨"PFC_WM_p", [(0x0, 80)], 0x10, 7, 1, [⟨32, 18, .rw, 0x3ffff, []⟩, ⟨0, 18, .rw, 0x3fffe, []⟩], 0⟩,
  ⟨"PAUSE_STATUS", [(0x0, 80)], 0x20, 1, 1, [], 0⟩]

/-- All rows of block 0x0D (PAUSE). -/
def rowsPause : List RegRow := rowsPause0

/-- Block 0x0E (STAT): 05_ports_mac.md. -/
def rowsStat0 : List RegRow := [
  ⟨"STAT_RX_FRAMES_OK", [(0x0, 83), (0x80, 83), (0x100, 83)], 0x0, 1, 1, [], 0⟩,
  ⟨"STAT_RX_OCTETS_OK", [(0x0, 83), (0x80, 83), (0x100, 83)], 0x1, 1, 1, [], 0⟩,
  ⟨"STAT_RX_UCAST", [(0x0, 83), (0x80, 83), (0x100, 83)], 0x2, 3, 1, [], 0⟩,
  ⟨"STAT_RX_PAUSE", [(0x0, 83), (0x80, 83), (0x100, 83)], 0x5, 1, 1, [], 0⟩,
  ⟨"STAT_RX_PFC", [(0x0, 83), (0x80, 83), (0x100, 83)], 0x6, 1, 1, [], 0⟩,
  ⟨"STAT_RX_FCS_ERR", [(0x0, 83), (0x80, 83), (0x100, 83)], 0x7, 6, 1, [], 0⟩,
  ⟨"STAT_RX_L3_CSUM_ERR", [(0x0, 83), (0x80, 83), (0x100, 83)], 0xD, 2, 1, [], 0⟩,
  ⟨"STAT_RX_ERR_DELIVERED", [(0x0, 83), (0x80, 83), (0x100, 83)], 0xF, 1, 1, [], 0⟩,
  ⟨"STAT_RX_LEN_k", [(0x0, 83), (0x80, 83), (0x100, 83)], 0x10, 10, 1, [], 0⟩,
  ⟨"STAT_TX_FRAMES_OK", [(0x0, 83), (0x80, 83), (0x100, 83)], 0x20, 2, 1, [], 0⟩,
  ⟨"STAT_TX_UCAST", [(0x0, 83), (0x80, 83), (0x100, 83)], 0x22, 3, 1, [], 0⟩,
  ⟨"STAT_TX_PAUSE", [(0x0, 83), (0x80, 83), (0x100, 83)], 0x25, 2, 1, [], 0⟩]

/-- Block 0x0E (STAT): 05_ports_mac.md. -/
def rowsStat1 : List RegRow := [
  ⟨"STAT_TX_STOMPED", [(0x0, 83), (0x80, 83), (0x100, 83)], 0x27, 1, 1, [], 0⟩,
  ⟨"STAT_TX_OVERSIZE_DROP", [(0x0, 83), (0x80, 83), (0x100, 83)], 0x28, 2, 1, [], 0⟩,
  ⟨"STAT_TX_PREEMPTED", [(0x0, 83), (0x80, 83), (0x100, 83)], 0x2A, 2, 1, [], 0⟩,
  ⟨"STAT_RX_FRAGMENTS", [(0x0, 83), (0x80, 83), (0x100, 83)], 0x2C, 2, 1, [], 0⟩,
  ⟨"STAT_TX_HOST_REJECT", [(0x0, 83), (0x80, 83), (0x100, 83)], 0x2E, 2, 1, [], 0⟩,
  ⟨"STAT_RX_PFC_XOFF_p", [(0x0, 83), (0x80, 83), (0x100, 83)], 0x30, 7, 1, [], 0⟩,
  ⟨"STAT_TX_PFC_XOFF_p", [(0x0, 83), (0x80, 83), (0x100, 83)], 0x38, 7, 1, [], 0⟩,
  ⟨"STAT_PAUSE_WD_TRIPS", [(0x0, 83), (0x80, 83), (0x100, 83)], 0x40, 2, 1, [], 0⟩,
  ⟨"STAT_FEC_CORR_CW", [(0x0, 83), (0x80, 83), (0x100, 83)], 0x42, 3, 1, [], 0⟩,
  ⟨"STAT_PCS_ERR_BLOCKS", [(0x0, 83), (0x80, 83), (0x100, 83)], 0x45, 1, 1, [], 0⟩,
  ⟨"STAT_LINK_DOWN", [(0x0, 83), (0x80, 83), (0x100, 83)], 0x46, 1, 1, [], 0⟩,
  ⟨"STAT_INTERNAL_DROP", [(0x0, 83), (0x80, 83), (0x100, 83)], 0x47, 1, 1, [], 0⟩]

/-- Block 0x0E (STAT): 05_ports_mac.md. -/
def rowsStat2 : List RegRow := [
  ⟨"STAT_SPEED_STEPS", [(0x0, 83), (0x80, 83), (0x100, 83)], 0x48, 1, 1, [], 0⟩,
  ⟨"STAT_TX_LPI_ENTRIES", [(0x0, 83), (0x80, 83), (0x100, 83)], 0x49, 2, 1, [], 0⟩,
  ⟨"STAT_TX_Q_FRAMES_q", [(0x0, 83), (0x80, 83), (0x100, 83)], 0x50, 8, 1, [], 0⟩,
  ⟨"STAT_Q_DROP_ADMIT_q", [(0x0, 83), (0x80, 83), (0x100, 83)], 0x58, 8, 1, [], 0⟩,
  ⟨"STAT_Q_DROP_AGE_q", [(0x0, 83), (0x80, 83), (0x100, 83)], 0x60, 8, 1, [], 0⟩,
  ⟨"STAT_Q_DROP_ECC_q", [(0x0, 83), (0x80, 83), (0x100, 83)], 0x68, 5, 1, [], 0⟩,
  ⟨"STAT_SNAP0_INFO", [(0x3FF, 1)], 0x0, 1, 1, [], 0⟩,
  ⟨"STAT_SNAP0_TIME", [(0x3FF, 1)], 0x1, 2, 1, [], 0⟩,
  ⟨"STAT_SNAP1_INFO", [(0x3FF, 1)], 0x4, 1, 1, [], 0⟩,
  ⟨"STAT_SNAP1_TIME", [(0x3FF, 1)], 0x5, 2, 1, [], 0⟩]

/-- All rows of block 0x0E (STAT). -/
def rowsStat : List RegRow := rowsStat0 ++ rowsStat1 ++ rowsStat2

/-- Block 0x10 (CAT): 06_forwarding_epochs.md. -/
def rowsCat0 : List RegRow := [
  ⟨"CAT_CFG", [(0x0, 1)], 0x0, 1, 1, [⟨32, 3, .rw, 0, []⟩, ⟨0, 16, .rw, 0x9100, []⟩], 0⟩,
  ⟨"CAT_RTP_PORTS", [(0x0, 1)], 0x1, 1, 1, [⟨16, 16, .rw, 0, []⟩, ⟨0, 16, .rw, 0, []⟩], 0xffffffff⟩,
  ⟨"CAT_PARSE_DEPTH", [(0x0, 1)], 0x2, 1, 1, [⟨0, 32, .rc, 0, []⟩], 0⟩,
  ⟨"CAT_EPOCH_CFG", [(0x0, 1)], 0x8, 1, 1, [⟨32, 16, .rw, 0x3e8, [(1, 60000)]⟩, ⟨0, 17, .rw, 0xfa0, [(2000, 100000)]⟩], 0⟩,
  ⟨"CAT_EPOCH_CURRENT", [(0x0, 1)], 0x9, 1, 1, [], 0⟩,
  ⟨"CAT_EPOCH_STATE", [(0x0, 1)], 0xA, 1, 1, [], 0⟩,
  ⟨"CAT_EPOCH_T", [(0x0, 1)], 0xB, 2, 1, [], 0⟩,
  ⟨"CAT_STAGE_COUNT", [(0x0, 1)], 0xD, 1, 1, [], 0⟩,
  ⟨"CAT_PORT_CFG", [(0x100, 83)], 0x0, 1, 1, [⟨24, 8, .rw, 0, []⟩, ⟨21, 3, .rw, 0, []⟩, ⟨20, 1, .rw, 1, []⟩, ⟨18, 2, .rw, 0, [(0, 2)]⟩, ⟨17, 1, .rw, 1, []⟩, ⟨16, 1, .rw, 0, []⟩, ⟨0, 12, .rw, 1, [(1, 4094)]⟩], 0xff010000⟩,
  ⟨"CAT_HIT", [(0x200, 16)], 0x0, 512, 1, [], 0⟩]

/-- All rows of block 0x10 (CAT). -/
def rowsCat : List RegRow := rowsCat0

/-- Block 0x11 (FDB): 06_forwarding_epochs.md. -/
def rowsFdb0 : List RegRow := [
  ⟨"FDB_AGE_S", [(0x0, 1)], 0x0, 1, 1, [⟨0, 20, .rw, 0x12c, [(10, 1000000)]⟩], 0⟩,
  ⟨"FDB_USED", [(0x0, 1)], 0x1, 1, 1, [], 0⟩,
  ⟨"FDB_LEARN_LOST", [(0x0, 1)], 0x2, 1, 1, [⟨0, 32, .rc, 0, []⟩], 0⟩,
  ⟨"FDB_LEARN_FULL", [(0x0, 1)], 0x3, 1, 1, [⟨0, 32, .rc, 0, []⟩], 0⟩,
  ⟨"FDB_FLUSH", [(0x0, 1)], 0x4, 1, 1, [⟨33, 1, .wo, 0, []⟩, ⟨32, 1, .wo, 0, []⟩, ⟨16, 7, .wo, 0, []⟩, ⟨0, 12, .wo, 0, []⟩], 0⟩]

/-- All rows of block 0x11 (FDB). -/
def rowsFdb : List RegRow := rowsFdb0

/-- Block 0x12 (MCAST): 06_forwarding_epochs.md. -/
def rowsMcast0 : List RegRow := [
  ⟨"MCAST_DROP_LINK", [(0x0, 83)], 0x0, 1, 1, [], 0⟩,
  ⟨"MCAST_DROP_VLAN", [(0x0, 83)], 0x1, 1, 1, [], 0⟩,
  ⟨"MCAST_DROP_POL", [(0x0, 83)], 0x2, 1, 1, [], 0⟩]

/-- All rows of block 0x12 (MCAST). -/
def rowsMcast : List RegRow := rowsMcast0

/-- Block 0x13 (FRER): 09_frer_watch_proof.md. -/
def rowsFrer0 : List RegRow := [
  ⟨"FRER_RCVY_PASSED", [(0x0, 128)], 0x0, 64, 8, [], 0⟩,
  ⟨"FRER_RCVY_DISCARDED", [(0x0, 128)], 0x1, 64, 8, [], 0⟩,
  ⟨"FRER_RCVY_OUT_OF_ORDER", [(0x0, 128)], 0x2, 64, 8, [], 0⟩,
  ⟨"FRER_RCVY_ROGUE", [(0x0, 128)], 0x3, 64, 8, [], 0⟩,
  ⟨"FRER_RCVY_LOST", [(0x0, 128)], 0x4, 64, 8, [], 0⟩,
  ⟨"FRER_RCVY_TAGLESS", [(0x0, 128)], 0x5, 64, 8, [], 0⟩,
  ⟨"FRER_RCVY_RESETS", [(0x0, 128)], 0x6, 64, 8, [], 0⟩,
  ⟨"FRER_RCVY_STATE", [(0x0, 128)], 0x7, 64, 8, [⟨16, 1, .ro, 1, []⟩], 0⟩,
  ⟨"FRER_GEN_SEQ", [(0x100, 32)], 0x0, 512, 1, [], 0⟩,
  ⟨"FRER_PORT_CFG", [(0x200, 80)], 0x0, 1, 1, [⟨8, 4, .rw, 0, []⟩, ⟨4, 4, .rw, 0xa, []⟩, ⟨0, 3, .rw, 4, [(0, 4)]⟩], 0⟩]

/-- All rows of block 0x13 (FRER). -/
def rowsFrer : List RegRow := rowsFrer0

/-- Block 0x14 (POL): 06_forwarding_epochs.md. -/
def rowsPol0 : List RegRow := [
  ⟨"POL_CNT", [(0x0, 32)], 0x0, 512, 1, [⟨32, 32, .rc, 0, []⟩, ⟨0, 32, .rc, 0, []⟩], 0⟩,
  ⟨"POL_SDU", [(0x20, 32)], 0x0, 512, 1, [⟨0, 32, .rc, 0, []⟩], 0⟩]

/-- All rows of block 0x14 (POL). -/
def rowsPol : List RegRow := rowsPol0

/-- Block 0x15 (MIRR): 06_forwarding_epochs.md. -/
def rowsMirr0 : List RegRow := [
  ⟨"MIRR_STATUS", [(0x0, 8)], 0x0, 1, 1, [⟨32, 32, .rc, 0, []⟩], 0⟩,
  ⟨"MIRR_CNT", [(0x0, 8)], 0x1, 1, 1, [⟨32, 32, .rc, 0, []⟩, ⟨0, 32, .rc, 0, []⟩], 0⟩]

/-- All rows of block 0x15 (MIRR). -/
def rowsMirr : List RegRow := rowsMirr0

/-- Block 0x18 (BUF): 07_buffers_stacks.md. -/
def rowsBuf0 : List RegRow := [
  ⟨"BUF_POOL_CFG", [(0x3FF, 1)], 0x0, 1, 1, [⟨32, 16, .rw, 0, [(0, 32768)]⟩, ⟨0, 16, .rw, 0, [(0, 32768)]⟩], 0xffff0000ffff⟩,
  ⟨"BUF_POOL_STATUS", [(0x3FF, 1)], 0x1, 1, 1, [], 0⟩,
  ⟨"BUF_CELLS", [(0x3FF, 1)], 0x2, 1, 1, [], 0⟩,
  ⟨"BUF_LENT", [(0x3FF, 1)], 0x3, 1, 1, [], 0⟩,
  ⟨"BUF_MEM_ERR", [(0x3FF, 1)], 0x4, 1, 1, [⟨32, 32, .rc, 0, []⟩, ⟨0, 32, .rc, 0, []⟩], 0⟩,
  ⟨"BUF_Q_CFG", [(0x0, 83)], 0x0, 8, 1, [⟨60, 4, .rw, 0, [(0, 3), (10, 15)]⟩, ⟨38, 19, .rw, 0, [(1, 262143)]⟩, ⟨0, 19, .rw, 0, []⟩], 0xf1ffffc00007ffff⟩,
  ⟨"BUF_Q_STATUS", [(0x0, 83)], 0x10, 8, 1, [⟨38, 19, .rc, 0, []⟩], 0⟩,
  ⟨"BUF_Q_AGE_US", [(0x0, 83)], 0x20, 8, 1, [⟨0, 24, .rw, 0, [(0, 10000000)]⟩], 0xffffff⟩]

/-- All rows of block 0x18 (BUF). -/
def rowsBuf : List RegRow := rowsBuf0

/-- Block 0x19 (STACK): 07_buffers_stacks.md. -/
def rowsStack0 : List RegRow := [
  ⟨"STACK_CFG", [(0x0, 1)], 0x0, 1, 1, [⟨16, 8, .rw, 0x10, [(1, 255)]⟩, ⟨8, 8, .rw, 0xa, [(1, 255)]⟩, ⟨0, 2, .rw, 0, []⟩], 0x3⟩,
  ⟨"STACK_STATUS", [(0x0, 1)], 0x1, 1, 1, [], 0⟩,
  ⟨"STACK_REFILL_WAIT", [(0x0, 1)], 0x2, 1, 1, [⟨0, 32, .rc, 0, []⟩], 0⟩,
  ⟨"STACK_ABANDONED", [(0x0, 1)], 0x3, 1, 1, [⟨0, 32, .rc, 0, []⟩], 0⟩,
  ⟨"STACK_CH_ORG", [(0x1, 2)], 0x0, 1, 1, [⟨4, 4, .rw, 0, [(0, 2)]⟩, ⟨0, 4, .rw, 0, [(0, 8)]⟩], 0xff⟩,
  ⟨"STACK_CH_STATUS", [(0x1, 2)], 0x1, 1, 1, [], 0⟩,
  ⟨"STACK_CH_PAGES", [(0x1, 2)], 0x2, 1, 1, [], 0⟩,
  ⟨"STACK_CH_ECC", [(0x1, 2)], 0x3, 1, 1, [⟨32, 32, .rc, 0, []⟩, ⟨0, 32, .rc, 0, []⟩], 0⟩,
  ⟨"STACK_CH_RETIRED_N", [(0x1, 2)], 0x4, 1, 1, [], 0⟩,
  ⟨"STACK_CH_TRAIN", [(0x1, 2)], 0x5, 1, 1, [], 0⟩,
  ⟨"STACK_RETIRED", [(0x10, 16)], 0x0, 512, 1, [⟨63, 1, .rws, 0, []⟩, ⟨56, 7, .rws, 0, []⟩, ⟨0, 23, .rws, 0, []⟩], 0⟩,
  ⟨"STACK_Q_CFG", [(0x100, 83)], 0x0, 5, 1, [⟨63, 1, .rw, 0, []⟩, ⟨38, 19, .rw, 0, []⟩, ⟨19, 19, .rw, 0, []⟩, ⟨0, 19, .rw, 0, []⟩], 0x81ffffffffffffff⟩]

/-- Block 0x19 (STACK): 07_buffers_stacks.md. -/
def rowsStack1 : List RegRow := [
  ⟨"STACK_Q_MAX", [(0x100, 83)], 0x8, 5, 1, [⟨0, 23, .rw, 0, [(1, 7340032)]⟩], 0x7fffff⟩,
  ⟨"STACK_Q_STATUS", [(0x100, 83)], 0x10, 5, 1, [], 0⟩]

/-- All rows of block 0x19 (STACK). -/
def rowsStack : List RegRow := rowsStack0 ++ rowsStack1

/-- Block 0x1A (AUDIT): 07_buffers_stacks.md. -/
def rowsAudit0 : List RegRow := [
  ⟨"AUDIT_CFG", [(0x0, 1)], 0x0, 1, 1, [⟨12, 20, .rw, 0x3e8, [(100, 1000000)]⟩, ⟨1, 1, .rw, 1, []⟩, ⟨0, 1, .rw, 1, []⟩], 0⟩,
  ⟨"AUDIT_STATUS", [(0x0, 1)], 0x1, 1, 1, [], 0⟩,
  ⟨"AUDIT_LEAKS", [(0x0, 1)], 0x2, 1, 1, [⟨32, 32, .rc, 0, []⟩, ⟨0, 32, .rc, 0, []⟩], 0⟩,
  ⟨"AUDIT_CROSSLINKS", [(0x0, 1)], 0x3, 1, 1, [⟨0, 32, .rc, 0, []⟩], 0⟩,
  ⟨"AUDIT_COUNT_ERR", [(0x0, 1)], 0x4, 1, 1, [⟨0, 32, .rc, 0, []⟩], 0⟩,
  ⟨"AUDIT_LAST", [(0x0, 1)], 0x5, 1, 1, [], 0⟩]

/-- All rows of block 0x1A (AUDIT). -/
def rowsAudit : List RegRow := rowsAudit0

/-- Block 0x1C (SCHED): 08_queues_gates_latency.md. -/
def rowsSched0 : List RegRow := [
  ⟨"SCHED_CFG", [(0x0, 83)], 0x0, 1, 1, [⟨0, 6, .rw, 0x18, []⟩], 0⟩,
  ⟨"SCHED_DWRR_W", [(0x0, 83)], 0x1, 1, 1, [⟨32, 8, .rw, 0, [(1, 255)]⟩, ⟨24, 8, .rw, 0, [(1, 255)]⟩, ⟨16, 8, .rw, 0, [(1, 255)]⟩, ⟨8, 8, .rw, 0, [(1, 255)]⟩, ⟨0, 8, .rw, 0, [(1, 255)]⟩], 0xffffffffff⟩,
  ⟨"SCHED_SHAPER_q", [(0x0, 83)], 0x8, 5, 1, [⟨32, 32, .rw, 0, [(0, 400000000)]⟩, ⟨0, 20, .rw, 0x3000, [(64, 1048575)]⟩], 0⟩,
  ⟨"SCHED_STATUS", [(0x0, 83)], 0x10, 1, 1, [], 0⟩]

/-- All rows of block 0x1C (SCHED). -/
def rowsSched : List RegRow := rowsSched0

/-- Block 0x1D (GATE): 08_queues_gates_latency.md. -/
def rowsGate0 : List RegRow := [
  ⟨"GATE_CFG", [(0x0, 80)], 0x0, 1, 1, [⟨0, 14, .rw, 0x5f2, [(64, 16000)]⟩], 0⟩,
  ⟨"GATE_STATUS", [(0x0, 80)], 0x1, 1, 1, [⟨0, 8, .ro, 0xff, []⟩], 0⟩,
  ⟨"GATE_ADMIN_INFO", [(0x0, 80)], 0x2, 1, 1, [], 0⟩,
  ⟨"GATE_ADMIN_CYCLE_NS", [(0x0, 80)], 0x3, 1, 1, [], 0⟩,
  ⟨"GATE_ADMIN_BASE", [(0x0, 80)], 0x4, 2, 1, [], 0⟩,
  ⟨"GATE_PEND_START", [(0x0, 80)], 0x6, 2, 1, [], 0⟩,
  ⟨"GATE_ADMIN_WAIT_q", [(0x0, 80)], 0x8, 3, 1, [], 0⟩,
  ⟨"GATE_OPER_INFO", [(0x0, 80)], 0x10, 1, 1, [], 0⟩,
  ⟨"GATE_OPER_BASE", [(0x0, 80)], 0x12, 2, 1, [], 0⟩,
  ⟨"GATE_OPER_START", [(0x0, 80)], 0x14, 2, 1, [], 0⟩,
  ⟨"GATE_OPER_WAIT_q", [(0x0, 80)], 0x18, 3, 1, [], 0⟩,
  ⟨"GATE_JUNCTION_WAIT_q", [(0x0, 80)], 0x1C, 3, 1, [], 0⟩]

/-- Block 0x1D (GATE): 08_queues_gates_latency.md. -/
def rowsGate1 : List RegRow := [
  ⟨"GATE_NOFIT", [(0x0, 80)], 0x20, 1, 1, [⟨0, 32, .rc, 0, []⟩], 0⟩,
  ⟨"GATE_RESTARTS", [(0x0, 80)], 0x21, 1, 1, [⟨0, 32, .rc, 0, []⟩], 0⟩,
  ⟨"GATE_CYCLE_NS", [(0x0, 80)], 0x40, 1, 1, [], 0⟩,
  ⟨"GATE_ENTRY", [(0x100, 160), (0x200, 160)], 0x0, 512, 1, [], 0⟩]

/-- All rows of block 0x1D (GATE). -/
def rowsGate : List RegRow := rowsGate0 ++ rowsGate1

/-- Block 0x1E (QMON): 08_queues_gates_latency.md. -/
def rowsQmon0 : List RegRow := [
  ⟨"QMON_RING_BASE", [(0x0, 1)], 0x0, 1, 1, [⟨12, 52, .rw, 0, []⟩], 0⟩,
  ⟨"QMON_RING_CTRL", [(0x0, 1)], 0x1, 1, 1, [⟨31, 1, .rw, 0, []⟩, ⟨5, 20, .rw, 0, []⟩, ⟨0, 5, .rw, 0, []⟩], 0⟩,
  ⟨"QMON_DB", [(0x0, 1)], 0x2, 1, 1, [⟨0, 32, .wo, 0, []⟩], 0⟩,
  ⟨"QMON_PROD", [(0x0, 1)], 0x3, 1, 1, [], 0⟩,
  ⟨"QMON_PERIOD", [(0x0, 1)], 0x4, 1, 1, [⟨32, 3, .rw, 0, []⟩, ⟨0, 30, .rw, 0xf4240, [(1000, 1000000000)]⟩], 0⟩,
  ⟨"QMON_LOST", [(0x0, 1)], 0x5, 1, 1, [⟨0, 32, .rc, 0, []⟩], 0⟩,
  ⟨"QMON_Q_EN", [(0x100, 83)], 0x0, 1, 1, [⟨0, 8, .rw, 0, []⟩], 0⟩]

/-- All rows of block 0x1E (QMON). -/
def rowsQmon : List RegRow := rowsQmon0

/-- Block 0x20 (TIME): 10_time_ledger_ptp.md. -/
def rowsTime0 : List RegRow := [
  ⟨"TIME_NOW_LO", [(0x0, 8)], 0x0, 1, 1, [], 0⟩,
  ⟨"TIME_NOW_HI", [(0x0, 8)], 0x1, 1, 1, [], 0⟩,
  ⟨"TIME_GEN", [(0x0, 8)], 0x2, 1, 1, [], 0⟩,
  ⟨"TIME_FREQ", [(0x0, 8)], 0x3, 1, 1, [], 0⟩,
  ⟨"TIME_LATE_WINDOW_NS", [(0x0, 8)], 0x4, 1, 1, [⟨0, 24, .rw, 0x186a0, [(0, 10000000)]⟩], 0⟩,
  ⟨"TIME_STEPS", [(0x0, 8)], 0x5, 1, 1, [⟨0, 32, .rc, 0, []⟩], 0⟩,
  ⟨"TIME_LAST_STEP", [(0x0, 8)], 0x6, 1, 1, [], 0⟩,
  ⟨"TIME_LAST_STEP_AT", [(0x0, 8)], 0x7, 2, 1, [], 0⟩,
  ⟨"TIME_SCHED_COUNT", [(0x3FF, 1)], 0x0, 1, 1, [], 0⟩,
  ⟨"TIME_DDMTD_CFG", [(0x3FF, 1)], 0x10, 1, 1, [⟨16, 16, .rw, 0x32, [(10, 1000)]⟩, ⟨0, 4, .rw, 6, [(4, 8)]⟩], 0⟩,
  ⟨"TIME_REPLICA_PHASE", [(0x3FF, 1)], 0x11, 4, 1, [], 0⟩,
  ⟨"TIME_REPLICA_GLITCH", [(0x3FF, 1)], 0x15, 1, 1, [⟨0, 16, .rc, 0, []⟩], 0⟩]

/-- All rows of block 0x20 (TIME). -/
def rowsTime : List RegRow := rowsTime0

/-- Block 0x21 (LEDGER): 10_time_ledger_ptp.md. -/
def rowsLedger0 : List RegRow := [
  ⟨"LEDGER_RING_BASE", [(0x0, 4)], 0x0, 1, 1, [⟨12, 52, .rw, 0, []⟩], 0⟩,
  ⟨"LEDGER_RING_CTRL", [(0x0, 4)], 0x1, 1, 1, [⟨31, 1, .rw, 0, []⟩, ⟨5, 20, .rw, 0, []⟩, ⟨0, 5, .rw, 0, []⟩], 0⟩,
  ⟨"LEDGER_RING_DB", [(0x0, 4)], 0x2, 1, 1, [⟨0, 32, .wo, 0, []⟩], 0⟩,
  ⟨"LEDGER_RING_PROD", [(0x0, 4)], 0x3, 1, 1, [], 0⟩,
  ⟨"LEDGER_RING_SEL", [(0x0, 4)], 0x4, 1, 1, [⟨32, 8, .rw, 0, []⟩, ⟨0, 32, .rw, 0, []⟩], 0⟩,
  ⟨"LEDGER_RING_LOST", [(0x0, 4)], 0x5, 1, 1, [⟨0, 32, .rc, 0, []⟩], 0⟩,
  ⟨"LEDGER_CFG", [(0x3FF, 1)], 0x0, 1, 1, [⟨16, 3, .rw, 0, []⟩, ⟨0, 10, .rw, 0x1f4, [(100, 1000)]⟩], 0⟩,
  ⟨"LEDGER_EVIN_EN", [(0x3FF, 1)], 0x1, 1, 1, [⟨0, 8, .rw, 0, []⟩], 0⟩,
  ⟨"LEDGER_NO_RING", [(0x3FF, 1)], 0x2, 1, 1, [⟨0, 32, .rc, 0, []⟩], 0⟩,
  ⟨"LEDGER_PORT_FIFO", [(0x100, 80)], 0x0, 1, 1, [⟨0, 32, .rc, 0, []⟩], 0⟩]

/-- All rows of block 0x21 (LEDGER). -/
def rowsLedger : List RegRow := rowsLedger0

/-- Block 0x22 (PTP): 10_time_ledger_ptp.md. -/
def rowsPtp0 : List RegRow := [
  ⟨"PTP_INST_CFG", [(0x3F0, 8)], 0x0, 1, 1, [⟨62, 2, .rw, 0, [(0, 2)]⟩, ⟨59, 3, .rw, 0, [(1, 7)]⟩, ⟨57, 2, .rw, 0, []⟩, ⟨56, 1, .rw, 0, []⟩, ⟨55, 1, .rw, 0, []⟩, ⟨54, 1, .rw, 0, []⟩, ⟨51, 3, .rw, 7, []⟩, ⟨40, 8, .rw, 0, []⟩, ⟨32, 8, .rw, 0, []⟩, ⟨24, 8, .rw, 0, []⟩], 0xffc0ffffff000000⟩,
  ⟨"PTP_INST_QUAL", [(0x3F0, 8)], 0x1, 1, 1, [⟨56, 8, .rw, 0, []⟩, ⟨48, 8, .rw, 0, []⟩, ⟨40, 8, .rw, 0, []⟩, ⟨32, 8, .rw, 0, []⟩, ⟨16, 16, .rw, 0, []⟩, ⟨8, 8, .rw, 0, []⟩, ⟨0, 8, .rw, 0x80, []⟩], 0xffffffffffffff00⟩,
  ⟨"PTP_INST_ID", [(0x3F0, 8)], 0x2, 1, 1, [⟨0, 64, .rw, 0, []⟩], 0xffffffffffffffff⟩,
  ⟨"PTP_SERVO_STEP", [(0x3F0, 8)], 0x3, 1, 1, [⟨32, 32, .rw, 0x3e8, [(100, 1000000000)]⟩, ⟨0, 32, .rw, 0x4e20, [(0, 1000000000)]⟩], 0⟩,
  ⟨"PTP_SERVO_CFG", [(0x3F0, 8)], 0x4, 1, 1, [⟨40, 4, .rw, 3, [(1, 15)]⟩, ⟨36, 4, .rw, 4, [(0, 7)]⟩, ⟨0, 32, .rw, 0x186a0, [(1000, 1900000)]⟩], 0⟩,
  ⟨"PTP_DELAY_LIMITS", [(0x3F0, 8)], 0x5, 1, 1, [⟨32, 32, .rw, 0x320, [(0, 1000000)]⟩, ⟨0, 32, .rw, 0x3d090, [(1000, 1000000)]⟩], 0⟩,
  ⟨"PTP_PARENT_ID", [(0x3F0, 8)], 0x8, 1, 1, [], 0⟩,
  ⟨"PTP_GM_ID", [(0x3F0, 8)], 0x9, 1, 1, [], 0⟩,
  ⟨"PTP_GM_INFO", [(0x3F0, 8)], 0xA, 1, 1, [], 0⟩,
  ⟨"PTP_INST_STATUS", [(0x3F0, 8)], 0xB, 1, 1, [⟨40, 8, .ro, 0xff, []⟩], 0⟩,
  ⟨"PTP_INST_CNT", [(0x3F0, 8)], 0xC, 1, 1, [⟨48, 16, .rc, 0, []⟩, ⟨32, 16, .rc, 0, []⟩, ⟨16, 16, .rc, 0, []⟩, ⟨0, 16, .rc, 0, []⟩], 0⟩,
  ⟨"PTP_OFFSET", [(0x3F0, 8)], 0xD, 1, 1, [], 0⟩]

/-- Block 0x22 (PTP): 10_time_ledger_ptp.md. -/
def rowsPtp1 : List RegRow := [
  ⟨"PTP_PORT_CFG", [(0x0, 80), (0x80, 80), (0x100, 80), (0x180, 80), (0x200, 80), (0x280, 80), (0x300, 80), (0x380, 80)], 0x0, 1, 1, [⟨63, 1, .rw, 0, []⟩, ⟨61, 2, .rw, 0, []⟩, ⟨59, 2, .rw, 0, [(0, 2)]⟩, ⟨58, 1, .rw, 0, []⟩, ⟨57, 1, .rw, 0, []⟩, ⟨56, 1, .rw, 0, []⟩, ⟨55, 1, .rw, 0, []⟩, ⟨52, 3, .rw, 7, []⟩, ⟨40, 12, .rw, 0, []⟩, ⟨24, 8, .rw, 0, []⟩, ⟨16, 8, .rw, 0, []⟩, ⟨8, 8, .rw, 1, []⟩, ⟨0, 8, .rw, 3, []⟩], 0xfc00000000000000⟩,
  ⟨"PTP_PORT_CFG2", [(0x0, 80), (0x80, 80), (0x100, 80), (0x180, 80), (0x200, 80), (0x280, 80), (0x300, 80), (0x380, 80)], 0x1, 1, 1, [⟨8, 8, .rw, 0x80, []⟩, ⟨0, 8, .rw, 3, [(2, 255)]⟩], 0⟩,
  ⟨"PTP_PORT_STATUS", [(0x0, 80), (0x80, 80), (0x100, 80), (0x180, 80), (0x200, 80), (0x280, 80), (0x300, 80), (0x380, 80)], 0x2, 1, 1, [], 0⟩,
  ⟨"PTP_PORT_DELAY", [(0x0, 80), (0x80, 80), (0x100, 80), (0x180, 80), (0x200, 80), (0x280, 80), (0x300, 80), (0x380, 80)], 0x3, 1, 1, [], 0⟩,
  ⟨"PTP_PORT_CNT", [(0x0, 80), (0x80, 80), (0x100, 80), (0x180, 80), (0x200, 80), (0x280, 80), (0x300, 80), (0x380, 80)], 0x4, 1, 1, [⟨32, 32, .rc, 0, []⟩, ⟨0, 32, .rc, 0, []⟩], 0⟩,
  ⟨"PTP_PORT_ERR", [(0x0, 80), (0x80, 80), (0x100, 80), (0x180, 80), (0x200, 80), (0x280, 80), (0x300, 80), (0x380, 80)], 0x5, 1, 1, [⟨48, 16, .rc, 0, []⟩, ⟨32, 16, .rc, 0, []⟩, ⟨16, 16, .rc, 0, []⟩], 0⟩]

/-- All rows of block 0x22 (PTP). -/
def rowsPtp : List RegRow := rowsPtp0 ++ rowsPtp1

/-- Block 0x24 (REFSEL): 12_references_outputs.md. -/
def rowsRefsel0 : List RegRow := [
  ⟨"REFSEL_REF_CFG", [(0x0, 32)], 0x0, 1, 1, [⟨63, 1, .rw, 0, []⟩, ⟨62, 1, .rw, 0, []⟩, ⟨61, 1, .rw, 0, []⟩, ⟨60, 1, .rw, 1, []⟩, ⟨56, 4, .rw, 0, []⟩, ⟨48, 8, .rw, 0, []⟩, ⟨0, 32, .rw, 0, []⟩], 0xc0ff0000ffffffff⟩,
  ⟨"REFSEL_REF_QUAL", [(0x0, 32)], 0x1, 1, 1, [⟨48, 16, .rw, 0xa, [(0, 3600)]⟩, ⟨32, 16, .rw, 0x7d0, [(100, 60000)]⟩, ⟨0, 32, .rw, 0x23f0, [(1, 100000)]⟩], 0⟩,
  ⟨"REFSEL_REF_DELAY", [(0x0, 32)], 0x2, 1, 1, [⟨0, 64, .rw, 0, [(0, 655360000)]⟩], 0⟩,
  ⟨"REFSEL_REF_STATUS", [(0x0, 32)], 0x3, 1, 1, [], 0⟩,
  ⟨"REFSEL_REF_CNT", [(0x0, 32)], 0x4, 1, 1, [⟨32, 32, .rc, 0, []⟩, ⟨0, 32, .rc, 0, []⟩], 0⟩,
  ⟨"REFSEL_SEL_CFG", [(0x100, 10)], 0x0, 1, 1, [⟨63, 1, .rw, 1, []⟩, ⟨62, 1, .rw, 0, []⟩, ⟨61, 1, .rw, 0, []⟩, ⟨32, 16, .rw, 0x32, [(1, 10000)]⟩, ⟨16, 16, .rw, 0xa, [(1, 3600)]⟩], 0⟩,
  ⟨"REFSEL_RANK_LO", [(0x100, 10)], 0x1, 1, 1, [⟨0, 64, .rw, 0, []⟩], 0xffffffffffffffff⟩,
  ⟨"REFSEL_RANK_HI", [(0x100, 10)], 0x2, 1, 1, [⟨0, 64, .rw, 0, []⟩], 0xffffffffffffffff⟩,
  ⟨"REFSEL_SEL_STATUS", [(0x100, 10)], 0x3, 1, 1, [⟨56, 8, .ro, 0xff, []⟩, ⟨48, 8, .ro, 0xff, []⟩, ⟨40, 8, .ro, 0xff, []⟩], 0⟩,
  ⟨"REFSEL_SEL_CNT", [(0x100, 10)], 0x4, 1, 1, [⟨32, 32, .rc, 0, []⟩, ⟨0, 32, .rc, 0, []⟩], 0⟩,
  ⟨"REFSEL_PORT_CFG", [(0x200, 80)], 0x0, 1, 1, [⟨62, 2, .rw, 0, [(0, 2)]⟩, ⟨61, 1, .rw, 0, []⟩, ⟨60, 1, .rw, 0, []⟩], 0⟩,
  ⟨"REFSEL_PORT_STATUS", [(0x200, 80)], 0x1, 1, 1, [⟨0, 4, .ro, 0xf, []⟩], 0⟩]

/-- All rows of block 0x24 (REFSEL). -/
def rowsRefsel : List RegRow := rowsRefsel0

/-- Block 0x25 (DPLL): 12_references_outputs.md. -/
def rowsDpll0 : List RegRow := [
  ⟨"DPLL_CFG", [(0x0, 10)], 0x0, 1, 1, [⟨60, 4, .rw, 0, []⟩, ⟨58, 2, .rw, 0, [(0, 2)]⟩, ⟨48, 8, .rw, 0xa, [(1, 255)]⟩, ⟨32, 16, .rw, 0x1f4, [(1, 65535)]⟩, ⟨0, 32, .rw, 0x4e20, [(0, 100000000)]⟩], 0xf000000000000000⟩,
  ⟨"DPLL_HO_CFG", [(0x0, 10)], 0x1, 1, 1, [⟨48, 16, .rw, 0x3c, [(1, 3600)]⟩, ⟨32, 16, .rw, 0x3e8, [(0, 10000)]⟩], 0⟩,
  ⟨"DPLL_SWITCH_CFG", [(0x0, 10)], 0x2, 1, 1, [⟨48, 16, .rw, 0x64, [(10, 10000)]⟩, ⟨0, 32, .rw, 0x2710, [(1, 1000000)]⟩], 0⟩,
  ⟨"DPLL_FIRST_STEP_NS", [(0x0, 10)], 0x3, 1, 1, [⟨0, 32, .rw, 0x3e8, [(0, 1000000000)]⟩], 0⟩,
  ⟨"DPLL_CTRL", [(0x0, 10)], 0x4, 1, 1, [⟨0, 1, .wo, 0, []⟩], 0⟩,
  ⟨"DPLL_STATUS", [(0x0, 10)], 0x8, 1, 1, [], 0⟩,
  ⟨"DPLL_HO_FREQ", [(0x0, 10)], 0x9, 1, 1, [], 0⟩,
  ⟨"DPLL_PHASE_ERR", [(0x0, 10)], 0xA, 1, 1, [], 0⟩,
  ⟨"DPLL_PENDING_PHASE", [(0x0, 10)], 0xB, 1, 1, [], 0⟩,
  ⟨"DPLL_USER_OFFSET", [(0x0, 10)], 0xC, 1, 1, [], 0⟩,
  ⟨"DPLL_CNT", [(0x0, 10)], 0xD, 1, 1, [⟨48, 16, .rc, 0, []⟩, ⟨32, 16, .rc, 0, []⟩], 0⟩]

/-- All rows of block 0x25 (DPLL). -/
def rowsDpll : List RegRow := rowsDpll0

/-- Block 0x26 (OUT): 12_references_outputs.md. -/
def rowsOut0 : List RegRow := [
  ⟨"OUT_CFG", [(0x0, 18)], 0x0, 1, 1, [⟨56, 4, .rw, 0, [(0, 9)]⟩, ⟨54, 2, .rw, 0, [(0, 2)]⟩, ⟨53, 1, .rw, 0, []⟩, ⟨52, 1, .rw, 0, []⟩, ⟨0, 32, .rw, 0, []⟩], 0xf200000ffffffff⟩,
  ⟨"OUT_PHASE", [(0x0, 18)], 0x1, 1, 1, [⟨0, 64, .rw, 0, []⟩], 0⟩,
  ⟨"OUT_PULSE", [(0x0, 18)], 0x2, 1, 1, [⟨48, 16, .rw, 0, []⟩, ⟨32, 16, .rw, 0, []⟩, ⟨0, 32, .rw, 0, []⟩], 0xffffffffffffffff⟩,
  ⟨"OUT_TOD_UTC", [(0x0, 18)], 0x3, 1, 1, [⟨18, 1, .rw, 0, []⟩, ⟨17, 1, .rw, 0, []⟩, ⟨16, 1, .rw, 0, []⟩, ⟨0, 16, .rw, 0, []⟩], 0⟩,
  ⟨"OUT_SLEW_PPB", [(0x0, 18)], 0x4, 1, 1, [⟨0, 32, .rw, 0x186a0, [(1, 1000000)]⟩], 0⟩,
  ⟨"OUT_STATUS", [(0x0, 18)], 0x8, 1, 1, [⟨0, 32, .rc, 0, []⟩], 0⟩,
  ⟨"OUT_TIME_OFFSET", [(0x0, 18)], 0x9, 1, 1, [], 0⟩]

/-- All rows of block 0x26 (OUT). -/
def rowsOut : List RegRow := rowsOut0

/-- Block 0x27 (TDC): 14_edge_measurement.md. -/
def rowsTdc0 : List RegRow := [
  ⟨"TDC_IN_CFG", [(0x0, 30)], 0x0, 1, 1, [⟨16, 1, .rw, 0, []⟩, ⟨0, 16, .rw, 1, [(1, 65535)]⟩], 0⟩,
  ⟨"TDC_IN_DELAY", [(0x0, 30)], 0x1, 1, 1, [⟨0, 64, .rw, 0, [(0, 655360000), (18446744073054191616, 18446744073709551615)]⟩], 0⟩,
  ⟨"TDC_IN_CNT", [(0x0, 30)], 0x2, 1, 1, [⟨32, 32, .rc, 0, []⟩, ⟨0, 32, .rc, 0, []⟩], 0⟩,
  ⟨"TDC_IN_LEDGER_SKIP", [(0x0, 30)], 0x3, 1, 1, [⟨0, 32, .rc, 0, []⟩], 0⟩,
  ⟨"TDC_STATE", [(0x3FF, 1)], 0x0, 1, 1, [], 0⟩,
  ⟨"TDC_SAMPLES", [(0x3FF, 1)], 0x1, 1, 1, [], 0⟩,
  ⟨"TDC_MEAN", [(0x3FF, 1)], 0x2, 1, 1, [], 0⟩,
  ⟨"TDC_SDEV", [(0x3FF, 1)], 0x3, 1, 1, [], 0⟩,
  ⟨"TDC_MIN", [(0x3FF, 1)], 0x4, 1, 1, [], 0⟩,
  ⟨"TDC_MAX", [(0x3FF, 1)], 0x5, 1, 1, [], 0⟩,
  ⟨"TDC_FIRST", [(0x3FF, 1)], 0x6, 2, 1, [], 0⟩,
  ⟨"TDC_LAST", [(0x3FF, 1)], 0x8, 2, 1, [], 0⟩]

/-- All rows of block 0x27 (TDC). -/
def rowsTdc : List RegRow := rowsTdc0

/-- Block 0x28 (CAL): 13_calibration.md. -/
def rowsCal0 : List RegRow := [
  ⟨"CAL_CFG", [(0x3FF, 1)], 0x0, 1, 1, [⟨32, 16, .rw, 0x1f4, [(10, 60000)]⟩, ⟨8, 13, .rw, 0xc0, [(32, 1280)]⟩, ⟨0, 4, .rw, 6, [(4, 8)]⟩], 0⟩,
  ⟨"CAL_FORCE_CFG", [(0x3FF, 1)], 0x1, 1, 1, [⟨32, 16, .rw, 0x64, [(1, 60000)]⟩, ⟨0, 32, .rw, 0x64, [(10, 100000)]⟩], 0⟩,
  ⟨"CAL_SUMMARY", [(0x3FF, 1)], 0x2, 1, 1, [], 0⟩,
  ⟨"CAL_PORT_CFG", [(0x0, 80)], 0x0, 1, 1, [⟨16, 1, .rw, 0, []⟩, ⟨8, 8, .rw, 0x40, [(16, 255)]⟩, ⟨0, 8, .rw, 0x20, [(16, 255)]⟩], 0⟩,
  ⟨"CAL_PORT_CNT", [(0x0, 80)], 0x1, 1, 1, [⟨32, 32, .rc, 0, []⟩, ⟨16, 16, .rc, 0, []⟩, ⟨0, 16, .rc, 0, []⟩], 0⟩,
  ⟨"CAL_PORT_STEPS", [(0x0, 80)], 0x2, 1, 1, [⟨32, 32, .rc, 0, []⟩, ⟨0, 32, .rc, 0, []⟩], 0⟩,
  ⟨"CAL_LANE_RX_RAW", [(0x100, 32), (0x140, 48)], 0x0, 1, 1, [], 0⟩,
  ⟨"CAL_LANE_RX_FIX", [(0x100, 32), (0x140, 48)], 0x1, 1, 1, [⟨0, 64, .ro, 0, []⟩], 0⟩,
  ⟨"CAL_LANE_TX_RAW", [(0x100, 32), (0x140, 48)], 0x2, 1, 1, [], 0⟩,
  ⟨"CAL_LANE_TX_FIX", [(0x100, 32), (0x140, 48)], 0x3, 1, 1, [⟨0, 64, .ro, 0, []⟩], 0⟩,
  ⟨"CAL_LANE_REF_PATH", [(0x100, 32), (0x140, 48)], 0x4, 1, 1, [⟨32, 32, .ro, 0, []⟩, ⟨0, 32, .ro, 0, []⟩], 0⟩,
  ⟨"CAL_LANE_DDMTD_OFS", [(0x100, 32), (0x140, 48)], 0x5, 1, 1, [], 0⟩]

/-- Block 0x28 (CAL): 13_calibration.md. -/
def rowsCal1 : List RegRow := [
  ⟨"CAL_LANE_STATE", [(0x100, 32), (0x140, 48)], 0x6, 1, 1, [⟨16, 4, .ro, 0, []⟩], 0⟩,
  ⟨"CAL_LANE_AGE", [(0x100, 32), (0x140, 48)], 0x7, 1, 1, [], 0⟩,
  ⟨"CAL_ITEM_RAW", [(0x200, 18), (0x220, 10), (0x230, 4)], 0x0, 1, 1, [], 0⟩,
  ⟨"CAL_ITEM_FIX", [(0x200, 18), (0x220, 10), (0x230, 4)], 0x1, 1, 1, [⟨0, 64, .ro, 0, []⟩], 0⟩,
  ⟨"CAL_ITEM_STATE", [(0x200, 18), (0x220, 10), (0x230, 4)], 0x2, 1, 1, [], 0⟩,
  ⟨"CAL_TDC_INL", [(0x240, 2)], 0x0, 512, 1, [⟨0, 32, .ro, 0, []⟩], 0⟩,
  ⟨"CAL_TDC_STATE", [(0x242, 1)], 0x0, 1, 1, [], 0⟩]

/-- All rows of block 0x28 (CAL). -/
def rowsCal : List RegRow := rowsCal0 ++ rowsCal1

/-- Block 0x2A (PAIR): 15_partner_pair.md. -/
def rowsPair0 : List RegRow := [
  ⟨"PAIR_CFG", [(0x0, 1)], 0x0, 1, 1, [⟨32, 16, .rw, 0x3e8, [(100, 1000)]⟩, ⟨16, 16, .rw, 0x3c, [(0, 3600)]⟩, ⟨8, 8, .rw, 0, [(0, 79), (255, 255)]⟩, ⟨3, 1, .rw, 1, []⟩, ⟨2, 1, .rw, 1, []⟩, ⟨0, 2, .rw, 0, [(0, 1)]⟩], 0xff03⟩,
  ⟨"PAIR_ID", [(0x0, 1)], 0x1, 1, 1, [⟨0, 64, .rw, 0, []⟩], 0xffffffffffffffff⟩,
  ⟨"PAIR_B_DEST", [(0x0, 1)], 0x2, 1, 1, [⟨63, 1, .rw, 0, []⟩, ⟨60, 3, .rw, 7, []⟩, ⟨48, 12, .rw, 0, []⟩, ⟨0, 48, .rw, 0, []⟩], 0x8fffffffffffffff⟩,
  ⟨"PAIR_TIMERS", [(0x0, 1)], 0x3, 1, 1, [⟨32, 16, .rw, 0x1388, [(1000, 60000)]⟩, ⟨16, 16, .rw, 0x64, [(10, 800)]⟩, ⟨0, 16, .rw, 0x3e8, [(100, 10000)]⟩], 0⟩,
  ⟨"PAIR_CONTACT_MASK", [(0x0, 1)], 0x4, 1, 1, [⟨0, 32, .rw, 0, []⟩], 0xffffffff⟩,
  ⟨"PAIR_STATE", [(0x0, 1)], 0x8, 1, 1, [⟨12, 4, .ro, 0xf, []⟩, ⟨1, 1, .ro, 0, []⟩], 0⟩,
  ⟨"PAIR_PARTNER_UID", [(0x0, 1)], 0x9, 1, 1, [], 0⟩,
  ⟨"PAIR_CNT", [(0x0, 1)], 0xA, 1, 1, [⟨48, 16, .rc, 0, []⟩, ⟨32, 16, .rc, 0, []⟩, ⟨16, 16, .rc, 0, []⟩, ⟨0, 16, .rc, 0, []⟩], 0⟩,
  ⟨"PAIR_RX_ERR", [(0x0, 1)], 0xB, 1, 1, [⟨16, 16, .rc, 0, []⟩, ⟨0, 16, .rc, 0, []⟩], 0⟩,
  ⟨"PAIR_LAST_GAP", [(0x0, 1)], 0xC, 1, 1, [], 0⟩]

/-- All rows of block 0x2A (PAIR). -/
def rowsPair : List RegRow := rowsPair0

/-- Block 0x2B (HEALTH): 15_partner_pair.md. -/
def rowsHealth0 : List RegRow := [
  ⟨"HEALTH_CFG", [(0x0, 1)], 0x0, 1, 1, [⟨32, 32, .rw, 0x9f3f, []⟩, ⟨24, 8, .rw, 0xa, [(1, 255)]⟩, ⟨16, 8, .rw, 0x10, [(1, 127)]⟩, ⟨0, 10, .rw, 0x64, [(10, 1000)]⟩], 0⟩,
  ⟨"HEALTH_SELFTEST", [(0x0, 1)], 0x1, 1, 1, [⟨0, 5, .rw, 0x1f, []⟩], 0⟩,
  ⟨"HEALTH_REPORT", [(0x0, 1)], 0x2, 1, 1, [⟨0, 8, .ro, 2, []⟩], 0⟩,
  ⟨"HEALTH_PROOF_SUMMARY", [(0x0, 1)], 0x3, 1, 1, [], 0⟩,
  ⟨"HEALTH_PROOF_LAST", [(0x0, 1)], 0x4, 2, 1, [], 0⟩,
  ⟨"HEALTH_AUDIT", [(0x0, 1)], 0x6, 1, 1, [], 0⟩,
  ⟨"HEALTH_SELFTEST_CNT", [(0x0, 1)], 0x7, 1, 1, [⟨32, 32, .rc, 0, []⟩, ⟨0, 32, .rc, 0, []⟩], 0⟩,
  ⟨"HEALTH_PARTNER", [(0x0, 1)], 0x8, 1, 1, [⟨0, 8, .ro, 2, []⟩], 0⟩]

/-- All rows of block 0x2B (HEALTH). -/
def rowsHealth : List RegRow := rowsHealth0

/-- Block 0x2C (WATCH): 09_frer_watch_proof.md. -/
def rowsWatch0 : List RegRow := [
  ⟨"WATCH_LOST", [(0x0, 1)], 0x0, 1, 1, [⟨0, 32, .rc, 0, []⟩], 0⟩,
  ⟨"WATCH_COUNTS", [(0x0, 1)], 0x1, 1, 1, [], 0⟩,
  ⟨"WATCH_S_STATE", [(0x100, 32)], 0x0, 128, 4, [], 0⟩,
  ⟨"WATCH_S_PKTS", [(0x100, 32)], 0x1, 128, 4, [], 0⟩,
  ⟨"WATCH_S_ERR", [(0x100, 32)], 0x2, 128, 4, [], 0⟩,
  ⟨"WATCH_S_PDV", [(0x100, 32)], 0x3, 128, 4, [], 0⟩]

/-- All rows of block 0x2C (WATCH). -/
def rowsWatch : List RegRow := rowsWatch0

/-- Block 0x2D (PROOF): 09_frer_watch_proof.md. -/
def rowsProof0 : List RegRow := [
  ⟨"PROOF_REFLECT_PORTS_LO", [(0x0, 1)], 0x0, 1, 1, [⟨0, 64, .rw, 0, []⟩], 0xffffffffffffffff⟩,
  ⟨"PROOF_REFLECT_PORTS_HI", [(0x0, 1)], 0x1, 1, 1, [⟨0, 16, .rw, 0, []⟩], 0xffff⟩,
  ⟨"PROOF_REFLECT_CNT", [(0x0, 1)], 0x2, 1, 1, [⟨32, 32, .rc, 0, []⟩, ⟨0, 32, .rc, 0, []⟩], 0⟩,
  ⟨"PROOF_ECHO_RATE", [(0x0, 1)], 0x3, 1, 1, [⟨0, 16, .rw, 0x2710, [(1, 50000)]⟩], 0⟩,
  ⟨"PROOF_STATE", [(0x0, 1)], 0x4, 1, 1, [], 0⟩,
  ⟨"PROOF_SUMMARY", [(0x0, 1)], 0x5, 1, 1, [], 0⟩,
  ⟨"PROOF_LAST", [(0x0, 1)], 0x6, 2, 1, [], 0⟩,
  ⟨"PROOF_PATH_CFG", [(0x100, 256)], 0x0, 1, 1, [⟨63, 1, .rw, 0, []⟩, ⟨62, 1, .rw, 0, []⟩, ⟨48, 8, .rw, 0, [(0, 79)]⟩, ⟨44, 3, .rw, 0, []⟩, ⟨40, 3, .rw, 0, []⟩, ⟨28, 12, .rw, 0, [(0, 4094)]⟩, ⟨14, 14, .rw, 0x80, [(74, 1522)]⟩], 0⟩,
  ⟨"PROOF_PATH_DEST", [(0x100, 256)], 0x1, 1, 1, [⟨0, 48, .rw, 0, []⟩], 0⟩,
  ⟨"PROOF_PATH_PROBES", [(0x100, 256)], 0x2, 1, 1, [⟨38, 10, .rw, 0x64, [(1, 1000)]⟩, ⟨18, 20, .rw, 0x3e8, [(100, 1000000)]⟩, ⟨0, 18, .rw, 0x32, [(1, 100000)]⟩], 0⟩,
  ⟨"PROOF_PATH_LIMITS", [(0x100, 256)], 0x3, 1, 1, [⟨32, 10, .rw, 0, [(0, 1000)]⟩, ⟨0, 32, .rw, 0, []⟩], 0⟩,
  ⟨"PROOF_RES_COUNTS", [(0x100, 256)], 0x8, 1, 1, [], 0⟩]

/-- Block 0x2D (PROOF): 09_frer_watch_proof.md. -/
def rowsProof1 : List RegRow := [
  ⟨"PROOF_RES_MIN_NS", [(0x100, 256)], 0x9, 1, 1, [], 0⟩,
  ⟨"PROOF_RES_MEAN_NS", [(0x100, 256)], 0xA, 1, 1, [], 0⟩,
  ⟨"PROOF_RES_MAX_NS", [(0x100, 256)], 0xB, 1, 1, [], 0⟩]

/-- All rows of block 0x2D (PROOF). -/
def rowsProof : List RegRow := rowsProof0 ++ rowsProof1

/-- Block 0x30 (PERF): 16_perf_thermal.md. -/
def rowsPerf0 : List RegRow := [
  ⟨"PERF_SEL", [(0x0, 64)], 0x0, 1, 1, [⟨63, 1, .rw, 0, []⟩, ⟨62, 1, .rw, 0, []⟩, ⟨58, 2, .rw, 0, []⟩, ⟨48, 10, .rw, 0, []⟩, ⟨40, 8, .rw, 0, []⟩], 0⟩,
  ⟨"PERF_THRESH", [(0x0, 64)], 0x1, 1, 1, [⟨0, 32, .rw, 0, []⟩], 0⟩,
  ⟨"PERF_CNT", [(0x0, 64)], 0x2, 1, 1, [⟨0, 48, .rw, 0, []⟩], 0⟩,
  ⟨"PERF_SAMPLE", [(0x0, 64)], 0x3, 1, 1, [], 0⟩,
  ⟨"PERF_STATUS", [(0x0, 64)], 0x4, 1, 1, [⟨16, 16, .rc, 0, []⟩, ⟨0, 1, .w1c, 0, []⟩], 0⟩,
  ⟨"PERF_CTRL", [(0x3FF, 1)], 0x0, 1, 1, [⟨20, 1, .rw, 0, []⟩, ⟨0, 20, .rw, 0, [(0, 1000)]⟩], 0⟩,
  ⟨"PERF_USER_MASK", [(0x3FF, 1)], 0x1, 1, 1, [⟨0, 64, .rw, 0, []⟩], 0⟩,
  ⟨"PERF_CYCLES", [(0x3FF, 1)], 0x2, 1, 1, [], 0⟩,
  ⟨"PERF_OVF_ALL", [(0x3FF, 1)], 0x3, 1, 1, [], 0⟩]

/-- All rows of block 0x30 (PERF). -/
def rowsPerf : List RegRow := rowsPerf0

/-- Block 0x31 (THERM): 16_perf_thermal.md. -/
def rowsTherm0 : List RegRow := [
  ⟨"THERM_VALUE", [(0x0, 12)], 0x0, 1, 1, [], 0⟩,
  ⟨"THERM_MINMAX", [(0x0, 12)], 0x1, 1, 1, [⟨16, 16, .rc, 0, []⟩, ⟨0, 16, .rc, 0, []⟩], 0⟩,
  ⟨"THERM_ALARM_CFG", [(0x0, 12)], 0x2, 1, 1, [⟨32, 16, .rw, 0x1900, []⟩, ⟨16, 16, .rw, 0x1a40, []⟩, ⟨0, 16, .rw, 0x80, [(0, 1280)]⟩], 0⟩,
  ⟨"THERM_ALARM_STATUS", [(0x0, 12)], 0x3, 1, 1, [], 0⟩,
  ⟨"THERM_CFG", [(0x3FF, 1)], 0x0, 1, 1, [⟨0, 8, .rw, 0xff, [(0, 31), (255, 255)]⟩], 0⟩]

/-- All rows of block 0x31 (THERM). -/
def rowsTherm : List RegRow := rowsTherm0

/-- Block 0x34 (GPIO): 17_electrical_package.md. -/
def rowsGpio0 : List RegRow := [
  ⟨"GPIO_DIR", [(0x0, 1)], 0x0, 1, 1, [⟨0, 32, .rw, 0, []⟩], 0xffffffff⟩,
  ⟨"GPIO_OUT", [(0x0, 1)], 0x1, 1, 1, [⟨0, 32, .rw, 0, []⟩], 0xffffffff⟩,
  ⟨"GPIO_IN", [(0x0, 1)], 0x2, 1, 1, [], 0⟩,
  ⟨"GPIO_OD", [(0x0, 1)], 0x3, 1, 1, [⟨0, 32, .rw, 0, []⟩], 0xffffffff⟩,
  ⟨"GPIO_DRIVE", [(0x0, 1)], 0x4, 1, 1, [⟨0, 32, .rw, 0, []⟩], 0⟩,
  ⟨"GPIO_FORCE", [(0x0, 1)], 0x5, 1, 1, [], 0⟩,
  ⟨"GPIO_STATE", [(0x0, 1)], 0x6, 1, 1, [], 0⟩,
  ⟨"I2C_CFG", [(0x100, 4)], 0x0, 1, 1, [⟨0, 2, .rw, 0, [(0, 2)]⟩], 0x3⟩,
  ⟨"I2C_XFER", [(0x100, 4)], 0x1, 1, 1, [⟨63, 1, .wo, 0, []⟩, ⟨62, 1, .rw, 0, []⟩, ⟨48, 7, .rw, 0, []⟩, ⟨40, 8, .rw, 0, []⟩, ⟨0, 8, .rw, 0, []⟩], 0⟩,
  ⟨"I2C_STATUS", [(0x100, 4)], 0x2, 1, 1, [], 0⟩]

/-- All rows of block 0x34 (GPIO). -/
def rowsGpio : List RegRow := rowsGpio0

/-- The rows of a block (R26); an unassigned block has none. -/
def rowsOf (block : Nat) : List RegRow :=
  match block with
  | 0x00 => rowsDev
  | 0x01 => rowsPwr
  | 0x02 => rowsClk
  | 0x03 => rowsFw
  | 0x04 => rowsCmd
  | 0x05 => rowsSec
  | 0x08 => rowsHlane
  | 0x09 => rowsElane
  | 0x0A => rowsPcs
  | 0x0C => rowsMac
  | 0x0D => rowsPause
  | 0x0E => rowsStat
  | 0x10 => rowsCat
  | 0x11 => rowsFdb
  | 0x12 => rowsMcast
  | 0x13 => rowsFrer
  | 0x14 => rowsPol
  | 0x15 => rowsMirr
  | 0x18 => rowsBuf
  | 0x19 => rowsStack
  | 0x1A => rowsAudit
  | 0x1C => rowsSched
  | 0x1D => rowsGate
  | 0x1E => rowsQmon
  | 0x20 => rowsTime
  | 0x21 => rowsLedger
  | 0x22 => rowsPtp
  | 0x24 => rowsRefsel
  | 0x25 => rowsDpll
  | 0x26 => rowsOut
  | 0x27 => rowsTdc
  | 0x28 => rowsCal
  | 0x2A => rowsPair
  | 0x2B => rowsHealth
  | 0x2C => rowsWatch
  | 0x2D => rowsProof
  | 0x30 => rowsPerf
  | 0x31 => rowsTherm
  | 0x34 => rowsGpio
  | _ => []

namespace Reg
/-- CLK_ISL_INFO. -/
abbrev clkIslInfo (i : Nat) : Nat := shelf 0x02 i 0x0
/-- CLK_ISL_STATUS. -/
abbrev clkIslStatus (i : Nat) : Nat := shelf 0x02 i 0x1
/-- CLK_ISL_FREQ_HZ. -/
abbrev clkIslFreqHz (i : Nat) : Nat := shelf 0x02 i 0x2
/-- CLK_ISL_XING_ERR. -/
abbrev clkIslXingErr (i : Nat) : Nat := shelf 0x02 i 0x3
/-- CLK_ISL_LOCK_LOSS. -/
abbrev clkIslLockLoss (i : Nat) : Nat := shelf 0x02 i 0x4
/-- SEC_CTRL. -/
abbrev secCtrl : Nat := shelf 0x05 0x0 0x0
/-- SEC_KEY_VALID. -/
abbrev secKeyValid : Nat := shelf 0x05 0x0 0x1
/-- SEC_KEY_W. -/
abbrev secKeyW (j : Nat) : Nat := shelf 0x05 0x0 (0x10 + j)
/-- SEC_AUTH_FAIL. -/
abbrev secAuthFail : Nat := shelf 0x05 0x0 0x20
/-- SEC_SESSION_NUM. -/
abbrev secSessionNum : Nat := shelf 0x05 0x0 0x21
/-- CMD_CMDR_BASE. -/
abbrev cmdCmdrBase : Nat := shelf 0x04 0x0 0x0
/-- CMD_CMDR_CTRL. -/
abbrev cmdCmdrCtrl : Nat := shelf 0x04 0x0 0x1
/-- CMD_DB_CMD. -/
abbrev cmdDbCmd : Nat := shelf 0x04 0x0 0x2
/-- CMD_CMDR_CONS. -/
abbrev cmdCmdrCons : Nat := shelf 0x04 0x0 0x3
/-- CMD_RPLR_BASE. -/
abbrev cmdRplrBase : Nat := shelf 0x04 0x0 0x8
/-- CMD_RPLR_CTRL. -/
abbrev cmdRplrCtrl : Nat := shelf 0x04 0x0 0x9
/-- CMD_DB_RPL. -/
abbrev cmdDbRpl : Nat := shelf 0x04 0x0 0xA
/-- CMD_RPLR_PROD. -/
abbrev cmdRplrProd : Nat := shelf 0x04 0x0 0xB
/-- CMD_EVTR_BASE. -/
abbrev cmdEvtrBase : Nat := shelf 0x04 0x0 0x10
/-- CMD_EVTR_CTRL. -/
abbrev cmdEvtrCtrl : Nat := shelf 0x04 0x0 0x11
/-- CMD_DB_EVT. -/
abbrev cmdDbEvt : Nat := shelf 0x04 0x0 0x12
/-- CMD_EVTR_PROD. -/
abbrev cmdEvtrProd : Nat := shelf 0x04 0x0 0x13
/-- CMD_HOST_STATUS. -/
abbrev cmdHostStatus : Nat := shelf 0x04 0x0 0x18
/-- CMD_EVT_LOST. -/
abbrev cmdEvtLost : Nat := shelf 0x04 0x0 0x19
/-- CMD_PCIE_MARKER_ERR. -/
abbrev cmdPcieMarkerErr : Nat := shelf 0x04 0x0 0x1A
/-- CMD_SB_FRAMING_ERR. -/
abbrev cmdSbFramingErr : Nat := shelf 0x04 0x1 0x0
/-- CMD_SB_EVT_MASK. -/
abbrev cmdSbEvtMask : Nat := shelf 0x04 0x1 0x1
/-- CMD_SB_EVT_LOST. -/
abbrev cmdSbEvtLost : Nat := shelf 0x04 0x1 0x2
/-- CMD_LEASE_OWNER_LO. -/
abbrev cmdLeaseOwnerLo : Nat := shelf 0x04 0x2 0x0
/-- CMD_LEASE_OWNER_HI. -/
abbrev cmdLeaseOwnerHi : Nat := shelf 0x04 0x2 0x1
/-- CMD_SB_GRANT. -/
abbrev cmdSbGrant : Nat := shelf 0x04 0x2 0x2
/-- CMD_HOST_SILENCE_MS. -/
abbrev cmdHostSilenceMs : Nat := shelf 0x04 0x2 0x3
/-- CMD_SB_SILENCE_MS. -/
abbrev cmdSbSilenceMs : Nat := shelf 0x04 0x2 0x4
/-- CMD_HOST_IDLE_MS. -/
abbrev cmdHostIdleMs : Nat := shelf 0x04 0x2 0x5
/-- CMD_SB_IDLE_MS. -/
abbrev cmdSbIdleMs : Nat := shelf 0x04 0x2 0x6
/-- CMD_BAR0_LEASE_DROP. -/
abbrev cmdBar0LeaseDrop : Nat := shelf 0x04 0x2 0x7
/-- CMD_INBAND_PORTS_LO. -/
abbrev cmdInbandPortsLo : Nat := shelf 0x04 0x2 0x8
/-- CMD_INBAND_PORTS_HI. -/
abbrev cmdInbandPortsHi : Nat := shelf 0x04 0x2 0x9
/-- CMD_INBAND_MAC. -/
abbrev cmdInbandMac : Nat := shelf 0x04 0x2 0xA
/-- CMD_INBAND_DROP. -/
abbrev cmdInbandDrop : Nat := shelf 0x04 0x2 0xB
/-- CMD_BAR0_REFUSED. -/
abbrev cmdBar0Refused : Nat := shelf 0x04 0x2 0xC
/-- DEV_ID. -/
abbrev devId : Nat := shelf 0x00 0x0 0x0
/-- DEV_UID. -/
abbrev devUid : Nat := shelf 0x00 0x0 0x1
/-- DEV_STATE. -/
abbrev devState : Nat := shelf 0x00 0x0 0x2
/-- DEV_READY. -/
abbrev devReady : Nat := shelf 0x00 0x0 0x3
/-- DEV_TD_LEVEL. -/
abbrev devTdLevel : Nat := shelf 0x00 0x0 0x4
/-- DEV_PORT_READY_LO. -/
abbrev devPortReadyLo : Nat := shelf 0x00 0x0 0x5
/-- DEV_PORT_READY_HI. -/
abbrev devPortReadyHi : Nat := shelf 0x00 0x0 0x6
/-- DEV_LANE_READY_HL. -/
abbrev devLaneReadyHl : Nat := shelf 0x00 0x0 0x7
/-- DEV_LANE_READY_EL. -/
abbrev devLaneReadyEl : Nat := shelf 0x00 0x0 0x8
/-- DEV_RESET. -/
abbrev devReset : Nat := shelf 0x00 0x0 0x9
/-- DEV_WARM_KEEP. -/
abbrev devWarmKeep : Nat := shelf 0x00 0x0 0xA
/-- DEV_RESET_CAUSE. -/
abbrev devResetCause : Nat := shelf 0x00 0x0 0xB
/-- DEV_STRAPS. -/
abbrev devStraps : Nat := shelf 0x00 0x0 0xC
/-- FW_OP_RUN. -/
abbrev fwOpRun : Nat := shelf 0x03 0x0 0x0
/-- FW_TIME_RUN. -/
abbrev fwTimeRun : Nat := shelf 0x03 0x0 0x1
/-- FW_BOOT_RESULT. -/
abbrev fwBootResult : Nat := shelf 0x03 0x0 0x2
/-- FW_PRIMARY. -/
abbrev fwPrimary : Nat := shelf 0x03 0x0 0x3
/-- FW_TRIAL_S. -/
abbrev fwTrialS : Nat := shelf 0x03 0x0 0x4
/-- FW_COLD_BOOTS. -/
abbrev fwColdBoots : Nat := shelf 0x03 0x0 0x5
/-- FW_KEY_STATUS. -/
abbrev fwKeyStatus : Nat := shelf 0x03 0x0 0x6
/-- PWR_STATE. -/
abbrev pwrState : Nat := shelf 0x01 0x0 0x0
/-- PWR_BOOT_ON. -/
abbrev pwrBootOn : Nat := shelf 0x01 0x0 0x1
/-- PWR_PLAN_P. -/
abbrev pwrPlanP (j : Nat) : Nat := shelf 0x01 0x0 (0x100 + j)
/-- HLANE_MODE. -/
abbrev hlaneMode (i : Nat) : Nat := shelf 0x08 i 0x0
/-- HLANE_CFG. -/
abbrev hlaneCfg (i : Nat) : Nat := shelf 0x08 i 0x1
/-- HLANE_TXEQ. -/
abbrev hlaneTxeq (i : Nat) : Nat := shelf 0x08 i 0x2
/-- HLANE_CTLE. -/
abbrev hlaneCtle (i : Nat) : Nat := shelf 0x08 i 0x3
/-- HLANE_CTLE_STATUS. -/
abbrev hlaneCtleStatus (i : Nat) : Nat := shelf 0x08 i 0x4
/-- HLANE_STATE. -/
abbrev hlaneState (i : Nat) : Nat := shelf 0x08 i 0x5
/-- HLANE_RESTART. -/
abbrev hlaneRestart (i : Nat) : Nat := shelf 0x08 i 0x6
/-- HLANE_LOCK_RX. -/
abbrev hlaneLockRx (i : Nat) : Nat := shelf 0x08 i 0x8
/-- HLANE_RX_VAR. -/
abbrev hlaneRxVar (i : Nat) : Nat := shelf 0x08 i 0x9
/-- HLANE_LOCK_TX. -/
abbrev hlaneLockTx (i : Nat) : Nat := shelf 0x08 i 0xA
/-- HLANE_LOCK_CNT. -/
abbrev hlaneLockCnt (i : Nat) : Nat := shelf 0x08 i 0xB
/-- HLANE_SLEEP_CNT. -/
abbrev hlaneSleepCnt (i : Nat) : Nat := shelf 0x08 i 0xC
/-- HLANE_EYE. -/
abbrev hlaneEye (i : Nat) : Nat := shelf 0x08 i 0x10
/-- HLANE_SNR. -/
abbrev hlaneSnr (i : Nat) : Nat := shelf 0x08 i 0x11
/-- HLANE_MARGIN_CTRL. -/
abbrev hlaneMarginCtrl (i : Nat) : Nat := shelf 0x08 i 0x12
/-- HLANE_MARGIN_RES. -/
abbrev hlaneMarginRes (i : Nat) : Nat := shelf 0x08 i 0x13
/-- MAC_PORT_TYPE. -/
abbrev macPortType (i : Nat) : Nat := shelf 0x0C i 0x0
/-- MAC_CFG. -/
abbrev macCfg (i : Nat) : Nat := shelf 0x0C i 0x1
/-- MAC_MAX_FRAME. -/
abbrev macMaxFrame (i : Nat) : Nat := shelf 0x0C i 0x2
/-- MAC_LINK_STATUS. -/
abbrev macLinkStatus (i : Nat) : Nat := shelf 0x0C i 0x3
/-- MAC_MERGE_CFG. -/
abbrev macMergeCfg (i : Nat) : Nat := shelf 0x0C i 0x4
/-- MAC_MERGE_STATUS. -/
abbrev macMergeStatus (i : Nat) : Nat := shelf 0x0C i 0x5
/-- MAC_LPI_IDLE_US. -/
abbrev macLpiIdleUs (i : Nat) : Nat := shelf 0x0C i 0x6
/-- MAC_STEP_CFG. -/
abbrev macStepCfg (i : Nat) : Nat := shelf 0x0C i 0x7
/-- MAC_STEP_STATUS. -/
abbrev macStepStatus (i : Nat) : Nat := shelf 0x0C i 0x8
/-- PAUSE_CFG. -/
abbrev pauseCfg (i : Nat) : Nat := shelf 0x0D i 0x0
/-- PAUSE_WD. -/
abbrev pauseWd (i : Nat) : Nat := shelf 0x0D i 0x1
/-- PFC_QUANTA. -/
abbrev pfcQuanta (i : Nat) : Nat := shelf 0x0D i 0x2
/-- PFC_WM_p. -/
abbrev pfcWmP (i : Nat) (j : Nat) : Nat := shelf 0x0D i (0x10 + j)
/-- PAUSE_STATUS. -/
abbrev pauseStatus (i : Nat) : Nat := shelf 0x0D i 0x20
/-- STAT_RX_FRAMES_OK. -/
abbrev statRxFramesOk (i : Nat) : Nat := shelf 0x0E i 0x0
/-- STAT_RX_OCTETS_OK. -/
abbrev statRxOctetsOk (i : Nat) : Nat := shelf 0x0E i 0x1
/-- STAT_RX_UCAST. -/
abbrev statRxUcast (i : Nat) (j : Nat) : Nat := shelf 0x0E i (0x2 + j)
/-- STAT_RX_PAUSE. -/
abbrev statRxPause (i : Nat) : Nat := shelf 0x0E i 0x5
/-- STAT_RX_PFC. -/
abbrev statRxPfc (i : Nat) : Nat := shelf 0x0E i 0x6
/-- STAT_RX_FCS_ERR. -/
abbrev statRxFcsErr (i : Nat) (j : Nat) : Nat := shelf 0x0E i (0x7 + j)
/-- STAT_RX_L3_CSUM_ERR. -/
abbrev statRxL3CsumErr (i : Nat) (j : Nat) : Nat := shelf 0x0E i (0xD + j)
/-- STAT_RX_ERR_DELIVERED. -/
abbrev statRxErrDelivered (i : Nat) : Nat := shelf 0x0E i 0xF
/-- STAT_RX_LEN_k. -/
abbrev statRxLenK (i : Nat) (j : Nat) : Nat := shelf 0x0E i (0x10 + j)
/-- STAT_TX_FRAMES_OK. -/
abbrev statTxFramesOk (i : Nat) (j : Nat) : Nat := shelf 0x0E i (0x20 + j)
/-- STAT_TX_UCAST. -/
abbrev statTxUcast (i : Nat) (j : Nat) : Nat := shelf 0x0E i (0x22 + j)
/-- STAT_TX_PAUSE. -/
abbrev statTxPause (i : Nat) (j : Nat) : Nat := shelf 0x0E i (0x25 + j)
/-- STAT_TX_STOMPED. -/
abbrev statTxStomped (i : Nat) : Nat := shelf 0x0E i 0x27
/-- STAT_TX_OVERSIZE_DROP. -/
abbrev statTxOversizeDrop (i : Nat) (j : Nat) : Nat := shelf 0x0E i (0x28 + j)
/-- STAT_TX_PREEMPTED. -/
abbrev statTxPreempted (i : Nat) (j : Nat) : Nat := shelf 0x0E i (0x2A + j)
/-- STAT_RX_FRAGMENTS. -/
abbrev statRxFragments (i : Nat) (j : Nat) : Nat := shelf 0x0E i (0x2C + j)
/-- STAT_TX_HOST_REJECT. -/
abbrev statTxHostReject (i : Nat) (j : Nat) : Nat := shelf 0x0E i (0x2E + j)
/-- STAT_RX_PFC_XOFF_p. -/
abbrev statRxPfcXoffP (i : Nat) (j : Nat) : Nat := shelf 0x0E i (0x30 + j)
/-- STAT_TX_PFC_XOFF_p. -/
abbrev statTxPfcXoffP (i : Nat) (j : Nat) : Nat := shelf 0x0E i (0x38 + j)
/-- STAT_PAUSE_WD_TRIPS. -/
abbrev statPauseWdTrips (i : Nat) (j : Nat) : Nat := shelf 0x0E i (0x40 + j)
/-- STAT_FEC_CORR_CW. -/
abbrev statFecCorrCw (i : Nat) (j : Nat) : Nat := shelf 0x0E i (0x42 + j)
/-- STAT_PCS_ERR_BLOCKS. -/
abbrev statPcsErrBlocks (i : Nat) : Nat := shelf 0x0E i 0x45
/-- STAT_LINK_DOWN. -/
abbrev statLinkDown (i : Nat) : Nat := shelf 0x0E i 0x46
/-- STAT_INTERNAL_DROP. -/
abbrev statInternalDrop (i : Nat) : Nat := shelf 0x0E i 0x47
/-- STAT_SPEED_STEPS. -/
abbrev statSpeedSteps (i : Nat) : Nat := shelf 0x0E i 0x48
/-- STAT_TX_LPI_ENTRIES. -/
abbrev statTxLpiEntries (i : Nat) (j : Nat) : Nat := shelf 0x0E i (0x49 + j)
/-- STAT_TX_Q_FRAMES_q. -/
abbrev statTxQFramesQ (i : Nat) (j : Nat) : Nat := shelf 0x0E i (0x50 + j)
/-- STAT_Q_DROP_ADMIT_q. -/
abbrev statQDropAdmitQ (i : Nat) (j : Nat) : Nat := shelf 0x0E i (0x58 + j)
/-- STAT_Q_DROP_AGE_q. -/
abbrev statQDropAgeQ (i : Nat) (j : Nat) : Nat := shelf 0x0E i (0x60 + j)
/-- STAT_Q_DROP_ECC_q. -/
abbrev statQDropEccQ (i : Nat) (j : Nat) : Nat := shelf 0x0E i (0x68 + j)
/-- STAT_SNAP0_INFO. -/
abbrev statSnap0Info : Nat := shelf 0x0E 0x3FF 0x0
/-- STAT_SNAP0_TIME. -/
abbrev statSnap0Time (j : Nat) : Nat := shelf 0x0E 0x3FF (0x1 + j)
/-- STAT_SNAP1_INFO. -/
abbrev statSnap1Info : Nat := shelf 0x0E 0x3FF 0x4
/-- STAT_SNAP1_TIME. -/
abbrev statSnap1Time (j : Nat) : Nat := shelf 0x0E 0x3FF (0x5 + j)
/-- P80_RING_BASE. -/
abbrev p80RingBase (j : Nat) : Nat := shelf 0x04 0x3 (0x0 + 8 * j)
/-- P80_RING_CTRL. -/
abbrev p80RingCtrl (j : Nat) : Nat := shelf 0x04 0x3 (0x1 + 8 * j)
/-- P80_RING_DB. -/
abbrev p80RingDb (j : Nat) : Nat := shelf 0x04 0x3 (0x2 + 8 * j)
/-- P80_RING_DEV. -/
abbrev p80RingDev (j : Nat) : Nat := shelf 0x04 0x3 (0x3 + 8 * j)
/-- P80_RX_TRUNC. -/
abbrev p80RxTrunc : Nat := shelf 0x04 0x3 0x50
/-- CAT_CFG. -/
abbrev catCfg : Nat := shelf 0x10 0x0 0x0
/-- CAT_RTP_PORTS. -/
abbrev catRtpPorts : Nat := shelf 0x10 0x0 0x1
/-- CAT_PARSE_DEPTH. -/
abbrev catParseDepth : Nat := shelf 0x10 0x0 0x2
/-- CAT_EPOCH_CFG. -/
abbrev catEpochCfg : Nat := shelf 0x10 0x0 0x8
/-- CAT_EPOCH_CURRENT. -/
abbrev catEpochCurrent : Nat := shelf 0x10 0x0 0x9
/-- CAT_EPOCH_STATE. -/
abbrev catEpochState : Nat := shelf 0x10 0x0 0xA
/-- CAT_EPOCH_T. -/
abbrev catEpochT (j : Nat) : Nat := shelf 0x10 0x0 (0xB + j)
/-- CAT_STAGE_COUNT. -/
abbrev catStageCount : Nat := shelf 0x10 0x0 0xD
/-- CAT_PORT_CFG. -/
abbrev catPortCfg (i : Nat) : Nat := shelf 0x10 i 0x0
/-- CAT_HIT. -/
abbrev catHit (i : Nat) (j : Nat) : Nat := shelf 0x10 i (0x0 + j)
/-- FDB_AGE_S. -/
abbrev fdbAgeS : Nat := shelf 0x11 0x0 0x0
/-- FDB_USED. -/
abbrev fdbUsed : Nat := shelf 0x11 0x0 0x1
/-- FDB_LEARN_LOST. -/
abbrev fdbLearnLost : Nat := shelf 0x11 0x0 0x2
/-- FDB_LEARN_FULL. -/
abbrev fdbLearnFull : Nat := shelf 0x11 0x0 0x3
/-- FDB_FLUSH. -/
abbrev fdbFlush : Nat := shelf 0x11 0x0 0x4
/-- MCAST_DROP_LINK. -/
abbrev mcastDropLink (i : Nat) : Nat := shelf 0x12 i 0x0
/-- MCAST_DROP_VLAN. -/
abbrev mcastDropVlan (i : Nat) : Nat := shelf 0x12 i 0x1
/-- MCAST_DROP_POL. -/
abbrev mcastDropPol (i : Nat) : Nat := shelf 0x12 i 0x2
/-- POL_CNT. -/
abbrev polCnt (i : Nat) (j : Nat) : Nat := shelf 0x14 i (0x0 + j)
/-- POL_SDU. -/
abbrev polSdu (i : Nat) (j : Nat) : Nat := shelf 0x14 i (0x0 + j)
/-- MIRR_STATUS. -/
abbrev mirrStatus (i : Nat) : Nat := shelf 0x15 i 0x0
/-- MIRR_CNT. -/
abbrev mirrCnt (i : Nat) : Nat := shelf 0x15 i 0x1
/-- BUF_POOL_CFG. -/
abbrev bufPoolCfg : Nat := shelf 0x18 0x3FF 0x0
/-- BUF_POOL_STATUS. -/
abbrev bufPoolStatus : Nat := shelf 0x18 0x3FF 0x1
/-- BUF_CELLS. -/
abbrev bufCells : Nat := shelf 0x18 0x3FF 0x2
/-- BUF_LENT. -/
abbrev bufLent : Nat := shelf 0x18 0x3FF 0x3
/-- BUF_MEM_ERR. -/
abbrev bufMemErr : Nat := shelf 0x18 0x3FF 0x4
/-- BUF_Q_CFG. -/
abbrev bufQCfg (i : Nat) (j : Nat) : Nat := shelf 0x18 i (0x0 + j)
/-- BUF_Q_STATUS. -/
abbrev bufQStatus (i : Nat) (j : Nat) : Nat := shelf 0x18 i (0x10 + j)
/-- BUF_Q_AGE_US. -/
abbrev bufQAgeUs (i : Nat) (j : Nat) : Nat := shelf 0x18 i (0x20 + j)
/-- STACK_CFG. -/
abbrev stackCfg : Nat := shelf 0x19 0x0 0x0
/-- STACK_STATUS. -/
abbrev stackStatus : Nat := shelf 0x19 0x0 0x1
/-- STACK_REFILL_WAIT. -/
abbrev stackRefillWait : Nat := shelf 0x19 0x0 0x2
/-- STACK_ABANDONED. -/
abbrev stackAbandoned : Nat := shelf 0x19 0x0 0x3
/-- STACK_CH_ORG. -/
abbrev stackChOrg (i : Nat) : Nat := shelf 0x19 i 0x0
/-- STACK_CH_STATUS. -/
abbrev stackChStatus (i : Nat) : Nat := shelf 0x19 i 0x1
/-- STACK_CH_PAGES. -/
abbrev stackChPages (i : Nat) : Nat := shelf 0x19 i 0x2
/-- STACK_CH_ECC. -/
abbrev stackChEcc (i : Nat) : Nat := shelf 0x19 i 0x3
/-- STACK_CH_RETIRED_N. -/
abbrev stackChRetiredN (i : Nat) : Nat := shelf 0x19 i 0x4
/-- STACK_CH_TRAIN. -/
abbrev stackChTrain (i : Nat) : Nat := shelf 0x19 i 0x5
/-- STACK_RETIRED. -/
abbrev stackRetired (i : Nat) (j : Nat) : Nat := shelf 0x19 i (0x0 + j)
/-- STACK_Q_CFG. -/
abbrev stackQCfg (i : Nat) (j : Nat) : Nat := shelf 0x19 i (0x0 + j)
/-- STACK_Q_MAX. -/
abbrev stackQMax (i : Nat) (j : Nat) : Nat := shelf 0x19 i (0x8 + j)
/-- STACK_Q_STATUS. -/
abbrev stackQStatus (i : Nat) (j : Nat) : Nat := shelf 0x19 i (0x10 + j)
/-- AUDIT_CFG. -/
abbrev auditCfg : Nat := shelf 0x1A 0x0 0x0
/-- AUDIT_STATUS. -/
abbrev auditStatus : Nat := shelf 0x1A 0x0 0x1
/-- AUDIT_LEAKS. -/
abbrev auditLeaks : Nat := shelf 0x1A 0x0 0x2
/-- AUDIT_CROSSLINKS. -/
abbrev auditCrosslinks : Nat := shelf 0x1A 0x0 0x3
/-- AUDIT_COUNT_ERR. -/
abbrev auditCountErr : Nat := shelf 0x1A 0x0 0x4
/-- AUDIT_LAST. -/
abbrev auditLast : Nat := shelf 0x1A 0x0 0x5
/-- SCHED_CFG. -/
abbrev schedCfg (i : Nat) : Nat := shelf 0x1C i 0x0
/-- SCHED_DWRR_W. -/
abbrev schedDwrrW (i : Nat) : Nat := shelf 0x1C i 0x1
/-- SCHED_SHAPER_q. -/
abbrev schedShaperQ (i : Nat) (j : Nat) : Nat := shelf 0x1C i (0x8 + j)
/-- SCHED_STATUS. -/
abbrev schedStatus (i : Nat) : Nat := shelf 0x1C i 0x10
/-- GATE_CFG. -/
abbrev gateCfg (i : Nat) : Nat := shelf 0x1D i 0x0
/-- GATE_STATUS. -/
abbrev gateStatus (i : Nat) : Nat := shelf 0x1D i 0x1
/-- GATE_ADMIN_INFO. -/
abbrev gateAdminInfo (i : Nat) : Nat := shelf 0x1D i 0x2
/-- GATE_ADMIN_CYCLE_NS. -/
abbrev gateAdminCycleNs (i : Nat) : Nat := shelf 0x1D i 0x3
/-- GATE_ADMIN_BASE. -/
abbrev gateAdminBase (i : Nat) (j : Nat) : Nat := shelf 0x1D i (0x4 + j)
/-- GATE_PEND_START. -/
abbrev gatePendStart (i : Nat) (j : Nat) : Nat := shelf 0x1D i (0x6 + j)
/-- GATE_ADMIN_WAIT_q. -/
abbrev gateAdminWaitQ (i : Nat) (j : Nat) : Nat := shelf 0x1D i (0x8 + j)
/-- GATE_OPER_INFO. -/
abbrev gateOperInfo (i : Nat) : Nat := shelf 0x1D i 0x10
/-- GATE_OPER_BASE. -/
abbrev gateOperBase (i : Nat) (j : Nat) : Nat := shelf 0x1D i (0x12 + j)
/-- GATE_OPER_START. -/
abbrev gateOperStart (i : Nat) (j : Nat) : Nat := shelf 0x1D i (0x14 + j)
/-- GATE_OPER_WAIT_q. -/
abbrev gateOperWaitQ (i : Nat) (j : Nat) : Nat := shelf 0x1D i (0x18 + j)
/-- GATE_JUNCTION_WAIT_q. -/
abbrev gateJunctionWaitQ (i : Nat) (j : Nat) : Nat := shelf 0x1D i (0x1C + j)
/-- GATE_NOFIT. -/
abbrev gateNofit (i : Nat) : Nat := shelf 0x1D i 0x20
/-- GATE_RESTARTS. -/
abbrev gateRestarts (i : Nat) : Nat := shelf 0x1D i 0x21
/-- GATE_CYCLE_NS. -/
abbrev gateCycleNs (i : Nat) : Nat := shelf 0x1D i 0x40
/-- GATE_ENTRY. -/
abbrev gateEntry (i : Nat) (j : Nat) : Nat := shelf 0x1D i (0x0 + j)
/-- QMON_RING_BASE. -/
abbrev qmonRingBase : Nat := shelf 0x1E 0x0 0x0
/-- QMON_RING_CTRL. -/
abbrev qmonRingCtrl : Nat := shelf 0x1E 0x0 0x1
/-- QMON_DB. -/
abbrev qmonDb : Nat := shelf 0x1E 0x0 0x2
/-- QMON_PROD. -/
abbrev qmonProd : Nat := shelf 0x1E 0x0 0x3
/-- QMON_PERIOD. -/
abbrev qmonPeriod : Nat := shelf 0x1E 0x0 0x4
/-- QMON_LOST. -/
abbrev qmonLost : Nat := shelf 0x1E 0x0 0x5
/-- QMON_Q_EN. -/
abbrev qmonQEn (i : Nat) : Nat := shelf 0x1E i 0x0
/-- FRER_RCVY_PASSED. -/
abbrev frerRcvyPassed (i : Nat) (j : Nat) : Nat := shelf 0x13 i (0x0 + 8 * j)
/-- FRER_RCVY_DISCARDED. -/
abbrev frerRcvyDiscarded (i : Nat) (j : Nat) : Nat := shelf 0x13 i (0x1 + 8 * j)
/-- FRER_RCVY_OUT_OF_ORDER. -/
abbrev frerRcvyOutOfOrder (i : Nat) (j : Nat) : Nat := shelf 0x13 i (0x2 + 8 * j)
/-- FRER_RCVY_ROGUE. -/
abbrev frerRcvyRogue (i : Nat) (j : Nat) : Nat := shelf 0x13 i (0x3 + 8 * j)
/-- FRER_RCVY_LOST. -/
abbrev frerRcvyLost (i : Nat) (j : Nat) : Nat := shelf 0x13 i (0x4 + 8 * j)
/-- FRER_RCVY_TAGLESS. -/
abbrev frerRcvyTagless (i : Nat) (j : Nat) : Nat := shelf 0x13 i (0x5 + 8 * j)
/-- FRER_RCVY_RESETS. -/
abbrev frerRcvyResets (i : Nat) (j : Nat) : Nat := shelf 0x13 i (0x6 + 8 * j)
/-- FRER_RCVY_STATE. -/
abbrev frerRcvyState (i : Nat) (j : Nat) : Nat := shelf 0x13 i (0x7 + 8 * j)
/-- FRER_GEN_SEQ. -/
abbrev frerGenSeq (i : Nat) (j : Nat) : Nat := shelf 0x13 i (0x0 + j)
/-- FRER_PORT_CFG. -/
abbrev frerPortCfg (i : Nat) : Nat := shelf 0x13 i 0x0
/-- WATCH_LOST. -/
abbrev watchLost : Nat := shelf 0x2C 0x0 0x0
/-- WATCH_COUNTS. -/
abbrev watchCounts : Nat := shelf 0x2C 0x0 0x1
/-- WATCH_S_STATE. -/
abbrev watchSState (i : Nat) (j : Nat) : Nat := shelf 0x2C i (0x0 + 4 * j)
/-- WATCH_S_PKTS. -/
abbrev watchSPkts (i : Nat) (j : Nat) : Nat := shelf 0x2C i (0x1 + 4 * j)
/-- WATCH_S_ERR. -/
abbrev watchSErr (i : Nat) (j : Nat) : Nat := shelf 0x2C i (0x2 + 4 * j)
/-- WATCH_S_PDV. -/
abbrev watchSPdv (i : Nat) (j : Nat) : Nat := shelf 0x2C i (0x3 + 4 * j)
/-- PROOF_REFLECT_PORTS_LO. -/
abbrev proofReflectPortsLo : Nat := shelf 0x2D 0x0 0x0
/-- PROOF_REFLECT_PORTS_HI. -/
abbrev proofReflectPortsHi : Nat := shelf 0x2D 0x0 0x1
/-- PROOF_REFLECT_CNT. -/
abbrev proofReflectCnt : Nat := shelf 0x2D 0x0 0x2
/-- PROOF_ECHO_RATE. -/
abbrev proofEchoRate : Nat := shelf 0x2D 0x0 0x3
/-- PROOF_STATE. -/
abbrev proofState : Nat := shelf 0x2D 0x0 0x4
/-- PROOF_SUMMARY. -/
abbrev proofSummary : Nat := shelf 0x2D 0x0 0x5
/-- PROOF_LAST. -/
abbrev proofLast (j : Nat) : Nat := shelf 0x2D 0x0 (0x6 + j)
/-- PROOF_PATH_CFG. -/
abbrev proofPathCfg (i : Nat) : Nat := shelf 0x2D i 0x0
/-- PROOF_PATH_DEST. -/
abbrev proofPathDest (i : Nat) : Nat := shelf 0x2D i 0x1
/-- PROOF_PATH_PROBES. -/
abbrev proofPathProbes (i : Nat) : Nat := shelf 0x2D i 0x2
/-- PROOF_PATH_LIMITS. -/
abbrev proofPathLimits (i : Nat) : Nat := shelf 0x2D i 0x3
/-- PROOF_RES_COUNTS. -/
abbrev proofResCounts (i : Nat) : Nat := shelf 0x2D i 0x8
/-- PROOF_RES_MIN_NS. -/
abbrev proofResMinNs (i : Nat) : Nat := shelf 0x2D i 0x9
/-- PROOF_RES_MEAN_NS. -/
abbrev proofResMeanNs (i : Nat) : Nat := shelf 0x2D i 0xA
/-- PROOF_RES_MAX_NS. -/
abbrev proofResMaxNs (i : Nat) : Nat := shelf 0x2D i 0xB
/-- TIME_NOW_LO. -/
abbrev timeNowLo (i : Nat) : Nat := shelf 0x20 i 0x0
/-- TIME_NOW_HI. -/
abbrev timeNowHi (i : Nat) : Nat := shelf 0x20 i 0x1
/-- TIME_GEN. -/
abbrev timeGen (i : Nat) : Nat := shelf 0x20 i 0x2
/-- TIME_FREQ. -/
abbrev timeFreq (i : Nat) : Nat := shelf 0x20 i 0x3
/-- TIME_LATE_WINDOW_NS. -/
abbrev timeLateWindowNs (i : Nat) : Nat := shelf 0x20 i 0x4
/-- TIME_STEPS. -/
abbrev timeSteps (i : Nat) : Nat := shelf 0x20 i 0x5
/-- TIME_LAST_STEP. -/
abbrev timeLastStep (i : Nat) : Nat := shelf 0x20 i 0x6
/-- TIME_LAST_STEP_AT. -/
abbrev timeLastStepAt (i : Nat) (j : Nat) : Nat := shelf 0x20 i (0x7 + j)
/-- TIME_SCHED_COUNT. -/
abbrev timeSchedCount : Nat := shelf 0x20 0x3FF 0x0
/-- LEDGER_RING_BASE. -/
abbrev ledgerRingBase (i : Nat) : Nat := shelf 0x21 i 0x0
/-- LEDGER_RING_CTRL. -/
abbrev ledgerRingCtrl (i : Nat) : Nat := shelf 0x21 i 0x1
/-- LEDGER_RING_DB. -/
abbrev ledgerRingDb (i : Nat) : Nat := shelf 0x21 i 0x2
/-- LEDGER_RING_PROD. -/
abbrev ledgerRingProd (i : Nat) : Nat := shelf 0x21 i 0x3
/-- LEDGER_RING_SEL. -/
abbrev ledgerRingSel (i : Nat) : Nat := shelf 0x21 i 0x4
/-- LEDGER_RING_LOST. -/
abbrev ledgerRingLost (i : Nat) : Nat := shelf 0x21 i 0x5
/-- LEDGER_CFG. -/
abbrev ledgerCfg : Nat := shelf 0x21 0x3FF 0x0
/-- LEDGER_EVIN_EN. -/
abbrev ledgerEvinEn : Nat := shelf 0x21 0x3FF 0x1
/-- LEDGER_NO_RING. -/
abbrev ledgerNoRing : Nat := shelf 0x21 0x3FF 0x2
/-- LEDGER_PORT_FIFO. -/
abbrev ledgerPortFifo (i : Nat) : Nat := shelf 0x21 i 0x0
/-- PTP_INST_CFG. -/
abbrev ptpInstCfg (i : Nat) : Nat := shelf 0x22 i 0x0
/-- PTP_INST_QUAL. -/
abbrev ptpInstQual (i : Nat) : Nat := shelf 0x22 i 0x1
/-- PTP_INST_ID. -/
abbrev ptpInstId (i : Nat) : Nat := shelf 0x22 i 0x2
/-- PTP_SERVO_STEP. -/
abbrev ptpServoStep (i : Nat) : Nat := shelf 0x22 i 0x3
/-- PTP_SERVO_CFG. -/
abbrev ptpServoCfg (i : Nat) : Nat := shelf 0x22 i 0x4
/-- PTP_DELAY_LIMITS. -/
abbrev ptpDelayLimits (i : Nat) : Nat := shelf 0x22 i 0x5
/-- PTP_PARENT_ID. -/
abbrev ptpParentId (i : Nat) : Nat := shelf 0x22 i 0x8
/-- PTP_GM_ID. -/
abbrev ptpGmId (i : Nat) : Nat := shelf 0x22 i 0x9
/-- PTP_GM_INFO. -/
abbrev ptpGmInfo (i : Nat) : Nat := shelf 0x22 i 0xA
/-- PTP_INST_STATUS. -/
abbrev ptpInstStatus (i : Nat) : Nat := shelf 0x22 i 0xB
/-- PTP_INST_CNT. -/
abbrev ptpInstCnt (i : Nat) : Nat := shelf 0x22 i 0xC
/-- PTP_OFFSET. -/
abbrev ptpOffset (i : Nat) : Nat := shelf 0x22 i 0xD
/-- PTP_PORT_CFG. -/
abbrev ptpPortCfg (i : Nat) : Nat := shelf 0x22 i 0x0
/-- PTP_PORT_CFG2. -/
abbrev ptpPortCfg2 (i : Nat) : Nat := shelf 0x22 i 0x1
/-- PTP_PORT_STATUS. -/
abbrev ptpPortStatus (i : Nat) : Nat := shelf 0x22 i 0x2
/-- PTP_PORT_DELAY. -/
abbrev ptpPortDelay (i : Nat) : Nat := shelf 0x22 i 0x3
/-- PTP_PORT_CNT. -/
abbrev ptpPortCnt (i : Nat) : Nat := shelf 0x22 i 0x4
/-- PTP_PORT_ERR. -/
abbrev ptpPortErr (i : Nat) : Nat := shelf 0x22 i 0x5
/-- PCS_LINK_CFG. -/
abbrev pcsLinkCfg (i : Nat) : Nat := shelf 0x0A i 0x0
/-- PCS_LINK_ASYM_COEFF. -/
abbrev pcsLinkAsymCoeff (i : Nat) : Nat := shelf 0x0A i 0x1
/-- PCS_LINK_ASYM_CONST. -/
abbrev pcsLinkAsymConst (i : Nat) : Nat := shelf 0x0A i 0x2
/-- PCS_LINK_RX_FIX. -/
abbrev pcsLinkRxFix (i : Nat) : Nat := shelf 0x0A i 0x3
/-- PCS_LINK_TX_FIX. -/
abbrev pcsLinkTxFix (i : Nat) : Nat := shelf 0x0A i 0x4
/-- PCS_LINK_RX_DELAY. -/
abbrev pcsLinkRxDelay (i : Nat) : Nat := shelf 0x0A i 0x5
/-- PCS_LINK_TX_DELAY. -/
abbrev pcsLinkTxDelay (i : Nat) : Nat := shelf 0x0A i 0x6
/-- PCS_LINK_STATE. -/
abbrev pcsLinkState (i : Nat) : Nat := shelf 0x0A i 0x7
/-- PCS_LINK_CTRL. -/
abbrev pcsLinkCtrl (i : Nat) : Nat := shelf 0x0A i 0x8
/-- PCS_LINK_T_IN. -/
abbrev pcsLinkTIn (i : Nat) : Nat := shelf 0x0A i 0x9
/-- PCS_LINK_T_OUT. -/
abbrev pcsLinkTOut (i : Nat) : Nat := shelf 0x0A i 0xA
/-- PCS_LINK_LAST. -/
abbrev pcsLinkLast (i : Nat) : Nat := shelf 0x0A i 0xB
/-- PCS_LINK_CNT. -/
abbrev pcsLinkCnt (i : Nat) : Nat := shelf 0x0A i 0xC
/-- HLANE_DDMTD_RX. -/
abbrev hlaneDdmtdRx (i : Nat) : Nat := shelf 0x08 i 0x18
/-- HLANE_DDMTD_TX. -/
abbrev hlaneDdmtdTx (i : Nat) : Nat := shelf 0x08 i 0x19
/-- HLANE_DDMTD_RATE. -/
abbrev hlaneDdmtdRate (i : Nat) : Nat := shelf 0x08 i 0x1A
/-- HLANE_DDMTD_STATUS. -/
abbrev hlaneDdmtdStatus (i : Nat) : Nat := shelf 0x08 i 0x1B
/-- TIME_DDMTD_CFG. -/
abbrev timeDdmtdCfg : Nat := shelf 0x20 0x3FF 0x10
/-- TIME_REPLICA_PHASE. -/
abbrev timeReplicaPhase (j : Nat) : Nat := shelf 0x20 0x3FF (0x11 + j)
/-- TIME_REPLICA_GLITCH. -/
abbrev timeReplicaGlitch : Nat := shelf 0x20 0x3FF 0x15
/-- REFSEL_REF_CFG. -/
abbrev refselRefCfg (i : Nat) : Nat := shelf 0x24 i 0x0
/-- REFSEL_REF_QUAL. -/
abbrev refselRefQual (i : Nat) : Nat := shelf 0x24 i 0x1
/-- REFSEL_REF_DELAY. -/
abbrev refselRefDelay (i : Nat) : Nat := shelf 0x24 i 0x2
/-- REFSEL_REF_STATUS. -/
abbrev refselRefStatus (i : Nat) : Nat := shelf 0x24 i 0x3
/-- REFSEL_REF_CNT. -/
abbrev refselRefCnt (i : Nat) : Nat := shelf 0x24 i 0x4
/-- REFSEL_SEL_CFG. -/
abbrev refselSelCfg (i : Nat) : Nat := shelf 0x24 i 0x0
/-- REFSEL_RANK_LO. -/
abbrev refselRankLo (i : Nat) : Nat := shelf 0x24 i 0x1
/-- REFSEL_RANK_HI. -/
abbrev refselRankHi (i : Nat) : Nat := shelf 0x24 i 0x2
/-- REFSEL_SEL_STATUS. -/
abbrev refselSelStatus (i : Nat) : Nat := shelf 0x24 i 0x3
/-- REFSEL_SEL_CNT. -/
abbrev refselSelCnt (i : Nat) : Nat := shelf 0x24 i 0x4
/-- REFSEL_PORT_CFG. -/
abbrev refselPortCfg (i : Nat) : Nat := shelf 0x24 i 0x0
/-- REFSEL_PORT_STATUS. -/
abbrev refselPortStatus (i : Nat) : Nat := shelf 0x24 i 0x1
/-- DPLL_CFG. -/
abbrev dpllCfg (i : Nat) : Nat := shelf 0x25 i 0x0
/-- DPLL_HO_CFG. -/
abbrev dpllHoCfg (i : Nat) : Nat := shelf 0x25 i 0x1
/-- DPLL_SWITCH_CFG. -/
abbrev dpllSwitchCfg (i : Nat) : Nat := shelf 0x25 i 0x2
/-- DPLL_FIRST_STEP_NS. -/
abbrev dpllFirstStepNs (i : Nat) : Nat := shelf 0x25 i 0x3
/-- DPLL_CTRL. -/
abbrev dpllCtrl (i : Nat) : Nat := shelf 0x25 i 0x4
/-- DPLL_STATUS. -/
abbrev dpllStatus (i : Nat) : Nat := shelf 0x25 i 0x8
/-- DPLL_HO_FREQ. -/
abbrev dpllHoFreq (i : Nat) : Nat := shelf 0x25 i 0x9
/-- DPLL_PHASE_ERR. -/
abbrev dpllPhaseErr (i : Nat) : Nat := shelf 0x25 i 0xA
/-- DPLL_PENDING_PHASE. -/
abbrev dpllPendingPhase (i : Nat) : Nat := shelf 0x25 i 0xB
/-- DPLL_USER_OFFSET. -/
abbrev dpllUserOffset (i : Nat) : Nat := shelf 0x25 i 0xC
/-- DPLL_CNT. -/
abbrev dpllCnt (i : Nat) : Nat := shelf 0x25 i 0xD
/-- OUT_CFG. -/
abbrev outCfg (i : Nat) : Nat := shelf 0x26 i 0x0
/-- OUT_PHASE. -/
abbrev outPhase (i : Nat) : Nat := shelf 0x26 i 0x1
/-- OUT_PULSE. -/
abbrev outPulse (i : Nat) : Nat := shelf 0x26 i 0x2
/-- OUT_TOD_UTC. -/
abbrev outTodUtc (i : Nat) : Nat := shelf 0x26 i 0x3
/-- OUT_SLEW_PPB. -/
abbrev outSlewPpb (i : Nat) : Nat := shelf 0x26 i 0x4
/-- OUT_STATUS. -/
abbrev outStatus (i : Nat) : Nat := shelf 0x26 i 0x8
/-- OUT_TIME_OFFSET. -/
abbrev outTimeOffset (i : Nat) : Nat := shelf 0x26 i 0x9
/-- CAL_CFG. -/
abbrev calCfg : Nat := shelf 0x28 0x3FF 0x0
/-- CAL_FORCE_CFG. -/
abbrev calForceCfg : Nat := shelf 0x28 0x3FF 0x1
/-- CAL_SUMMARY. -/
abbrev calSummary : Nat := shelf 0x28 0x3FF 0x2
/-- CAL_PORT_CFG. -/
abbrev calPortCfg (i : Nat) : Nat := shelf 0x28 i 0x0
/-- CAL_PORT_CNT. -/
abbrev calPortCnt (i : Nat) : Nat := shelf 0x28 i 0x1
/-- CAL_PORT_STEPS. -/
abbrev calPortSteps (i : Nat) : Nat := shelf 0x28 i 0x2
/-- CAL_LANE_RX_RAW. -/
abbrev calLaneRxRaw (i : Nat) : Nat := shelf 0x28 i 0x0
/-- CAL_LANE_RX_FIX. -/
abbrev calLaneRxFix (i : Nat) : Nat := shelf 0x28 i 0x1
/-- CAL_LANE_TX_RAW. -/
abbrev calLaneTxRaw (i : Nat) : Nat := shelf 0x28 i 0x2
/-- CAL_LANE_TX_FIX. -/
abbrev calLaneTxFix (i : Nat) : Nat := shelf 0x28 i 0x3
/-- CAL_LANE_REF_PATH. -/
abbrev calLaneRefPath (i : Nat) : Nat := shelf 0x28 i 0x4
/-- CAL_LANE_DDMTD_OFS. -/
abbrev calLaneDdmtdOfs (i : Nat) : Nat := shelf 0x28 i 0x5
/-- CAL_LANE_STATE. -/
abbrev calLaneState (i : Nat) : Nat := shelf 0x28 i 0x6
/-- CAL_LANE_AGE. -/
abbrev calLaneAge (i : Nat) : Nat := shelf 0x28 i 0x7
/-- CAL_ITEM_RAW. -/
abbrev calItemRaw (i : Nat) : Nat := shelf 0x28 i 0x0
/-- CAL_ITEM_FIX. -/
abbrev calItemFix (i : Nat) : Nat := shelf 0x28 i 0x1
/-- CAL_ITEM_STATE. -/
abbrev calItemState (i : Nat) : Nat := shelf 0x28 i 0x2
/-- CAL_TDC_INL. -/
abbrev calTdcInl (i : Nat) (j : Nat) : Nat := shelf 0x28 i (0x0 + j)
/-- CAL_TDC_STATE. -/
abbrev calTdcState : Nat := shelf 0x28 0x242 0x0
/-- TDC_IN_CFG. -/
abbrev tdcInCfg (i : Nat) : Nat := shelf 0x27 i 0x0
/-- TDC_IN_DELAY. -/
abbrev tdcInDelay (i : Nat) : Nat := shelf 0x27 i 0x1
/-- TDC_IN_CNT. -/
abbrev tdcInCnt (i : Nat) : Nat := shelf 0x27 i 0x2
/-- TDC_IN_LEDGER_SKIP. -/
abbrev tdcInLedgerSkip (i : Nat) : Nat := shelf 0x27 i 0x3
/-- TDC_STATE. -/
abbrev tdcState : Nat := shelf 0x27 0x3FF 0x0
/-- TDC_SAMPLES. -/
abbrev tdcSamples : Nat := shelf 0x27 0x3FF 0x1
/-- TDC_MEAN. -/
abbrev tdcMean : Nat := shelf 0x27 0x3FF 0x2
/-- TDC_SDEV. -/
abbrev tdcSdev : Nat := shelf 0x27 0x3FF 0x3
/-- TDC_MIN. -/
abbrev tdcMin : Nat := shelf 0x27 0x3FF 0x4
/-- TDC_MAX. -/
abbrev tdcMax : Nat := shelf 0x27 0x3FF 0x5
/-- TDC_FIRST. -/
abbrev tdcFirst (j : Nat) : Nat := shelf 0x27 0x3FF (0x6 + j)
/-- TDC_LAST. -/
abbrev tdcLast (j : Nat) : Nat := shelf 0x27 0x3FF (0x8 + j)
/-- PAIR_CFG. -/
abbrev pairCfg : Nat := shelf 0x2A 0x0 0x0
/-- PAIR_ID. -/
abbrev pairId : Nat := shelf 0x2A 0x0 0x1
/-- PAIR_B_DEST. -/
abbrev pairBDest : Nat := shelf 0x2A 0x0 0x2
/-- PAIR_TIMERS. -/
abbrev pairTimers : Nat := shelf 0x2A 0x0 0x3
/-- PAIR_CONTACT_MASK. -/
abbrev pairContactMask : Nat := shelf 0x2A 0x0 0x4
/-- PAIR_STATE. -/
abbrev pairState : Nat := shelf 0x2A 0x0 0x8
/-- PAIR_PARTNER_UID. -/
abbrev pairPartnerUid : Nat := shelf 0x2A 0x0 0x9
/-- PAIR_CNT. -/
abbrev pairCnt : Nat := shelf 0x2A 0x0 0xA
/-- PAIR_RX_ERR. -/
abbrev pairRxErr : Nat := shelf 0x2A 0x0 0xB
/-- PAIR_LAST_GAP. -/
abbrev pairLastGap : Nat := shelf 0x2A 0x0 0xC
/-- HEALTH_CFG. -/
abbrev healthCfg : Nat := shelf 0x2B 0x0 0x0
/-- HEALTH_SELFTEST. -/
abbrev healthSelftest : Nat := shelf 0x2B 0x0 0x1
/-- HEALTH_REPORT. -/
abbrev healthReport : Nat := shelf 0x2B 0x0 0x2
/-- HEALTH_PROOF_SUMMARY. -/
abbrev healthProofSummary : Nat := shelf 0x2B 0x0 0x3
/-- HEALTH_PROOF_LAST. -/
abbrev healthProofLast (j : Nat) : Nat := shelf 0x2B 0x0 (0x4 + j)
/-- HEALTH_AUDIT. -/
abbrev healthAudit : Nat := shelf 0x2B 0x0 0x6
/-- HEALTH_SELFTEST_CNT. -/
abbrev healthSelftestCnt : Nat := shelf 0x2B 0x0 0x7
/-- HEALTH_PARTNER. -/
abbrev healthPartner : Nat := shelf 0x2B 0x0 0x8
/-- PERF_SEL. -/
abbrev perfSel (i : Nat) : Nat := shelf 0x30 i 0x0
/-- PERF_THRESH. -/
abbrev perfThresh (i : Nat) : Nat := shelf 0x30 i 0x1
/-- PERF_CNT. -/
abbrev perfCnt (i : Nat) : Nat := shelf 0x30 i 0x2
/-- PERF_SAMPLE. -/
abbrev perfSample (i : Nat) : Nat := shelf 0x30 i 0x3
/-- PERF_STATUS. -/
abbrev perfStatus (i : Nat) : Nat := shelf 0x30 i 0x4
/-- PERF_CTRL. -/
abbrev perfCtrl : Nat := shelf 0x30 0x3FF 0x0
/-- PERF_USER_MASK. -/
abbrev perfUserMask : Nat := shelf 0x30 0x3FF 0x1
/-- PERF_CYCLES. -/
abbrev perfCycles : Nat := shelf 0x30 0x3FF 0x2
/-- PERF_OVF_ALL. -/
abbrev perfOvfAll : Nat := shelf 0x30 0x3FF 0x3
/-- THERM_VALUE. -/
abbrev thermValue (i : Nat) : Nat := shelf 0x31 i 0x0
/-- THERM_MINMAX. -/
abbrev thermMinmax (i : Nat) : Nat := shelf 0x31 i 0x1
/-- THERM_ALARM_CFG. -/
abbrev thermAlarmCfg (i : Nat) : Nat := shelf 0x31 i 0x2
/-- THERM_ALARM_STATUS. -/
abbrev thermAlarmStatus (i : Nat) : Nat := shelf 0x31 i 0x3
/-- THERM_CFG. -/
abbrev thermCfg : Nat := shelf 0x31 0x3FF 0x0
/-- GPIO_DIR. -/
abbrev gpioDir : Nat := shelf 0x34 0x0 0x0
/-- GPIO_OUT. -/
abbrev gpioOut : Nat := shelf 0x34 0x0 0x1
/-- GPIO_IN. -/
abbrev gpioIn : Nat := shelf 0x34 0x0 0x2
/-- GPIO_OD. -/
abbrev gpioOd : Nat := shelf 0x34 0x0 0x3
/-- GPIO_DRIVE. -/
abbrev gpioDrive : Nat := shelf 0x34 0x0 0x4
/-- GPIO_FORCE. -/
abbrev gpioForce : Nat := shelf 0x34 0x0 0x5
/-- GPIO_STATE. -/
abbrev gpioState : Nat := shelf 0x34 0x0 0x6
/-- I2C_CFG. -/
abbrev i2cCfg (i : Nat) : Nat := shelf 0x34 i 0x0
/-- I2C_XFER. -/
abbrev i2cXfer (i : Nat) : Nat := shelf 0x34 i 0x1
/-- I2C_STATUS. -/
abbrev i2cStatus (i : Nat) : Nat := shelf 0x34 i 0x2
/-- MAC_STEP_TLV. -/
abbrev macStepTlv : Nat := shelf 0x0C 0x0 0x10
/-- ELANE_MODE. -/
abbrev elaneMode (i : Nat) : Nat := shelf 0x09 i 0x0
/-- ELANE_CFG. -/
abbrev elaneCfg (i : Nat) : Nat := shelf 0x09 i 0x1
/-- ELANE_TXEQ. -/
abbrev elaneTxeq (i : Nat) : Nat := shelf 0x09 i 0x2
/-- ELANE_CTLE. -/
abbrev elaneCtle (i : Nat) : Nat := shelf 0x09 i 0x3
/-- ELANE_CTLE_STATUS. -/
abbrev elaneCtleStatus (i : Nat) : Nat := shelf 0x09 i 0x4
/-- ELANE_STATE. -/
abbrev elaneState (i : Nat) : Nat := shelf 0x09 i 0x5
/-- ELANE_RESTART. -/
abbrev elaneRestart (i : Nat) : Nat := shelf 0x09 i 0x6
/-- ELANE_LOCK_RX. -/
abbrev elaneLockRx (i : Nat) : Nat := shelf 0x09 i 0x8
/-- ELANE_RX_VAR. -/
abbrev elaneRxVar (i : Nat) : Nat := shelf 0x09 i 0x9
/-- ELANE_LOCK_TX. -/
abbrev elaneLockTx (i : Nat) : Nat := shelf 0x09 i 0xA
/-- ELANE_LOCK_CNT. -/
abbrev elaneLockCnt (i : Nat) : Nat := shelf 0x09 i 0xB
/-- ELANE_SLEEP_CNT. -/
abbrev elaneSleepCnt (i : Nat) : Nat := shelf 0x09 i 0xC
/-- ELANE_EYE. -/
abbrev elaneEye (i : Nat) : Nat := shelf 0x09 i 0x10
/-- ELANE_SNR. -/
abbrev elaneSnr (i : Nat) : Nat := shelf 0x09 i 0x11
/-- ELANE_MARGIN_CTRL. -/
abbrev elaneMarginCtrl (i : Nat) : Nat := shelf 0x09 i 0x12
/-- ELANE_MARGIN_RES. -/
abbrev elaneMarginRes (i : Nat) : Nat := shelf 0x09 i 0x13
/-- ELANE_DDMTD_RX. -/
abbrev elaneDdmtdRx (i : Nat) : Nat := shelf 0x09 i 0x18
/-- ELANE_DDMTD_TX. -/
abbrev elaneDdmtdTx (i : Nat) : Nat := shelf 0x09 i 0x19
/-- ELANE_DDMTD_RATE. -/
abbrev elaneDdmtdRate (i : Nat) : Nat := shelf 0x09 i 0x1A
/-- ELANE_DDMTD_STATUS. -/
abbrev elaneDdmtdStatus (i : Nat) : Nat := shelf 0x09 i 0x1B
end Reg

end Sys2Proof.Machine
end

