-- ==== Sys2Proof/Machine/State.lean ====
section
/-! DEFINITION. The state of the part, as plain data: every parameter word the spec's tables give (one sparse store, keyed
by shelfmark), the state behind them, and the queue of waiting commands. State.reset is the machine right after reset. -/
namespace Sys2Proof.Machine

/-- Why the machine stops: it never does. No rule of the spec stops the part, so the type has no constructor. -/
inductive Fault where
  deriving DecidableEq, Repr

/-- Why a command has no meaning. -/
inductive Refusal where
  /-- A row of the table with no meaning yet, by mnemonic. Safe: nothing can be proved of it. -/
  | notModelled (mnemonic : String)
  deriving DecidableEq, Repr

/-- What leaves the package during a command: the model's own record, cleared when the next command begins
(notes/assumptions/2.md). -/
inductive Output where
  /-- A write of bytes to host memory over PCIe. -/
  | dma (addr : Nat) (bytes : List Byte)
  /-- An MSI-X message of a vector (R81). -/
  | msix (vector : Nat)
  /-- Bytes the side-band SPI returns in a transaction (R85). -/
  | spi (bytes : List Byte)
  /-- ATTN_N: true low, false high; a rise and fall is two entries (R86). -/
  | attn (low : Bool)
  /-- The value a BAR0 read returns. -/
  | bar0 (value : Nat)
  /-- The first byte of a frame leaves a port. -/
  | frame (port : Nat) (bytes : List Byte)
  /-- A MAC control frame (PAUSE or PFC) leaves a port. -/
  | control (port : Nat) (bytes : List Byte)
  /-- The frame under way on a port ends with a stomped FCS in place of its own (R246). -/
  | stomp (port : Nat)
  /-- A Verify (false) or Respond (true) mPacket leaves a port (R167). -/
  | mpacket (port : Nat) (respond : Bool)
  /-- A port's Clause 37 exchange advertises full duplex, and the ability to receive PAUSE or not (R156). -/
  | an37 (port : Nat) (pause : Bool)
  /-- A timing output starts (true) or stops (false) driving. -/
  | drive (output : Nat) (on : Bool)
  /-- A time-of-day message leaves TODTX n. -/
  | tod (n : Nat) (bytes : List Byte)
  /-- A bellflower leaves heartbeat path A: the bytes between K27.7 and K29.7 (R424). -/
  | bellflower (bytes : List Byte)
  /-- PAIR_FENCE_OUT is asserted (true) or released. -/
  | fence (asserted : Bool)
  /-- An I2C transfer starts on controller k. -/
  | i2c (k : Nat) (read : Bool) (device register value : Nat)
  deriving DecidableEq, Repr

/-- A reply kept for retransmission (R61). -/
structure Kept where
  seq : Nat
  opcode : Nat
  tag : Nat
  status : Nat
  reply : List Byte
  deriving DecidableEq, Repr

/-- Where a reply goes and what it repeats of its request (R54, R56, R63, R77, R84). -/
structure ReplyTo where
  via : Via
  version : Nat
  flags : Nat
  opcode : Nat
  tag : Nat
  seq : Nat
  num : Nat
  key : Option Nat
  buf : Nat
  slot : Nat
  port : Nat
  src : Nat
  vlan : Option Nat
  deriving DecidableEq, Repr

/-- A chain in progress (R66): its payload so far, whether it has passed 1 MiB or lost its block's lease
(R92), the tick of its last packet (R67), and where its reply goes. -/
structure Chain where
  opcode : Nat
  tag : Nat
  data : List Byte
  tooLong : Bool
  lost : Bool
  last : Nat
  dest : ReplyTo
  deriving DecidableEq, Repr

/-- The session of a transport (R61, R62): its number, the key slot when authenticated, S, kept replies and chain. -/
structure Session where
  num : Nat
  key : Option Nat
  last : Option Nat
  kept : List Kept
  chain : Option Chain
  deriving DecidableEq, Repr

/-- A transport: its session and the AUTH accounting of R65: the run of AUTH results, since when it is locked out, the AUTH
results of the last second, and when AUTH_FAILURES was last raised. -/
structure Transport where
  session : Session
  authRun : Nat
  lockout : Option Nat
  authTicks : List Nat
  lastAuthEvent : Option Nat
  deriving DecidableEq, Repr

/-- Work that ends in a later reply. -/
inductive Job where
  /-- FW_STAGE: kind, slot, erase, final, offset and data (R113). -/
  | flash (kind slot : Nat) (erase final : Bool) (offset : Nat) (data : List Byte)
  /-- FW_ACTIVATE now: kind and slot (R115). -/
  | activate (kind slot : Nat)
  /-- STAT_SNAPSHOT with NOW or late: the reply follows the bank (R179). -/
  | snapshot (late : Bool)
  deriving DecidableEq, Repr

/-- A command whose reply comes later, with the master that sent it: whether its session still runs, so that the reply is kept
(R61), and whether PD1 has gone off since, so that none is written (R82). -/
structure Deferred where
  dest : ReplyTo
  job : Job
  keep : Bool
  mute : Bool
  deriving DecidableEq, Repr

/-- The command side: transports, rings, side-band queues (requests accepted under R61 with their payloads, and those not yet
checked), events, activity and leases' hidden state (chapter 02); held and
lastSignal are the moderated vectors with a signal held and the tick of each one's last (R201), spiEdges the SB_SCK edges of the
side-band transactions of the last 1 ms, by tick (R50), and sbWait the answers to requests that were never started, for which no
reply slot is free yet (R44, R86). -/
structure Ctl where
  pcie : Transport
  inband : Transport
  sideband : Transport
  sessionOpens : Nat
  cmdProd : Nat
  rplCons : Nat
  evtCons : Nat
  outstanding : Nat
  inbandOut : Nat
  hostEvtSeq : Nat
  sbEvtSeq : Nat
  hostLost : Nat
  sbLost : Nat
  sbAccepted : List (ReplyTo × List Byte)
  sbReq : List (List Byte)
  sbReplies : List (List Byte)
  sbWait : List (List Byte)
  sbRunning : Nat
  sbEvents : List (List Byte)
  sbFraming : Bool
  hostActive : Nat
  sbActive : Nat
  hostSilentSent : Bool
  sbSilentSent : Bool
  lastLeaseDrop : Option Nat
  lastRefused : Option Nat
  deferred : List Deferred
  leasesAssigned : Bool
  held : List Nat
  lastSignal : List (Nat × Nat)
  spiEdges : List (Nat × Nat)
  deriving DecidableEq, Repr

/-- One engine (R41, R44): whether its image is selected, it runs, its mailbox holds it stalled, and its restarts. -/
structure Engine where
  selected : Bool
  running : Bool
  stalled : Bool
  restarts : Nat
  deriving DecidableEq, Repr

/-- Start-up state behind DEV, FW and PWR (chapter 03): the boot flash and its fuses (the hash of each key index, none unfused,
and the indices revoked); whether the cold-boot count is known; the stage of start-up (0 awaits the boot header, 1 the selection,
2 selected); the size of the flash in Mib (R102); the header copy in force and its bytes (R104) and the slots in use; the bodies
loaded into shared firmware memory, by offset (R107); the FW values of the configuration block, and whether
they have been loaded since cold reset; which tables are loaded, the last epoch
they formed and the pairs filled; the PCIe link, PERST_N and the vendor, subsystem vendor and subsystem IDs (R76); when each trial image started; the slots that have passed FINAL;
a reset by code that is due (cold or warm, and when); since when each power domain changes; whether PD14 has started since cold
reset; the stored holdover frequencies with the cold boot that wrote each (R111) and when each was last stored; and a
READY_CHANGE being merged: since when, and the old word; and the I2C controllers whose transfer in progress is a read. -/
structure Boot where
  flash : List Host.Cell
  fuses : List (List Byte)
  revoked : Nat
  countKnown : Bool
  stage : Nat
  flashMib : Nat
  headerCopy : Option Nat
  header : List Byte
  memory : List (Nat × List Byte)
  cfgSlot : Option Nat
  opSlot : Option Nat
  timeSlot : Option Nat
  cfg : List (Nat × Word)
  fwLoaded : Bool
  tablesLoaded : Bool
  lastEpoch : Nat
  pipeFilled : Nat
  linkUp : Bool
  perstLow : Bool
  pcieIds : Nat × Nat × Nat
  trialAt : List (Nat × Nat)
  checked : List (Nat × Nat)
  resetDue : Option (Bool × Nat)
  transit : List (Nat × Nat)
  timeStarted : Bool
  holdover : List (Nat × (Int × Nat))
  storedTick : List (Nat × Nat)
  readyMerge : Option (Nat × Nat)
  i2cReads : List Nat := []
  deriving DecidableEq, Repr

/-- A stamp of a time domain: its step-free value and its time, in units of 2^-16 ns, and the generation (R305, R308). -/
structure Stamp where
  dom : Nat
  run : Nat
  time : Nat
  gen : Nat
  deriving DecidableEq, Repr

/-- A time domain (R303, R304): run is its step-free advance and shift the sum of its steps, in units of
1 / (5 * 2^40) ns; freq is its frequency offset (R22). -/
structure Domain where
  run : Nat
  shift : Int
  freq : Int
  gen : Nat
  deriving DecidableEq, Repr

/-- A pending one-shot action (R316): t is its domain time in 2^-16 ns, data its command's payload. -/
structure Action where
  handle : Nat
  opcode : Nat
  tag : Nat
  master : Nat
  dom : Nat
  t : Nat
  data : List Byte
  deriving DecidableEq, Repr

/-- A step that executes at once and waits for the next replica realignment (R306): its amount, or the new time when it is
absolute, in 2^-16 ns, its cause (R324), and the late action whose outcome its landing reports (R13, R94). -/
structure Landing where
  dom : Nat
  absolute : Bool
  amount : Int
  cause : Nat
  told : Option Action := none
  deriving DecidableEq, Repr

/-- The timing core's hidden state: domains, pending actions, landings and the TIME_NOW_HI latches. -/
structure Clock where
  domains : List Domain
  actions : List Action
  lastHandle : Nat
  landings : List Landing
  latches : List (Nat × Nat)
  deriving DecidableEq, Repr

/-- A ledger ring behind its parameters (R322-R327): the host's count, records lost since the last gap record, whether the
next record carries GAP, the run value of each domain's last anchor, and the domains whose next stamp carries DISC. -/
structure LedgerRing where
  cons : Nat
  lost : Nat
  gapNext : Bool
  anchors : List (Nat × Nat)
  disc : List Nat
  lossDue : Nat
  lossTick : Option Nat
  deriving DecidableEq, Repr

/-- A record on its way to the ledger or to a PTP engine (R323). -/
structure StampRecord where
  kind : Nat
  stamp : Stamp
  level : Nat
  unit : Nat
  seq : Nat
  mtype : Nat
  stale : Bool
  tag : Nat
  toEngine : Bool
  deriving DecidableEq, Repr

/-- The open gap record of a port stamp FIFO (R323). -/
structure FifoGapState where
  first : StampRecord
  lastSeq : Nat
  count : Nat
  deriving DecidableEq, Repr

/-- The egress stamp FIFO of a port (R323). -/
structure StampFifo where
  held : List StampRecord
  gap : Option FifoGapState
  lossDue : Nat
  lossTick : Option Nat
  deriving DecidableEq, Repr

/-- A frame in the device (R200): its bytes from the destination address up to the FCS, the length received, its parse and
classification results, its stamps, the cells it was stored in (R213), and the step-free values of the eight domains at its
ingress stamp (R268). -/
structure Frame where
  id : Nat
  data : List Byte
  len : Nat
  port : Nat
  err : Nat
  csum : Nat
  epoch : Nat
  stamp : Stamp
  ptp : Option (Nat × Stamp)
  queue : Nat
  pcp : Nat
  dei : Nat
  vid : Nat
  tagged : Bool
  hit : Option Nat
  action : Nat
  stream : Option Nat
  seq : Option Nat
  gen : Bool
  prio : Nat
  stale : Bool
  carrel : Bool
  csumReq : Nat
  cells : List Nat := []
  runs : List Nat := []
  deriving DecidableEq, Repr

/-- One copy in a queue (R215, R225): its frame, its serial number in the queue, its cells in all, on chip, in chain pages
and under page write, its segment (0 head, 1 tail, 2 chain), how it leaves, the tick at which it joined, the cells it was refilled into
(R228), its length as the scheduler takes it (R253), and whether R257 has been decided for it. -/
structure Copy where
  frame : Nat
  serial : Nat
  cells : Nat
  on : Nat
  pages : Nat
  writing : Nat
  seg : Nat
  lent : Bool
  len : Nat
  mirror : Option Nat
  sample : Option Nat
  kind : Nat
  polDrop : Bool
  frerElim : Bool
  untag : Bool
  ts : Option Nat
  cut : Bool
  joined : Nat := 0
  refill : List Nat := []
  sched : Nat := 0
  judged : Bool := false
  deriving DecidableEq, Repr

/-- A page of the stacks, or one under write (R227, R240): its channel, its number, the cells it holds of each copy by
serial number, the newest stamp of a frame that starts in it, the chain generation and the serial number of the first frame that
starts in it, and, while it is being read, the cells issued for it (R228). The links of its header follow from the chain's order
(State.pageHeader). -/
structure Page where
  ch : Nat
  num : Nat
  parts : List (Nat × Nat)
  newest : Option Nat
  gen : Nat := 0
  first : Option Nat := none
  cells : List Nat := []
  deriving DecidableEq, Repr

/-- An egress queue: its copies in order, its chain pages, the pages under write, its spill state, and the page reads outstanding,
which are the chain's first, with whether the next waits for cells (R228). -/
structure Queue where
  copies : List Copy
  chain : List Page
  writing : List Page
  state : Nat
  serial : Nat
  gen : Nat
  spillTick : Option Nat
  reads : Nat := 0
  waits : Bool := false
  deriving DecidableEq, Repr

/-- A copy under transmission: its queue, the bytes that leave, the egress stamp, its fragments so far, the bytes that they hold,
and the tick at which the present fragment began. -/
structure Sending where
  queue : Nat
  copy : Copy
  bytes : List Byte
  stamp : Stamp
  fragments : Nat
  sent : Nat := 0
  began : Nat := 0
  deriving DecidableEq, Repr

/-- What a port keeps behind its parameters (chapters 05 and 08); lastBusy is the tick at which its queues last held a copy
(R146), nextStart when an internal port's rate limit lets it send again, in units of 1/75 ns (R36); lastHeard is the tick of the last
frame received, sleptTx and sleptRx since when each direction sleeps, and gapTx and gapRx when a step last took an idle gap of each
direction, gapEntry the step-free value of the calendar's domain when one last took a CAL entry (R396); stops holds, per stopped queue
(8 the transmitter), since when and until when it is stopped (R169, R171), ignores since when pause is ignored, xoffAt when XOFF was
last sent per priority (R170), mergeAt when the last Verify was sent (R167), and stepAt when the step proposal last moved on (R175). -/
structure PortSide where
  sending : Option Sending
  preempted : Option Sending
  deficit : List Int
  visit : Nat
  visiting : Bool
  tokens : List (Nat × Int × Nat)
  mergeTries : Nat
  ignoring : Nat
  stepCode : Nat
  stepSent : Bool
  stepHeard : Bool
  stepCause : Nat
  stepEnd : Option Nat
  stepRefused : Option Nat
  sojourn : List (Nat × Nat)
  nofit : Nat
  nofitTick : Option Nat
  lastBusy : Nat := 0
  nextStart : Nat := 0
  lastHeard : Nat := 0
  sleptTx : Nat := 0
  sleptRx : Nat := 0
  gapTx : Option Nat := none
  gapRx : Option Nat := none
  gapEntry : Option Nat := none
  stops : List (Nat × Nat × Nat) := []
  ignores : List (Nat × Nat) := []
  xoffAt : List (Nat × Nat) := []
  mergeAt : Nat := 0
  stepAt : Nat := 0
  deriving DecidableEq, Repr

/-- The forwarding tables of an epoch (R203): entries by number, only the valid ones; static FDB entries by FID and MAC. -/
structure Tables where
  cat : List (Nat × List Byte)
  fdb : List (Nat × List Byte)
  vlan : List (Nat × List Byte)
  mcast : List (Nat × List Byte)
  stream : List (Nat × List Byte)
  rcvy : List (Nat × List Byte)
  pol : List (Nat × List Byte)
  mirr : List (Nat × List Byte)
  deriving DecidableEq, Repr

/-- A staged change: block, table, entry number or key, and its new content (none clears it) (R204). -/
structure Staged where
  block : Nat
  table : Nat
  key : Nat
  data : Option (List Byte)
  deriving DecidableEq, Repr

/-- The other live epoch (R208): state 1 pending or 2 draining, its number, domain, T_eff, frozen changes and since when
it drains. -/
structure OtherEpoch where
  state : Nat
  num : Nat
  dom : Nat
  t : Nat
  changes : List Staged
  blocks : List Nat
  since : Nat
  slow : Bool
  deriving DecidableEq, Repr

/-- A learned or snooped FDB entry: changes as (the run value from which they apply, what it then holds), oldest first, and
its last renewal (R189, R190). Content: kind 0 port or 1 group, and its number. -/
structure Learned where
  key : Nat
  changes : List (Nat × Option (Nat × Nat))
  renewed : Nat
  snooped : Bool
  deriving DecidableEq, Repr

/-- A policer (R194): tokens in units of 1 / (8,000,000 * 65,536) byte, and the step-free stamp of its last frame. -/
structure Policer where
  tokens : Nat
  last : Nat
  deriving DecidableEq, Repr

/-- A mirror session's hidden state (R198): the counter of each pipeline, ingress pipelines 0-5 and egress pipelines 8-13, and the
tick at which its queue last held RESUME_CELLS or more. -/
structure MirrorSide where
  counters : List (Nat × Nat)
  high : Nat := 0
  deriving DecidableEq, Repr

/-- Forwarding state behind CAT, FDB, POL and MIRR (chapter 06); oldMirr are the mirror sessions of the epoch before the current
one, by which its frames complete (R206, R207). -/
structure Forwarding where
  tables : Tables
  epochT : Nat
  epochDom : Nat
  other : Option OtherEpoch
  staged : List Staged
  learned : List Learned
  learnQueue : List (Nat × Nat × Nat)
  learnTick : Option Nat
  policers : List (Nat × Policer)
  mirrors : List (Nat × MirrorSide)
  oldMirr : List (Nat × List Byte) := []
  deriving DecidableEq, Repr

/-- The rings of P80 behind their parameters (R201): the host's counts, and when P80's rate limit lets it take the next host
frame, in units of 1/75 ns (R36). -/
structure HostRings where
  counts : List Nat
  nextIn : Nat := 0
  deriving DecidableEq, Repr

/-- The buffer behind BUF, STACK and AUDIT (chapter 07): the carrel pool in force; the circulation desk (R213): every issued cell
with its tag (0 ARRIVAL, 1 BULK, 2 CARREL), and, after faults of the free-list memory, the cells that no free list holds though
they are not issued, and those that one holds though they are; cells that a fault has left issued without a reference, with the
audit passes that have not marked them; crosslinked cells and cells of the self-test held out of service; when the audit last began a pass; the organisation each channel
was trained with; uncorrectable reads; abandoned remainders; and the findings of the audit not yet reported. -/
structure BufferSide where
  carrel : Nat
  frames : List Frame
  nextId : Nat
  queues : List (Nat × Queue)
  desk : List (Nat × Nat) := []
  strayed : List Nat := []
  crossed : List Nat := []
  missed : List (Nat × Nat) := []
  held : List Nat
  testHeld : List Nat
  auditTick : Option Nat := none
  trainedOrg : List (Nat × Nat)
  ueTicks : List (Nat × List Nat)
  lastChannel : Nat
  abandoned : List (Nat × Nat × List (Nat × Nat))
  findings : Nat
  findTick : Option Nat
  deriving DecidableEq, Repr

/-- A gate calendar (R254): domain, base time in 2^-16 ns, cycle in ns, entries, gate waits of Q5-Q7 in ps, and S. -/
structure Calendar where
  dom : Nat
  base : Nat
  cycle : Nat
  entries : List Nat
  waits : List Nat
  start : Nat
  deriving DecidableEq, Repr

/-- The calendars of a port (R259-R266); an admin or committed calendar with no entries is ALL_OPEN. A hold is the entry held and
the cycle start that ends it; heldRun is its domain's step-free value when that entry began. -/
structure Gates where
  oper : Option Calendar
  admin : Option Calendar
  committed : Option (Calendar × Nat × Nat)
  hold : Option (Nat × Nat)
  heldRun : Nat := 0
  deriving DecidableEq, Repr

/-- Queue monitoring behind QMON (R270): the host's count, records lost since the last gap record, the last loss event. -/
structure QmonSide where
  cons : Nat
  lost : Nat
  lossTick : Option Nat
  sampled : Option Nat := none
  deriving DecidableEq, Repr

/-- A stream watch entry's runtime (R293-R295); times are ticks, stamps are 2^-16 ns. -/
structure Watch where
  entry : List Byte
  start : Nat
  windowStart : Nat
  windowGen : Nat
  lastFrame : Nat
  lastSeq : Option Nat
  windowLost : Nat
  windowPeak : Nat
  windowDegraded : Bool
  first : Option (Nat × Nat)
  pdvLo : Int
  pdvHi : Int
  loudTick : Nat
  heard : Bool
  conds : Nat
  acts : Nat
  trig : Nat
  clearSince : Option Nat
  disabled : Bool
  contact : Bool
  deriving DecidableEq, Repr

/-- Redundancy, watch and proof state behind FRER, WATCH and PROOF (chapter 09); echoMax is the largest delay of the slot in
2^-16 ns (R300), watchSecond and watchCount the second in which the watch unit counts frames and their number (R291), latentAt per
recovery function the ticks of its last base and its last test, latentStart the tick at which E5 last began to run (R289), and
evaluated the tick of the last evaluation of the watch entries (R294). -/
structure Redundancy where
  hist : List (Nat × Nat)
  lastPass : List (Nat × Nat)
  latentBase : List (Nat × Int)
  disabledBy : List (Nat × Nat × Nat)
  watches : List (Nat × Watch)
  watchTick : Option Nat
  proofStart : Nat
  proofDom : Nat
  proofAll : List Nat
  proofSlots : List Nat
  slotStart : Nat
  probesSent : Nat
  echoSum : Nat
  reflectors : List (Nat × Nat × Nat × Nat)
  echoSecond : Nat
  echoCount : Nat
  echoMax : Nat := 0
  watchSecond : Nat := 0
  watchCount : Nat := 0
  latentAt : List (Nat × Nat × Nat) := []
  latentStart : Nat := 0
  evaluated : Option Nat := none
  deriving DecidableEq, Repr

/-- A calibration run outstanding (R404): its number, its items, and how many completed or became stale. -/
structure CalRun where
  num : Nat
  items : List Nat
  done : Nat
  stale : Nat
  deriving DecidableEq, Repr

/-- Calibration behind CAL (chapter 13). An item is numbered 128 * class + instance, a lane direction under step
2 * port + (0 receive, 1 transmit): per item, the steps counted with their RAW sum and detector sum; deadlines and completions
in ticks; the gap steps in progress with whether each is forced; background items in progress; runs; each port's last
forced window; and the tick at which each step in progress began, a background item's under 1024 + its number. -/
structure CalSide where
  steps : List (Nat × Nat × Int × Int)
  deadlines : List (Nat × Nat)
  completed : List (Nat × Nat)
  running : List (Nat × Bool)
  background : List Nat
  runs : List CalRun
  lastRun : Nat
  forced : List (Nat × Nat)
  began : List (Nat × Nat) := []
  deriving DecidableEq, Repr

/-- Statistics snapshots behind STAT (R178, R179): the last number, the bank in use, whether it was scheduled, and the
counters captured that are not yet VALID, keyed by their place in the bank. -/
structure SnapSide where
  number : Nat
  bank : Nat
  scheduled : Bool
  captured : Option (List (Nat × Nat))
  deriving DecidableEq, Repr

/-- Link measurement behind PCS and the DDMTD words (R347, R352-R354): readings per detector since its last lock, start or
glitch (2 * port + direction of a lane, 200 + island), ports whose link has been VALID, and the delay of a SUSPECT link. -/
structure LinkSide where
  readings : List (Nat × Nat)
  valid : List Nat
  suspect : List (Nat × Nat)
  deriving DecidableEq, Repr

/-- A selector behind REFSEL (R366-R371): when its switch started, until when it may not select again, and the references it
has marked DISAGREE with since when each agrees. Times are ticks. -/
structure SelSide where
  since : Nat
  holdUntil : Nat
  marks : List (Nat × Option Nat)
  deriving DecidableEq, Repr

/-- A DPLL behind DPLL (R368-R375): its frequency without slewing, the phase still to be slewed (1 / (5 * 2^40) ns) and the
bound of the slew in ppb, the phase origin of a built-out target, whether its loop is closed and steered, whether it was FREE
when it last selected, since when it is LOCKED and since when its error lies within LOCK_PS, its past frequencies, and when it last wrote
its estimate (R375). -/
structure DpllSide where
  base : Int
  pending : Int
  slew : Nat
  origin : Int
  live : Bool
  fromFree : Bool
  lockedAt : Option Nat
  calmAt : Option Nat
  hist : List (Nat × Int)
  wroteAt : Option Nat := none
  deriving DecidableEq, Repr

/-- Reference selection (chapter 12): when each reference entered its state, the REFINs with edges, the references qualified
as the selectors have last applied them and those that have lapsed since, selectors, DPLLs, when each port last heard
ESMC, and when it last sent an Information PDU. -/
structure RefSide where
  since : List (Nat × Nat)
  edges : Nat
  view : Nat
  lapsed : Nat
  sels : List SelSide
  dplls : List DpllSide
  heard : List (Nat × Nat)
  esmcSent : List (Nat × Nat) := []
  deriving DecidableEq, Repr

/-- A timing output (R383-R390): its output time less its domain's in units of 1 / (5 * 2^40) ns, the configuration words in
force, from when it may drive, what a slew has still to move, the offset before a realignment and when a step realignment
completes (step-free 2^-16 ns), the pulse its last message describes, a realignment that waits for that pulse (true to slew),
whether the next pulse is the first after a realignment, and the level that the bus keeper of an undriven PAIR output holds (R476). -/
structure OutSide where
  offset : Int
  cfg : Nat
  phase : Nat
  pulse : Nat
  startAt : Option Nat
  slew : Option Int
  before : Int
  doneAt : Option Nat
  described : Option Nat
  waits : Option Bool
  first : Bool
  line : Option Bool := none
  deriving DecidableEq, Repr

/-- A PTP instance behind PTP (R336): its last accepted results, how many in all up to eight, its suspects, the tick of its last accepted result, and the
UTC offset and flags (bit 0 LEAP61, bit 1 LEAP59, bit 2 valid) of its timePropertiesDS. -/
structure PtpInst where
  accepted : List Int
  count : Nat
  suspects : List Int
  last : Option Nat
  timedOut : Option Nat
  utc : Int
  flags : Nat
  deriving DecidableEq, Repr

/-- The PTP services (R331-R336): instances, the exchanges averaged per instance and port, of E2 and E3 the second they count in,
the messages handled in it, when each of those dropped within the last second was, and when the last PTP_OVERLOAD was; and, per
instance and port, when the last Announce came and up to 8 foreign masters, each the port identity that it sends as. -/
structure PtpSide where
  insts : List PtpInst
  delays : List (Nat × List Int)
  second : List Nat
  handled : List Nat
  dropped : List (List Nat)
  told : List (Option Nat)
  announced : List (Nat × Nat)
  foreign : List (Nat × List (List Byte))
  deriving DecidableEq, Repr

/-- The edge measurement unit behind TDC (chapter 14): its last measurement's number and settings, its start (step-free and
tick of the last sample or start), sums, extremes, first and last edge times, missed and unpaired edges, the last edge of a
PERIOD, the edges of A and B that wait to be paired (step-free, domain time), until when each delay line is busy and which is
next, the divider counts of armed inputs and of EVIN stampers, when each stamper last recorded, each input's edges, and the domain time
of the measurement's start. -/
structure Tdc where
  number : Nat
  mode : Nat
  a : Nat
  b : Nat
  dom : Nat
  n : Nat
  timeout : Nat
  grid : Nat
  start : Nat
  lastTick : Nat
  count : Nat
  sum : Int
  sumSq : Nat
  min : Int
  max : Int
  first : Nat
  last : Nat
  missed : Nat
  unpaired : Nat
  prev : Option Nat
  edgesA : List (Nat × Nat)
  edgesB : List (Nat × Nat)
  lines : List Nat
  next : Nat
  divs : List (Nat × Nat)
  evDivs : List (Nat × Nat)
  evLast : List (Nat × Nat)
  evCount : List (Nat × Nat)
  began : Nat := 0
  deriving DecidableEq, Repr

/-- The performance counters behind PERF (chapter 16): occurrences since the last DBG cycle, keyed 1024 * event + instance;
the values v in the cycle before of the events that counters in mode RISE select, keyed alike; and overflows not yet captured (counter,
PERF_CYCLES). -/
structure PerfSide where
  occ : List (Nat × Nat)
  prev : List (Nat × Nat)
  wrapped : List (Nat × Nat)
  deriving DecidableEq, Repr

/-- The last valid bellflower heard on a path (R423, R426): its tick and what it carried; the report's age is that at
arrival. -/
structure Heard where
  tick : Nat
  role : Nat
  uid : Nat
  pref : Nat
  verdict : Nat
  flags : Nat
  age : Nat
  period : Nat
  findings : Nat
  gpio : Nat
  deriving DecidableEq, Repr

/-- Partner redundancy behind PAIR (chapter 15): the next sequence number, when INIT began, the last bellflower of each path
and of both, when the partner was last heard active, the conflict and period reports made, TAKE_REQ since when, YIELD_OFFER
with its HOLD_S, YIELDED, until when no revertive return starts, a fence that settles since when and for what cause, the
wait-to-restore since when, the last reason reported for a takeover blocked, the contact levels taken over in this tick, the
level of PAIR_FENCE_IN_N (true low), the levels at the contact balls when the last tick ended, which their bus keepers hold
(R476), and when the last bellflower left (R423). -/
structure PairSide where
  seq : Nat
  initSince : Nat
  heardA : Option Heard
  heardB : Option Heard
  last : Option Heard
  activeAt : Option Nat
  conflict : Bool
  periodTold : Bool
  takeReq : Option Nat
  offer : Option Nat
  yielded : Bool
  holdUntil : Nat
  settle : Option (Nat × Nat)
  wtrSince : Option Nat
  blocked : Option Nat
  adopted : Option Nat
  fenceLow : Bool
  keeper : Nat := 0
  sentAt : Option Nat := none
  deriving DecidableEq, Repr

/-- Health behind HEALTH (R433-R435): when E6 last reported, when the cause of each finding last occurred (beside them, from 16 on,
when each sampling of fixed period last came), a memory failure
since cold reset, the fence loop's disagreement, and the audit's findings since the last report. -/
structure HealthSide where
  reported : Option Nat
  marks : List (Nat × Nat)
  memory : Bool
  fenceLoop : Bool
  leaks : Nat
  crosslinks : Nat
  countErrors : Nat
  deriving DecidableEq, Repr

/-- The state of the part. -/
structure State where
  /-- The commands that wait, first in, first out (the queue of a block model). -/
  pending : List Instr
  /-- TIME-island cycles of 0.8 ns since cold reset (notes/assumptions/1.md). -/
  ticks : Nat
  /-- The free values drawn so far: the model's own counter (notes/assumptions/5.md). -/
  drawn : Nat
  /-- What left the package during the last command: the model's own record (notes/assumptions/2.md). -/
  out : List Output
  /-- Every parameter word that differs from its reset value, keyed by shelfmark, in rising order. -/
  words : List (Nat × Word)
  ctl : Ctl
  engines : List Engine
  boot : Boot
  /-- The transmit equaliser taps in use per lane, where they differ in time from the written word (R134). -/
  txeq : List (Nat × Nat)
  /-- The time domains and what the timing core holds (chapter 10). -/
  clock : Clock
  /-- The four ledger rings (R322). -/
  ledger : List LedgerRing
  /-- The port stamp FIFOs that hold anything (R323), by port. -/
  fifos : List (Nat × StampFifo)
  /-- What each port keeps behind its parameters, by port. -/
  ports : List (Nat × PortSide)
  /-- Forwarding tables, epochs, learning, policers, mirror sessions (chapter 06). -/
  fwd : Forwarding
  /-- The P80 rings (R201). -/
  rings : HostRings
  /-- The buffer, its queues and the stacks (chapter 07). -/
  buf : BufferSide
  /-- The gate calendars, by port (chapter 08). -/
  gates : List (Nat × Gates)
  /-- Queue monitoring (R268). -/
  qmon : QmonSide
  /-- Redundancy, stream watch and evening primrose (chapter 09). -/
  red : Redundancy
  /-- Calibration (chapter 13). -/
  cal : CalSide
  /-- Statistics snapshots (R178). -/
  snap : SnapSide
  /-- Link measurement (chapter 11). -/
  link : LinkSide
  /-- References, selectors and DPLLs (chapter 12). -/
  ref : RefSide
  /-- The eighteen timing outputs (R382). -/
  outs : List OutSide
  /-- The PTP services (chapter 10). -/
  ptp : PtpSide
  /-- The edge measurement unit (chapter 14). -/
  tdc : Tdc
  /-- Performance counters (chapter 16). -/
  perf : PerfSide
  /-- Partner redundancy (chapter 15). -/
  pair : PairSide
  /-- Health reporting (chapter 15). -/
  health : HealthSide
  deriving DecidableEq, Repr

/-- A session as reset starts it: implicit and unauthenticated (R61). -/
def Session.fresh : Session := ⟨0, none, none, [], none⟩
/-- A transport as reset starts it. -/
def Transport.fresh : Transport := ⟨Session.fresh, 0, none, [], none⟩
/-- The command side as cold reset leaves it. -/
def Ctl.reset : Ctl := {
  pcie := .fresh, inband := .fresh, sideband := .fresh, sessionOpens := 0, cmdProd := 0, rplCons := 0, evtCons := 0
  outstanding := 0, inbandOut := 0, hostEvtSeq := 0, sbEvtSeq := 0, hostLost := 0, sbLost := 0, sbReq := [], sbReplies := []
  sbWait := []
  sbRunning := 0, sbEvents := [], sbFraming := false, hostActive := 0, sbActive := 0, hostSilentSent := false
  sbSilentSent := false, lastLeaseDrop := none, lastRefused := none, sbAccepted := [], deferred := [], leasesAssigned := false, held := []
  lastSignal := [], spiEdges := [] }
/-- Start-up state as cold reset leaves it, with an erased flash. -/
def Boot.reset : Boot := {
  flash := [], fuses := [[], [], [], []], revoked := 0, countKnown := false, stage := 0, flashMib := 512
  headerCopy := none, header := [], memory := [], cfgSlot := none
  opSlot := none, timeSlot := none, cfg := [], fwLoaded := false, tablesLoaded := false, lastEpoch := 0, pipeFilled := 0, linkUp := false
  perstLow := false, pcieIds := (0, 0, 0), trialAt := [], checked := [], resetDue := none, transit := [], timeStarted := false, holdover := []
  storedTick := [], readyMerge := none }
/-- The twelve engines as cold reset leaves them; only E0 has its image, the boot ROM. -/
def Engine.resetAll : List Engine := ⟨true, false, false, 0⟩ :: List.replicate 11 ⟨false, false, false, 0⟩

/-- The timing core after cold reset: every domain at 0 s, generation 0 (R304). -/
def Clock.reset : Clock :=
  { domains := List.replicate 8 ⟨0, 0, 0, 0⟩, actions := [], lastHandle := 0, landings := [], latches := [] }
/-- A ledger ring with nothing in it. -/
def LedgerRing.reset : LedgerRing := ⟨0, 0, false, [], [], 0, none⟩
/-- An empty stamp FIFO. -/
def StampFifo.reset : StampFifo := ⟨[], none, 0, none⟩
/-- A port with nothing under way. -/
def PortSide.reset : PortSide := {
  sending := none, preempted := none, deficit := [0, 0, 0, 0, 0], visit := 4, visiting := false, tokens := []
  mergeTries := 0, ignoring := 0, stepCode := 0xFF, stepSent := false, stepHeard := false
  stepCause := 0, stepEnd := none, stepRefused := none, sojourn := [], nofit := 0, nofitTick := none }
/-- An empty queue. -/
def Queue.reset : Queue := ⟨[], [], [], 0, 0, 0, none, 0, false⟩
/-- Tables with no valid entry. -/
def Tables.empty : Tables := ⟨[], [], [], [], [], [], [], []⟩
/-- Forwarding state before any tables are loaded. -/
def Forwarding.reset : Forwarding :=
  { tables := .empty, epochT := 0, epochDom := 0, other := none, staged := [], learned := [], learnQueue := [], learnTick := none
    policers := [], mirrors := [] }
/-- The P80 rings before they are enabled. -/
def HostRings.reset : HostRings := ⟨List.replicate 10 0, 0⟩
/-- An empty buffer; the carrel pool in force starts at 0 and moves to the written value (R222). -/
def BufferSide.reset : BufferSide :=
  { carrel := 0, frames := [], nextId := 0, queues := [], held := [], testHeld := [], trainedOrg := []
    ueTicks := [], lastChannel := 1, abandoned := [], findings := 0, findTick := none }
/-- No calendar of any kind. -/
def Gates.reset : Gates := { oper := none, admin := none, committed := none, hold := none }
/-- Queue monitoring before its ring is enabled. -/
def QmonSide.reset : QmonSide := { cons := 0, lost := 0, lossTick := none }
/-- Redundancy, watch and proof state with nothing recorded. -/
def Redundancy.reset : Redundancy := {
  hist := [], lastPass := [], latentBase := [], disabledBy := [], watches := [], watchTick := none, proofStart := 0
  proofDom := 0, proofAll := [], proofSlots := [], slotStart := 0, probesSent := 0, echoSum := 0, reflectors := [], echoSecond := 0
  echoCount := 0 }

/-- Calibration with nothing under way. -/
def CalSide.reset : CalSide :=
  { steps := [], deadlines := [], completed := [], running := [], background := [], runs := [], lastRun := 0, forced := [] }

/-- No snapshot taken. -/
def SnapSide.reset : SnapSide := ⟨0, 0, false, none⟩
/-- No reading taken. -/
def LinkSide.reset : LinkSide := ⟨[], [], []⟩
/-- A selector with nothing selected. -/
def SelSide.reset : SelSide := ⟨0, 0, []⟩
/-- A DPLL that is FREE at zero offset. -/
def DpllSide.reset : DpllSide := {
  base := 0, pending := 0, slew := 0, origin := 0, live := false, fromFree := false, lockedAt := none, calmAt := none, hist := [] }
/-- No reference known. -/
def RefSide.reset : RefSide := {
  since := [], edges := 0, view := 0, lapsed := 0, sels := List.replicate 10 .reset, dplls := List.replicate 10 .reset, heard := [] }
/-- An output that has never driven. -/
def OutSide.reset : OutSide :=
  { offset := 0, cfg := 0, phase := 0, pulse := 0, startAt := none, slew := none, before := 0, doneAt := none, described := none
    waits := none, first := false }
/-- A PTP instance that has measured nothing. -/
def PtpInst.reset : PtpInst := ⟨[], 0, [], none, none, 0, 0⟩
/-- PTP services that have handled nothing. -/
def PtpSide.reset : PtpSide := ⟨List.replicate 8 .reset, [], [0, 0], [0, 0], [[], []], [none, none], [], []⟩
/-- The edge measurement unit before any measurement. -/
def Tdc.reset : Tdc :=
  { number := 0, mode := 0, a := 0, b := 0, dom := 0, n := 0, timeout := 0, grid := 0, start := 0, lastTick := 0, count := 0
    sum := 0, sumSq := 0, min := 0, max := 0, first := 0, last := 0, missed := 0, unpaired := 0, prev := none, edgesA := []
    edgesB := [], lines := [0, 0], next := 0, divs := [], evDivs := [], evLast := [], evCount := [] }
/-- Counters that have counted nothing. -/
def PerfSide.reset : PerfSide := ⟨[], [], []⟩
/-- A pair that has heard nothing. -/
def PairSide.reset : PairSide := {
  seq := 0, initSince := 0, heardA := none, heardB := none, last := none, activeAt := none, conflict := false
  periodTold := false, takeReq := none, offer := none, yielded := false, holdUntil := 0, settle := none, wtrSince := none
  blocked := none, adopted := none, fenceLow := false }
/-- Health with nothing reported. -/
def HealthSide.reset : HealthSide := ⟨none, [], false, false, 0, 0, 0⟩
/-- The machine right after cold reset (R98): every word at its reset value, PD0 alone on, nothing loaded. -/
def State.reset : State := {
  pending := [], ticks := 0, drawn := 0, out := [], words := [], ctl := .reset, engines := Engine.resetAll, boot := .reset
  txeq := []
  clock := .reset, ledger := List.replicate 4 .reset, fifos := [], ports := [], fwd := .reset, rings := .reset, buf := .reset
  gates := [], qmon := .reset, red := .reset
  cal := .reset
  snap := .reset
  link := .reset
  ref := .reset
  outs := List.replicate 18 .reset
  ptp := .reset
  tdc := .reset
  perf := .reset
  pair := .reset
  health := .reset
  }

end Sys2Proof.Machine
end

