-- ==== Sys2Proof/Machine/Ops.lean ====
section
/-! DEFINITION. The named operations every meaning uses: parameter words, power and readiness, MSI-X, events. -/
namespace Sys2Proof.Machine

/-- Whether a row defines an instance and index (R26). -/
def RegRow.covers (r : RegRow) (inst idx : Nat) : Bool :=
  r.insts.any (fun p => decide (p.1 ≤ inst) && decide (inst < p.1 + p.2)) && decide (r.first ≤ idx) &&
    decide (idx < r.first + r.count * r.stride) && (idx - r.first) % r.stride == 0

/-- The row of the parameter tables that defines a shelfmark. -/
def findRow (k : Nat) : Option RegRow :=
  (rowsOf (k / 0x1000000)).find? (fun r => r.covers (k / 0x1000 % 0x1000) (k % 0x1000))

/-- The reset value of a row's word (R29). -/
def RegRow.resetValue (r : RegRow) : Nat := r.fields.foldl (fun a f => a ||| (f.reset <<< f.lo)) 0

/-- The reset value of a word: the tables', but for the internal ports' type (15, R154), and for the mask bits of the
MSI-X vectors, which are those of the PCIe layout (R76, notes/assumptions/8.md). -/
def resetWord (k : Nat) : Word :=
  if k / 0x1000000 = 0x0C ∧ k % 0x1000 = 0 ∧ 80 ≤ k / 0x1000 % 0x1000 ∧ k / 0x1000 % 0x1000 ≤ 82 then 15
  else if k / 0x1000 = 0x43FE then (if k % 2 = 1 ∧ k % 0x1000 < 128 then 0x100000000 else 0)
  else match findRow k with
    | some r => BitVec.ofNat 64 r.resetValue
    | none => 0

/-- The word a sparse store keeps for a shelfmark, if it differs from its reset value. -/
def Words.find (ws : List (Nat × Word)) (k : Nat) : Option Word := (ws.find? (fun p => p.1 == k)).map (·.2)

/-- What a shelfmark reads in a sparse store: an unlisted word reads its reset value. -/
def Words.get (ws : List (Nat × Word)) (k : Nat) : Word := (Words.find ws k).getD (resetWord k)

/-- A sorted store with an entry put in its place. -/
def Words.insert (k : Nat) (v : Word) : List (Nat × Word) → List (Nat × Word)
  | [] => [(k, v)]
  | p :: ps => if k < p.1 then (k, v) :: p :: ps else p :: Words.insert k v ps

/-- The store with a shelfmark's word set; a word at its reset value has no entry. -/
def Words.set (ws : List (Nat × Word)) (k : Nat) (v : Word) : List (Nat × Word) :=
  let rest := ws.filter (fun p => !(p.1 == k))
  if v = resetWord k then rest else Words.insert k v rest

/-- The canonical form of the word store: keys strictly rising, no entry at its reset value. -/
abbrev Words.wf (ws : List (Nat × Word)) : Prop :=
  ws.Pairwise (fun a b => a.1 < b.1) ∧ ∀ p ∈ ws, p.2 ≠ resetWord p.1

/-- A parameter word as a number. -/
def State.get (s : State) (k : Nat) : Nat := (Words.get s.words k).toNat
/-- The state with a parameter word set. -/
def State.set (s : State) (k v : Nat) : State := { s with words := Words.set s.words k (BitVec.ofNat 64 v) }
/-- Bits lo .. lo + n - 1 of a parameter word. -/
def State.f (s : State) (k lo n : Nat) : Nat := bits (s.get k) lo n
/-- The state with bits lo .. lo + n - 1 of a parameter word set to x. -/
def State.setf (s : State) (k lo n x : Nat) : State := s.set k (setBits (s.get k) lo n x)
/-- Whether a bit of a parameter word is set. -/
def State.b (s : State) (k lo : Nat) : Bool := s.f k lo 1 == 1
/-- An n-bit counter in a parameter word, raised by d and saturating. -/
def State.count (s : State) (k lo n d : Nat) : State := s.setf k lo n (satAdd n (s.f k lo n) d)
/-- An n-bit counter in a parameter word, raised by d and wrapping. -/
def State.wrap (s : State) (k lo n d : Nat) : State := s.setf k lo n (s.f k lo n + d)
/-- The state with nothing recorded as having left the package: every meaning begins so. -/
def State.fresh (s : State) : State := { s with out := [] }
/-- The state with one more thing recorded as having left the package. -/
def State.emit (s : State) (o : Output) : State := { s with out := s.out ++ [o] }
/-- The state after one free value has been drawn. -/
def State.draw (s : State) : State := { s with drawn := s.drawn + 1 }
/-- The entries f of a list of n-bit-apart registers summed over a range, as a state fold. -/
def State.forEach {α : Type} (s : State) (l : List α) (f : α → State → State) : State := l.foldl (fun s a => f a s) s
/-- g applied when c holds. -/
def State.when (s : State) (c : Bool) (g : State → State) : State := if c then g s else s

/-- What an event row that names unit n of m leaves: t, or, of a unit the part does not have (R1), where nothing can happen,
the state as it was (DESIGN CHOICE, notes/assumptions/10.md; safe: no sender can send one). -/
def atUnit (n m : Nat) (s t : State) : Host.Outcome State Fault Refusal := .next (if n < m then t else s)

/-! ### Power domains and islands (R47, R50) -/

/-- The state of a power domain: 0 OFF, 1 POWERING_UP, 2 ON, 3 POWERING_DOWN (R119). -/
def State.pd (s : State) (n : Nat) : Nat := if n = 0 then 2 else s.f Reg.pwrState (2 * n) 2
/-- Whether a power domain is on. -/
def State.on (s : State) (n : Nat) : Bool := s.pd n == 2

/-- The domains a power domain requires, in the order of R47's column. -/
def requires : Nat → List Nat
  | 3 => [2] | 4 => [6, 14] | 5 => [4] | 7 => [6] | 8 => [6] | 9 => [6] | _ => []
/-- Those and the domains they require in turn: PD5 requires PD4, which requires PD6 and PD14 (R47). -/
def requiresAll (n : Nat) : List Nat := (requires n).flatMap requires ++ requires n

/-- The power domain of each clock island (R50). -/
def islandPd (i : Nat) : Nat :=
  [0, 0, 0, 0, 1, 2, 3, 2, 4, 5, 6, 7, 8, 9, 10, 11, 12, 13, 14, 14, 14, 15].getD i 0
/-- Whether an island's clock is running. -/
def State.islandUp (s : State) (i : Nat) : Bool := s.b (Reg.clkIslStatus i) 0

/-- The pipeline pair of a port (R34). -/
def pairOf (p : Nat) : Nat :=
  if p < 8 then 2 else if p < 16 then 3 else if p < 24 then 4 else if p < 32 then 5
  else if p < 56 then 0 else if p < 80 then 1 else if p = 80 then 0 else 1
/-- The power domain of a pipeline pair (R34). -/
def pairPd (k : Nat) : Nat := if k < 3 then 4 else 5
/-- The clock island of a pipeline pair (R34). -/
def pairIsland (k : Nat) : Nat := if k < 3 then 8 else 9
/-- The power domain of an external port's lanes, or of an internal port's MAC (R47). -/
def portPd (p : Nat) : Nat := if p < 16 then 10 else if p < 32 then 11 else if p < 56 then 12 else if p < 80 then 13 else 4
/-- The PCS island of an external port (R50). -/
def portIsland (p : Nat) : Nat := if p < 16 then 14 else if p < 32 then 15 else if p < 56 then 16 else 17

/-- The power domain a parameter word lies in (R47). -/
def pdOfWord (k : Nat) : Nat :=
  let inst := k / 0x1000 % 0x1000
  match k / 0x1000000 with
  | 0x08 => if inst < 16 then 10 else 11
  | 0x09 => if inst < 24 then 12 else 13
  | 0x0A => portPd inst
  | 0x0C => portPd inst
  | 0x0D => portPd inst
  | 0x0E => 4 | 0x10 => 4 | 0x11 => 4 | 0x12 => 4 | 0x14 => 4 | 0x15 => 4
  | 0x13 => 6 | 0x18 => 6 | 0x1A => 6
  | 0x19 => if inst = 1 ∨ (0x10 ≤ inst ∧ inst < 0x18) then 8 else if inst = 2 ∨ (0x18 ≤ inst ∧ inst < 0x20) then 9 else 6
  | 0x1C => pairPd (pairOf inst)
  | 0x1D => if inst < 0x100 then pairPd (pairOf inst) else pairPd (pairOf (inst % 0x100 / 2))
  | 0x1E => if inst = 0 then 4 else pairPd (pairOf (inst - 0x100))
  | 0x20 => 14 | 0x21 => 14 | 0x24 => 14 | 0x25 => 14 | 0x26 => 14 | 0x27 => 14 | 0x28 => 14
  | 0x22 => 2 | 0x2C => 2 | 0x2D => 3 | 0x30 => 15
  | _ => 0

/-! ### MSI-X (R76, R81) -/

/-- Vector v is signalled: as a message, or, while its vector is masked, as its pending bit. -/
def State.msix (s : State) (v : Nat) : State :=
  if !s.on 1 then s
  else if s.b (shelf 4 0x3FE (2 * v + 1)) 32 then s.setf (shelf 4 0x3FF 0) v 1 1
  else s.emit (.msix v)

/-! ### Packets and events (R54, R57, R80, R86, R95) -/

/-- A Mivik header (R54). -/
def header (version flags opcode tag len status seq : Nat) : List Byte :=
  toLe 2 0xA57C ++ toLe 1 version ++ toLe 1 flags ++ toLe 2 opcode ++ toLe 2 tag ++ toLe 2 len ++ toLe 2 status ++ toLe 4 seq

/-- The 32 bytes of a key slot in the order of R63. -/
def State.keyBytes (s : State) (slot : Nat) : List Byte :=
  [0, 1, 2, 3].flatMap (fun w => toLe 8 (s.get (Reg.secKeyW (4 * slot + w))))

/-- A whole packet: header, authentication block if a key slot and session number are given (R63), payload, CRC-32C. -/
def State.packet (s : State) (version flags opcode tag status seq : Nat) (auth : Option (Nat × Nat)) (payload : List Byte) :
    List Byte :=
  let body :=
    match auth with
    | none => header version (flags % 0x40 + (flags / 0x80) * 0x80) opcode tag payload.length status seq ++ payload
    | some (slot, num) =>
      let h := header version (setBits flags 6 1 1) opcode tag (payload.length + 32) status seq
      h ++ hmacSha256 (s.keyBytes slot) (toLe 8 num ++ h ++ payload) ++ payload
  body ++ toLe 4 (crc32c body)

/-- The number of entries of a ring from its CTRL word's LOG2. -/
def State.ringSize (s : State) (ctrl width : Nat) : Nat := 2 ^ s.f ctrl 0 width
/-- The phase bit of a ring's pass: 1 in the first pass after ENABLE (R78). -/
def phaseOf (count size : Nat) : Nat := if count / size % 2 = 0 then 1 else 0

/-- Whether a host event can be written: PD1 on, ring enabled and not full (R80). -/
def State.evtRoom (s : State) : Bool :=
  s.on 1 && s.b Reg.cmdEvtrCtrl 31 &&
    decide ((s.f Reg.cmdEvtrProd 0 16 + 65536 - s.ctl.evtCons) % 65536 < s.ringSize Reg.cmdEvtrCtrl 4)

/-- One event written to the host event ring: 64 bytes with the phase in byte 63, then MSI-X vector 1 (R77, R78, R81). -/
def State.writeHostEvent (s : State) (pkt : List Byte) : State :=
  let prod := s.f Reg.cmdEvtrProd 0 16
  let size := s.ringSize Reg.cmdEvtrCtrl 4
  let entry := (pkt ++ zeros 63).take 63 ++ toLe 1 (phaseOf prod size)
  let addr := s.get Reg.cmdEvtrBase / 4096 * 4096 + 64 * (prod % size)
  ((s.emit (.dma addr entry)).setf Reg.cmdEvtrProd 0 16 (prod + 1)).msix 1

/-- An event for the host (R57, R80, R95): written, or counted lost; either way it takes its number. -/
def State.raiseHost (s : State) (code tag status : Nat) (payload : List Byte) : State :=
  let seq := s.ctl.hostEvtSeq
  let s := { s with ctl := { s.ctl with hostEvtSeq := (seq + 1) % 2 ^ 32 } }
  if s.evtRoom then s.writeHostEvent (s.packet 1 0 (0x4000 + code % 0x4000) tag status seq none payload)
  else { s.count Reg.cmdEvtLost 0 32 1 with ctl := { s.ctl with hostLost := s.ctl.hostLost + 1 } }

/-- ATTN_N as it stands: low while any reply or event is held for the side-band (R86). -/
def State.attnLow (s : State) : Bool := !s.ctl.sbReplies.isEmpty || !s.ctl.sbEvents.isEmpty

/-- An event for the side-band (R86, R95): withheld by CMD_SB_EVT_MASK, queued, or counted lost. -/
def State.raiseSb (s : State) (code tag status : Nat) (payload : List Byte) : State :=
  if s.b Reg.cmdSbEvtMask (code / 256 % 64) && code != 1 then s
  else
    let seq := s.ctl.sbEvtSeq
    let c := { s.ctl with sbEvtSeq := (seq + 1) % 2 ^ 32 }
    if s.ctl.sbEvents.length < 64 then
      let ses := s.ctl.sideband.session
      let pkt := s.packet (if ses.key.isSome then 2 else 1) 0 (0x4000 + code % 0x4000) tag status seq
        (ses.key.map (fun k => (k, ses.num))) payload
      let s' := { s with ctl := { c with sbEvents := s.ctl.sbEvents ++ [pkt] } }
      if s.attnLow then s' else s'.emit (.attn true)
    else { s.count Reg.cmdSbEvtLost 0 32 1 with ctl := { c with sbLost := s.ctl.sbLost + 1 } }

/-- An event for both masters, status 0 and tag 0. -/
def State.raise (s : State) (code : Nat) (payload : List Byte) : State :=
  (s.raiseHost code 0 0 payload).raiseSb code 0 0 payload

/-- EVENTS_LOST to the host, as soon as its ring has room again (R80). -/
def State.flushHostLost (s : State) : State :=
  if s.ctl.hostLost > 0 && s.evtRoom then
    let n := s.ctl.hostLost
    ({ s with ctl := { s.ctl with hostLost := 0 } }).raiseHost 1 0 0 (toLe 4 n)
  else s

/-- EVENTS_LOST to the side-band, as soon as its queue has room again (R86). -/
def State.flushSbLost (s : State) : State :=
  if s.ctl.sbLost > 0 && decide (s.ctl.sbEvents.length < 64) then
    let n := s.ctl.sbLost
    ({ s with ctl := { s.ctl with sbLost := 0 } }).raiseSb 1 0 0 (toLe 4 n)
  else s

/-- A device fault: MSI-X vector 8, never moderated (R81). -/
def State.deviceFault (s : State) : State := s.msix 8

/-- RING_ERROR (0x4004, R94): the ring's number and bit 0 DB_ERR or bit 1 CFG_ERR. -/
def State.ringError (s : State) (ring flags : Nat) : State := s.raise 4 (toLe 1 ring ++ toLe 1 flags)

/-! ### Engines and readiness (R41, R44, R116) -/

/-- An engine of the list. -/
def State.engine (s : State) (e : Nat) : Engine := s.engines.getD e ⟨false, false, false, 0⟩
/-- The state with an engine changed. -/
def State.setEngine (s : State) (e : Nat) (f : Engine → Engine) : State := { s with engines := modifyAt s.engines e f }
/-- Whether an engine runs and serves its mailbox. -/
def State.serves (s : State) (e : Nat) : Bool := (s.engine e).running && !(s.engine e).stalled
/-- The readiness bit of an engine's group (R44). -/
def groupBit (e : Nat) : Nat := if e = 0 then 20 else if e ≤ 5 then 21 else 22

/-- The level of a domain: 0 FREE, 1 ACQUIRING, 2 LOCKED, 3 HOLDOVER (R117). -/
def State.tdLevel (s : State) (d : Nat) : Nat := s.f Reg.devTdLevel (4 * d) 4
/-- Whether the hardware of PD14 runs: the domain on and its TIME island clocked (R52). -/
def State.timeUp (s : State) : Bool := s.on 14 && s.islandUp 18
/-- Whether a pipeline pair forwards: powered, clocked, with its tables filled, and over a buffer that runs (R116, R52). -/
def State.pairUp (s : State) (k : Nat) : Bool :=
  s.on (pairPd k) && s.islandUp (pairIsland k) && s.on 6 && s.islandUp 10 && s.boot.pipeFilled.testBit k
/-- Whether a reference is qualified: state 4 in REFSEL_REF_STATUS (R362). -/
def State.refQualified (s : State) (r : Nat) : Bool := s.f (Reg.refselRefStatus r) 40 4 == 4

/-- The readiness bits as R116's table gives them for the present state. -/
def State.readyNow (s : State) : Nat :=
  let on := fun (c : Bool) (i : Nat) => if c then 2 ^ i else 0
  let selA := [1, 2, 3, 4, 5].filter (fun e => (s.engine e).selected)
  on (s.on 4 && s.on 6 && s.islandUp 8 && s.islandUp 10 && s.boot.tablesLoaded) 0 +
  ((List.range 6).map (fun k => on (s.pairUp k) (1 + k))).sum +
  on (s.on 6 && s.islandUp 10 && (!s.on 8 || (s.f (Reg.stackChStatus 1) 0 4 == 2 && s.islandUp 12)) &&
      (!s.on 9 || (s.f (Reg.stackChStatus 2) 0 4 == 2 && s.islandUp 13))) 7 +
  ((List.range 8).map (fun d => on (s.timeUp && s.tdLevel d == 2) (8 + d))).sum +
  on (s.serves 2 && s.serves 3 && s.serves 4 && s.timeUp) 16 +
  on (s.serves 4 && s.timeUp && (List.range 32).any (s.refQualified)) 17 +
  on (s.serves 6 && (s.f Reg.pairCfg 0 2 == 0 || s.f Reg.pairState 8 4 != 0)) 18 +
  on (s.serves 5) 19 +
  on (s.serves 0) 20 +
  on (!selA.isEmpty && selA.all s.serves) 21 +
  on ([6, 7, 8, 9, 10, 11].all s.serves) 22 +
  on (s.on 1 && s.islandUp 4 && s.boot.linkUp) 23 +
  on (s.serves 7) 24

/-- The PIPE and TDn bits, whose changes are merged over 10 ms (R116). -/
def mergedBits : Nat := 0xFF7E

/-- DEV_READY brought up to date (R116). A change raises READY_CHANGE with the old and new words; a change of PIPE and TDn bits
alone is held for the merge, which the next other change or flushReady ends. -/
def State.refresh (s : State) : State :=
  let old := s.get Reg.devReady
  let new := s.readyNow
  if new = old then s
  else
    let s := s.set Reg.devReady new
    let before := match s.boot.readyMerge with | some (_, w) => w | none => old
    if (old ^^^ new) ||| mergedBits = mergedBits then
      { s with boot := { s.boot with readyMerge := some ((s.boot.readyMerge.map (·.1)).getD s.ticks, before) } }
    else ({ s with boot := { s.boot with readyMerge := none } }).raise 0x101 (toLe 8 before ++ toLe 8 new)

/-- The end of a merge: 10 ms (12,500,000 ticks) after its first change, READY_CHANGE reports what has changed in all. -/
def State.flushReady (s : State) : State :=
  match s.boot.readyMerge with
  | none => s
  | some (t, w) =>
    if s.ticks < t + 12500000 then s
    else
      let s := { s with boot := { s.boot with readyMerge := none } }
      if s.get Reg.devReady = w then s else s.raise 0x101 (toLe 8 w ++ toLe 8 (s.get Reg.devReady))

/-- Whether a readiness bit is set. -/
def State.ready (s : State) (i : Nat) : Bool := s.b Reg.devReady i
/-- The mode of the device (DEV_STATE): 0 BOOTING, 1 NORMAL, 2 TIMING_ABSENT, 3 READING_ROOM, 4 BOOT_HOLD, 5 NO_HEADER. -/
def State.mode (s : State) : Nat := s.f Reg.devState 0 8

/-- Whether a port is ready (R118). -/
def State.portReady (s : State) (p : Nat) : Bool :=
  if p < 64 then s.b Reg.devPortReadyLo p else s.b Reg.devPortReadyHi (p - 64)
/-- Whether the unit is one of a pair (R419). -/
def State.pairMode (s : State) : Bool := s.f Reg.pairCfg 0 2 == 1
/-- The role of R421: 0 INIT, 1 STANDBY, 2 ACTIVE, 3 FENCED. -/
def State.role (s : State) : Nat := s.f Reg.pairState 8 4
/-- Heartbeat path B follows its port (R425, R428): off while the port is not ready, silent until it is heard. -/
def State.pathB (s : State) (up : Bool) : State :=
  let old := s.f Reg.pairState 22 2
  if up then (if old = 0 then (s.setf Reg.pairState 22 2 1).raise 0xD01 [1, 0] else s)
  else if old = 0 then s
  else
    let s := if old = 2 then s.count Reg.pairCnt 0 16 1 else s
    (s.setf Reg.pairState 22 2 0).raise 0xD01 [1, 2]
/-- A port's ready bit set. -/
def State.setPortReady (s : State) (p : Nat) (b : Bool) : State :=
  let s := if p < 64 then s.setf Reg.devPortReadyLo p 1 (bit b) else s.setf Reg.devPortReadyHi (p - 64) 1 (bit b)
  if s.pairMode && p < 80 && s.f Reg.pairCfg 8 8 == p then s.pathB b else s

/-- The cause of a health finding occurs now (R434). -/
def State.mark (s : State) (finding : Nat) : State :=
  { s with health := { s.health with marks := assocSet s.health.marks finding s.ticks } }
/-- Whether a sampling of fixed period may come again: of those that the marks hold beside the findings, 16 the sensors'
conversion (R447), 17 the calibration scheduler's sample (R393), 18 E4's evaluation (R366), 19 the cross-check, 20 the fence
loop and 21 the scrub (R435). -/
def State.rested (s : State) (key ticks : Nat) : Bool :=
  match assoc s.health.marks key with | some t => decide (t + ticks ≤ s.ticks) | none => true
/-- Whether a self-test of R435 runs now: E6 serves and its bit of HEALTH_SELFTEST is set (0 scrub, 1 cells, 2 margin,
3 cross-check, 4 fence loop); those marked STANDBY only in STANDBY or FENCED. -/
def State.selfTest (s : State) (bit : Nat) : Bool :=
  s.serves 6 && s.b Reg.healthSelftest bit &&
    (if bit = 1 || bit = 2 then s.pairMode && (s.role == 1 || s.role == 3) else true) && (bit != 4 || s.pairMode)
/-- A self-test's end counted: a pass completed, or a failure. -/
def State.tested (s : State) (ok : Bool) : State := s.count Reg.healthSelftestCnt (if ok then 32 else 0) 32 1

/-- Occurrences of a performance event in this DBG cycle (R441). -/
def State.occurs (s : State) (code inst n : Nat) : State :=
  let k := 1024 * code + inst
  { s with perf := { s.perf with occ := assocSet s.perf.occ k ((assoc s.perf.occ k).getD 0 + n) } }
/-- The performance events that a counter of block STAT stands for (R441): index, then event and instance. -/
def statEvent (p idx : Nat) : Option (Nat × Nat) :=
  if idx = 0 || (7 ≤ idx && idx ≤ 0x0C) then some (0x01, p)
  else if idx = 1 then some (0x03, p)
  else if idx = 0x20 || idx = 0x27 then some (0x02, p)
  else if 0x58 ≤ idx && idx ≤ 0x5F then some (0x07, 8 * p + (idx - 0x58))
  else if idx = 0x2A then some (0x10, p)
  else none
/-- A port's live counter of block STAT (bank 2, R177), raised by n while PD4, which holds it, has power. -/
def State.stat (s : State) (p idx n : Nat) : State :=
  let s := if 2 ≤ s.pd 4 then s.wrap (shelf 0x0E (0x100 + p) idx) 0 64 n else s
  match statEvent p idx with
  | some (code, inst) => s.occurs code inst n
  | none => s

/-! ### The boot flash (R102): an unlisted cell is erased and reads 0xFF -/

/-- The byte of the flash at an address. -/
def Flash.read (m : List Host.Cell) (a : Nat) : Byte := (assoc m a).getD 0xFF
/-- The flash with one byte set, in canonical form: addresses rising, no erased cell listed. -/
def Flash.write (m : List Host.Cell) (a : Nat) (v : Byte) : List Host.Cell :=
  if v = 0xFF then assocDel m a else assocSet m a v
/-- n bytes of the flash from an address. -/
def Flash.slice (m : List Host.Cell) (a n : Nat) : List Byte := (List.range n).map (fun i => Flash.read m (a + i))
/-- The flash with a list of bytes written from an address. -/
def Flash.writeAll (m : List Host.Cell) (a : Nat) : List Byte → List Host.Cell
  | [] => m
  | b :: bs => Flash.writeAll (Flash.write m a b) (a + 1) bs
/-- The flash with n bytes erased from an address. -/
def Flash.erase (m : List Host.Cell) (a n : Nat) : List Host.Cell := m.filter (fun c => c.1 < a || a + n ≤ c.1)
/-- The canonical form of the flash. -/
abbrev Flash.wf (m : List Host.Cell) : Prop := m.Pairwise (fun a b => a.1 < b.1) ∧ ∀ c ∈ m, c.2 ≠ 0xFF

end Sys2Proof.Machine
end

