-- ==== Sys2Proof/Machine/PortTypes.lean ====
section
/-! DEFINITION. Port types, the lanes they use and their rates (R126, R127, R153, R154, R274, R342). -/
namespace Sys2Proof.Machine

/-! ### Lanes and port types (R126, R127, R153, R154, R342) -/

/-- What a port type code stands for: its lanes, symbol rate code and rate in units of 10 kBd, modulation, alignment and FEC
codes of HLANE_MODE, bit rate in Mb/s, the gearbox windows and the nominal fixed delays in ns (R342). -/
structure TypeRow where
  lanes : Nat
  rate : Nat
  rate5 : Nat
  pam4 : Nat
  align : Nat
  fec : Nat
  mbps : Nat
  txLo : Nat
  txHi : Nat
  rxFix : Nat
  txFix : Nat
  deriving DecidableEq, Repr

/-- The port type codes of R154 with the terms of R126 and R342. -/
def typeRow : Nat → Option TypeRow
  | 1 => some ⟨1, 1, 125000, 0, 1, 0, 1000, 10, 29, 310, 210⟩
  | 2 => some ⟨1, 2, 312500, 0, 1, 0, 2500, 10, 29, 140, 95⟩
  | 3 => some ⟨1, 3, 1031250, 0, 2, 0, 10000, 40, 79, 62, 44⟩
  | 4 => some ⟨1, 4, 2578125, 0, 2, 0, 25000, 40, 79, 38, 30⟩
  | 5 => some ⟨1, 4, 2578125, 0, 3, 1, 25000, 40, 79, 196, 72⟩
  | 6 => some ⟨1, 5, 2656250, 1, 3, 2, 50000, 40, 79, 142, 64⟩
  | 7 => some ⟨1, 6, 5312500, 1, 3, 2, 100000, 40, 79, 104, 60⟩
  | 8 => some ⟨4, 4, 2578125, 0, 3, 0, 100000, 40, 79, 52, 38⟩
  | 9 => some ⟨4, 4, 2578125, 0, 3, 1, 100000, 40, 79, 118, 62⟩
  | 10 => some ⟨2, 6, 5312500, 1, 3, 2, 200000, 40, 79, 96, 58⟩
  | 11 => some ⟨4, 6, 5312500, 1, 3, 2, 400000, 40, 79, 88, 54⟩
  | _ => none

/-- Whether the table of R154 allows a code on an external port, multi-lane groups aligned (R127). -/
def typeAllowed (p code : Nat) : Bool :=
  if code = 0 then true
  else if p < 32 then code == 3 || code == 4 || code == 5 || code == 6 || code == 7 || (code == 10 && p % 2 == 0) ||
    (code == 11 && p % 4 == 0)
  else code == 1 || code == 2 || code == 3 || code == 4 || code == 5 || ((code == 8 || code == 9) && p % 4 == 0)

/-- The number of a lane's block (R126). -/
def laneBlock : Lane → Nat
  | .hl _ => 0x08 | .el _ => 0x09
/-- The number of a lane within its kind. -/
def laneNum : Lane → Nat
  | .hl n => n | .el n => n
/-- The kind of a lane in events: 0 high, 1 edge (R152). -/
def laneKind : Lane → Nat
  | .hl _ => 0 | .el _ => 1
/-- Whether the part has the lane. -/
def laneExists : Lane → Bool
  | .hl n => decide (n < 32) | .el n => decide (n < 48)
/-- A lane's parameter word: HLANE and ELANE share their indices. -/
def laneKey (l : Lane) (idx : Nat) : Nat := shelf (laneBlock l) (laneNum l) idx
/-- The lowest lane of a port (R153). -/
def lowestLane (p : Nat) : Lane := if p < 32 then .hl p else .el (p - 32)
/-- Lane i places above a port's lowest lane. -/
def laneAbove (p i : Nat) : Lane := if p < 32 then .hl (p + i) else .el (p - 32 + i)
/-- The lanes of a port of a given type code. -/
def lanesOfType (p code : Nat) : List Lane :=
  match typeRow code with
  | some t => (List.range t.lanes).map (laneAbove p)
  | none => []
/-- The port type code of an external port. -/
def State.portType (s : State) (p : Nat) : Nat := s.f (Reg.macPortType p) 0 8
/-- The port type code in use: below the configured one while stepped down (R174). -/
def State.codeInUse (s : State) (p : Nat) : Nat := s.f (Reg.macLinkStatus p) 0 8
/-- The lanes of a port as it is configured. -/
def State.portLanes (s : State) (p : Nat) : List Lane := lanesOfType p (s.portType p)
/-- The port a lane's number stands for, were the lane its lowest. -/
def portAt : Lane → Nat
  | .hl n => n | .el n => 32 + n
/-- The configured port a lane belongs to. -/
def State.portOfLane (s : State) (l : Lane) : Option Nat :=
  ([0, 1, 2, 3].map (fun i => portAt l - i)).find? (fun p => (s.portLanes p).contains l)
/-- The power domain of a lane (R47). -/
def lanePd (l : Lane) : Nat := portPd (portAt l)

/-- The MAC rate of a port in Mb/s, by its type code in use; the internal ports' rates are those of R36. -/
def State.rate (s : State) (p : Nat) : Nat :=
  if p < 80 then (match typeRow (s.f (Reg.macLinkStatus p) 0 8) with | some t => t.mbps | none => 0)
  else if p = 80 then 50000 else if p = 81 then 10000 else 100000

end Sys2Proof.Machine
end

