-- ==== Sys2Proof/Machine/Time.lean ====
section
/-! DEFINITION. Domain time, stamps, one-shot actions and the ledger (chapter 10): the operations that the commands and
events of every chapter use. -/
namespace Sys2Proof.Machine

/-! ### Domain time (R18-R21, R303) -/

/-- The fine units of a domain's count in 2^-16 ns: a fine unit is 1 / (5 * 2^40) ns, so that a tick of 0.8 ns at any
frequency offset of R22 is a whole number of them. -/
def fine16 : Nat := 5 * 2 ^ 24

/-- 1 ns in units of 2^-16 ns. -/
def ns16 : Nat := 65536

/-- A domain. -/
def State.dom (s : State) (d : Nat) : Domain := s.clock.domains.getD d ⟨0, 0, 0, 0⟩
/-- A domain changed. -/
def State.setDom (s : State) (d : Nat) (f : Domain → Domain) : State :=
  { s with clock := { s.clock with domains := modifyAt s.clock.domains d f } }
/-- The time a domain reads, in 2^-16 ns. -/
def Domain.time (x : Domain) : Nat := ((x.run : Int) + x.shift).toNat / fine16
/-- The time of domain d now, in 2^-16 ns. -/
def State.now (s : State) (d : Nat) : Nat := (s.dom d).time
/-- The step-free value of domain d now, in 2^-16 ns (R305). -/
def State.runNow (s : State) (d : Nat) : Nat := (s.dom d).run / fine16
/-- A stamp of domain d now. -/
def State.stampNow (s : State) (d : Nat) : Stamp := ⟨d, s.runNow d, s.now d, (s.dom d).gen⟩

/-- The offset of PCS island i's replicas from the TIME island, as the phase detector measures it (R39), in 2^-16 ns. -/
def State.replicaPhase (s : State) (i : Nat) : Int := signed 64 (s.get (Reg.timeReplicaPhase (i - 14)))
/-- What the replica of domain d in PCS island i reads (R39). Between realignments it advances with the domain's rate, so it is the
domain's time with the offset that the detector last measured; what the detector misses is the residual of the error budget
(DESIGN CHOICE: none, notes/assumptions/54.md). -/
def State.replica (s : State) (i d : Nat) : Int := s.now d + s.replicaPhase i
/-- A stamp of domain d taken at a port: its PCS island's replica less the measured offset (R39). An internal port's is taken in the
pipeline. -/
def State.portStamp (s : State) (p d : Nat) : Stamp :=
  if p < 80 then { s.stampNow d with time := (s.replica (portIsland p) d - s.replicaPhase (portIsland p)).toNat } else s.stampNow d

/-- The domain time of R18: seconds wrap at 48 bits. -/
def wrapTime (t : Nat) : Nat := t % (2 ^ 48 * 1000000000 * ns16)
/-- Whole ns, frac16 and seconds of a domain time. -/
def secOf (t : Nat) : Nat := t / (1000000000 * ns16) % 2 ^ 48
/-- The ns part of a domain time. -/
def nsOf (t : Nat) : Nat := t / ns16 % 1000000000
/-- The ns32 of a short stamp (R20). -/
def ns32Of (t : Nat) : Nat := t / ns16 % 2 ^ 32
/-- Domain time in a payload (R19). -/
def timeBytes (t : Nat) : List Byte := toLe 2 t ++ toLe 4 (nsOf t) ++ toLe 6 (secOf t)
/-- The domain time in a payload at an offset. -/
def timeAt (p : List Byte) (off : Nat) : Nat :=
  (leNat (slice p (off + 6) 6) * 1000000000 + u32 p (off + 2)) * ns16 + u16 p off
/-- Whether the domain time at an offset has a ns value below 10^9 (R18). -/
def timeOk (p : List Byte) (off : Nat) : Bool := decide (u32 p (off + 2) < 1000000000)
/-- Domain time in two parameter words (R19). -/
def State.setTime (s : State) (k t : Nat) : State := (s.set k (nsOf t * 65536 + t % 65536)).set (k + 1) (secOf t)

/-- Whether a port's stamp path is stale (R395), receive or transmit. -/
def staleState (st : Nat) : Bool := st == 0 || st == 3

/-! ### One-shot actions (R10, R11, R316, R318) -/

/-- What R11 makes of a time T. -/
inductive Due where
  | scheduled | late | past
  deriving DecidableEq, Repr

/-- T of domain d under R11. Now is taken as the command executes, which is the step in which the interpreter accepts it; a side-band
request's steps 1 to 5 may lie earlier, at REQ_WRITE, and its now is that of SIDEBAND_COMMAND_START (DESIGN CHOICE: R10 says the
moment the interpreter accepts the command; notes/assumptions/13.md). -/
def State.due (s : State) (d t : Nat) : Due :=
  if s.now d + 2000 * ns16 ≤ t then .scheduled
  else if s.now d ≤ t + s.f (Reg.timeLateWindowNs d) 0 24 * ns16 then .late
  else .past

/-- Whole µs until T of domain d, rounded up: the retry hints that name a remaining time. -/
def State.usUntil (s : State) (d t : Nat) : Nat := (t - s.now d + 1000 * ns16 - 1) / (1000 * ns16)

/-- The next handle: rising, wrapping, skipping 0 and handles in use (R316). -/
def nextHandle (used : List Nat) : Nat → Nat → Nat
  | 0, h => h
  | n + 1, h => let k := if h ≥ 65535 then 1 else h + 1
    if used.contains k then nextHandle used n k else k

/-- The state with one more pending action, and its handle. -/
def State.schedule (s : State) (opcode tag master dom t : Nat) (data : List Byte) : State :=
  let h := nextHandle (s.clock.actions.map (·.handle)) 65 s.clock.lastHandle
  { s with clock := { s.clock with
      actions := (s.clock.actions ++ [⟨h, opcode, tag, master, dom, t, data⟩]), lastHandle := h } }

/-- Whether no further action can be scheduled (R316). -/
def State.actionsFull (s : State) : Bool := decide (64 ≤ s.clock.actions.length)
/-- The retry hint of R316: the time to the earliest pending action. -/
def State.earliest (s : State) : Nat :=
  (s.clock.actions.map (fun a => s.usUntil a.dom a.t)).foldl min 0xFFFFFFFF

/-- A pending action by handle. -/
def State.action (s : State) (h : Nat) : Option Action := s.clock.actions.find? (fun a => a.handle == h)
/-- An action's handle ceases to exist. -/
def State.dropAction (s : State) (h : Nat) : State :=
  { s with clock := { s.clock with actions := s.clock.actions.filter (fun a => !(a.handle == h)) } }

/-- An event for one master: 1 host, 2 side-band. -/
def State.raiseTo (s : State) (master code tag status : Nat) (payload : List Byte) : State :=
  if master = 2 then s.raiseSb code tag status payload else s.raiseHost code tag status payload

/-- SCHEDULED_OUTCOME for the master that scheduled an action (R94): status 1 LATE, 0x205 PAST or 0x102 NOT_READY. -/
def State.outcome (s : State) (a : Action) (status t : Nat) : State :=
  s.raiseTo a.master 5 a.tag status (toLe 2 a.opcode ++ toLe 2 a.tag ++ timeBytes t)

/-- The time reported when an action is cancelled: zero when the domain is not running (R94). -/
def State.outcomeTime (s : State) (d : Nat) : Nat := if s.timeUp then s.now d else 0

/-! ### Moderated MSI-X vectors (R81, R201, R270, R322) -/

/-- A vector signalled at most once per its MOD_US; a signal that comes sooner is held (MSIX_MODERATION_TIMER). 1 µs is
1,250 ticks. -/
def State.signal (s : State) (v modUs : Nat) : State :=
  let due := modUs == 0 || (match assoc s.ctl.lastSignal v with | none => true | some t => decide (t + modUs * 1250 ≤ s.ticks))
  if due then
    let s := s.msix v
    { s with ctl := { s.ctl with lastSignal := assocSet s.ctl.lastSignal v s.ticks, held := s.ctl.held.filter (· != v) } }
  else if s.ctl.held.contains v then s else { s with ctl := { s.ctl with held := s.ctl.held ++ [v] } }

/-- The MOD_US of a moderated vector: ledger rings 2-5, queue monitoring 6, performance counters 7, P80 receive rings 9-16, completions 17. -/
def State.modUs (s : State) (v : Nat) : Nat :=
  if 2 ≤ v ∧ v ≤ 5 then s.f (Reg.ledgerRingCtrl (v - 2)) 5 20
  else if v = 6 then s.f Reg.qmonRingCtrl 5 20
  else if 9 ≤ v ∧ v ≤ 16 then s.f (Reg.p80RingCtrl (v - 9)) 4 20
  else if v = 7 then s.f Reg.perfCtrl 0 20
  else if v = 17 then s.f (Reg.p80RingCtrl 9) 4 20
  else 0

/-! ### The ledger (R319-R327) -/

/-- A ledger ring's hidden state changed. -/
def State.setLedger (s : State) (r : Nat) (f : LedgerRing → LedgerRing) : State := { s with ledger := modifyAt s.ledger r f }
/-- A ledger ring's hidden state. -/
def State.ledgerRing (s : State) (r : Nat) : LedgerRing := s.ledger.getD r LedgerRing.reset
/-- Whether a ring is enabled. -/
def State.ledgerOn (s : State) (r : Nat) : Bool := s.b (Reg.ledgerRingCtrl r) 31
/-- The free entries of a ring (R327). -/
def State.ledgerFree (s : State) (r : Nat) : Nat :=
  2 ^ s.f (Reg.ledgerRingCtrl r) 0 5 - (s.f (Reg.ledgerRingProd r) 0 32 + 2 ^ 32 - (s.ledgerRing r).cons) % 2 ^ 32
/-- Whether a ring takes a domain. -/
def State.ledgerDom (s : State) (r d : Nat) : Bool := s.b (Reg.ledgerRingSel r) (32 + d)

/-- One record written to a ring, with its MSI-X vector. -/
def State.ledgerPut (s : State) (r w0 w1 : Nat) : State :=
  let prod := s.f (Reg.ledgerRingProd r) 0 32
  let addr := s.get (Reg.ledgerRingBase r) / 4096 * 4096 + 16 * (prod % 2 ^ s.f (Reg.ledgerRingCtrl r) 0 5)
  (((s.emit (.dma addr (toLe 8 w0 ++ toLe 8 w1))).setf (Reg.ledgerRingProd r) 0 32 (prod + 1)).occurs 0x12 r 1).signal (2 + r)
    (s.modUs (2 + r))

/-- LEDGER_LOSS, at most once in 1 s for each ring and port; what is lost in between is carried to the next. -/
def State.ringLost (s : State) (r n : Nat) : State :=
  let s := s.count (Reg.ledgerRingLost r) 0 32 n
  let x := s.ledgerRing r
  let due := match x.lossTick with | none => true | some t => decide (t + 1250000000 ≤ s.ticks)
  let s' := s.setLedger r (fun x => { x with
    lost := x.lost + n, lossDue := if due then 0 else x.lossDue + n, lossTick := if due then some s.ticks else x.lossTick })
  if due then s'.raise 0x804 (toLe 1 r ++ zeros 3 ++ toLe 4 (x.lossDue + n)) else s'

/-- Whether a ring can take n records now: PD1 on, no gap waiting, and room (R326). -/
def State.ledgerRoom (s : State) (r n : Nat) : Bool :=
  s.on 1 && (s.ledgerRing r).lost == 0 && decide (n ≤ s.ledgerFree r)

/-- The first word of a record that holds a time. -/
def recordTime (t unit dom kind : Nat) : Nat := ns32Of t * 2 ^ 32 + t % 65536 * 65536 + unit % 256 * 256 + dom % 8 * 32 + kind

/-- An ANCHOR of domain d written to ring r (R321, R325), or lost. -/
def State.anchor (s : State) (r d : Nat) : State :=
  let x := s.stampNow d
  if s.ledgerRoom r 1 then
    (s.ledgerPut r (recordTime x.time 0xFF d 8) (secOf x.time * 65536 + x.gen)).setLedger r (fun l =>
      { l with anchors := assocSet l.anchors d x.run })
  else s.ringLost r 1

/-- The anchors of every domain of a ring (R325, R326). -/
def State.anchorAll (s : State) (r : Nat) : State := s.forEach ((List.range 8).filter (s.ledgerDom r)) (fun d s => s.anchor r d)

/-- A ring that lost records resumes once it has 16 free entries: RING_GAP with the count, then its anchors; the next record
carries GAP (R326). -/
def State.ringResume (s : State) (r : Nat) : State :=
  let l := s.ledgerRing r
  if s.ledgerOn r && s.timeUp && s.on 1 && l.lost != 0 && decide (16 ≤ s.ledgerFree r) then
    let s := s.ledgerPut r (min l.lost 0xFFFFFFFF * 2 ^ 32 + 0xFF * 256 + 17) 0
    (s.setLedger r (fun x => { x with lost := 0, gapNext := true })).anchorAll r
  else s

/-- The lowest enabled ring that takes a kind and domain (R322). -/
def State.ringFor (s : State) (kind d : Nat) : Option Nat :=
  [0, 1, 2, 3].find? (fun r => s.ledgerOn r && s.b (Reg.ledgerRingSel r) kind && s.ledgerDom r d)

/-- A stamp record's flags in a ring (R319), with whether it carries DISC. -/
def recordFlags (x : StampRecord) (gap disc : Bool) : Nat :=
  bit x.stale * 2048 + bit gap * 1024 + bit disc * 512 + x.level % 4 * 128 + x.stamp.gen % 16

/-- A stamp record written to its ring (R322), lost, or counted as matching no ring. -/
def State.record (s : State) (x : StampRecord) : State :=
  match s.ringFor x.kind x.stamp.dom with
  | none => s.count Reg.ledgerNoRing 0 32 1
  | some r =>
    let s := s.ringResume r
    if s.ledgerRoom r 1 then
      let l := s.ledgerRing r
      let key := x.stamp.dom * 65536 + x.stamp.gen
      let disc := l.disc.contains key
      (s.ledgerPut r (recordTime x.stamp.time x.unit x.stamp.dom x.kind)
        (x.seq % 65536 * 2 ^ 48 + x.mtype % 16 * 2 ^ 44 + recordFlags x l.gapNext disc * 2 ^ 32 + x.tag % 2 ^ 32)).setLedger r
        (fun l => { l with gapNext := false, disc := l.disc.filter (· != key) })
    else s.ringLost r 1

/-- A discontinuity pair, whole or lost whole, on every enabled ring that takes the domain (R322, R324). -/
def State.pairRecords (s : State) (d cause oldT oldGen newT newGen : Nat) : State :=
  s.forEach ([0, 1, 2, 3].filter (fun r => s.ledgerOn r && s.ledgerDom r d)) (fun r s =>
    let s := s.ringResume r
    if s.ledgerRoom r 2 then
      ((s.ledgerPut r (recordTime oldT cause d 9) (secOf oldT * 65536 + oldGen)).ledgerPut r
        (recordTime newT cause d 10) (secOf newT * 65536 + newGen)).setLedger r (fun l => { l with
          anchors := assocSet l.anchors d (s.runNow d), disc := l.disc.filter (fun k => k / 65536 != d) ++ [d * 65536 + newGen] })
    else s.ringLost r 2)

/-- A step or restart recorded: TIME_STEPS, TIME_LAST_STEP, the pair and TIME_DISCONTINUITY (R324, R337). -/
def State.discontinuity (s : State) (d cause oldT oldGen newT newGen : Nat) : State :=
  let s := (s.count (Reg.timeSteps d) 0 32 1).set (Reg.timeLastStep d) (unsigned 64 ((newT : Int) - oldT))
  let s := (s.setTime (Reg.timeLastStepAt d 0) oldT).set (Reg.timeGen d) newGen
  (s.pairRecords d cause oldT oldGen newT newGen).raise 0x800
    (toLe 1 d ++ toLe 1 cause ++ toLe 2 newGen ++ timeBytes oldT ++ timeBytes newT)

/-! ### Port stamp FIFOs (R323) -/

/-- A port's stamp FIFO. -/
def State.fifo (s : State) (p : Nat) : StampFifo := (assoc s.fifos p).getD StampFifo.reset
/-- A port's stamp FIFO set, with the entries it holds shown. -/
def State.setFifo (s : State) (p : Nat) (x : StampFifo) : State :=
  { s.setf (Reg.ledgerPortFifo (0x100 + p)) 32 7 (x.held.length + bit x.gap.isSome) with
    fifos := (if x = StampFifo.reset then assocDel s.fifos p else assocSet s.fifos p x) }

/-- LEDGER_LOSS of a port FIFO, at most once in 1 s. -/
def State.fifoLoss (s : State) (p : Nat) (q : StampFifo) : State :=
  let due := match q.lossTick with | none => true | some t => decide (t + 1250000000 ≤ s.ticks)
  let s' := s.setFifo p { q with lossDue := if due then 0 else q.lossDue + 1, lossTick := if due then some s.ticks else q.lossTick }
  if due then s'.raise 0x804 (toLe 1 0xFF ++ toLe 1 p ++ zeros 2 ++ toLe 4 (q.lossDue + 1)) else s'

/-- A stamp for a port's FIFO: held, or, with 63 held, dropped into the gap record (R323). -/
def State.pushStamp (s : State) (p : Nat) (x : StampRecord) : State :=
  let q := s.fifo p
  match q.gap with
  | none =>
    if q.held.length < 63 then s.setFifo p { q with held := q.held ++ [x] }
    else (s.count (Reg.ledgerPortFifo (0x100 + p)) 0 32 1).fifoLoss p { q with gap := some ⟨x, x.seq, 1⟩ }
  | some g =>
    (s.count (Reg.ledgerPortFifo (0x100 + p)) 0 32 1).fifoLoss p { q with gap := some { g with lastSeq := x.seq, count := g.count + 1 } }

/-- A record that has left its FIFO: to its ring, or to the engine of its instance. -/
def State.drained (s : State) (x : StampRecord) : State := if x.toEngine then s else s.record x

/-- The oldest stamp of the lowest port that holds one leaves its FIFO (at most 50 M records/s, R322). -/
def State.drainOne (s : State) : State :=
  match s.fifos.find? (fun q => !q.2.held.isEmpty) with
  | none => s
  | some (p, q) => match q.held with
    | [] => s
    | x :: rest => (s.setFifo p { q with held := rest }).drained x

/-- FIFO_GAP: once the stamps ahead of a gap record have drained it leaves, to where its first lost stamp was bound (R321, R323). -/
def State.fifoGap (s : State) (p : Nat) : State :=
  let q := s.fifo p
  match q.gap with
  | none => s
  | some g =>
    if !q.held.isEmpty then s
    else
      let s := s.setFifo p { q with gap := none }
      if g.first.toEngine then s
      else match s.ringFor g.first.kind g.first.stamp.dom with
      | none => s.count Reg.ledgerNoRing 0 32 1
      | some r =>
        let s := s.ringResume r
        if s.ledgerRoom r 1 then
          s.ledgerPut r (g.count % 2 ^ 32 * 2 ^ 32 + p * 256 + g.first.stamp.dom * 32 + 16)
            (g.first.seq % 65536 * 2 ^ 48 + g.lastSeq % 65536 * 2 ^ 32 + g.first.tag % 2 ^ 32)
        else s.ringLost r 1

/-- A ring enabled (R78, R325): its counts restart at 0 and it anchors every domain it takes, behind the RING_GAP that it owes for
records lost before (R326). -/
def State.ledgerEnable (s : State) (r : Nat) : State :=
  let s := (s.setf (Reg.ledgerRingProd r) 0 32 0).setLedger r (fun l => { l with cons := 0, anchors := [], disc := [] })
  if (s.ledgerRing r).lost = 0 then s.anchorAll r else s.ringResume r

end Sys2Proof.Machine
end

