-- ==== Sys2Proof/Machine/Parse.lean ====
section
/-! DEFINITION. Frames: the FCS, the parser (R182), the catalogue key (R184) and the checksums of R163 and R164. -/
namespace Sys2Proof.Machine

/-! ### FCS and checksums -/

/-- One bit of the reflected CRC-32 of IEEE 802.3. -/
def crc32Bit (c : Nat) : Nat := if c % 2 = 1 then (c / 2) ^^^ 0xEDB88320 else c / 2
/-- One byte of it. -/
def crc32Byte (c : Nat) (b : Byte) : Nat :=
  crc32Bit (crc32Bit (crc32Bit (crc32Bit (crc32Bit (crc32Bit (crc32Bit (crc32Bit (c ^^^ b.toNat))))))))
/-- The CRC-32 of a frame's bytes: its FCS, sent low byte first. -/
def crc32 (bs : List Byte) : Nat := bs.foldl crc32Byte 0xFFFFFFFF ^^^ 0xFFFFFFFF
/-- The FCS bytes of a frame; a stomped FCS is the correct one XOR 0xFFFF_FFFF (R159). -/
def fcs (bs : List Byte) (stomp : Bool) : List Byte := toLe 4 (if stomp then crc32 bs ^^^ 0xFFFFFFFF else crc32 bs)

/-- A ones-complement sum folded to 16 bits. -/
def fold16 (n : Nat) : Nat := let a := n % 65536 + n / 65536; let b := a % 65536 + a / 65536; b % 65536 + b / 65536
/-- The sum of the big-endian 16-bit words of a byte list, an odd last byte taken as the high byte. -/
def sum16 : List Byte → Nat
  | [] => 0
  | [a] => a.toNat * 256
  | a :: b :: rest => a.toNat * 256 + b.toNat + sum16 rest
/-- The ones-complement sum of a byte list. -/
def ones (bs : List Byte) : Nat := fold16 (sum16 bs)

/-- A byte list with the bytes from an offset replaced. -/
def patch (l : List Byte) (off : Nat) (new : List Byte) : List Byte := l.take off ++ new ++ l.drop (off + new.length)

/-! ### The parser (R182) -/

/-- A VLAN tag: PCP, DEI and VID. -/
structure Tag where
  pcp : Nat
  dei : Nat
  vid : Nat
  deriving DecidableEq, Repr

/-- What the parser takes from a frame; offsets count from the first byte of the destination address. -/
structure Parsed where
  outer : Option Tag := none
  inner : Option Tag := none
  rtag : Option Nat := none
  hsr : Option Nat := none
  hsrPath : Nat := 0
  hsrLsdu : Nat := 0
  prp : Option Nat := none
  prpLan : Nat := 0
  rtagOff : Nat := 0
  hsrOff : Nat := 0
  etype : Nat := 0
  l2 : Nat := 0
  l3 : Nat := 0
  ipv4 : Bool := false
  ipv6 : Bool := false
  opts : Bool := false
  frag : Bool := false
  udp : Bool := false
  tcp : Bool := false
  dscp : Nat := 0
  ecn : Nat := 0
  proto : Nat := 0
  sip : Nat := 0
  dip : Nat := 0
  l4 : Nat := 0
  l4len : Nat := 0
  sport : Nat := 0
  dport : Nat := 0
  tcpFlags : Nat := 0
  ptp : Bool := false
  ptpOff : Nat := 0
  rtp : Bool := false
  rtpOff : Nat := 0
  lldp : Bool := false
  esmc : Bool := false
  snoop : Bool := false
  deep : Bool := false
  deriving DecidableEq, Repr

/-- A header of n bytes at an offset: none when it ends beyond the frame or beyond byte 256 (deep). -/
def header256 (d : List Byte) (off n : Nat) : Option Bool :=
  if off + n ≤ d.length ∧ off + n ≤ 256 then some true else if 256 < off + n ∧ off + n ≤ d.length then some false else none

/-- g applied to the parse when a header of n bytes at an offset lies within reach; otherwise parsing ends there. -/
def Parsed.within (x : Parsed) (d : List Byte) (off n : Nat) (g : Parsed → Parsed) : Parsed :=
  match header256 d off n with
  | some true => g x
  | some false => { x with deep := true }
  | none => x

/-- The VLAN tag whose TPID lies at an offset. -/
def tagAt (d : List Byte) (off : Nat) : Tag :=
  let t := be16 d (off + 2)
  ⟨bits t 13 3, bits t 12 1, bits t 0 12⟩

/-- PTP's common header at an offset: 34 bytes. -/
def Parsed.ptpAt (x : Parsed) (d : List Byte) (off : Nat) : Parsed :=
  x.within d off 34 (fun x => { x with ptp := true, ptpOff := off })

/-- The layer 4 header at an offset, the IP payload being n bytes long. -/
def Parsed.layer4 (x : Parsed) (d : List Byte) (off n : Nat) (rtpLo rtpHi : Nat) : Parsed :=
  let x := { x with l4 := off, l4len := n }
  if x.proto = 17 then
    x.within d off 8 (fun x =>
      let x := { x with udp := true, sport := be16 d off, dport := be16 d (off + 2) }
      if x.dport = 319 ∨ x.dport = 320 then x.ptpAt d (off + 8)
      else if rtpLo ≤ x.dport ∧ x.dport ≤ rtpHi ∧ u8 d (off + 8) / 64 = 2 then
        x.within d (off + 8) 12 (fun x => { x with rtp := true, rtpOff := off + 8 })
      else x)
  else if x.proto = 6 then
    x.within d off 20 (fun x => { x with tcp := true, sport := be16 d off, dport := be16 d (off + 2), tcpFlags := u8 d (off + 13) })
  else if x.ipv4 ∧ x.proto = 2 then x.within d off 8 (fun x => { x with snoop := true })
  else if x.ipv6 ∧ x.proto = 58 then
    x.within d off 4 (fun x => { x with snoop := let t := u8 d off; (130 ≤ t && t ≤ 132) || t == 143 })
  else x

/-- IPv6 extension headers, at most k of them, then layer 4; stop is where the IP payload ends. -/
def Parsed.ext (d : List Byte) (stop rtpLo rtpHi : Nat) : Nat → Bool → Nat → Parsed → Parsed
  | 0, first, off, x =>
    if x.proto = 0 ∨ x.proto = 43 ∨ x.proto = 44 ∨ x.proto = 60 then x
    else if first then x.layer4 d off (stop - off) rtpLo rtpHi else x
  | k + 1, first, off, x =>
    if x.proto = 0 ∨ x.proto = 43 ∨ x.proto = 44 ∨ x.proto = 60 then
      let isFrag := x.proto == 44
      let n := if isFrag then 8 else 8 * (u8 d (off + 1) + 1)
      match header256 d off n with
      | some true =>
        let fo := be16 d (off + 2)
        let x := { x with proto := u8 d off, opts := true, frag := x.frag || (isFrag && (fo / 8 != 0 || fo % 2 == 1)) }
        Parsed.ext d stop rtpLo rtpHi k (first && !(isFrag && fo / 8 != 0)) (off + n) x
      | some false => { x with deep := true }
      | none => x
    else if first then x.layer4 d off (stop - off) rtpLo rtpHi else x

/-- The headers after the tags: the Ethertype at l2 - 2, its payload at l2. -/
def Parsed.layer3 (x : Parsed) (d : List Byte) (rtpLo rtpHi : Nat) : Parsed :=
  let o := x.l2
  if x.etype = 0x0800 then
    if u8 d o / 16 = 4 ∧ 5 ≤ u8 d o % 16 then
      x.within d o (4 * (u8 d o % 16)) (fun x =>
        let n := 4 * (u8 d o % 16)
        let fo := be16 d (o + 6)
        let x := { x with ipv4 := true, l3 := o, opts := decide (20 < n), frag := fo % 8192 != 0 || fo.testBit 13
                          dscp := u8 d (o + 1) / 4, ecn := u8 d (o + 1) % 4, proto := u8 d (o + 9)
                          sip := 0xFFFF00000000 + be32 d (o + 12), dip := 0xFFFF00000000 + be32 d (o + 16) }
        if fo % 8192 = 0 then x.layer4 d (o + n) (be16 d (o + 2) - n) rtpLo rtpHi else { x with snoop := x.proto == 2 })
    else x
  else if x.etype = 0x86DD then
    if u8 d o / 16 = 6 then
      x.within d o 40 (fun x =>
        let x := { x with ipv6 := true, l3 := o, dscp := bits (be16 d o) 6 6, ecn := bits (be16 d o) 4 2, proto := u8 d (o + 6)
                          sip := beNat (slice d (o + 8) 16), dip := beNat (slice d (o + 24) 16) }
        Parsed.ext d (o + 40 + be16 d (o + 4)) rtpLo rtpHi 2 true (o + 40) x)
    else x
  else if x.etype = 0x88F7 then x.ptpAt d o
  else if x.etype = 0x88CC then { x with lldp := true }
  else if x.etype = 0x8809 then { x with esmc := u8 d o == 0x0A }
  else x

/-- The parser over a frame's bytes up to the FCS, with the port's PRP_RX, CAT_CFG.ALT_TPID and CAT_RTP_PORTS. The LSDU
sizes of HSR and PRP count from after the Ethertype, or the tag's, to the FCS (notes/assumptions/20.md). -/
def parse (prpRx : Bool) (altTpid rtpLo rtpHi : Nat) (d : List Byte) : Parsed :=
  let isOuter := fun t => t == 0x8100 || t == 0x88A8 || t == altTpid
  let x : Parsed := { etype := be16 d 12, l2 := 14 }
  let x := if isOuter x.etype then
      x.within d 12 6 (fun x => { x with outer := some (tagAt d 12), etype := be16 d 16, l2 := 18 }) else x
  let x := if x.outer.isSome && x.etype == 0x8100 then
      x.within d 16 6 (fun x => { x with inner := some (tagAt d 16), etype := be16 d 20, l2 := 22 }) else x
  let lsdu := d.length - x.l2
  let x := if x.etype = 0xF1C1 then
      x.within d x.l2 6 (fun x =>
        { x with rtag := some (be16 d (x.l2 + 2)), rtagOff := x.l2 - 2, etype := be16 d (x.l2 + 4), l2 := x.l2 + 6 }) else x
  let x := if x.etype = 0x892F then
      x.within d x.l2 6 (fun x =>
        { x with hsr := some (be16 d (x.l2 + 2)), hsrPath := be16 d x.l2 / 4096, hsrLsdu := be16 d x.l2 % 4096, hsrOff := x.l2 - 2, etype := be16 d (x.l2 + 4), l2 := x.l2 + 6 }) else x
  let n := d.length
  let x := if (prpRx || decide (n ≤ 256)) && decide (20 ≤ n) && be16 d (n - 2) == 0x88FB && be16 d (n - 4) % 4096 == lsdu
      then { x with prp := some (be16 d (n - 6)), prpLan := be16 d (n - 4) / 4096 } else x
  x.layer3 d rtpLo rtpHi

/-- The sequence number of the first tag found: R-tag, then HSR tag, then PRP trailer (R279). -/
def Parsed.seq (x : Parsed) : Option Nat := x.rtag <|> x.hsr <|> x.prp

/-- Whether a frame is a PTP event message: types 0-3 (R182). -/
def Parsed.event (x : Parsed) (d : List Byte) : Bool := x.ptp && decide (u8 d x.ptpOff % 16 ≤ 3)

/-- A tag's 16 bits. -/
def Tag.word (t : Tag) : Nat := t.pcp * 8192 + t.dei * 4096 + t.vid

/-- The catalogue key (R184), for an ingress port, its default tag and its class. -/
def Parsed.key (x : Parsed) (d : List Byte) (port : Nat) (dflt : Tag) (cls : Nat) : Nat :=
  let f := fun (b : Bool) (i : Nat) => bit b * 2 ^ i
  let flags := f x.outer.isSome 15 + f x.inner.isSome 14 + f x.rtag.isSome 13 + f x.hsr.isSome 12 + f x.prp.isSome 11 +
    f x.ipv4 10 + f x.ipv6 9 + f x.opts 8 + f x.frag 7 + f x.udp 6 + f x.tcp 5 + f x.ptp 4 + f x.rtp 3 + f x.lldp 2 +
    f x.esmc 1 + f x.snoop 0
  port * 2 ^ 505 + flags * 2 ^ 489 + be48 d 0 * 2 ^ 441 + be48 d 6 * 2 ^ 393 + (x.outer.getD dflt).word * 2 ^ 377 +
    (match x.inner with | some t => t.word | none => 0) * 2 ^ 361 + x.etype * 2 ^ 345 + (x.dscp * 4 + x.ecn) * 2 ^ 337 +
    x.proto * 2 ^ 329 + x.sip * 2 ^ 201 + x.dip * 2 ^ 73 + x.sport * 2 ^ 57 + x.dport * 2 ^ 41 +
    (if x.ptp then (u8 d x.ptpOff % 16 * 256 + u8 d (x.ptpOff + 4)) * 2 ^ 29 else 0) + cls * 2 ^ 21 + x.tcpFlags * 2 ^ 13

/-! ### Checksums (R163, R164) -/

/-- The pseudo-header sum of a frame's layer 4. -/
def Parsed.pseudo (x : Parsed) (d : List Byte) : Nat :=
  (if x.ipv4 then sum16 (slice d (x.l3 + 12) 8) else sum16 (slice d (x.l3 + 8) 32)) + x.proto + x.l4len

/-- The CSUM field of the descriptor (R163): [3] L4 bad, [2] L4 checked, [1] L3 bad, [0] L3 checked. -/
def Parsed.csum (x : Parsed) (d : List Byte) : Nat :=
  let l3 := if x.ipv4 then 1 + 2 * bit (ones (slice d x.l3 (4 * (u8 d x.l3 % 16))) != 0xFFFF) else 0
  let off := x.l4 + (if x.udp then 6 else 16)
  let skip := x.frag || !(x.udp || x.tcp) || (x.udp && x.ipv4 && be16 d off == 0)
  let bad := (x.udp && x.ipv6 && be16 d off == 0) || fold16 (x.pseudo d + sum16 (slice d x.l4 x.l4len)) != 0xFFFF
  l3 + (if skip then 0 else 4 + 8 * bit bad)

/-- An updated checksum after one 16-bit word changed, in the manner of RFC 1624. -/
def csumUpdate (old oldWord newWord : Nat) : Nat :=
  0xFFFF - fold16 ((0xFFFF - old % 65536) + (0xFFFF - oldWord % 65536) + newWord % 65536)

/-- The checksum of a frame's layer 4 kept true over a payload edit of whole 16-bit words at an offset (R164): left at 0
over IPv4, and 0xFFFF for an update that comes to 0. -/
def Parsed.l4Edit (x : Parsed) (d : List Byte) (off : Nat) (new : List Byte) : List Byte :=
  let even := if (off - x.l4) % 2 = 0 then off else off - 1
  let d' := patch d off new
  let n := (off + new.length - even + 1) / 2 * 2
  let coff := x.l4 + (if x.udp then 6 else 16)
  let old := be16 d coff
  if !(x.udp || x.tcp) || (x.udp && x.ipv4 && old == 0) then d'
  else
    let c := csumUpdate old (fold16 (sum16 (slice d even n))) (fold16 (sum16 (slice d' even n)))
    patch d' coff (toBe 2 (if x.udp && c == 0 then 0xFFFF else c))

/-- The IPv4 header checksum recomputed over the header as it stands. -/
def ipv4Csum (d : List Byte) (l3 : Nat) : List Byte :=
  let n := 4 * (u8 d l3 % 16)
  let d0 := patch d (l3 + 10) [0, 0]
  patch d0 (l3 + 10) (toBe 2 (0xFFFF - ones (slice d0 l3 n)))

/-- The DSCP of a frame remarked (R164, R185): an edit only when it changes; the IPv4 header checksum follows it. -/
def Parsed.setDscp (x : Parsed) (d : List Byte) (v : Nat) : List Byte :=
  if v = x.dscp then d
  else if x.ipv4 then ipv4Csum (patch d (x.l3 + 1) [BitVec.ofNat 8 (v * 4 + x.ecn)]) x.l3
  else if x.ipv6 then patch d x.l3 (toBe 2 (setBits (be16 d x.l3) 6 6 v))
  else d

end Sys2Proof.Machine
end

