-- ==== Sys2Proof/Machine/Gates.lean ====
section
/-! DEFINITION. Gate calendars (R254-R266): states, guard bands, acceptance checks, gate waits, starts and switches. -/
namespace Sys2Proof.Machine

/-! ### A calendar as a function of time (R254, R255) -/

/-- The gates and duration of each entry in 2^-16 ns; the last one runs on to the end of the cycle (R255). -/
def segments (entries : List Nat) (cycle : Nat) : List (Nat × Nat) :=
  let body := entries.map (fun e => (bits e 40 8, bits e 0 32 * ns16))
  let used := (body.map (·.2)).sum
  match body.getLast? with
  | none => []
  | some (g, d) => body.dropLast ++ [(g, d + (cycle * ns16 - used))]

/-- The calendar's segments. -/
def Calendar.segs (c : Calendar) : List (Nat × Nat) := segments c.entries c.cycle
/-- The place in the cycle at domain time t, for any t and base (R255). -/
def Calendar.phase (c : Calendar) (t : Nat) : Nat := ((((t : Int) - c.base) % ((c.cycle * ns16 : Nat) : Int))).toNat
/-- The first cycle start at or after t. -/
def Calendar.cycleStart (c : Calendar) (t : Nat) : Nat := let p := c.phase t; if p = 0 then t else t + (c.cycle * ns16 - p)

/-- The index of the segment at a place, and the place within it. -/
def segAt : List (Nat × Nat) → Nat → Nat × Nat
  | [], p => (0, p)
  | [_], p => (0, p)
  | s :: rest, p => if p < s.2 then (0, p) else let r := segAt rest (p - s.2); (r.1 + 1, r.2)

/-- The entry in force at domain time t. -/
def Calendar.entryAt (c : Calendar) (t : Nat) : Nat := (segAt c.segs (c.phase t)).1
/-- The gate states of an entry. -/
def Calendar.gatesOf (c : Calendar) (i : Nat) : Nat := bits (c.entries.getD i 0) 40 8

/-- How long a gate stays open from a place in the cycle, in 2^-16 ns; none is for ever. -/
def openFrom (segs : List (Nat × Nat)) (p q : Nat) : Option Nat :=
  let i := segAt segs p
  let rest := segs.drop i.1 ++ segs.take i.1
  let run := rest.takeWhile (fun s => s.1.testBit q)
  if run.length = rest.length then none
  else if run.isEmpty then some 0
  else some ((run.map (·.2)).sum - i.2)

/-- The longest run of segments that satisfy a test, over the cycle taken twice: none when all do. -/
def longestRun (segs : List (Nat × Nat)) (ok : Nat → Bool) : Option Nat :=
  if segs.all (fun s => ok s.1) then none
  else some ((segs ++ segs).foldl (fun (a : Nat × Nat) s =>
    if ok s.1 then (a.1 + s.2, max a.2 (a.1 + s.2)) else (0, a.2)) (0, 0)).2

/-! ### Transmission times (R253, R256) -/

/-- Whether the transmission time of n bytes at a rate in Mb/s lies within a time in 2^-16 ns. -/
def fits (n rate t : Nat) : Bool := decide (n * 8 * 1000 * ns16 ≤ t * rate)
/-- The transmission time of n bytes in ps, rounded up. -/
def txPs (n rate : Nat) : Nat := if rate = 0 then 0 else (n * 8 * 1000000 + rate - 1) / rate
/-- LEN_OVERHEAD of a port. -/
def State.overhead (s : State) (p : Nat) : Nat := s.f (Reg.schedCfg p) 0 6
/-- The rate of a port at its configured type (R258). -/
def State.configRate (s : State) (p : Nat) : Nat := match typeRow (s.portType p) with | some t => t.mbps | none => 0

/-- The gate wait of a queue (R261): its longest closed interval plus the transmission time of CARREL_LEN + LEN_OVERHEAD
bytes, in ps; 0 when it is open throughout. -/
def State.gateWait (s : State) (p : Nat) (segs : List (Nat × Nat)) (q : Nat) : Nat :=
  if segs.all (fun x => x.1.testBit q) then 0
  else
    let closed := match longestRun segs (fun g => !g.testBit q) with | some n => n | none => (segs.map (·.2)).sum
    closed / ns16 * 1000 + txPs (s.f (Reg.gateCfg p) 0 14 + s.overhead p) (s.configRate p)

/-! ### The calendars of a port -/

/-- The calendar that an admin or committed calendar puts in force: ALL_OPEN puts none. -/
def Calendar.inForce (c : Calendar) : Option Calendar := if c.entries.isEmpty then none else some c

/-- The calendars of a port. -/
def State.gate (s : State) (p : Nat) : Gates := (assoc s.gates p).getD Gates.reset
/-- They changed, with the admin state of GATE_STATUS: 0 none, 1 staged, 2 committed. -/
def State.setGate (s : State) (p : Nat) (f : Gates → Gates) : State :=
  let x := f (s.gate p)
  let s := { s with gates := (if x = Gates.reset then assocDel s.gates p else assocSet s.gates p x) }
  s.setf (Reg.gateStatus p) 48 2 (if x.committed.isSome then 2 else if x.admin.isSome then 1 else 0)

/-- The calendar in force on a port now (R255, R262): a committed one from its start S; none is all open. -/
def State.calendarNow (s : State) (p : Nat) : Option Calendar :=
  let x := s.gate p
  match x.committed with
  | some (c, start, d) => if start ≤ s.now d then c.inForce else x.oper
  | none => x.oper

/-- The hold of the calendar in force (R266): the entry held and the cycle start that ends it. -/
def State.holdNow (s : State) (p : Nat) : Option (Nat × Nat) :=
  let x := s.gate p
  match x.hold, s.calendarNow p with
  | some h, some c => if s.now c.dom < h.2 && x.oper == some c then some h else none
  | _, _ => none
/-- The entry in force on a port now, if a calendar is: its calendar, its number, its domain's step-free value when it began, and
what remains of it, in 2^-16 ns (R255, R266). -/
def State.entryInForce (s : State) (p : Nat) : Option (Calendar × Nat × Nat × Nat) :=
  match s.calendarNow p with
  | none => none
  | some c =>
    let t := s.now c.dom
    match s.holdNow p with
    | some (i, resume) => some (c, i, (s.gate p).heldRun, resume - t)
    | none =>
      let x := segAt c.segs (c.phase t)
      some (c, x.1, s.runNow c.dom - x.2, ((c.segs.map (·.2)).getD x.1 0) - x.2)
/-- The gate states of a port now (R255, R266): during a hold, those of the entry held. -/
def State.gatesNow (s : State) (p : Nat) : Nat :=
  match s.entryInForce p with
  | none => 0xFF
  | some x => x.1.gatesOf x.2.1

/-- How long queue q's gate stays open from now, in 2^-16 ns, across the start of a committed calendar; none is for ever. -/
def State.openLeft (s : State) (p q : Nat) : Option Nat :=
  let x := s.gate p
  let of := fun (c : Calendar) (t : Nat) => openFrom c.segs (c.phase t) q
  let cal := s.calendarNow p
  let left := match cal with
    | none => none
    | some c =>
      match s.holdNow p with
      | some (i, resume) =>
        if (c.gatesOf i).testBit q then (of c resume).map (fun r => resume - s.now c.dom + r) else some 0
      | none => of c (s.now c.dom)
  match x.committed with
  | none => left
  | some (next, start, d) =>
    let now := s.now d
    if start ≤ now then left
    else
      let gap := start - now
      let beyond := match left with | none => true | some r => decide (gap ≤ r)
      if beyond then (match next.inForce with | none => none | some c => (of c start).map (fun r => gap + r)) else left

/-- The longest open interval of a queue on a port, under the calendar in force; none is for ever. -/
def State.longestOpen (s : State) (p q : Nat) : Option Nat :=
  match s.calendarNow p with
  | none => none
  | some c => longestRun c.segs (fun g => g.testBit q)

/-! ### Loading (R259-R261) -/

/-- The entries of a GATE_LOAD payload. -/
def loadEntries (p : List Byte) : List Nat := (List.range (u16 p 4)).map (fun i => u64 p (24 + 8 * i))

/-- The first failed check of R260 with its queue or entry: (0, 255, 0xFFFF) when every check passes. -/
def State.loadCheck (s : State) (p : List Byte) : Nat × Nat × Nat :=
  let port := u8 p 0
  let fl := u8 p 1
  let n := u16 p 4
  let cyc := u32 p 8
  let open_ := fl.testBit 0
  let es := loadEntries p
  if s.portType port = 0 || decide (80 ≤ port) then (1, 0xFF, 0xFFFF)
  else if decide (4 ≤ fl) || decide (8 ≤ u8 p 2) || decide (1024 < n) || (n == 0) != open_ then (2, 0xFF, 0xFFFF)
  else if cyc < 1000 || decide (1000000000 < cyc) || !timeOk p 12 then (3, 0xFF, 0xFFFF)
  else if open_ then (0, 0xFF, 0xFFFF)
  else match es.findIdx? (fun e => bits e 48 16 != 0 || bits e 32 7 != 0 || decide (bits e 0 32 < 16) || decide (cyc < bits e 0 32)) with
    | some i => (4, 0xFF, i)
    | none =>
      if cyc < (es.map (fun e => bits e 0 32)).sum then (5, 0xFF, 0xFFFF)
      else
        let need := s.f (Reg.gateCfg port) 0 14 + s.overhead port
        match [5, 6, 7].find? (fun q => match longestRun (segments es cyc) (fun g => g.testBit q) with
            | none => false | some t => !fits need (s.configRate port) t) with
        | some q => (6, q, 0xFFFF)
        | none => (0, 0xFF, 0xFFFF)

/-- The field a failed check names in the error payload (R260). -/
def loadOffset (p : List Byte) : Nat × Nat × Nat → Nat
  | (1, _, _) => 0
  | (2, _, _) => if 4 ≤ u8 p 1 then 1 else if 8 ≤ u8 p 2 then 2 else 4
  | (3, _, _) => if u32 p 8 < 1000 ∨ 1000000000 < u32 p 8 then 8 else 12
  | (4, _, i) => 24 + 8 * i
  | (5, _, _) => 24
  | _ => 0xFFFF

/-- The calendar a GATE_LOAD payload describes; ALL_OPEN has no entries and no gate waits. -/
def State.loadCalendar (s : State) (p : List Byte) : Calendar :=
  if (u8 p 1).testBit 0 then ⟨u8 p 2, timeAt p 12, u32 p 8, [], [0, 0, 0], 0⟩
  else
    let segs := segments (loadEntries p) (u32 p 8)
    ⟨u8 p 2, timeAt p 12, u32 p 8, loadEntries p, [5, 6, 7].map (s.gateWait (u8 p 0) segs), 0⟩

/-- A calendar staged as a port's admin calendar, with its parameters (R259, R261). -/
def State.stageCalendar (s : State) (port dom cycle base : Nat) (c : Calendar) : State :=
  let s := s.setGate port (fun x => { x with admin := some c })
  let s := (s.set (Reg.gateAdminInfo port) (dom * 2 ^ 32 + c.entries.length)).set
    (Reg.gateAdminCycleNs port) cycle
  let s := s.setTime (Reg.gateAdminBase port 0) base
  s.forEach [0, 1, 2] (fun i s => s.set (Reg.gateAdminWaitQ port i) (c.waits.getD i 0))

/-! ### Committing and starting (R262-R265) -/

/-- A port's admin calendar committed with start S, on its domain. -/
def State.commitGate (s : State) (port start dom : Nat) : State :=
  match (s.gate port).admin with
  | none => s
  | some c =>
    (s.setGate port (fun x => { x with committed := some ({ c with start := start }, start, dom), admin := none })).setTime
      (Reg.gatePendStart port 0) start

/-- The closed time of a queue at the end of one list of segments and at the start of another. -/
def closedTail (segs : List (Nat × Nat)) (q : Nat) : Nat :=
  ((segs.reverse.takeWhile (fun x => !x.1.testBit q)).map (·.2)).sum
/-- The closed time of a queue at the start of a list of segments. -/
def closedHead (segs : List (Nat × Nat)) (q : Nat) : Nat := ((segs.takeWhile (fun x => !x.1.testBit q)).map (·.2)).sum

/-- The segments of the last cycle of a calendar before a time: its cycle cut at that place and turned round. -/
def lastCycle (c : Calendar) (t : Nat) : List (Nat × Nat) :=
  let i := segAt c.segs (c.phase t)
  match c.segs[i.1]? with
  | none => c.segs
  | some x => [(x.1, x.2 - i.2)] ++ c.segs.drop (i.1 + 1) ++ c.segs.take i.1 ++ [(x.1, i.2)]

/-- The junction wait of a queue at S, from one calendar to the next (R265): the closed interval that begins in the last
cycle of the old calendar and ends in the first of the new one. -/
def State.junction (s : State) (p : Nat) (old new : Option Calendar) (start q : Nat) : Nat :=
  match old with
  | none => 0
  | some o =>
    let before := closedTail ((lastCycle o start).filter (fun x => x.2 != 0)) q
    if before = 0 then 0
    else
      let after := match new with | some n => closedHead n.segs q | none => 0
      (before + after) / ns16 * 1000 + txPs (s.f (Reg.gateCfg p) 0 14 + s.overhead p) (s.configRate p)

/-- A committed calendar comes into force at S: its parameters, junction waits and GATE_ACTIVE (R262, R265). -/
def State.gateActive (s : State) (p : Nat) : State :=
  match (s.gate p).committed with
  | none => s
  | some (c, start, dom) =>
    if s.now dom < start then s
    else
      let old := (s.gate p).oper
      let c := c.inForce
      let s := s.setGate p (fun x => { x with oper := c, committed := none, hold := none })
      let s := s.setf (Reg.gateStatus p) 40 2 (bit c.isSome)
      let s := s.set (Reg.gateOperInfo p) (match c with | some c => c.dom * 2 ^ 32 + c.entries.length | none => 0)
      let s := s.setTime (Reg.gateOperBase p 0) (match c with | some c => c.base | none => 0)
      let s := (s.setTime (Reg.gateOperStart p 0) start).setTime (Reg.gatePendStart p 0) 0
      let s := s.set (Reg.gateCycleNs p) (match c with | some c => c.cycle | none => 0)
      let s := s.forEach [0, 1, 2] (fun i s =>
        (s.set (Reg.gateOperWaitQ p i) (match c with | some c => c.waits.getD i 0 | none => 0)).set (Reg.gateJunctionWaitQ p i)
          (s.junction p old c start (5 + i)))
      s.raise 0x600 (toLe 1 p ++ toLe 1 dom ++ toLe 2 (match c with | some c => c.entries.length | none => 0) ++ timeBytes start)

/-- GATE_ACTIVE (R262). -/
def execGateActive (p : Nat) (s : State) : Host.Outcome State Fault Refusal := let s := s.fresh; atUnit p 80 s (s.gateActive p)

/-- What a step of a domain does to the calendars on it (R266): those in force hold their entry until the next cycle start
in the new time, and a committed one recomputes S at least 2 µs after the step. `held` is the entry each port held before, with the
step-free value at which it began. -/
def State.gateStep (s : State) (dom : Nat) (held : List (Nat × Nat × Nat)) : State :=
  s.forEach (s.gates.map (·.1)) (fun p s =>
    let s := match (s.gate p).oper with
      | some c =>
        if c.dom = dom then
          let resume := c.cycleStart (s.now dom)
          let h := (assoc held p).getD (0, 0)
          let s := s.setGate p (fun x => { x with hold := some (h.1, resume), heldRun := h.2 })
          let s := (s.setf (Reg.gateStatus p) 40 2 2).count (Reg.gateRestarts p) 0 32 1
          s.raise 0x601 (toLe 1 p ++ toLe 1 dom ++ zeros 2 ++ timeBytes resume)
        else s
      | none => s
    match (s.gate p).committed with
    | some (c, _, d) =>
      if d = dom then
        let start := c.cycleStart (s.now dom + 2000 * ns16)
        (s.setGate p (fun x => { x with committed := some ({ c with start := start }, start, d) })).setTime
          (Reg.gatePendStart p 0) start
      else s
    | none => s)

/-- The entry each port on a domain has in force now, before a step, with the step-free value at which it began (R266). -/
def State.heldEntries (s : State) (dom : Nat) : List (Nat × Nat × Nat) :=
  s.gates.filterMap (fun (x : Nat × Gates) => match s.entryInForce x.1 with
    | some e => if e.1.dom = dom then some (x.1, e.2.1, e.2.2.1) else none
    | none => none)
/-- The calendars whose S has come are in force before a step is looked at (R262). -/
def State.gatesDue (s : State) : State := s.forEach (s.gates.map (·.1)) (fun p s => s.gateActive p)

/-- GATE_RESTART: the cycle start at which a hold ends is reached, and the calendar runs from entry 0 (R266). -/
def execGateRestart (p : Nat) (s : State) : Host.Outcome State Fault Refusal :=
  let s := s.fresh
  atUnit p 80 s (match (s.gate p).hold, (s.gate p).oper with
    | some (_, resume), some c =>
      if resume ≤ s.now c.dom then (s.setGate p (fun x => { x with hold := none })).setf (Reg.gateStatus p) 40 2 1 else s
    | _, _ => s)

end Sys2Proof.Machine
end

