-- ==== Sys2Proof/Machine/Buffers.lean ====
section
/-! DEFINITION. The shared buffer (chapter 07): charges, admission, the carrel pool, departures, flow control sent (R170),
spilling to the stacks and what the loss of a page or channel does. Which of the free cells the desk issues is open and a free
value (notes/assumptions/21.md). -/
namespace Sys2Proof.Machine

/-! ### Port readiness (R118) -/

/-- A lane's bit of DEV_LANE_READY: it rises at the lock and falls at a loss of lock. A receive sleep is no loss of lock (R135), so
the bit stays through SLEEP and WAKE, and the port goes on sending (R146, R147; DEDUCED, notes/assumptions/43.md). -/
def State.laneReady (s : State) (l : Lane) : Bool :=
  match l with
  | .hl n => s.b Reg.devLaneReadyHl n
  | .el n => s.b Reg.devLaneReadyEl n
/-- The part of an external port's conditions for ready that its lanes, its PCS and its lane domain's island make. -/
def State.portLinked (s : State) (p : Nat) : Bool :=
  s.portType p != 0 && (s.portLanes p).all s.laneReady && s.b (Reg.macLinkStatus p) 8 && s.f (Reg.macStepStatus p) 4 4 != 3 &&
    s.islandUp (portIsland p)
/-- Whether an external port's conditions for ready hold; an internal port's is its pair's PIPE bit. -/
def State.portUp (s : State) (p : Nat) : Bool :=
  if p < 80 then s.portLinked p && s.on (portPd p) && s.pairUp (pairOf p) else s.pairUp (pairOf p)
/-- Whether a power domain on a port's path drains (R121): it is powering down, and what is left of the path still runs, so that
the port, no longer ready, goes on sending what its queues hold until the domain is cut off (DEDUCED, notes/assumptions/44.md). -/
def State.drains (s : State) (p : Nat) : Bool :=
  let runs := fun (n : Nat) => s.pd n == 2 || s.pd n == 3
  let ds := [6, pairPd (pairOf p)] ++ (if p < 80 then [portPd p] else [])
  ds.any (fun n => s.pd n == 3) && ds.all runs && s.islandUp 10 && s.islandUp (pairIsland (pairOf p)) &&
    s.boot.pipeFilled.testBit (pairOf p) && (decide (80 ≤ p) || s.portLinked p)

/-- Whether a port receives (R118, R157): it is ready; an external one has RX_EN set and every lane LOCKED, not asleep. -/
def State.hears (s : State) (p : Nat) : Bool :=
  s.portReady p && (decide (80 ≤ p) || (s.b (Reg.macCfg p) 0 && (s.portLanes p).all (fun l => s.f (laneKey l 5) 0 4 == 4)))

/-! ### Queues and ports -/

/-- Queue q of port p. -/
def State.q (s : State) (p q : Nat) : Queue := (assoc s.buf.queues (8 * p + q)).getD Queue.reset
/-- A queue changed. -/
def State.setQ (s : State) (p q : Nat) (x : Queue) : State :=
  { s with buf := { s.buf with queues :=
      (if x = Queue.reset then assocDel s.buf.queues (8 * p + q) else assocSet s.buf.queues (8 * p + q) x) } }
/-- What a port keeps behind its parameters. -/
def State.side (s : State) (p : Nat) : PortSide := (assoc s.ports p).getD PortSide.reset
/-- That changed. -/
def State.setSide (s : State) (p : Nat) (f : PortSide → PortSide) : State :=
  let x := f (s.side p)
  { s with ports := (if x = PortSide.reset then assocDel s.ports p else assocSet s.ports p x) }

/-- The cells of a length (R212). -/
def cellsOf (n : Nat) : Nat := (n + 255) / 256
/-- A frame by its number. -/
def State.frame (s : State) (id : Nat) : Option Frame := s.buf.frames.find? (fun f => f.id == id)

/-- The copies a port is sending or holds preempted. -/
def PortSide.underway (x : PortSide) : List Sending := x.sending.toList ++ x.preempted.toList
/-- Every copy in the device with its port and queue. -/
def State.allCopies (s : State) : List (Nat × Nat × Copy) :=
  s.buf.queues.flatMap (fun x => x.2.copies.map (fun c => (x.1 / 8, x.1 % 8, c))) ++
  s.ports.flatMap (fun x => x.2.underway.map (fun t => (x.1, t.queue, t.copy)))

/-- The on-chip occupancy of a queue: the charges of its copies, those under way included (R215, R218). -/
def State.occ (s : State) (p q : Nat) : Nat :=
  ((s.q p q).copies.map (·.on)).sum + (((s.side p).underway.filter (fun t => t.queue == q)).map (fun t => t.copy.on)).sum
/-- MIN_CELLS of a queue. -/
def State.minCells (s : State) (p q : Nat) : Nat := s.f (Reg.bufQCfg p q) 0 19
/-- MAX_CELLS of a queue. -/
def State.maxCells (s : State) (p q : Nat) : Nat := s.f (Reg.bufQCfg p q) 38 19

/-! ### The limits of the internal ports (R36) -/

/-- When an internal port that starts a frame of n bytes in a tick is free again, in units of 1/75 ns: after the time that its frame
rate or its bit rate gives the frame, counted from when it was free if that lay within the tick before. -/
def nextFree (p free ticks n : Nat) : Nat :=
  let base := if 60 * ticks < free + 60 then free else 60 * ticks
  base + (if p = 80 then max 750 (12 * n) else if p = 81 then max 3750 (60 * n) else max 500 (6 * n))

/-! ### Statistics of good frames (R180) -/

/-- The class of a good frame's length among STAT_RX_LEN_k. -/
def lengthClass (n : Nat) : Nat :=
  if n ≤ 64 then 0 else if n ≤ 127 then 1 else if n ≤ 255 then 2 else if n ≤ 511 then 3 else if n ≤ 1023 then 4
  else if n ≤ 1518 then 5 else if n ≤ 2047 then 6 else if n ≤ 4095 then 7 else if n ≤ 9216 then 8 else 9
/-- The index of the kind of a destination address: 0 unicast, 1 multicast, 2 broadcast. -/
def castOf (mac : Nat) : Nat := if mac = 0xFFFFFFFFFFFF then 2 else if mac.testBit 40 then 1 else 0

/-- The counters of a good frame. -/
def State.countGood (s : State) (p : Nat) (d : List Byte) (len : Nat) : State :=
  ((((s.stat p 0 1).stat p 1 len).stat p (2 + castOf (be48 d 0)) 1).stat p (0x10 + lengthClass len) 1).occurs 0x0A (pairOf p) 1
/-- The counters of a frame that a port sends with a valid FCS (R180). -/
def State.sentGood (s : State) (p : Nat) (bytes : List Byte) : State :=
  ((s.stat p 0x20 1).stat p 0x21 bytes.length).stat p (0x22 + castOf (be48 bytes 0)) 1

/-! ### Pools (R216-R222) -/

/-- The ports that count in M and OVERCOMMIT: those with a non-zero type, and P80-P82. -/
def State.livePorts (s : State) : List Nat := (List.range 83).filter (fun p => s.f (Reg.macPortType p) 0 8 != 0)
/-- C, the cells present: those of a half whose domain is on; the upper half's only while its island runs
(notes/assumptions/58.md). -/
def State.cellsPresent (s : State) : Nat := (if s.on 6 then 131072 else 0) + (if s.on 7 && s.islandUp 11 then 131072 else 0)
/-- H, the arrival headroom (R214). -/
def headroom : Nat := 2656
/-- M, the bulk minima. -/
def State.minima (s : State) : Nat := (s.livePorts.map (fun p => ([0, 1, 2, 3, 4].map (s.minCells p)).sum)).sum
/-- T, the shared pool. -/
def State.sharedPool (s : State) : Nat := s.cellsPresent - headroom - s.buf.carrel - s.minima
/-- The queues that hold charges. -/
def State.busyQueues (s : State) : List (Nat × Nat) :=
  (s.allCopies.map (fun c => (c.1, c.2.1))).eraseDups
/-- F, the free shared cells. -/
def State.sharedFree (s : State) : Nat :=
  s.sharedPool - ((s.busyQueues.filter (fun x => decide (x.2 < 5))).map (fun x => s.occ x.1 x.2 - s.minCells x.1 x.2)).sum
/-- BUF_LENT: the cells charged to lent copies (R216). -/
def State.lent (s : State) : Nat := ((s.allCopies.filter (fun c => c.2.2.lent)).map (fun c => c.2.2.on)).sum
/-- The carrel cells in use: the charges of carrel queues and lent copies. -/
def State.carrelUsed (s : State) : Nat :=
  ((s.allCopies.filter (fun c => decide (5 ≤ c.2.1))).map (fun c => c.2.2.on)).sum + s.lent
/-- F_K, the free carrel pool (R219). -/
def State.carrelFree (s : State) : Nat :=
  s.buf.carrel - ((List.range 83).map (fun p => ([5, 6, 7].map (fun q => max (s.occ p q) (s.minCells p q))).sum)).sum - s.lent

/-! ### The circulation desk (R212-R214) -/

/-- The length a frame occupies cells for: its length, or the delivered length of one that is cut (R212). -/
def Frame.stored (f : Frame) : Nat := if f.err = 0 then f.len else min f.len f.data.length
/-- The cells of its frame that a copy still refers to, as a count: those on chip that it has not been refilled into (R229). -/
def Copy.shared (c : Copy) : Nat := c.on - c.refill.length
/-- The places, among a frame's cells, that some copy on chip refers to: a copy's pages hold its first cells. -/
def State.places (s : State) (f : Frame) : List Nat :=
  let mine := s.allCopies.filter (fun c => c.2.2.frame == f.id)
  (List.range (cellsOf f.stored)).filter (fun i => mine.any (fun c => decide (c.2.2.cells - c.2.2.shared ≤ i) && decide (i < c.2.2.cells)))
/-- The cells of a frame that a copy refers to. -/
def State.frameCells (s : State) (f : Frame) : List Nat := (s.places f).filterMap (fun i => f.cells[i]?)
/-- The cells that something refers to: frames, refilled copies, and page reads under way. -/
def State.referenced (s : State) : List Nat :=
  s.buf.frames.flatMap s.frameCells ++ s.allCopies.flatMap (fun c => c.2.2.refill) ++
    s.buf.queues.flatMap (fun x => x.2.chain.flatMap (·.cells))
/-- The tag of an issued cell: 0 ARRIVAL, 1 BULK, 2 CARREL. -/
def State.cellTag (s : State) (c : Nat) : Option Nat := (s.buf.desk.find? (fun x => x.1 == c)).map (·.2)
/-- The cells that are issued or out of service and on no free list. -/
def State.offLists (s : State) : List Nat :=
  let issued := s.buf.desk.filter (fun x => !s.buf.crossed.contains x.1)
  let idle := fun (l : List Nat) => l.filter (fun c => (s.cellTag c).isNone)
  issued.map (·.1) ++ s.buf.strayed ++ idle s.buf.held ++ idle s.buf.testHeld
/-- The cells on the free lists. -/
def State.cellsFree (s : State) : Nat := s.cellsPresent - s.offLists.length
/-- A number put in its place in a rising list. -/
def putRising (c : Nat) : List Nat → List Nat
  | [] => [c]
  | d :: ds => if c < d then c :: d :: ds else if c = d then d :: ds else d :: putRising c ds
/-- The kth number, counted from 0, that a rising list leaves out. -/
def nthOut : List Nat → Nat → Nat
  | [], k => k
  | c :: cs, k => if c ≤ k then nthOut cs (k + 1) else k
/-- n cells issued with a tag, each any that a free list holds; none once the lists are empty. -/
def State.issue (s : State) (tag : Nat) : Nat → State × List Nat
  | 0 => (s, [])
  | n + 1 =>
    if s.cellsFree = 0 then (s, [])
    else
      let c := nthOut (s.offLists.foldr putRising []) (Config.cellPick s.drawn % s.cellsFree)
      let again := s.buf.crossed.contains c
      let r := ({ s with
        drawn := s.drawn + 1
        buf := { s.buf with
          desk := (c, tag) :: (if again then s.buf.desk.filter (fun x => x.1 != c) else s.buf.desk)
          crossed := (if again then s.buf.crossed.filter (· != c) else s.buf.crossed) } }).issue tag n
      (r.1, c :: r.2)
/-- A frame's cells retagged as it is admitted (R216): CARREL if its QUEUE is Q5-Q7, and BULK otherwise. -/
def State.retag (s : State) (id : Nat) : State :=
  match s.frame id with
  | none => s
  | some f => { s with buf := { s.buf with desk := s.buf.desk.map (fun (x : Nat × Nat) =>
      if x.2 = 0 && f.cells.contains x.1 then (x.1, if f.carrel then 2 else 1) else x) } }
/-- The bulk cells that refills may take: those free beyond the arrival headroom and the carrel pool (R214, R221,
notes/assumptions/21.md). -/
def State.bulkFree (s : State) : Nat := s.cellsFree - headroom - (s.buf.carrel - s.carrelUsed)
/-- The cells charged to bulk queues but for lent copies. -/
def State.bulkCharged (s : State) : Nat :=
  ((s.allCopies.filter (fun c => decide (c.2.1 < 5) && !c.2.2.lent)).map (fun c => c.2.2.on)).sum

/-- The sum that OVERCOMMIT compares with K (R220). -/
def State.carrelSum (s : State) : Nat :=
  (s.livePorts.map (fun p => ([5, 6, 7].map (s.maxCells p)).sum)).sum + s.f Reg.bufPoolCfg 32 16

/-- OVERCOMMIT and SHORT brought up to date while PD6, which holds them, is on; each change raises its event (R220, R221). -/
def State.poolCheck (s : State) : State :=
  if !s.on 6 then s else
  let tooLong := decide (s.buf.carrel < s.carrelSum)
  let short := decide (s.cellsPresent < headroom + s.buf.carrel + s.minima)
  let s := if tooLong = s.b Reg.bufPoolStatus 57 then s
    else (s.setf Reg.bufPoolStatus 57 1 (bit tooLong)).raise 0x506
      (toLe 1 (bit tooLong) ++ zeros 3 ++ toLe 4 s.carrelSum ++ toLe 4 s.buf.carrel)
  if short = s.b Reg.bufPoolStatus 56 then s
  else (s.setf Reg.bufPoolStatus 56 1 (bit short)).raise 0x505
    (toLe 1 (bit short) ++ zeros 3 ++ toLe 4 s.cellsPresent ++ toLe 4 (headroom + s.buf.carrel + s.minima))

/-- K moves toward CARREL_POOL_CELLS: it grows as shared cells are free and shrinks to no less than the cells in use (R222). -/
def State.moveK (s : State) : State :=
  let w := s.f Reg.bufPoolCfg 0 16
  let k := s.buf.carrel
  let k' := if k < w then k + min (w - k) s.sharedFree else max w (min k s.carrelUsed)
  if k' = k then s else ({ s with buf := { s.buf with carrel := k' } }).poolCheck

/-! ### Ages and stamps -/

/-- CAT_CFG.FWD_DOMAIN. -/
def State.fwdDom (s : State) : Nat := s.f Reg.catCfg 32 3
/-- The age of a stamp on its domain, in 2^-16 ns, steps excluded (R233). -/
def State.age (s : State) (x : Stamp) : Nat := s.runNow x.dom - x.run
/-- AGE_US of a bulk queue; 0 does not age (R233). -/
def State.ageUs (s : State) (p q : Nat) : Nat := if q < 5 then s.f (Reg.bufQAgeUs p q) 0 24 else 0
/-- Whether a copy with this stamp has aged out of a queue. -/
def State.expired (s : State) (p q : Nat) (x : Stamp) : Bool :=
  s.ageUs p q != 0 && decide (s.ageUs p q * 1000 * ns16 < s.age x)

/-! ### Removing copies -/

/-- Frames without a copy leave the store, and the cells that nothing refers to any more are freed (R213), but for those that a
memory fault has left issued (R217). A crosslinked cell then returns to service (R246). -/
def State.collect (s : State) : State :=
  let live := s.allCopies.map (fun c => c.2.2.frame)
  let s := { s with buf := { s.buf with frames := s.buf.frames.filter (fun f => live.contains f.id) } }
  let used := s.referenced
  let stays := fun (c : Nat) => used.contains c || (assoc s.buf.missed c).isSome
  { s with buf := { s.buf with
    desk := s.buf.desk.filter (fun x => stays x.1)
    crossed := s.buf.crossed.filter stays
    held := s.buf.held.filter (fun c => used.contains c) } }

/-- The level of a domain as a record carries it. -/
def State.stampRecord (s : State) (kind : Nat) (x : Stamp) (unit seq mtype tag : Nat) (stale toEngine : Bool) : StampRecord :=
  ⟨kind, x, s.tdLevel x.dom, unit, seq, mtype, stale, tag, toEngine⟩

/-- A copy that will never leave: a TS_REQ copy gives EGRESS_DROPPED, stamped now (R310). -/
def State.deadCopy (s : State) (p : Nat) (c : Copy) : State :=
  match c.ts with
  | some tag => if p < 80 then s.pushStamp p (s.stampRecord 2 (s.portStamp p s.fwdDom) p 0 0 tag false false) else s
  | none => s

/-- A port's queues hold or have just held a copy (R173). -/
def State.busy (s : State) (p : Nat) : State := s.setSide p (fun x => { x with lastBusy := s.ticks })

/-- The copies of a queue that satisfy a test removed, with what their loss entails. -/
def State.removeCopies (s : State) (p q : Nat) (test : Copy → Bool) : State :=
  let x := s.q p q
  let dead := x.copies.filter test
  let s := s.setQ p q { x with copies := x.copies.filter (fun c => !test c) }
  (s.forEach dead (fun c s => s.deadCopy p c)).collect.busy p

/-! ### Flow control sent (R170) -/

/-- The on-chip cells held by frames received on a port with a priority, those that a page write has released left out
(R231). -/
def State.pfcCells (s : State) (p k : Nat) : Nat :=
  let mine := s.buf.frames.filter (fun f => f.port == p && f.prio == k)
  (mine.map (fun f => (s.places f).length)).sum +
  ((s.allCopies.filter (fun c => mine.any (fun f => f.id == c.2.2.frame))).map (fun c => c.2.2.refill.length)).sum

/-- A MAC control frame, padded to 60 bytes, with its FCS; its source is CMD_INBAND_MAC (notes/assumptions/22.md). -/
def State.controlFrame (s : State) (body : List Byte) : List Byte :=
  let f := toBe 6 0x0180C2000001 ++ toBe 6 (s.f Reg.cmdInbandMac 0 48) ++ toBe 2 0x8808 ++ body
  let f := f ++ zeros (60 - f.length)
  f ++ fcs f false

/-- One PFC frame for a set of priorities: PFC_QUANTA for XOFF, 0 for release; a port that cannot send sends none. -/
def State.sendPfc (s : State) (p : Nat) (off on : List Nat) : State :=
  let q := s.f (Reg.pfcQuanta p) 0 16
  let body := toBe 2 0x0101 ++ toBe 2 (maskOf (off ++ on)) ++ (List.range 8).flatMap (fun k => toBe 2 (if off.contains k then q else 0))
  if s.portReady p && s.b (Reg.macCfg p) 1 then
    let s := s.setSide p (fun x => { x with xoffAt := off.foldl (fun l k => assocSet l k s.ticks) x.xoffAt })
    ((s.emit (.control p (s.controlFrame body))).stat p 0x26 1).sentGood p (s.controlFrame body) else s

/-- XOFF and XON transitions of a port's priorities, several sharing one frame. -/
def State.pfcCheck (s : State) (p : Nat) : State :=
  if p < 80 then
    let pri := bitsSet (s.f (Reg.pauseCfg p) 16 7) 7
    let now := s.f (Reg.pauseStatus p) 8 8
    let off := pri.filter (fun k => !now.testBit k && decide (s.f (Reg.pfcWmP p k) 32 18 ≤ s.pfcCells p k))
    let on := ((List.range 7).filter (fun k => now.testBit k)).filter (fun k =>
      decide (s.pfcCells p k ≤ s.f (Reg.pfcWmP p k) 0 18) || !pri.contains k)
    if off.isEmpty && on.isEmpty then s
    else
      let s := s.setf (Reg.pauseStatus p) 8 8 (maskOf ((bitsSet now 8 ++ off).filter (fun k => !on.contains k)))
      (s.sendPfc p off on).forEach off (fun k s => s.stat p (0x38 + k) 1)
  else s

/-- Every port's priorities checked after cells were taken or released. -/
def State.pfcCheckAll (s : State) : State :=
  s.forEach ((List.range 80).filter (fun p => s.f (Reg.pauseCfg p) 16 7 != 0 || s.f (Reg.pauseStatus p) 8 8 != 0))
    (fun p s => s.pfcCheck p)

/-! ### Spilling (R224-R231) -/

/-- The state of a DDR5 channel: 0 OFF, 1 TRAINING, 2 IN_SERVICE, 3 OUT_OF_SERVICE. -/
def State.channel (s : State) (c : Nat) : Nat := s.f (Reg.stackChStatus (1 + c)) 0 4
/-- Whether the spill manager runs: PD6 on with its island clocked. -/
def State.spillUp (s : State) : Bool := s.on 6 && s.islandUp 10
/-- Whether a channel works: IN_SERVICE, with its controller clocked; one whose island has stopped keeps its pages and waits (R52,
notes/assumptions/57.md). -/
def State.channelUp (s : State) (c : Nat) : Bool := s.channel c == 2 && s.islandUp (12 + c)
/-- Whether a queue may spill (R224). -/
def State.maySpill (s : State) (p q : Nat) : Bool :=
  decide (q < 5) && s.b (Reg.stackQCfg (0x100 + p) q) 63 && s.spillUp && (s.channelUp 0 || s.channelUp 1)
/-- SPILL_ON_CELLS, REFILL_CELLS and HEAD_CELLS. -/
def State.spillOn (s : State) (p q : Nat) : Nat := s.f (Reg.stackQCfg (0x100 + p) q) 38 19
/-- REFILL_CELLS. -/
def State.refillCells (s : State) (p q : Nat) : Nat := s.f (Reg.stackQCfg (0x100 + p) q) 19 19
/-- HEAD_CELLS. -/
def State.headCells (s : State) (p q : Nat) : Nat := s.f (Reg.stackQCfg (0x100 + p) q) 0 19
/-- The total occupancy of a queue over its three segments, copies under way included (R225). -/
def State.total (s : State) (p q : Nat) : Nat :=
  ((s.q p q).copies.map (·.cells)).sum + (((s.side p).underway.filter (fun t => t.queue == q)).map (fun t => t.copy.on)).sum
/-- The tail cells on chip. -/
def Queue.tail (x : Queue) : Nat := ((x.copies.filter (fun c => c.seg == 1)).map (·.on)).sum
/-- The head cells of a queue. -/
def Queue.head (x : Queue) : Nat := ((x.copies.filter (fun c => c.seg == 0)).map (·.on)).sum

/-- A queue enters a spill state; SPILL_STATE at most once in 1 s for each queue (R225). ON_CHIP, head and tail are one, and
nothing is written or read for the queue any more. -/
def State.spillSet (s : State) (p q st : Nat) : State :=
  let x := s.q p q
  if x.state = st then s
  else
    let due := match x.spillTick with | none => true | some t => decide (t + 1250000000 ≤ s.ticks)
    let merge := fun (c : Copy) => if st = 0 then { c with seg := 0, writing := 0 } else c
    let s := s.setQ p q { x with
      state := st, copies := x.copies.map merge, spillTick := (if due then some s.ticks else x.spillTick)
      gen := if st = 0 then x.gen + 1 else x.gen, writing := (if st = 0 then [] else x.writing)
      reads := (if st = 0 then 0 else x.reads), waits := st != 0 && x.waits }
    if due then s.raise 0x500 (toLe 1 p ++ toLe 1 q ++ toLe 1 st ++ [0] ++ toLe 4 x.chain.length) else s

/-- Whether a copy still holds the reservation made while its frame arrived (R215). -/
def Copy.reserved (c : Copy) : Bool := c.cells != cellsOf c.len

/-- Cells of the tail, in arrival order, put into one page of at most n cells: the copies after it and the parts. -/
def takeTail : Nat → List Copy → List Copy × List (Nat × Nat)
  | _, [] => ([], [])
  | n, c :: cs =>
    let free := c.cells - c.pages - c.writing
    if c.seg = 0 ∨ c.reserved ∨ free = 0 ∨ n = 0 then let r := takeTail n cs; (c :: r.1, r.2)
    else
      let k := min n free
      let r := takeTail (n - k) cs
      ({ c with writing := c.writing + k } :: r.1, (c.serial, k) :: r.2)

/-- The copies of the tail with cells in no page yet. -/
def Queue.loose (x : Queue) : List Copy :=
  x.copies.filter (fun c => c.seg != 0 && !c.reserved && decide (c.pages + c.writing < c.cells))
/-- The tail cells not yet in any page. -/
def Queue.unpacked (x : Queue) : Nat := (x.loose.map (fun c => c.cells - c.pages - c.writing)).sum

/-- One page of the tail put under write (R227): its header takes the chain's generation, the serial number of the first frame
that starts in it (R240), and the newest stamp of those that do (R235). -/
def State.packPage (s : State) (p q : Nat) : State :=
  let x := s.q p q
  let r := takeTail 16 x.copies
  if r.2.isEmpty then s
  else
    let starts := x.copies.filter (fun c => c.pages == 0 && c.writing == 0 && r.2.any (fun y => y.1 == c.serial))
    let newest := (starts.filterMap (fun c => (s.frame c.frame).map (fun f => f.stamp.run))).foldl
      (fun a t => some (max (a.getD 0) t)) none
    let page : Page := { ch := 0, num := 0, parts := r.2, newest := newest, gen := x.gen, first := starts.head?.map (·.serial) }
    s.setQ p q { x with copies := r.1, writing := x.writing ++ [page] }

/-- Every page that the tail of a SPILLING queue fills is put under write, while the queue may spill (R224); k bounds their
number. -/
def State.packPages (s : State) (p q : Nat) : Nat → State
  | 0 => s
  | k + 1 =>
    if (s.q p q).state = 1 && s.maySpill p q && decide (16 ≤ (s.q p q).unpacked) then (s.packPage p q).packPages p q k else s
/-- The same, as many as there are. -/
def State.packFull (s : State) (p q : Nat) : State := s.packPages p q ((s.q p q).unpacked / 16)

/-- The changes of spill state that occupancy brings (R225): SPILLING to DRAINING below REFILL_CELLS, DRAINING back at
SPILL_ON_CELLS while the queue may spill, and to ON_CHIP once the chain is empty. -/
def State.spillCheck (s : State) (p q : Nat) : State :=
  let n := s.total p q
  let s := if (s.q p q).state = 1 && decide (n < s.refillCells p q) then s.spillSet p q 2
    else if (s.q p q).state = 2 && decide (s.spillOn p q ≤ n) && s.maySpill p q then (s.spillSet p q 1).packFull p q else s
  if (s.q p q).state = 2 && (s.q p q).chain.isEmpty then s.spillSet p q 0 else s

/-! ### The head of a queue (R228, R253, R256, R257) -/

/-- Whether preemption is active on a port: merge state SUCCEEDED or ACTIVE_UNVERIFIED (R168, R252). -/
def State.preempting (s : State) (p : Nat) : Bool :=
  decide (p < 80) && (s.f (Reg.macMergeStatus p) 0 4 == 3 || s.f (Reg.macMergeStatus p) 0 4 == 5)
/-- The minimum first fragment with LEN_OVERHEAD (R167, R256). -/
def State.fragment (s : State) (p : Nat) : Nat := 64 * (1 + s.f (Reg.macMergeCfg p) 8 2) + s.overhead p
/-- The head of a queue, when every cell of it is on chip (R228). -/
def State.head (s : State) (p q : Nat) : Option Copy :=
  match (s.q p q).copies with
  | [] => none
  | c :: _ => if c.seg = 0 then some c else none
/-- The scheduler length of a copy (R253): its length as it will be sent, inserted tags aside, as its admission took it, with
LEN_OVERHEAD. -/
def State.schedLen (s : State) (p : Nat) (c : Copy) : Nat := c.sched + s.overhead p
/-- Whether a copy can never fit its queue's gate (R257): its first transmission, which is the whole of it, or, for a preemptable
frame with preemption active, its minimum first fragment, a shorter frame's being itself. -/
def State.neverFits (s : State) (p q : Nat) (c : Copy) : Bool :=
  match s.longestOpen p q with
  | none => false
  | some t =>
    let n := s.schedLen p c
    !fits (if q < 5 && s.preempting p then min (s.fragment p) n else n) (s.rate p) t

/-- GATE_NOFIT of a port, reported at most once in 1 s. -/
def State.noFit (s : State) (p q : Nat) : State :=
  let s := s.count (Reg.gateNofit p) 0 32 1
  let x := s.side p
  let due := match x.nofitTick with | none => true | some t => decide (t + 1250000000 ≤ s.ticks)
  let s' := s.setSide p (fun y => { y with
    nofit := (if due then 0 else y.nofit + 1), nofitTick := (if due then some s.ticks else y.nofitTick) })
  if due then s'.raise 0x602 (toLe 1 p ++ toLe 1 q ++ zeros 2 ++ toLe 4 (x.nofit + 1)) else s'
/-- The head copy of a queue taken out; its frame stays until the store is next collected. -/
def State.dropHead (s : State) (p q : Nat) : State :=
  match (s.q p q).copies with
  | [] => s
  | c :: rest => (s.setQ p q { s.q p q with copies := rest }).deadCopy p c
/-- The copies that have reached the head of a queue decided under R257, once each: one that can never fit is dropped, and the next
is looked at. k bounds their number. -/
def State.judgeHead (s : State) (p q : Nat) : Nat → State
  | 0 => s
  | k + 1 =>
    match s.head p q with
    | none => s
    | some c =>
      if c.judged then s
      else if p < 80 && s.neverFits p q c then ((s.noFit p q).dropHead p q).judgeHead p q k
      else s.setQ p q { s.q p q with copies := modifyAt (s.q p q).copies 0 (fun c => { c with judged := true }) }
/-- The same, as many as the queue holds. -/
def State.judge (s : State) (p q : Nat) : State := s.judgeHead p q (s.q p q).copies.length

/-! ### Admission (R212, R215-R223, R230) -/

/-- The bulk test of R218 for n cells: the queue's limit, its dynamic threshold, and the free shared cells. While SHORT is 1 the
minima are honoured only until no cell is left beside the headroom and the carrel pool (R221). -/
def State.bulkTest (s : State) (p q n : Nat) : Bool :=
  let o := s.occ p q
  let mn := s.minCells p q
  let free := s.sharedFree
  let a := signed 4 (s.f (Reg.bufQCfg p q) 60 4)
  let s1 := o + n - mn
  decide (o + n ≤ s.maxCells p q) &&
    (if a < 0 then decide (s1 * 2 ^ (-a).toNat ≤ free) else decide (s1 ≤ free * 2 ^ a.toNat)) &&
    decide (s1 - (o - mn) ≤ free) &&
    (!s.b Reg.bufPoolStatus 56 || decide (n + s.bulkCharged ≤ s.cellsPresent - headroom - s.buf.carrel))

/-- The carrel test of R219. -/
def State.carrelTest (s : State) (p q n : Nat) : Bool :=
  let o := s.occ p q
  let mn := s.minCells p q
  decide (o + n ≤ s.maxCells p q) && (decide (o + n ≤ mn) || decide (o + n - max o mn ≤ s.carrelFree))

/-- The stack test of R230 for a queue that spills. -/
def State.stackTest (s : State) (p q n : Nat) : Bool :=
  let x := s.q p q
  x.state == 0 || decide (x.chain.length + (x.tail + n + 15) / 16 ≤ s.f (Reg.stackQMax (0x100 + p) q) 0 23)

/-- Whether a copy of n cells, lent or not, is admitted to a queue, entries of the queue-entry store included (R212). -/
def State.admits (s : State) (p q n : Nat) (lent : Bool) : Bool :=
  if q < 5 then
    decide ((s.allCopies.filter (fun c => decide (c.2.1 < 5))).length < 491520) && s.bulkTest p q n && s.stackTest p q n &&
      (!lent || decide (s.lent + n ≤ s.f Reg.bufPoolCfg 32 16))
  else decide ((s.allCopies.filter (fun c => decide (5 ≤ c.2.1))).length < 32768) && s.carrelTest p q n

/-- A copy offered to a queue with n cells at the decision: admitted and charged those n, which its frame's end settles (R215),
its frame's cells retagged (R216), or refused and counted (R223). The result says which. -/
def State.enqueue (s : State) (p q n : Nat) (c : Copy) : State × Bool :=
  if s.admits p q n c.lent then
    let x := s.q p q
    let reach := s.occ p q + n
    let s := s.setf (Reg.bufQStatus p q) 38 19 (max (s.f (Reg.bufQStatus p q) 38 19) reach)
    let starts := x.state = 0 && s.maySpill p q && decide (s.spillOn p q ≤ reach)
    let c := { c with serial := x.serial, cells := n, on := n, joined := s.ticks, sched := (if c.sched = 0 then c.len else c.sched), seg := (if x.state != 0 || starts then 1 else 0) }
    let s := s.setQ p q { x with copies := x.copies ++ [c], serial := x.serial + 1 }
    let s := if starts then s.spillSet p q 1 else s.spillCheck p q
    ((((s.packFull p q).retag c.frame).busy p).judge p q, true)
  else (s.stat p (0x58 + q) 1, false)

/-- The last byte of a frame is stored: each of its copies is charged ceil(L / 256) in place of its reservation (R215), and what
that changes of spill states and pages follows. -/
def State.settle (s : State) (id : Nat) : State :=
  let mine := fun (c : Copy) => c.frame == id && c.reserved
  let keys := (s.buf.queues.filter (fun x => x.2.copies.any mine)).map (·.1)
  s.forEach keys (fun k s =>
    let x := s.q (k / 8) (k % 8)
    let fix := fun (c : Copy) => if mine c then { c with cells := cellsOf c.len, on := cellsOf c.len } else c
    let s := s.setQ (k / 8) (k % 8) { x with copies := x.copies.map fix }
    (s.packFull (k / 8) (k % 8)).spillCheck (k / 8) (k % 8))

/-- A copy of a frame as it is admitted: every cell on chip, charged ceil(len / 256). -/
def Copy.of (f : Frame) (len : Nat) (bulk : Bool) : Copy :=
  { frame := f.id, serial := 0, cells := cellsOf len, on := cellsOf len, pages := 0, writing := 0, seg := 0
    lent := bulk && f.carrel, len := len, mirror := none, sample := none, kind := 0, polDrop := false
    frerElim := false, untag := false, ts := none, cut := false }

/-- A frame of the device's own, from P81, with its bytes up to the FCS. -/
def State.ownFrame (s : State) (port q : Nat) (d : List Byte) : Frame :=
  { id := s.buf.nextId, data := d, len := max 64 (d.length + 4), port := port, err := 0, csum := 0
    epoch := s.f Reg.catEpochCurrent 0 32, stamp := s.stampNow s.fwdDom, ptp := none, queue := q, pcp := 0, dei := 0, vid := 0
    tagged := false, hit := none, action := 0, stream := none, seq := none, gen := false, prio := 0, stale := false
    carrel := decide (5 ≤ q), csumReq := 0 }

/-- A frame entered in the store, in cells issued to it as its bytes arrive, tagged ARRIVAL (R214). -/
def State.storeFrame (s : State) (f : Frame) : State :=
  let r := s.issue 0 (cellsOf f.stored)
  { r.1 with buf := { r.1.buf with frames := r.1.buf.frames ++ [{ f with cells := r.2, runs := (List.range 8).map s.runNow }], nextId := f.id + 1 } }

/-- The queued copies of a port that stops being ready are dropped, each counted in MCAST_DROP_LINK (R192, R118). Copies in
the stacks go with their queue; a copy under way ends with its port. -/
def State.dropPort (s : State) (p : Nat) : State :=
  let s := s.forEach (List.range 8) (fun q s =>
    let x := s.q p q
    if x.copies.isEmpty then s
    else
      let s := s.wrap (Reg.mcastDropLink p) 0 64 x.copies.length
      let s := s.forEach x.copies (fun c s => s.deadCopy p c)
      (s.setQ p q { x with copies := [], chain := [], writing := [] }).spillSet p q 0)
  let t := (s.side p).underway
  let s := s.wrap (Reg.mcastDropLink p) 0 64 t.length
  let s := s.setSide p (fun x => { x with sending := none, preempted := none })
  ((s.forEach t (fun t s => s.deadCopy p t.copy)).collect).pfcCheckAll.moveK

/-! ### Pages (R235, R236, R240-R243) -/

/-- The spill pages per channel of an organisation code (R236). -/
def orgPages (org : Nat) : Nat :=
  [917504, 1835008, 2752512, 3670016, 1835008, 3670016, 1835008, 3670016, 3670016].getD org 0
/-- The spill pages of a channel, as trained: the organisation is the low half of what it was trained with, above it the speed. -/
def State.channelPages (s : State) (c : Nat) : Nat := orgPages ((assoc s.buf.trainedOrg c).getD 0 % 16)
/-- The pages of a channel that chains hold, abandoned remainders included. -/
def State.pagesHeld (s : State) (c : Nat) : List Nat :=
  (s.buf.queues.flatMap (fun x => (x.2.chain.filter (fun g => g.ch == c)).map (·.num))) ++
  ((s.buf.abandoned.flatMap (fun a => a.2.2)).filter (fun g => g.1 == c)).map (fun g => g.2)
/-- The word of entry i of a channel's retirement list. -/
def retiredKey (c i : Nat) : Nat := Reg.stackRetired (0x10 + 8 * c + i / 512) (i % 512)
/-- Whether a shelfmark is an entry of a channel's retirement list. -/
def retiredWord (c k : Nat) : Bool := decide (retiredKey c 0 ≤ k) && decide (k ≤ retiredKey c 4095) && decide (k % 0x1000 < 512)
/-- The listed entries of a channel's retirement list, in the order of their words. The words reset to 0, so one that the store
does not list has VALID clear. -/
def State.retiredList (s : State) (c : Nat) : List Nat :=
  (s.words.filter (fun w => retiredWord c w.1 && w.2.getLsbD 63)).map (fun w => bits w.2.toNat 0 23)
/-- Whether a page of a channel can be allocated. -/
def State.pageFree (s : State) (c n : Nat) : Bool :=
  decide (n < s.channelPages c) && !(s.pagesHeld c).contains n && !(s.retiredList c).contains n

/-- The copies that lie, by serial number, in a list of pages. -/
def serialsIn (gs : List Page) : List Nat := (gs.flatMap (fun g => g.parts.map (·.1))).eraseDups

/-- Frames of a queue lost with pages of its chain: dropped, counted in STAT_Q_DROP_ECC_q; cells refilled from a lost frame
are freed with it. -/
def State.dropSerials (s : State) (p q : Nat) (l : List Nat) : State :=
  let lost := ((s.q p q).copies.filter (fun c => l.contains c.serial)).length
  let s := (s.stat p (0x68 + q) lost).removeCopies p q (fun c => l.contains c.serial)
  let x := s.q p q
  let strip := fun (g : Page) => { g with parts := g.parts.filter (fun y => !l.contains y.1) }
  s.setQ p q { x with chain := x.chain.map strip, writing := (x.writing.map strip).filter (fun g => !g.parts.isEmpty) }

/-- The header of page i of a queue's chain (R240): port, queue and chain generation; the channels and numbers of the next two
pages; the serial number of the first frame that starts in it; and the newest stamp of R235. -/
def State.pageHeader (s : State) (p q i : Nat) : Option ((Nat × Nat × Nat) × List (Nat × Nat) × Option Nat × Option Nat) :=
  (s.q p q).chain[i]?.map (fun g =>
    ((p, q, g.gen), (((s.q p q).chain.drop (i + 1)).take 2).map (fun h => (h.ch, h.num)), g.first, g.newest))

/-- The chain cut before the first two consecutive pages that a test calls lost: what stays and what is abandoned. -/
def cutChain (lost : Page → Bool) : List Page → List Page × List Page
  | a :: b :: rest => if lost a && lost b then ([], a :: b :: rest) else let r := cutChain lost (b :: rest); (a :: r.1, r.2)
  | l => (l, [])

/-- Head and tail of a queue whose chain is gone merge on chip; no page of it stays under write. -/
def State.mergeTail (s : State) (p q : Nat) : State :=
  let x := s.q p q
  let flat := fun (c : Copy) => { c with writing := 0, seg := 0 }
  (s.setQ p q { x with copies := x.copies.map flat, writing := [], reads := 0, waits := false }).spillSet p q 0

/-- What R243 does to one queue when pages satisfying a test are lost: the frames with a cell in them are dropped, and after
two consecutive lost pages the rest of the chain is abandoned and head and tail merge. The result counts the frames lost. -/
def State.losePages (s : State) (p q : Nat) (lost : Page → Bool) : State × Nat :=
  let x := s.q p q
  let r := cutChain lost x.chain
  let gone := serialsIn ((r.1.filter lost) ++ r.2)
  let n := (x.copies.filter (fun c => gone.contains c.serial)).length
  let kept := ((r.1.take x.reads).filter (fun g => !lost g)).length
  let s := s.setQ p q { x with chain := r.1.filter (fun g => !lost g), reads := kept }
  let s := s.dropSerials p q gone
  if r.2.isEmpty then (s.spillCheck p q, n)
  else
    let rest := (r.2.filter (fun g => !lost g)).map (fun (g : Page) => (g.ch, g.num))
    let s := s.count Reg.stackAbandoned 0 32 1
    let s := { s with buf := { s.buf with abandoned := s.buf.abandoned ++ [(8 * p + q, n, rest)] } }
    (((s.setQ p q { s.q p q with chain := [] }).mergeTail p q).collect, n)

end Sys2Proof.Machine
end

