-- ==== Sys2Proof/Machine/Mirror.lean ====
section
/-! DEFINITION. Mirror sessions and samples (R196-R199), and the frames that engines send by P81. -/
namespace Sys2Proof.Machine

/-! ### Sessions (R196-R199, R206) -/

/-- Whether port p is in a port set that starts at an offset (R187). -/
def portIn (e : List Byte) (off p : Nat) : Bool := (u8 e (off + p / 8)).testBit (p % 8)
/-- A mirror session's mode set, with MIRROR_MODE on a change (R198). -/
def State.mirrorMode (s : State) (m mode cause : Nat) : State :=
  if s.f (Reg.mirrStatus m) 0 2 = mode then s
  else (s.setf (Reg.mirrStatus m) 0 2 mode).raise 0x403 (toLe 1 m ++ toLe 1 mode ++ toLe 1 cause)
/-- The entry of a mirror session in the epoch that a frame was classified under (R206): the current one, or its predecessor. -/
def State.mirrEntry (s : State) (epoch m : Nat) : Option (List Byte) :=
  assoc (if epoch = s.f Reg.catEpochCurrent 0 32 then s.fwd.tables.mirr else s.fwd.oldMirr) m
/-- The sessions that take a frame received on a port with a catalogue action, each with its source kind (R197, R199). -/
def State.mirrorsIn (s : State) (port action : Nat) : List (Nat × Nat) :=
  (List.range 8).filterMap (fun m =>
    match assoc s.fwd.tables.mirr m with
    | none => none
    | some e => if portIn e 16 port then some (m, 0) else if action.testBit (50 + m) then some (m, 2) else none)
/-- The sessions that take a copy of a frame of an epoch sent by a port. -/
def State.mirrorsOut (s : State) (epoch port : Nat) : List (Nat × Nat) :=
  (List.range 8).filterMap (fun m => (s.mirrEntry epoch m).bind (fun e => if portIn e 28 port then some (m, 1) else none))

/-- A session's hidden state. -/
def State.mirror (s : State) (m : Nat) : MirrorSide := (assoc s.fwd.mirrors m).getD ⟨[], 0⟩
/-- It changed. -/
def State.setMirror (s : State) (m : Nat) (f : MirrorSide → MirrorSide) : State :=
  { s with fwd := { s.fwd with mirrors := assocSet s.fwd.mirrors m (f (s.mirror m)) } }

/-- The 16-byte header of a sample copy (R199). -/
def sampleHeader (m kind port : Nat) (stamp len : Nat) : List Byte :=
  toLe 1 m ++ toLe 1 kind ++ toLe 1 port ++ [0] ++ toLe 4 (ns32Of stamp) ++ toLe 2 stamp ++ toLe 2 len ++ zeros 4

/-- The mode in which a session takes a frame (R198): its own, or, where a commit has taken the session away since the frame was
classified, the one its entry started in (R206). -/
def State.mirrorAs (s : State) (m : Nat) (e : List Byte) : Nat :=
  let now := s.f (Reg.mirrStatus m) 0 2
  if now != 0 then now else if (u8 e 0).testBit 1 then 2 else 1
/-- What the occupancy of its queue makes of a session in a tick (R198): in FULL, fall-back at FALLBACK_CELLS; in SAMPLING, how
lately it held RESUME_CELLS. -/
def State.mirrorCheck (s : State) (m : Nat) : State :=
  match assoc s.fwd.tables.mirr m with
  | none => s
  | some e =>
    let occ := s.occ (u8 e 1) (u8 e 2)
    let s := if u16 e 12 ≤ occ && (s.mirror m).high != s.ticks then s.setMirror m (fun x => { x with high := s.ticks }) else s
    if s.f (Reg.mirrStatus m) 0 2 = 1 && decide (u16 e 10 ≤ occ) then s.mirrorMode m 2 0 else s

/-- A full copy of a frame for a session with entry e (R197): queued at the analysis port, truncated to TRUNC_LEN, or refused, which
ends FULL mode. n is the charge at the decision. -/
def State.mirrorFull (s : State) (f : Frame) (m : Nat) (e : List Byte) (n len : Nat) (pol elim : Bool) : State :=
  let ap := u8 e 1
  let q := u8 e 2
  let l := if u16 e 4 = 0 then len else min len (u16 e 4)
  let c := { Copy.of f l true with mirror := some m, polDrop := pol, frerElim := elim, kind := (if f.err = 0 then 0 else 1) }
  if s.portReady ap then
    let r := s.enqueue ap q n c
    if r.2 then r.1.mirrorCheck m else (r.1.count (Reg.mirrStatus m) 32 32 1).mirrorMode m 2 1
  else s.wrap (Reg.mcastDropLink ap) 0 64 1
/-- A sample copy of a frame for a session with entry e (R199), a new frame queued for P82. -/
def State.mirrorSample (s : State) (f : Frame) (m : Nat) (e : List Byte) (kind port stamp : Nat) (len : Nat) : State :=
  let whole := if f.err = 0 then f.data ++ fcs f.data false else f.data
  let d := sampleHeader m kind port stamp len ++ whole.take (u16 e 8)
  let g := { s.ownFrame 82 (u8 e 2) d with carrel := false, len := d.length + 4 }
  let r := (s.storeFrame g).enqueue 82 (u8 e 2) (cellsOf g.len) { Copy.of g g.len true with kind := 3, sample := some m }
  if r.2 then r.1 else r.1.count (Reg.mirrStatus m) 32 32 1
/-- One frame offered to a mirror session in a pipeline pair: a full copy in FULL mode, every Nth a sample in SAMPLING (R198). The
frame must be in the store; flags say POL_DROP and FRER_ELIM. -/
def State.mirrorFrame (s : State) (pair : Nat) (f : Frame) (m kind n port len stamp : Nat) (pol elim : Bool) : State :=
  match s.mirrEntry f.epoch m with
  | none => s
  | some e =>
    let pipe := if kind = 1 then 8 + pair else pair
    let c := (assoc (s.mirror m).counters pipe).getD 0 + 1
    let s := s.setMirror m (fun x => { x with counters := assocSet x.counters pipe (c % u16 e 6) })
    if s.mirrorAs m e = 1 then s.mirrorFull f m e n len pol elim
    else if c % u16 e 6 = 0 then s.mirrorSample f m e kind port stamp len
    else s
/-- A stored frame offered to the sessions whose ingress sources name its port, and to no other destination. -/
def State.mirrorPort (s : State) (f : Frame) (port : Nat) : State :=
  s.forEach (s.mirrorsIn port 0) (fun x s =>
    s.mirrorFrame (pairOf port) f x.1 x.2 (cellsOf f.stored) port f.len f.stamp.time false false)

/-! ### Frames that engines send (R41) -/

/-- A frame made by an engine and received on P81, sent by a port in a queue without lookup, as a copy of a kind; a port that is not
ready drops it (R192). -/
def State.sendOwn (s : State) (p q kind : Nat) (f : Frame) : State :=
  let s := ((s.countGood 81 f.data f.len).storeFrame f).mirrorPort f 81
  let s := if s.portReady p then (s.enqueue p q (cellsOf f.len) { Copy.of f f.len (decide (q < 5)) with kind := kind }).1
    else s.wrap (Reg.mcastDropLink p) 0 64 1
  s.collect
/-- The same of bytes that leave as they are. -/
def State.deviceSend (s : State) (p q : Nat) (d : List Byte) : State := s.sendOwn p q 2 (s.ownFrame 81 q d)

end Sys2Proof.Machine
end

