-- ==== Sys2Proof/Machine/Session.lean ====
section
/-! DEFINITION. Mivik requests: the checks of R58 in their order, sessions, authentication, chains and replies. A command is
a record of what its opcode's steps 6 to 10 are; serve runs a request through the checks and the record. -/
namespace Sys2Proof.Machine

/-- The statuses of R59. -/
inductive Status where
  | ok | late | busy | busyEpoch | notReady | lease | length | range | truncated | crc | opcode | past | version
  | auth | locked | internal
  deriving DecidableEq, Repr

/-- The code of a status (R59). -/
def Status.code : Status → Nat
  | .ok => 0x0000 | .late => 0x0001 | .busy => 0x0100 | .busyEpoch => 0x0101 | .notReady => 0x0102 | .lease => 0x0103
  | .length => 0x0200 | .range => 0x0201 | .truncated => 0x0202 | .crc => 0x0203 | .opcode => 0x0204 | .past => 0x0205
  | .version => 0x0206 | .auth => 0x0300 | .locked => 0x0301 | .internal => 0x0F00

/-- Whether a status means that the command took effect (R59). -/
def Status.good : Status → Bool
  | .ok => true | .late => true | _ => false

/-- A refusal: its status and error payload (R60); off 0xFFFF is no offset. -/
structure Err where
  st : Status
  off : Nat
  kind : Nat
  val : Nat
  deriving DecidableEq, Repr

/-- The 8-byte error payload of R60. -/
def Err.bytes (e : Err) : List Byte := toLe 2 e.off ++ toLe 1 e.kind ++ [0] ++ toLe 4 e.val
/-- A status with no detail. -/
def Err.plain (st : Status) : Err := ⟨st, 0xFFFF, 0, 0⟩
/-- RANGE for the field at an offset of the command payload. -/
def Err.at (off : Nat) : Err := ⟨.range, off, 0, 0⟩
/-- PAST for the time at an offset of the command payload (R11). -/
def Err.pastAt (off : Nat) : Err := ⟨.past, off, 0, 0⟩
/-- RANGE with no offset. -/
def Err.range : Err := .plain .range
/-- NOT_READY for a readiness bit (detail kind 2, R116). -/
def Err.bit (b : Nat) : Err := ⟨.notReady, 0xFFFF, 2, b⟩
/-- NOT_READY for a power domain that is off (detail kind 3, R49). -/
def Err.domain (pd : Nat) : Err := ⟨.notReady, 0xFFFF, 3, pd⟩
/-- BUSY with a retry hint in µs (detail kind 4). -/
def Err.busy (us : Nat) : Err := ⟨.busy, 0xFFFF, 4, us⟩

/-- The first error of a list of checks. -/
def firstErr (l : List (Option Err)) : Option Err := l.findSome? id
/-- An error when a condition holds. -/
def errIf (c : Bool) (e : Err) : Option Err := if c then some e else none

/-- A command at its step 10: who sent it, where its reply goes, and its payload without authentication blocks. -/
structure Ctx where
  dest : ReplyTo
  p : List Byte
  deriving DecidableEq, Repr

/-- The master of a transport; in-band requests belong to the host (R84). -/
def masterOf : Via → Master
  | .pcie => .host | .inband => .host | .sideband => .sideband
/-- The lease owner code of a master (R87). -/
def ownerCode : Master → Nat
  | .host => 1 | .sideband => 2
/-- The other master. -/
def otherMaster : Master → Master
  | .host => .sideband | .sideband => .host
/-- The master of a command. -/
def Ctx.master (c : Ctx) : Master := masterOf c.dest.via

/-- What step 10 yields: a reply, a later reply, or a refusal (BUSY, PAST, BUSY_EPOCH, LEASE). -/
inductive Ran where
  | reply (st : Status) (payload : List Byte) (s : State)
  | later (job : Job) (s : State)
  | error (e : Err) (s : State)

/-- An OK reply. -/
def Ran.ok (payload : List Byte) (s : State) : Ran := .reply .ok payload s

/-- A command of the opcode table of R68: its class, whether it may be chained (R66), the engine and power domains it needs
(step 7), its payload checks (step 8), its largest reply (R75), the leases it needs and its lock test (step 9), what a refusal
leaves behind, its effect (step 10), and what follows its reply. -/
structure Cmd where
  opcode : Nat
  cls : Nat
  chain : Bool := false
  engine : Option Nat := none
  pds : List Nat := []
  ready : Ctx → State → Option Err := fun _ _ => none
  check : Ctx → State → Option Err
  size : Ctx → State → Nat := fun _ _ => 0
  leases : Ctx → State → List Nat := fun _ _ => []
  locked : Ctx → State → Option Err := fun _ _ => none
  refused : Ctx → State → Err → State := fun _ s _ => s
  run : Ctx → State → Ran
  after : Ctx → State → State := fun _ s => s

/-! ### Transports and activity -/

/-- A transport of the state. -/
def State.transport (s : State) : Via → Transport
  | .pcie => s.ctl.pcie | .inband => s.ctl.inband | .sideband => s.ctl.sideband
/-- A transport changed. -/
def State.setTransport (s : State) (v : Via) (f : Transport → Transport) : State :=
  match v with
  | .pcie => { s with ctl := { s.ctl with pcie := f s.ctl.pcie } }
  | .inband => { s with ctl := { s.ctl with inband := f s.ctl.inband } }
  | .sideband => { s with ctl := { s.ctl with sideband := f s.ctl.sideband } }
/-- A transport's session changed. -/
def State.setSession (s : State) (v : Via) (f : Session → Session) : State :=
  s.setTransport v (fun t => { t with session := f t.session })

/-- Activity of a master (R89): its idle count starts again and its period of silence ends. -/
def State.active (s : State) : Master → State
  | .host => { s with ctl := { s.ctl with hostActive := s.ticks, hostSilentSent := false } }
  | .sideband => { s with ctl := { s.ctl with sbActive := s.ticks, sbSilentSent := false } }

/-- Whole ms since a master's last activity, saturating (R89). -/
def State.idleMs (s : State) (m : Master) : Nat :=
  min ((s.ticks - (match m with | .host => s.ctl.hostActive | .sideband => s.ctl.sbActive)) / 1250000) 0xFFFFFFFF

/-- The holder of a block's lease: 0 none, 1 host, 2 side-band (R87). -/
def State.owner (s : State) (b : Nat) : Nat :=
  if b < 32 then s.f Reg.cmdLeaseOwnerLo (2 * b) 2 else s.f Reg.cmdLeaseOwnerHi (2 * (b - 32)) 2
/-- A block's lease set. -/
def State.setOwner (s : State) (b o : Nat) : State :=
  if b < 32 then s.setf Reg.cmdLeaseOwnerLo (2 * b) 2 o else s.setf Reg.cmdLeaseOwnerHi (2 * (b - 32)) 2 o
/-- Whether a master holds a block's lease. -/
def State.holds (s : State) (m : Master) (b : Nat) : Bool := s.owner b == ownerCode m
/-- LEASE for the first block of a list the master does not hold (R60, R69); CMD instance 0 aside. -/
def State.leaseErr (s : State) (m : Master) (bs : List Nat) : Option Err :=
  (bs.find? (fun b => !s.holds m b)).map (fun b => ⟨.lease, 0xFFFF, 5, b * 256 + s.owner b⟩)

/-! ### Replies (R55, R56, R60, R61, R63, R77, R84, R86) -/

/-- Whether a reply packet is issued: always for an error, otherwise when ACK_REQ is set (R55). -/
def ReplyTo.wants (t : ReplyTo) (st : Status) : Bool := !st.good || t.flags.testBit 7

/-- The reply ring entry of R77, with the phase of the pass. -/
def replyEntry (t : ReplyTo) (status len prod size : Nat) : List Byte :=
  toLe 2 t.tag ++ toLe 2 status ++ toLe 2 len ++ toLe 2 t.slot ++ zeros 7 ++ toLe 1 (phaseOf prod size)

/-- A reply on the PCIe rings (R55, R78, R79): the packet if one is issued, the reply ring entry, MSI-X vector 0. A reply
that finds the ring not enabled, or PD1 off, is not written. -/
def State.replyPcie (s : State) (t : ReplyTo) (status : Nat) (pkt : List Byte) : State :=
  if s.on 1 && s.b Reg.cmdRplrCtrl 31 then
    let prod := s.f Reg.cmdRplrProd 0 16
    let size := s.ringSize Reg.cmdRplrCtrl 4
    let s := if pkt.isEmpty then s else s.emit (.dma t.buf pkt)
    let addr := s.get Reg.cmdRplrBase / 4096 * 4096 + 16 * (prod % size)
    ((s.emit (.dma addr (replyEntry t status pkt.length prod size))).setf Reg.cmdRplrProd 0 16 (prod + 1)).msix 0
  else s

/-- Whether a reply slot is free: the replies held and the commands in execution are never more than 8 (R86). -/
def State.sbRoom (s : State) : Bool := decide (s.ctl.sbReplies.length + s.ctl.sbRunning < 8)
/-- A reply that takes a slot; ATTN_N falls, rising first for a moment if it is low already (R86). -/
def State.sbHold (s : State) (pkt : List Byte) : State :=
  let s' := { s with ctl := { s.ctl with sbReplies := s.ctl.sbReplies ++ [pkt] } }
  if s.attnLow then (s'.emit (.attn false)).emit (.attn true) else s'.emit (.attn true)
/-- A reply for the side-band. A started command has a slot for it; an answer to a request that was never started waits where
none is free (R86; DESIGN CHOICE, notes/assumptions/11.md). -/
def State.replySb (s : State) (pkt : List Byte) : State :=
  if pkt.isEmpty then s
  else if s.sbRoom then s.sbHold pkt
  else { s with ctl := { s.ctl with sbWait := s.ctl.sbWait ++ [pkt] } }
/-- The oldest answers that wait take the slots that are free; n bounds their number. -/
def State.sbPromote : Nat → State → State
  | 0, s => s
  | n + 1, s =>
    match s.ctl.sbWait with
    | [] => s
    | b :: rest => if s.sbRoom then State.sbPromote n (({ s with ctl := { s.ctl with sbWait := rest } }).sbHold b) else s

/-- An in-band reply frame: to the request's source by its arrival port, in Q7, with its VLAN tag (R84). -/
def State.replyInband (s : State) (t : ReplyTo) (pkt : List Byte) : State :=
  if pkt.isEmpty then s
  else
    let tag := match t.vlan with | some v => toBe 4 v | none => []
    s.deviceSend t.port 7 (toBe 6 t.src ++ toBe 6 (s.f Reg.cmdInbandMac 0 48) ++ tag ++ toBe 2 0x88B5 ++ pkt)

/-- A reply packet sent on its transport. -/
def State.send (s : State) (t : ReplyTo) (status : Nat) (pkt : List Byte) : State :=
  match t.via with
  | .pcie => s.replyPcie t status pkt
  | .inband => s.replyInband t pkt
  | .sideband => s.replySb pkt

/-- The reply packet to a request, authenticated as the request was (R63); empty where none is issued (R55). -/
def State.replyPacket (s : State) (t : ReplyTo) (st : Status) (payload : List Byte) : List Byte :=
  if t.wants st
  then s.packet t.version (t.flags % 4) (0x8000 + t.opcode % 0x8000) t.tag st.code t.seq (t.key.map (fun k => (k, t.num))) payload
  else []
/-- A reply kept for retransmission: the last 16 of the session (R61). -/
def State.remember (s : State) (t : ReplyTo) (st : Status) (pkt : List Byte) : State :=
  s.setSession t.via (fun ses => { ses with kept := (⟨t.seq, t.opcode, t.tag, st.code, pkt⟩ :: ses.kept).take 16 })
/-- The reply to a request, kept if the request was accepted (R61). -/
def State.deliver (s : State) (t : ReplyTo) (keep : Bool) (st : Status) (payload : List Byte) : State :=
  let pkt := s.replyPacket t st payload
  let s := if keep && (s.transport t.via).session.last.isSome then s.remember t st pkt else s
  s.send t st.code pkt

/-- An error reply; the offset counts from byte 0 of the request payload, authentication block included (R60). -/
def State.fail (s : State) (t : ReplyTo) (keep : Bool) (e : Err) : State :=
  let off := if e.off = 0xFFFF then 0xFFFF else if t.key.isSome then e.off + 32 else e.off
  s.deliver t keep e.st { e with off := off }.bytes

/-! ### AUTH results (R65) -/

/-- The field of SEC_AUTH_FAIL of a transport. -/
def authLo : Via → Nat
  | .pcie => 0 | .sideband => 16 | .inband => 32
/-- The number of a transport in replies and events (R70, R94). -/
def viaNumber : Via → Nat
  | .pcie => 0 | .inband => 1 | .sideband => 2

/-- An AUTH result: counted in SEC_AUTH_FAIL, reported at most once in 1 s, and, outside the lockout, counted toward the 16
that start it (R65). 1 s is 1,250,000,000 ticks. -/
def State.authFail (s : State) (v : Via) : State :=
  let s := s.count Reg.secAuthFail (authLo v) 16 1
  let t := s.transport v
  let recent := (s.ticks :: t.authTicks).filter (fun a => s.ticks < a + 1250000000)
  let due := match t.lastAuthEvent with | none => true | some a => decide (a + 1250000000 ≤ s.ticks)
  let run := if t.lockout.isSome then t.authRun else t.authRun + 1
  let s := s.setTransport v (fun t => { t with
    authTicks := recent, authRun := if run ≥ 16 then 0 else run, lockout := if run ≥ 16 then some s.ticks else t.lockout
    lastAuthEvent := if due then some s.ticks else t.lastAuthEvent })
  if due then s.raise 3 (toLe 1 (viaNumber v) ++ zeros 3 ++ toLe 4 recent.length) else s

/-- Whether a key slot is valid. -/
def State.keyValid (s : State) (slot : Nat) : Bool := decide (slot < 4) && s.b Reg.secKeyValid slot

/-- The HMAC of a request under a slot and session number (R63). -/
def State.requestMac (s : State) (slot num op : Nat) (q : Request) : List Byte :=
  hmacSha256 (s.keyBytes slot)
    (toLe 8 num ++ header q.version q.flags op q.tag q.payload.length q.status q.seq ++ q.payload.drop 32)

/-- Step 4 (R58, R64): none is AUTH; otherwise the key slot and session number the request was authenticated with, if any. -/
def State.authStep (s : State) (op : Nat) (q : Request) : Option (Option (Nat × Nat)) :=
  let t := s.transport q.via
  let hasBlock := q.flags.testBit 6
  let body := if hasBlock then q.payload.drop 32 else q.payload
  if t.lockout.isSome && op != 3 then none
  else if hasBlock then
    let slot := if op = 1 then (if body.isEmpty then 0xFF else u8 body 0) else t.session.key.getD 0xFF
    let num := if op = 1 then 0 else t.session.num
    if op = 1 && s.b Reg.fwColdBoots 32 then none
    else if s.keyValid slot && q.payload.take 32 == s.requestMac slot num op q then some (some (slot, num)) else none
  else if op = 1 && !body.isEmpty && u8 body 0 != 0xFF && decide (u8 body 0 < 4) then none
  else if op = 3 then some none
  else if q.via == .inband then none
  else if q.via == .sideband && s.b Reg.secCtrl 1 then none
  else some none

/-- Step 5 (R61): a number in S + 1 .. S + 2^31 modulo 2^32, or the session's first request. -/
def seqOk (last : Option Nat) (seq : Nat) : Bool :=
  match last with
  | none => true
  | some l => decide (1 ≤ (seq + 2 ^ 32 - l) % 2 ^ 32) && decide ((seq + 2 ^ 32 - l) % 2 ^ 32 ≤ 2 ^ 31)

/-! ### Step 7: readiness (R43, R44, R49, R106, R111, R112) -/

/-- Whether the always-on groups serve an opcode in BOOT_HOLD and NO_HEADER (R106). -/
def heldOpcode (op : Nat) : Bool :=
  op / 256 == 0x00 || op / 256 == 0x01 || op / 256 == 0x0C || op / 256 == 0x0F || op == 0x0502
/-- Whether the side-band serves an opcode in READING_ROOM (R111). -/
def readingOpcode (op : Nat) : Bool := heldOpcode op || op / 256 == 0x08
/-- Whether E0 serves an opcode on the PCIe rings in place of E1 (R43). -/
def fallbackOpcode (op : Nat) : Bool := op / 256 == 0x00 || op / 256 == 0x08 || op / 256 == 0x0F
/-- Whether an opcode's group needs the timing image (R112). -/
def timingOpcode (op : Nat) : Bool :=
  (op / 256 == 0x03 || op / 256 == 0x04 || op / 256 == 0x05) && op != 0x0502

/-- Step 7 for every command: its interpreter, the device's mode, its engine's mailbox, its power domains, its own test. -/
def Cmd.notReady (c : Cmd) (x : Ctx) (s : State) : Option Err :=
  firstErr [
    errIf (x.dest.via == .pcie && !s.serves 1 && !fallbackOpcode c.opcode) (.bit 21),
    errIf (x.dest.via == .sideband && (s.mode == 4 || s.mode == 5) && !heldOpcode c.opcode) (.plain .notReady),
    errIf (x.dest.via == .sideband && s.mode == 3 && !readingOpcode c.opcode) (.plain .notReady),
    errIf (s.mode == 2 && timingOpcode c.opcode) (.bit 16),
    errIf (!s.ctl.leasesAssigned && (c.opcode / 256 == 0x0F || !(c.leases x s).isEmpty)) (.plain .notReady),
    c.engine.bind (fun e => errIf (!s.serves e) (.bit (groupBit e))),
    (c.pds.find? (fun n => !s.on n)).map .domain,
    c.ready x s]

/-! ### Running a command -/

/-- The engine whose service an opcode's command uses, beyond its interpreter (R41). -/
def serviceEngine (op : Nat) : Option Nat :=
  match op / 256 with
  | 0x02 => some 8 | 0x04 => some 4 | 0x07 => some 6 | 0x09 => some 7 | 0x0B => some 9 | 0x0C => some 0 | 0x0E => some 9
  | 0x0D => if op = 0x0D00 then some 5 else some 10
  | _ => none
/-- The side-band requests queued for engines that are restarting or stalled, answered NOT_READY at once (R44): for E0, which
interprets them all, every one. -/
def State.answerQueued (s : State) (es : List Nat) : State :=
  let hit := s.ctl.sbAccepted.filter (fun x => es.contains 0 || (serviceEngine x.1.opcode).any es.contains)
  let s := { s with ctl := { s.ctl with sbAccepted := s.ctl.sbAccepted.filter (fun x => !hit.contains x) } }
  s.forEach hit (fun x s => s.fail x.1 true (.bit (if es.contains 0 then 20 else groupBit ((serviceEngine x.1.opcode).getD 0))))

/-- How a command's engine behaves: it replies, or its mailbox replies INTERNAL with the step completed or not (R44). -/
inductive Mailbox where
  | replies
  | silent (completed : Bool)
  deriving DecidableEq, Repr

/-- The engine that interprets a request's group or carries its service, treated as stalled (R44). -/
def Cmd.serving (c : Cmd) (x : Ctx) (s : State) : Nat :=
  c.engine.getD (match x.dest.via with | .sideband => 0 | .pcie => if s.serves 1 then 1 else 0 | .inband => 1)

/-- Whether a reply with a payload of n bytes fits its transport, authentication block included (R75). -/
def State.replyFits (s : State) (t : ReplyTo) (n : Nat) : Bool :=
  let len := 20 + (if t.key.isSome then 32 else 0) + n
  match t.via with
  | .inband => decide (len + 18 + (if t.vlan.isSome then 4 else 0) ≤ s.f (Reg.macMaxFrame t.port) 0 14)
  | _ => decide (len ≤ 4096)

/-- A command whose reply comes later: it is outstanding on its transport until then. -/
def State.putOff (s : State) (t : ReplyTo) (job : Job) : State :=
  { s with ctl := { s.ctl with
    deferred := s.ctl.deferred ++ [⟨t, job, true, false⟩]
    outstanding := s.ctl.outstanding + (if t.via == .pcie then 1 else 0)
    inbandOut := s.ctl.inbandOut + (if t.via == .inband then 1 else 0)
    sbRunning := s.ctl.sbRunning + (if t.via == .sideband then 1 else 0) } }

/-- Steps 7 to 10 of R58 for a command whose whole payload has arrived. -/
def Cmd.execute (c : Cmd) (m : Mailbox) (x : Ctx) (s : State) : State :=
  match firstErr [c.notReady x s, c.check x s, errIf (!s.replyFits x.dest (c.size x s)) (.plain .length),
      s.leaseErr x.master (c.leases x s), c.locked x s] with
  | some e => (c.refused x s e).fail x.dest true e
  | none =>
    match m with
    | .replies =>
      match c.run x s with
      | .reply st payload s' => c.after x (s'.deliver x.dest true st payload)
      | .later job s' => s'.putOff x.dest job
      | .error e s' => s'.fail x.dest true e
    | .silent completed =>
      let e := c.serving x s
      let s := if completed then
          (match c.run x s with | .reply _ _ s' => c.after x s' | .later _ s' => s' | .error _ _ => s) else s
      let s := (s.fail x.dest true ⟨.internal, 0xFFFF, 6, bit completed⟩).deviceFault
      ((s.setEngine e (fun g => { g with stalled := true })).answerQueued [e]).refresh

/-- The chain of a transport ended with a status (R66, R67). -/
def State.endChain (s : State) (v : Via) (e : Err) : State :=
  match (s.transport v).session.chain with
  | none => s
  | some ch => (s.setSession v (fun ses => { ses with chain := none })).fail ch.dest true e

/-- The block that a chain's command writes (R68). -/
def Chain.block (c : Chain) : Nat :=
  match c.opcode with
  | 0x0200 => u8 c.data 0 | 0x0600 => 0x1D | 0x0D00 => 0x2C | _ => 0x03

/-- The limit of a chain's payload: 1 MiB (R66). -/
def chainLimit : Nat := 2 ^ 20

/-- The last packet of a chain, or a whole unchained request: the command runs over the joined payload (R66, R92). -/
def Cmd.finish (c : Cmd) (m : Mailbox) (t : ReplyTo) (body : List Byte) (s : State) : State :=
  match (s.transport t.via).session.chain with
  | some ch =>
    if c.cls = 0 then c.execute m ⟨t, body⟩ s
    else
      let s := s.setSession t.via (fun ses => { ses with chain := none })
      if ch.tooLong || decide (chainLimit < ch.data.length + body.length) then s.fail t true (.plain .length)
      else if ch.lost then s.fail t true ⟨.lease, 0xFFFF, 5, ch.block * 256 + s.owner ch.block⟩
      else c.execute m ⟨t, ch.data ++ body⟩ s
  | none => c.execute m ⟨t, body⟩ s

/-- An inner packet of a chain: its payload joins the chain's, which receives one reply at its end (R66), in the reply buffer and
with the ring index of the last packet received (DESIGN CHOICE: R77 does not say; notes/assumptions/12.md). -/
def Cmd.inner (t : ReplyTo) (body : List Byte) (s : State) : State :=
  let ch := ((s.transport t.via).session.chain).getD ⟨t.opcode, t.tag, [], false, false, 0, t⟩
  let tooLong := ch.tooLong || decide (chainLimit < ch.data.length + body.length)
  s.setSession t.via (fun ses => { ses with
    chain := some { ch with data := if tooLong then [] else ch.data ++ body, tooLong := tooLong, last := s.ticks, dest := t } })

/-- Whether a packet is the next one of a transport's chain. -/
def Chain.continues (ch : Chain) (t : ReplyTo) : Bool := ch.opcode == t.opcode && ch.tag == t.tag
/-- A command's payload so far: of a chain's packet, joined to those before it (R66). -/
def State.joined (s : State) (t : ReplyTo) (body : List Byte) : List Byte :=
  match (s.transport t.via).session.chain with
  | some ch => if ch.continues t then ch.data ++ body else body
  | none => body
/-- Whether a request runs in the middle of a chain without ending it (R67). -/
def urgentIn (c : Option Cmd) (t : ReplyTo) : Bool :=
  match c with | some c => c.cls == 0 && t.flags % 4 == 0 | none => false
/-- Whether a request ends its transport's chain (R67). -/
def State.interrupts (s : State) (c : Option Cmd) (t : ReplyTo) : Bool :=
  match (s.transport t.via).session.chain with
  | none => false
  | some ch => !ch.continues t && !urgentIn c t

/-- Steps 6 to 10 of an accepted request, with the chain rules of R66 and R67. A request that fails steps 1 to 5, or is answered
from a kept reply, does not end a chain (DESIGN CHOICE: R67 says that a request arrives; notes/assumptions/12.md). -/
def afterAccept (find : List Byte → Option Cmd) (m : Mailbox) (t : ReplyTo) (body : List Byte) (s : State) : State :=
  let c? := find (s.joined t body)
  let s := if s.interrupts c? t then s.endChain t.via (.plain .truncated) else s
  match c? with
  | none => s.fail t true (.plain .opcode)
  | some c =>
    if t.flags % 4 != c.cls || (t.flags.testBit 5 && !c.chain) then s.fail t true .range
    else if t.flags.testBit 5 then
      match c.notReady ⟨t, s.joined t body⟩ s with
      | some e => s.fail t true e
      | none => Cmd.inner t body s
    else c.finish m t body s

/-- Where the reply to a request goes. -/
def replyToOf (q : Request) (op : Nat) (auth : Option (Nat × Nat)) : ReplyTo :=
  { via := q.via, version := q.version, flags := q.flags, opcode := op, tag := q.tag, seq := q.seq
    num := (auth.map (·.2)).getD 0, key := auth.map (·.1), buf := q.buf, slot := q.slot, port := q.port, src := q.src
    vlan := q.vlan }

/-- Whether the framing hardware stands as the mailbox of E0, which is restarting (R44). -/
def State.e0Down (s : State) (v : Via) : Bool :=
  !s.serves 0 && (v == .sideband || (v == .pcie && !s.serves 1))

/-- Steps 3 to 5 of R58 for a request whose marker, length and CRC are right: it is answered, or accepted with the payload
that steps 6 to 10 see. A request answered from a kept reply ends a run of AUTH results (DESIGN CHOICE: R65 lets one that passes
step 5 end it; notes/assumptions/12.md). -/
def State.accept (s : State) (op : Nat) (q : Request) : State × Option (ReplyTo × List Byte) :=
  let t := replyToOf q op none
  if s.e0Down q.via then (s.deliver { t with flags := t.flags % 4 } false .notReady (Err.bit 20).bytes, none)
  else if (q.version != 1 && q.version != 2) || (q.version == 1 && q.flags.testBit 6) then (s.fail t false (.plain .version), none)
  else if bits q.flags 2 3 != 0 || (q.flags.testBit 6 && decide (q.payload.length < 32)) then (s.fail t false .range, none)
  else match s.authStep op q with
    | none => ((s.authFail q.via).fail t false (.plain .auth), none)
    | some auth =>
      let t := replyToOf q op auth
      let ses := (s.transport q.via).session
      match ses.kept.find? (fun k => k.seq == q.seq && k.opcode == op && k.tag == q.tag) with
      | some k =>
        (((s.setTransport q.via (fun t => { t with authRun := 0 })).active (masterOf q.via)).send t k.status k.reply, none)
      | none =>
        if !seqOk ses.last q.seq then
          (if ses.key.isSome then (s.authFail q.via).fail t false (.plain .auth) else s.fail t false .range, none)
        else
          let s := s.setTransport q.via (fun t => { t with
            authRun := 0, session := { t.session with last := some (q.seq % 2 ^ 32) } })
          (s.active (masterOf q.via), some (t, if q.flags.testBit 6 then q.payload.drop 32 else q.payload))

/-- Steps 3 to 10 of R58. -/
def serve (find : List Byte → Option Cmd) (m : Mailbox) (op : Nat) (q : Request) (s : State) : State :=
  let a := s.accept op q
  match a.2 with
  | none => a.1
  | some (t, body) => afterAccept find m t body a.1

/-- Whether a command of a transport can start: the side-band has a reply slot free for it, and for that of a chain it ends
(R86). -/
def State.slotFree (s : State) (c : Option Cmd) (t : ReplyTo) : Bool :=
  t.via != .sideband || decide (s.ctl.sbReplies.length + s.ctl.sbRunning + bit (s.interrupts c t) < 8)

/-- A request of a row of the opcode table: it starts once it has a reply slot, and runs that row's command. -/
def runCmd (c : Cmd) (q : Request) (s : State) : State :=
  let s := s.fresh
  if s.slotFree (some c) (replyToOf q c.opcode none) then serve (fun _ => some c) .replies c.opcode q s else s

end Sys2Proof.Machine
end

