-- ==== Sys2Proof/Machine/Commands.lean ====
section
/-! DEFINITION. Session, identity and lease commands (groups 0x00xx and 0x0Fxx, R62, R64, R70, R87-R93). -/
namespace Sys2Proof.Machine

/-! ### Payload checks shared by every chapter -/

/-- RANGE unless the payload has exactly n bytes. -/
def lenIs (c : Ctx) (n : Nat) : Option Err := errIf (c.p.length != n) .range
/-- RANGE unless n reserved bytes at an offset are zero. -/
def rsv (c : Ctx) (off n : Nat) : Option Err :=
  ((List.range n).find? (fun i => u8 c.p (off + i) != 0)).map (fun i => .at (off + i))
/-- RANGE with an offset unless a condition holds. -/
def need (ok : Bool) (off : Nat) : Option Err := errIf (!ok) (.at off)

/-! ### Group 0x00xx -/

/-- NOP (R70). -/
def nopCmd : Cmd := {
  opcode := 0x0000, cls := 1
  check := fun c _ => lenIs c 0
  run := fun _ s => .ok [] s }

/-- The session of a transport ends: replies still to come from it are not kept in the next (R61). -/
def State.endSession (s : State) (v : Via) : State :=
  { s with ctl := { s.ctl with deferred := s.ctl.deferred.map (fun d => if d.dest.via == v then { d with keep := false } else d) } }

/-- What SESSION_OPEN does at step 10 of R58. -/
def sessionOpenRun (c : Ctx) (s : State) : Ran :=
  if !s.boot.countKnown then .error (.busy (max 1000 (Config.bootEstimate s.drawn))) s.draw
  else
    let opens := s.ctl.sessionOpens + 1
    let num := s.f Reg.fwColdBoots 0 32 * 2 ^ 32 + opens % 2 ^ 32
    let s := { s with ctl := { s.ctl with sessionOpens := opens } }
    let key := if u8 c.p 0 = 0xFF then none else some (u8 c.p 0)
    let s := (s.endSession c.dest.via).setSession c.dest.via (fun _ => ⟨num, key, some c.dest.seq, [], none⟩)
    .ok (toLe 8 num) (s.set Reg.secSessionNum num)

/-- SESSION_OPEN (R62, R64, R70): BUSY until the cold-boot count is known. -/
def sessionOpenCmd : Cmd := {
  opcode := 0x0001, cls := 1
  check := fun c _ => firstErr [lenIs c 4, need (decide (u8 c.p 0 < 4) || u8 c.p 0 == 0xFF) 0, rsv c 1 3]
  size := fun _ _ => 8
  run := sessionOpenRun }

/-- SESSION_CLOSE (R70): the next request starts a new implicit unauthenticated session. -/
def sessionCloseCmd : Cmd := {
  opcode := 0x0002, cls := 1
  check := fun c _ => lenIs c 0
  run := fun c s => .ok [] ((s.endSession c.dest.via).setSession c.dest.via (fun _ => Session.fresh)) }

/-- The interface level of an image while any of its engines runs (R70). -/
def State.imageLevel (s : State) (word : Nat) (engines : List Nat) : Nat :=
  if engines.any (fun e => (s.engine e).running) then s.f word 32 16 else 0

/-- IDENTITY_GET (R70). -/
def identityGetCmd : Cmd := {
  opcode := 0x0003, cls := 1
  check := fun c _ => lenIs c 0
  size := fun _ _ => 24
  run := fun c s => .ok (toLe 4 0x4480 ++ toLe 2 (s.f Reg.devId 32 16) ++ zeros 2 ++ toLe 8 (s.get Reg.devUid) ++
    toLe 2 (s.imageLevel Reg.fwOpRun [1, 5, 6, 7, 8, 9, 10, 11]) ++ toLe 2 (s.imageLevel Reg.fwTimeRun [2, 3, 4]) ++
    toLe 2 Config.bootRom ++ toLe 1 (viaNumber c.dest.via) ++ [0]) s }

/-! ### Leases (R87-R93) -/

/-- The assigned blocks of R26. -/
def assignedBlocks : List Nat :=
  [0x00, 0x01, 0x02, 0x03, 0x04, 0x05, 0x08, 0x09, 0x0A, 0x0C, 0x0D, 0x0E, 0x10, 0x11, 0x12, 0x13, 0x14, 0x15, 0x18, 0x19, 0x1A,
   0x1C, 0x1D, 0x1E, 0x20, 0x21, 0x22, 0x24, 0x25, 0x26, 0x27, 0x28, 0x2A, 0x2B, 0x2C, 0x2D, 0x30, 0x31, 0x34]

/-- The block whose lease a scheduled action's command needed (R68, R93); a table commit's are those it froze. -/
def State.actionBlocks (s : State) (a : Action) : List Nat :=
  match a.opcode with
  | 0x0201 => (match s.fwd.other with | some o => o.blocks | none => [])
  | 0x0301 => [0x20] | 0x0302 => [0x20] | 0x0500 => [0x26] | 0x0601 => [0x1D] | 0x0A00 => [0x27] | 0x0B00 => [0x0E]
  | 0x0D01 => [0x2D] | _ => []

/-- The staged areas of a block: its tables with staged changes, the ports with a staged calendar (notes/assumptions/30.md). -/
def State.stagedAreas (s : State) (b : Nat) : Nat :=
  (((s.fwd.staged.filter (fun x => x.block == b)).map (·.table)).eraseDups).length +
    (if b = 0x1D then (s.gates.filter (fun x => x.2.admin.isSome)).length else 0)

/-- The staged changes of a block discarded (R93). -/
def State.discardStaged (s : State) (b : Nat) : State :=
  let s := { s with fwd := { s.fwd with staged := s.fwd.staged.filter (fun x => x.block != b) } }
  if b = 0x1D then
    s.forEach ((s.gates.filter (fun x => x.2.admin.isSome)).map (·.1)) (fun p s => s.setGate p (fun x => { x with admin := none }))
  else s

/-- The number of pending actions on a set of blocks. -/
def State.actionsOn (s : State) (bs : List Nat) : Nat :=
  (s.clock.actions.filter (fun a => (s.actionBlocks a).any bs.contains)).length

/-- A transport's chain loses its lease when its block is among those seized (R92). -/
def State.loseChain (s : State) (v : Via) (bs : List Nat) : State :=
  s.setSession v (fun ses => { ses with chain := ses.chain.map (fun (c : Chain) =>
    if bs.contains c.block then { c with lost := true } else c) })

/-- A deferred command's reply given, and its place among the outstanding commands freed. -/
def State.closeDeferred (s : State) (d : Deferred) : State :=
  { s with ctl := { s.ctl with
    deferred := s.ctl.deferred.erase d
    outstanding := s.ctl.outstanding - (if d.dest.via == .pcie then 1 else 0)
    inbandOut := s.ctl.inbandOut - (if d.dest.via == .inband then 1 else 0)
    sbRunning := s.ctl.sbRunning - (if d.dest.via == .sideband then 1 else 0) } }

/-- A deferred command replied to: its reply is kept while its session runs (R61), and not written once PD1 has been off (R82). -/
def State.answerDeferred (s : State) (d : Deferred) (st : Status) (payload : List Byte) : State :=
  let pkt := s.replyPacket d.dest st payload
  let s := s.closeDeferred d
  let s := if d.keep && (s.transport d.dest.via).session.last.isSome then s.remember d.dest st pkt else s
  if d.mute then s else s.send d.dest st.code pkt
/-- A deferred command that fails, with its error payload (R60). -/
def State.failDeferred (s : State) (d : Deferred) (e : Err) : State := s.answerDeferred d e.st e.bytes

/-- The flash place of a slot (R102): offset and size, by kind and slot. -/
def slotPlace (kind slot : Nat) : Nat × Nat :=
  match kind with
  | 1 => (if slot = 0 then 0x300000 else 0x900000, 0x600000)
  | 2 => (if slot = 0 then 0xF00000 else 0x1100000, 0x200000)
  | 3 => (if slot = 0 then 0x100000 else 0x200000, 0x100000)
  | _ => (if slot = 0 then 0 else 0x1000, 0x1000)

/-- The FW_STAGE in progress of a master that lost block FW: stopped, the staged image discarded, LEASE (R92). -/
def State.stopStage (s : State) (loser winner : Master) : State :=
  s.forEach (s.ctl.deferred.filter (fun d => masterOf d.dest.via == loser)) (fun d s =>
    match d.job with
    | .flash kind slot _ _ _ _ =>
      let place := slotPlace kind slot
      let s := { s with boot := { s.boot with flash := Flash.erase s.boot.flash place.1 place.2, checked := s.boot.checked.filter (· != (kind, slot)) } }
      s.failDeferred d ⟨.lease, 0xFFFF, 5, 3 * 256 + ownerCode winner⟩
    | _ => s)

/-- LEASE_CHANGE (R91): cause 0 take, 1 drop, 2 seize; the silence is that of the master that did not issue it. -/
def State.leaseChange (s : State) (m : Master) (bs : List Nat) (holder cause : Nat) : State :=
  if bs.isEmpty then s
  else s.raise 2 (toLe 8 (maskOf bs) ++ toLe 1 holder ++ toLe 1 cause ++ zeros 2 ++ toLe 4 (s.idleMs (otherMaster m)) ++ zeros 4)

/-- CMD_LEASE_OWNER_LO and CMD_LEASE_OWNER_HI, as a lease reply carries them. -/
def State.ownerBytes (s : State) : List Byte := toLe 8 (s.get Reg.cmdLeaseOwnerLo) ++ toLe 8 (s.get Reg.cmdLeaseOwnerHi)

/-- The blocks a lease command names (R88). -/
def Ctx.blocks (c : Ctx) : List Nat := bitsSet (u64 c.p 0) 64
/-- The payload check of the lease commands. -/
def leaseCheck (c : Ctx) : Option Err :=
  firstErr [lenIs c 8, (c.blocks.find? (fun b => !assignedBlocks.contains b)).map (fun b => .at (b / 8))]
/-- LEASE for a block with its owner. -/
def State.leaseFor (s : State) (b : Nat) : Err := ⟨.lease, b / 8, 5, b * 256 + s.owner b⟩

/-- What LEASE_TAKE does at step 10 of R58. -/
def leaseTakeRun (c : Ctx) (s : State) : Ran :=
  let me := ownerCode c.master
  match c.blocks.find? (fun b => s.owner b != 0 && s.owner b != me) with
  | some b => .error (s.leaseFor b) s
  | none =>
    let moved := c.blocks.filter (fun b => s.owner b == 0)
    let s := (s.forEach moved (fun b s => s.setOwner b me)).leaseChange c.master moved me 0
    .ok s.ownerBytes s

/-- LEASE_TAKE (R88). -/
def leaseTakeCmd : Cmd := {
  opcode := 0x0F00, cls := 1
  check := fun c _ => leaseCheck c
  size := fun _ _ => 16
  run := leaseTakeRun }

/-- Whether a master may seize a block (R89). -/
def State.maySeize (s : State) (m : Master) (b : Nat) : Bool :=
  let o := s.owner b
  o == 0 || o == ownerCode m || (m == .sideband && s.b Reg.cmdSbGrant b) ||
    decide ((match m with | .host => s.f Reg.cmdSbSilenceMs 0 16 | .sideband => s.f Reg.cmdHostSilenceMs 0 16) < s.idleMs (otherMaster m))

/-- What LEASE_SEIZE does at step 10 of R58. -/
def leaseSeizeRun (c : Ctx) (s : State) : Ran :=
  let m := c.master
  let me := ownerCode m
  match c.blocks.find? (fun b => !s.maySeize m b) with
  | some b => .error (s.leaseFor b) s
  | none =>
    let lost := c.blocks.filter (fun b => s.owner b == ownerCode (otherMaster m))
    let moved := c.blocks.filter (fun b => s.owner b != me)
    let areas := (lost.map s.stagedAreas).sum
    let s := s.forEach lost (fun b s => s.discardStaged b)
    let s := s.forEach moved (fun b s => s.setOwner b me)
    let s := match otherMaster m with
      | .host => (s.loseChain .pcie lost).loseChain .inband lost
      | .sideband => s.loseChain .sideband lost
    let s := if lost.contains 3 then s.stopStage (otherMaster m) m else s
    let s := s.leaseChange m moved me 2
    .ok (s.ownerBytes ++ toLe 2 areas ++ toLe 2 (s.actionsOn moved)) s

/-- LEASE_SEIZE (R88, R89, R92, R93). -/
def leaseSeizeCmd : Cmd := {
  opcode := 0x0F01, cls := 0
  check := fun c _ => leaseCheck c
  size := fun _ _ => 20
  run := leaseSeizeRun }

/-- What LEASE_DROP does at step 10 of R58. -/
def leaseDropRun (c : Ctx) (s : State) : Ran :=
  let me := ownerCode c.master
  match c.blocks.find? (fun b => s.owner b != me) with
  | some b => .error (s.leaseFor b) s
  | none =>
    let areas := (c.blocks.map s.stagedAreas).sum
    let s := s.forEach c.blocks (fun b s => (s.discardStaged b).setOwner b 0)
    let s := s.leaseChange c.master c.blocks 0 1
    .ok (s.ownerBytes ++ toLe 2 areas ++ toLe 2 (s.actionsOn c.blocks)) s

/-- LEASE_DROP (R88). -/
def leaseDropCmd : Cmd := {
  opcode := 0x0F02, cls := 1
  check := fun c _ => leaseCheck c
  size := fun _ _ => 20
  run := leaseDropRun }

/-- NOP. -/
def execNop (q : Request) (s : State) : Host.Outcome State Fault Refusal := .next (runCmd nopCmd q s)
/-- SESSION_OPEN. -/
def execSessionOpen (q : Request) (s : State) : Host.Outcome State Fault Refusal := .next (runCmd sessionOpenCmd q s)
/-- SESSION_CLOSE. -/
def execSessionClose (q : Request) (s : State) : Host.Outcome State Fault Refusal := .next (runCmd sessionCloseCmd q s)
/-- IDENTITY_GET. -/
def execIdentityGet (q : Request) (s : State) : Host.Outcome State Fault Refusal := .next (runCmd identityGetCmd q s)
/-- LEASE_TAKE. -/
def execLeaseTake (q : Request) (s : State) : Host.Outcome State Fault Refusal := .next (runCmd leaseTakeCmd q s)
/-- LEASE_SEIZE. -/
def execLeaseSeize (q : Request) (s : State) : Host.Outcome State Fault Refusal := .next (runCmd leaseSeizeCmd q s)
/-- LEASE_DROP. -/
def execLeaseDrop (q : Request) (s : State) : Host.Outcome State Fault Refusal := .next (runCmd leaseDropCmd q s)

end Sys2Proof.Machine
end

