-- ==== Sys2Proof/Machine/Tables.lean ====
section
/-! DEFINITION. Forwarding tables, staging and accession epochs (R183-R210, R278, R282, R288). -/
namespace Sys2Proof.Machine

/-! ### Entries -/

/-- The value, mask and action of a catalogue entry. -/
def catValue (e : List Byte) : Nat := leNat (e.take 64)
/-- Its mask. -/
def catMask (e : List Byte) : Nat := leNat (slice e 64 64)
/-- Its action word (R185). -/
def catAction (e : List Byte) : Nat := leNat (slice e 128 16)
/-- Whether a key matches an entry (R183). -/
def catMatches (key : Nat) (e : List Byte) : Bool := (key ^^^ catValue e) &&& catMask e == 0
/-- The FDB key of a FID and MAC address. -/
def fdbKey (fid mac : Nat) : Nat := fid * 2 ^ 48 + mac
/-- The bucket of an FDB key. -/
def fdbBucketOf (k : Nat) : Nat := Config.fdbBucket k % 32768

/-- The entry size of a table (R204, R278), and its number of entries. -/
def tableSize : Nat → Nat → Option (Nat × Nat)
  | 0x10, 0 => some (144, 8192) | 0x11, 0 => some (16, 1) | 0x11, 1 => some (32, 4096) | 0x12, 0 => some (32, 16384)
  | 0x13, 0 => some (16, 16384) | 0x13, 1 => some (32, 8192) | 0x14, 0 => some (32, 16384) | 0x15, 0 => some (48, 8)
  | _, _ => none

/-- Entries of a table of an epoch. -/
def Tables.of (t : Tables) : Nat → Nat → List (Nat × List Byte)
  | 0x10, _ => t.cat | 0x11, 0 => t.fdb | 0x11, _ => t.vlan | 0x12, _ => t.mcast | 0x13, 0 => t.stream | 0x13, _ => t.rcvy
  | 0x14, _ => t.pol | 0x15, _ => t.mirr | _, _ => []
/-- Entries of a table of an epoch replaced. -/
def Tables.put (t : Tables) (l : List (Nat × List Byte)) : Nat → Nat → Tables
  | 0x10, _ => { t with cat := l } | 0x11, 0 => { t with fdb := l } | 0x11, _ => { t with vlan := l }
  | 0x12, _ => { t with mcast := l } | 0x13, 0 => { t with stream := l } | 0x13, _ => { t with rcvy := l }
  | 0x14, _ => { t with pol := l } | 0x15, _ => { t with mirr := l } | _, _ => t

/-- Whether an entry as written is valid: the VALID bit of its layout; catalogue and static FDB entries have none and are
valid from a write until a clear (notes/assumptions/23.md). -/
def entryValid (block table : Nat) (e : List Byte) : Bool :=
  match block, table with
  | 0x11, 1 => (u8 e 26).testBit 0
  | 0x12, _ => (u8 e 11).testBit 0
  | 0x13, _ => (u8 e 0).testBit 0
  | 0x14, _ => (u8 e 10).testBit 0
  | 0x15, _ => (u8 e 0).testBit 0
  | _, _ => true

/-- The reserved bits of an entry: byte offsets with the mask of their reserved bits. -/
def reservedBits (block table : Nat) : List (Nat × Nat) :=
  let whole : Nat → Nat → List (Nat × Nat) := fun off n => (List.range n).map (fun i => (off + i, 0xFF))
  match block, table with
  | 0x10, _ => [(0, 0xFF), (1, 0x1F), (64, 0xFF), (65, 0x1F)] ++ whole 128 4 ++ [(133, 0xE0), (134, 0x01), (139, 0x01), (141, 0x07)]
  | 0x11, 0 => whole 9 1 ++ whole 12 4
  | 0x11, _ => [(10, 0xF8), (11, 0xFF), (22, 0xF8), (23, 0xFF), (26, 0xF0)] ++ whole 27 5
  | 0x12, _ => [(10, 0xF8), (11, 0xFC), (13, 0xFE), (17, 0xFE), (21, 0xFE), (25, 0xFE)] ++ whole 28 4
  | 0x13, 0 => [(0, 0xF8), (1, 0xFF)] ++ whole 4 12
  | 0x13, _ => [(0, 0xF0), (1, 0xFF), (6, 0xFF), (7, 0xFF), (21, 0xFF), (26, 0xFF), (27, 0xFF)]
  | 0x14, _ => [(10, 0xF8)] ++ whole 11 21
  | 0x15, _ => [(0, 0xFC), (3, 0xFF), (26, 0xF8), (27, 0xFF), (38, 0xF8)] ++ whole 39 9
  | _, _ => []

/-- The byte of the first reserved bit that is set, which every written entry needs clear (R204). -/
def reservedFault (block table : Nat) (e : List Byte) : Option Nat :=
  ((reservedBits block table).find? (fun x => u8 e x.1 &&& x.2 != 0)).map (·.1)

/-- The member ports of a recovery function, the disabled aside. -/
def rcvyMembers (e : List Byte) : List Nat := ((List.range 4).map (fun i => u8 e (16 + i))).filter (· != 0xFF)

/-- The checks of a valid entry's fields, each with the offset of its field: R185, R187, R188, R191, R193, R196, R278, R282. -/
def entryChecks (block table : Nat) (e : List Byte) : List (Bool × Nat) :=
  match block, table with
  | 0x10, _ => let a := catAction e
      [(bits a 126 2 != 3 || decide (bits a 112 14 ≤ 82), 142)]
  | 0x11, 0 => [(decide (u16 e 6 < 4096), 6), (decide (u8 e 8 ≤ 2), 8), (u8 e 8 != 0 || decide (u16 e 10 ≤ 82), 10),
      (u8 e 8 != 1 || decide (u16 e 10 < 16384), 10)]
  | 0x11, _ => [(decide (u16 e 24 < 4096), 24)]
  | 0x12, _ =>
      let used := (List.range 4).filter (fun i => (u8 e (12 + 4 * i + 1)).testBit 0)
      used.flatMap (fun i => [(decide (u8 e (12 + 4 * i) ≤ 82), 12 + 4 * i), (decide (u16 e (12 + 4 * i + 2) < 16384), 14 + 4 * i),
        (!(used.filter (· < i)).any (fun j => u8 e (12 + 4 * j) == u8 e (12 + 4 * i)), 12 + 4 * i)])
  | 0x13, 0 => [(!(u8 e 0).testBit 2 || decide (u16 e 2 < 8192), 2)]
  | 0x13, _ =>
      let m := rcvyMembers e
      let skew := u32 e 8
      let pps := u32 e 12
      let byMatch := (u8 e 0).testBit 1
      [(!m.isEmpty && decide m.Nodup && m.all (fun p => decide (p < 80)), 16), (decide (1 ≤ u16 e 4), 4), (decide (skew ≤ 100000), 8),
       (decide (1 ≤ pps) && decide (pps ≤ 1000000), 12), (decide (skew < u16 e 4 * 1000), 8),
       (!byMatch || decide (skew * pps < 1000000), 8),
       (byMatch || (decide (2 ≤ u16 e 2) && decide (u16 e 2 ≤ 1024) && decide ((skew * pps + 999999) / 1000000 + 2 ≤ u16 e 2)), 2),
       (decide (2 ≤ u8 e 20) && decide (u8 e 20 ≤ 4), 20), (decide (1 ≤ u16 e 22), 22), (decide (100 ≤ u16 e 24), 24),
       (decide (1000 ≤ u32 e 28) && decide (u32 e 28 ≤ 3600000), 28)]
  | 0x14, _ => [(decide (u32 e 0 ≤ 400000000), 0), (decide (u32 e 4 ≤ 16777216), 4),
      (u16 e 8 == 0 || (decide (64 ≤ u16 e 8) && decide (u16 e 8 ≤ 16000)), 8)]
  | 0x15, _ => [(decide (u8 e 1 ≤ 80), 1), (decide (u8 e 2 ≤ 4), 2), (u16 e 4 == 0 || (decide (64 ≤ u16 e 4) && decide (u16 e 4 ≤ 16000)), 4),
      (decide (2 ≤ u16 e 6), 6), (decide (64 ≤ u16 e 8) && decide (u16 e 8 ≤ 256), 8), (decide (1 ≤ u16 e 10), 10),
      (decide (u16 e 12 < u16 e 10), 12), (decide (1 ≤ u16 e 14) && decide (u16 e 14 ≤ 60000), 14)]
  | _, _ => []

/-- The offset of the first fault of an entry to be staged, if it has one (R204). -/
def entryFault (block table : Nat) (e : List Byte) : Option Nat :=
  match reservedFault block table e with
  | some o => some o
  | none => if entryValid block table e then ((entryChecks block table e).find? (fun c => !c.1)).map (·.2) else none

/-! ### Staging (R204) -/

/-- The staging with one change added; an entry staged twice keeps its later content. -/
def stagePut (l : List Staged) (x : Staged) : List Staged :=
  l.filter (fun y => !(y.block == x.block && y.table == x.table && y.key == x.key)) ++ [x]

/-- The tables with changes applied. -/
def Tables.apply (t : Tables) (l : List Staged) : Tables :=
  l.foldl (fun t x =>
    let old := t.of x.block x.table
    t.put (match x.data with
      | some e => if entryValid x.block x.table e then assocSet old x.key e else assocDel old x.key
      | none => assocDel old x.key) x.block x.table) t

/-- The static entries of an FDB bucket once what a pending commit has frozen, and then the staging, are applied. -/
def State.bucketStatics (s : State) (l : List Staged) (b : Nat) : List Nat :=
  let frozen := match s.fwd.other with | some o => if o.state = 1 then o.changes else [] | none => []
  let t := s.fwd.tables.apply ((frozen ++ l).filter (fun x => x.block == 0x11 && x.table == 0))
  (t.fdb.map (·.1)).filter (fun k => fdbBucketOf k == b)

/-- Whether a set of tables is consistent at a commit: a catalogue entry or member policer naming an invalid policer, or a
catalogue entry or stream naming an invalid stream or recovery function, gives RANGE (R193, R278). -/
def Tables.consistent (t : Tables) : Bool :=
  t.cat.all (fun x => let a := catAction x.2
    (!a.testBit 87 || (assoc t.pol (bits a 73 14)).isSome) && (!a.testBit 72 || (assoc t.stream (bits a 58 14)).isSome)) &&
  t.mcast.all (fun x => (List.range 4).all (fun i => !(u8 x.2 (12 + 4 * i + 1)).testBit 0 ||
    (assoc t.pol (u16 x.2 (12 + 4 * i + 2))).isSome)) &&
  t.stream.all (fun x => !(u8 x.2 0).testBit 2 || (assoc t.rcvy (u16 x.2 2)).isSome)

/-! ### Runtime of policers, streams, recovery functions and mirror sessions -/

/-- The words of a recovery function's counters and state: c is 0 PASSED, 1 DISCARDED, 2 OUT_OF_ORDER, 3 ROGUE, 4 LOST,
5 TAGLESS, 6 RESETS, 7 STATE. -/
def rcvyKey (r c : Nat) : Nat := shelf 0x13 (r / 64) (r % 64 * 8 + c)
/-- The next sequence number of a stream. -/
def genKey (h : Nat) : Nat := Reg.frerGenSeq (0x100 + h / 512) (h % 512)
/-- A token in the unit of a policer's bucket. -/
def tokenUnit : Nat := 8000000 * 65536

/-- A recovery function starts with take_any set and an empty history. -/
def State.rcvyReset (s : State) (r : Nat) : State :=
  let s := s.setf (rcvyKey r 7) 16 1 1
  { s with red := { s.red with hist := assocDel s.red.hist r } }

/-- A newly valid recovery function: counters at zero (R288), its latent-error periods beginning now. -/
def State.rcvyNew (s : State) (r : Nat) : State :=
  let s := s.forEach (List.range 8) (fun c s => s.set (rcvyKey r c) 0)
  let s := { s with red := { s.red with latentBase := assocDel s.red.latentBase r, lastPass := assocDel s.red.lastPass r,
                                         latentAt := assocSet s.red.latentAt r (s.ticks, s.ticks) } }
  s.rcvyReset r

/-- The index of a watch entry's words. -/
def watchKey (e w : Nat) : Nat := shelf 0x2C (0x100 + e / 128) (e % 128 * 4 + w)
/-- The disabled members of a recovery function as its entry changes from a to b (R287, R288): a port keeps its disabled state
wherever it then stands, and one that leaves the member set loses it, with the watch entries that hold it. -/
def State.rcvyCarry (s : State) (r : Nat) (a b : List Byte) : State :=
  let off := ((List.range 4).filter (fun i => s.b (rcvyKey r 7) (24 + i))).map (fun i => u8 a (16 + i))
  let s := s.setf (rcvyKey r 7) 24 4 (maskOf ((List.range 4).filter (fun i => off.contains (u8 b (16 + i)) && u8 b (16 + i) != 0xFF)))
  let gone := s.red.disabledBy.filter (fun x => x.1 == r && !(rcvyMembers b).contains x.2.1)
  s.forEach gone (fun x s =>
    { s.setf (watchKey x.2.2 0) 24 1 0 with red := { s.red with
        disabledBy := s.red.disabledBy.filter (fun y => y != x)
        watches := s.red.watches.map (fun (w : Nat × Watch) => if w.1 = x.2.2 then (w.1, { w.2 with disabled := false }) else w) } })
/-- What decides whether a recovery function starts anew (R288): its MATCH, HISTORY_LEN and member set. -/
def rcvySame (a b : List Byte) : Bool :=
  (u8 a 0).testBit 1 == (u8 b 0).testBit 1 && u16 a 2 == u16 b 2 && (rcvyMembers a).all (rcvyMembers b).contains &&
    (rcvyMembers b).all (rcvyMembers a).contains

/-- What one applied change does to the runtime that lives with its entry (R195, R198, R288). -/
def State.applied (s : State) (old : Tables) (x : Staged) : State :=
  let was := assoc (old.of x.block x.table) x.key
  let now := match x.data with
    | some e => if entryValid x.block x.table e then some e else none
    | none => none
  match x.block, x.table with
  | 0x14, _ =>
    let s := s.setf (Reg.polSdu (0x20 + x.key / 512) (x.key % 512)) 32 1 0
    match now with
    | none => { s with fwd := { s.fwd with policers := assocDel s.fwd.policers x.key } }
    | some e =>
      let cap := u32 e 4 * tokenUnit
      let p := (assoc s.fwd.policers x.key).getD ⟨cap, s.runNow s.fwdDom⟩
      let tok := if (u8 e 10).testBit 2 || was.isNone then cap else min p.tokens cap
      { s with fwd := { s.fwd with policers := assocSet s.fwd.policers x.key { p with tokens := tok } } }
  | 0x13, 0 =>
    let gen := fun (e : Option (List Byte)) => match e with | some e => (u8 e 0).testBit 1 | none => false
    if (was.isNone && now.isSome) || (gen now && !gen was) then s.set (genKey x.key) 0 else s
  | 0x13, _ =>
    match was, now with
    | none, some _ => s.rcvyNew x.key
    | some a, some b => let s := s.rcvyCarry x.key a b; if rcvySame a b then s else s.rcvyReset x.key
    | _, _ => s
  | 0x15, _ =>
    match now with
    | none => s.mirrorMode x.key 0 2
    | some e => s.mirrorMode x.key (if (u8 e 0).testBit 1 then 2 else 1) 2
  | _, _ => s

/-- Learned entries of buckets that static entries have filled are displaced (R188). -/
def State.displace (s : State) (l : List Staged) : State :=
  let keys := (l.filter (fun x => x.block == 0x11 && x.table == 0 && x.data.isSome)).map (·.key)
  s.forEach keys (fun k s =>
    let b := fdbBucketOf k
    let n := ((s.fwd.tables.fdb.map (·.1)).filter (fun j => fdbBucketOf j == b)).length
    let here := s.fwd.learned.filter (fun x => fdbBucketOf x.key == b && x.key != k)
    let s := { s with fwd := { s.fwd with learned := s.fwd.learned.filter (fun x => x.key != k) } }
    if n + here.length ≤ 8 then s
    else match here[Config.fdbVictim s.drawn % here.length]? with
      | some v => ({ s with fwd := { s.fwd with learned := s.fwd.learned.filter (fun x => x.key != v.key) } }).draw
      | none => s)

/-! ### Epochs (R203-R210) -/

/-- The frames classified under an epoch that remain in the device (R208). -/
def State.framesOf (s : State) (epoch : Nat) : Nat := (s.buf.frames.filter (fun f => f.epoch == epoch)).length

/-- Tables put in force as an epoch from a time of a domain (R206): EPOCH_COMMITTED is raised. -/
def State.newEpoch (s : State) (num dom t : Nat) (changes : List Staged) : State :=
  let old := s.fwd.tables
  let s := { s with
    fwd := { s.fwd with tables := old.apply changes, oldMirr := old.mirr, epochT := t, epochDom := dom }
    boot := { s.boot with lastEpoch := num % 2 ^ 32 } }
  let s := ((s.forEach changes (fun x s => s.applied old x)).displace changes).set Reg.catEpochCurrent num
  let s := s.setTime (Reg.catEpochT 0) t
  s.raise 0x400 (toLe 4 num ++ timeBytes t ++ toLe 1 dom)

/-- The instant a pending commit's domain reads T_eff, or later: the new epoch is current and the old one drains (R206,
R208). Once passed, no step moves a frame back, because the epoch is then no longer pending. -/
def State.epochDue (s : State) : State :=
  match s.fwd.other with
  | some o =>
    if o.state = 1 && decide (o.t ≤ s.now o.dom) then
      let was := s.f Reg.catEpochCurrent 0 32
      let wasT := s.fwd.epochT
      let s := s.newEpoch o.num o.dom o.t o.changes
      let s := { s with fwd := { s.fwd with other := some ⟨2, was, o.dom, wasT, [], [], s.ticks, false⟩ } }
      let s := (s.clock.actions.filter (fun a => a.opcode == 0x0201)).foldl (fun s a => s.dropAction a.handle) s
      s.setf Reg.catEpochState 0 2 2
    else s
  | none => s

end Sys2Proof.Machine
end

