-- ==== Sys2Proof/Machine/TableCmds.lean ====
section
/-! DEFINITION. Table staging, commits and epochs (R203-R210), mirror sessions resuming (R198), and the writes of FDB_FLUSH
(R190) as hardware acts on them. -/
namespace Sys2Proof.Machine

/-! ### TABLE_STAGE (R204) -/

/-- The size of each item of a stage's data: entries for a write, 8-byte keys for a clear of FDB table 0, nothing else. -/
def stageItem (c : Ctx) (op : Nat) : Nat :=
  match tableSize (u8 c.p 0) (u8 c.p 1) with
  | none => 0
  | some (sz, _) => if op = 0 then sz else if op = 1 && u8 c.p 0 == 0x11 && u8 c.p 1 == 0 then 8 else 0

/-- The changes of a stage, in order. -/
def stageChanges (c : Ctx) (op : Nat) : List Staged :=
  let b := u8 c.p 0
  let t := u8 c.p 1
  let sz := stageItem c op
  let isFdb := b == 0x11 && t == 0
  if op = 2 then []
  else (List.range (u16 c.p 8)).map (fun i =>
    let e := slice c.p (12 + i * sz) sz
    ⟨b, t, if isFdb then fdbKey (u16 e 6) (beNat (e.take 6)) else u32 c.p 4 + i, if op = 0 then some e else none⟩)

/-- A static FDB entry whose bucket already holds 8 others, the staging included, in a list of changes taken in order. -/
def bucketFault (s : State) : List Staged → Nat → List Staged → Option Nat
  | _, _, [] => none
  | l, i, x :: rest =>
    let others := (s.bucketStatics l (fdbBucketOf x.key)).filter (· != x.key)
    if x.data.isSome && decide (8 ≤ others.length) then some i else bucketFault s (stagePut l x) (i + 1) rest

/-- The checks of TABLE_STAGE for an operation. -/
def stageCheck (op : Nat) (c : Ctx) (s : State) : Option Err :=
  let b := u8 c.p 0
  let t := u8 c.p 1
  let n := u16 c.p 8
  let sz := stageItem c op
  let isFdb := b == 0x11 && t == 0
  firstErr [
    errIf (decide (c.p.length < 12)) .range,
    errIf ((tableSize b t).isNone) (.at (if (tableSize b 0).isSome then 1 else 0)),
    need (u8 c.p 2 == op) 2, rsv c 3 1, rsv c 10 2,
    need (if op = 2 then n == 0 else decide (1 ≤ n)) 8,
    errIf (isFdb && op != 2 && u32 c.p 4 != 0) (.at 4),
    errIf (!isFdb && op != 2 && (match tableSize b t with | some (_, m) => decide (m < u32 c.p 4 + n) | none => false)) (.at 4),
    errIf (c.p.length != 12 + n * sz) .range,
    if op = 0 then (List.range n).findSome? (fun i =>
      (entryFault b t (slice c.p (12 + i * sz) sz)).map (fun o => .at (min 0xFFFE (12 + i * sz + o)))) else none,
    if isFdb && op = 0 then (bucketFault s s.fwd.staged 0 (stageChanges c op)).map (fun i => .at (min 0xFFFE (12 + i * sz))) else none,
    errIf (decide (32768 < ((stageChanges c op).foldl stagePut s.fwd.staged).length)) (.at 8)]

/-- What TABLE_STAGE of one operation does at step 10 of R58. -/
def tableStageRun (op : Nat) (c : Ctx) (s : State) : Ran :=
  let l := if op = 2 then s.fwd.staged.filter (fun x => !(x.block == u8 c.p 0 && x.table == u8 c.p 1))
    else (stageChanges c op).foldl stagePut s.fwd.staged
  .ok [] { s with fwd := { s.fwd with staged := l } }

/-- TABLE_STAGE of one operation: 0 write, 1 clear, 2 discard. -/
def tableStageCmd (op : Nat) : Cmd := {
  opcode := 0x0200, cls := 2, chain := true, engine := some 8, pds := [4]
  check := stageCheck op
  leases := fun c _ => [u8 c.p 0]
  run := tableStageRun op }

/-- TABLE_STAGE, write. -/
def execTableStageWrite (q : Request) (s : State) : Host.Outcome State Fault Refusal := .next (runCmd (tableStageCmd 0) q s)
/-- TABLE_STAGE, clear. -/
def execTableStageClear (q : Request) (s : State) : Host.Outcome State Fault Refusal := .next (runCmd (tableStageCmd 1) q s)
/-- TABLE_STAGE, discard. -/
def execTableStageDiscard (q : Request) (s : State) : Host.Outcome State Fault Refusal := .next (runCmd (tableStageCmd 2) q s)

/-! ### TABLE_COMMIT (R205, R262, R264) -/

/-- The ports that hold a staged calendar. -/
def State.adminPorts (s : State) : List Nat := (s.gates.filter (fun x => x.2.admin.isSome)).map (·.1)
/-- The domain of a port's admin calendar. -/
def State.adminDom (s : State) (p : Nat) : Nat := s.f (Reg.gateAdminInfo p) 32 3

/-- The named blocks that have staging. -/
def State.commitBlocks (s : State) (mask : Nat) : List Nat :=
  (bitsSet mask 64).filter (fun b => if b = 0x1D then !s.adminPorts.isEmpty else s.fwd.staged.any (fun x => x.block == b))

/-- The changes a commit freezes: the staged entries of its blocks, and one mark for each port whose calendar it takes. -/
def State.commitChanges (s : State) (bs : List Nat) : List Staged :=
  s.fwd.staged.filter (fun x => bs.contains x.block) ++
    (if bs.contains 0x1D then s.adminPorts.map (fun p => ⟨0x1D, 0, p, none⟩) else [])

/-- The admin calendars of every port frozen with a commit: S is the first cycle start at or after T_eff and at least 2 µs
from now, T_eff carried to the calendar's domain by the difference of the domains' times (notes/assumptions/31.md). R12 counts
those 2 µs from the execution time of a scheduled commit, R262 from its acceptance: the model takes R262 (DESIGN CHOICE,
notes/assumptions/60.md). -/
def State.freezeGates (s : State) (dom t : Nat) : State :=
  s.forEach s.adminPorts (fun p s =>
    let d := s.adminDom p
    let at_ := s.now d + (t - s.now dom)
    match (s.gate p).admin with
    | some cal => s.commitGate p (cal.cycleStart (max at_ (s.now d + 2000 * ns16))) d
    | none => s)

/-- A commit accepted: its changes frozen, the staging of its blocks emptied, and the epoch pending. -/
def State.freeze (s : State) (bs : List Nat) (dom t : Nat) : State :=
  let num := s.f Reg.catEpochCurrent 0 32 + 1
  let changes := s.commitChanges bs
  let s := if bs.contains 0x1D then s.freezeGates dom t else s
  let s := { s with fwd := { s.fwd with
    staged := s.fwd.staged.filter (fun x => !bs.contains x.block), other := some ⟨1, num, dom, t, changes, bs, 0, false⟩ } }
  ((s.setf Reg.catEpochState 0 2 1).setf Reg.catEpochState 4 3 dom).setTime (Reg.catEpochT 0) t

/-- The retry hint of a commit that names GATE while a port's committed calendar waits for S (R264). -/
def State.gateBusy (s : State) (ports : List Nat) : Option Nat :=
  (ports.filterMap (fun p => (s.gate p).committed.bind (fun x =>
    if s.now x.2.2 < x.2.1 then some (s.usUntil x.2.2 x.2.1) else none))).foldl (fun a t => some (max (a.getD 0) t)) none

/-- What TABLE_COMMIT does at step 10 of R58. -/
def tableCommitRun (c : Ctx) (s : State) : Ran :=
  let bs := s.commitBlocks (u64 c.p 0)
  let dom := u8 c.p 9
  let t := timeAt c.p 12
  let reply := fun (s : State) (t : Nat) => toLe 4 (s.f Reg.catEpochCurrent 0 32 + 1) ++ timeBytes t
  match s.fwd.other, (if bs.contains 0x1D then s.gateBusy s.adminPorts else none) with
  | some _, _ => .error (.plain .busyEpoch) s
  | none, some us => .error (.busy us) s
  | none, none =>
    if (u8 c.p 8).testBit 0 then
      match s.due dom t with
      | .past => .error (.pastAt 12) s
      | .late =>
        let r := reply s (s.now dom)
        .reply .late r ((s.freeze bs dom (s.now dom)).epochDue)
      | .scheduled =>
        if s.actionsFull then .error (.busy s.earliest) s
        else .ok (reply s t) ((s.freeze bs dom t).schedule 0x0201 c.dest.tag (ownerCode c.master) dom t c.p)
    else
      let t := s.now dom + s.f Reg.catEpochCfg 0 17 * ns16
      .ok (reply s t) (s.freeze bs dom t)

/-- TABLE_COMMIT. -/
def tableCommitCmd : Cmd := {
  opcode := 0x0201, cls := 1, engine := some 8, pds := [4]
  check := fun c s =>
    let bad := (List.range 64).find? (fun b => (u64 c.p 0).testBit b && !([0x10, 0x11, 0x12, 0x13, 0x14, 0x15, 0x1D].contains b))
    firstErr [lenIs c 24, bad.map (fun _ => .at 0), need (decide (u8 c.p 8 < 2)) 8, need (decide (u8 c.p 9 < 8)) 9,
      rsv c 10 2, errIf ((u8 c.p 8).testBit 0 && !timeOk c.p 12) (.at 12),
      errIf (s.commitBlocks (u64 c.p 0)).isEmpty (.at 0),
      errIf (!(s.fwd.tables.apply (s.commitChanges (s.commitBlocks (u64 c.p 0)))).consistent) (.at 0)]
  size := fun _ _ => 16
  leases := fun c s => s.commitBlocks (u64 c.p 0)
  run := tableCommitRun }

/-- TABLE_COMMIT. -/
def execTableCommit (q : Request) (s : State) : Host.Outcome State Fault Refusal := .next (runCmd tableCommitCmd q s)

/-! ### Epochs (R206, R208, R209) -/

/-- The frames outstanding under a draining epoch. -/
def State.outstandingFrames (s : State) : Nat :=
  match s.fwd.other with
  | some o => if o.state = 2 then s.framesOf o.num else 0
  | none => 0

/-- What EPOCH_STATUS does at step 10 of R58. -/
def epochStatusRun (_ : Ctx) (s : State) : Ran :=
  let o := s.fwd.other
  .ok (toLe 4 (s.f Reg.catEpochCurrent 0 32) ++ timeBytes s.fwd.epochT ++ toLe 1 (o.elim 0 (·.state)) ++
    toLe 1 (o.elim s.fwd.epochDom (·.dom)) ++ zeros 2 ++ toLe 4 (o.elim 0 (·.num)) ++ timeBytes (o.elim 0 (·.t)) ++
    toLe 4 s.outstandingFrames ++ toLe 4 s.fwd.staged.length) s

/-- EPOCH_STATUS (R209). -/
def epochStatusCmd : Cmd := {
  opcode := 0x0202, cls := 1, engine := some 8, pds := [4]
  check := fun c _ => lenIs c 0
  size := fun _ _ => 44
  run := epochStatusRun }

/-- EPOCH_STATUS. -/
def execEpochStatus (q : Request) (s : State) : Host.Outcome State Fault Refusal := .next (runCmd epochStatusCmd q s)

/-- EPOCH_COMMITTED: the commit's domain reads T_eff, and the pending epoch becomes current (R206). -/
def execEpochCommitted (s : State) : Host.Outcome State Fault Refusal := .next s.fresh.epochDue

/-- EPOCH_RETIRED: none of the draining epoch's frames remains in the device (R208). -/
def execEpochRetired (s : State) : Host.Outcome State Fault Refusal :=
  let s := s.fresh
  .next (match s.fwd.other with
    | some o =>
      if o.state = 2 && s.framesOf o.num == 0 then
        (({ s with fwd := { s.fwd with other := none } }).setf Reg.catEpochState 0 2 0).raise 0x401 (toLe 4 o.num)
      else s
    | none => s)

/-- EPOCH_DRAIN_SLOW: draining has lasted longer than DRAIN_WARN_MS, reported once (R208). 1 ms is 1,250,000 ticks. -/
def execEpochDrainSlow (s : State) : Host.Outcome State Fault Refusal :=
  let s := s.fresh
  .next (match s.fwd.other with
    | some o =>
      if o.state = 2 && !o.slow && decide (o.since + s.f Reg.catEpochCfg 32 16 * 1250000 < s.ticks) then
        ({ s with fwd := { s.fwd with other := some { o with slow := true } } }).raise 0x402 (toLe 4 o.num ++ toLe 4 (s.framesOf o.num))
      else s
    | none => s)

/-- What a cancelled TABLE_COMMIT loses: its frozen entries and calendars (R205, R317). -/
def State.unfreeze (s : State) : State :=
  match s.fwd.other with
  | some o =>
    if o.state = 1 then
      let ports := (o.changes.filter (fun x => x.block == 0x1D)).map (·.key)
      let s := s.forEach ports (fun p s => (s.setGate p (fun x => { x with committed := none })).setTime (Reg.gatePendStart p 0) 0)
      let s := { s with fwd := { s.fwd with other := none } }
      (s.setf Reg.catEpochState 0 2 0).setTime (Reg.catEpochT 0) s.fwd.epochT
    else s
  | none => s

/-! ### Mirror sessions (R198) -/

/-- MIRROR_RESUME: the session's queue has held fewer than RESUME_CELLS for RESUME_MS (1 ms is 1,250,000 ticks), and the session
returns to FULL. -/
def execMirrorResume (m : Nat) (s : State) : Host.Outcome State Fault Refusal :=
  let s := s.fresh
  atUnit m 8 s (match assoc s.fwd.tables.mirr m with
    | some e =>
      if s.f (Reg.mirrStatus m) 0 2 == 2 && !(u8 e 0).testBit 1 && decide (s.occ (u8 e 1) (u8 e 2) < u16 e 12) &&
          decide ((s.mirror m).high + u16 e 14 * 1250000 ≤ s.ticks) then
        s.mirrorMode m 1 2
      else s
    | none => s)

/-! ### Moderated MSI-X vectors (R81, R201) -/

/-- MSIX_MODERATION_TIMER: MOD_US has passed since a vector's last signal, and the signal held is given. -/
def execMsixModerationTimer (v : Nat) (s : State) : Host.Outcome State Fault Refusal :=
  let s := s.fresh
  atUnit v 64 s (if s.ctl.held.contains v then s.signal v (s.modUs v) else s)

end Sys2Proof.Machine
end

