-- ==== Sys2Proof/Machine/GateCmds.lean ====
section
/-! DEFINITION. GATE_LOAD and GATE_SWITCH (R259-R265). -/
namespace Sys2Proof.Machine

/-- NOT_READY when the power domain of a port's pipeline pair is off (R47, R49). -/
def State.pairOff (s : State) (p : Nat) : Option Err :=
  if p < 80 && !s.on (pairPd (pairOf p)) then some (.domain (pairPd (pairOf p))) else none

/-- The gate waits in a reply to GATE_LOAD: those of the calendar, or, when a check before the sixth has failed, open. -/
def State.loadWaits (s : State) (p : List Byte) (code : Nat) : List Byte × State :=
  if code = 0 || code = 6 then
    ((s.loadCalendar p).waits.flatMap (toLe 8), s)
  else ((List.range 3).flatMap (fun i => toLe 8 (Config.openWait (s.drawn + i))), s.draw.draw.draw)

/-- What GATE_LOAD does at step 10 of R58. -/
def gateLoadRun (checkOnly : Bool) (c : Ctx) (s : State) : Ran :=
  let r := s.loadCheck c.p
  let w := s.loadWaits c.p r.1
  let s := if checkOnly then w.2 else w.2.stageCalendar (u8 c.p 0) (u8 c.p 2) (u32 c.p 8) (timeAt c.p 12) (s.loadCalendar c.p)
  .ok (toLe 1 r.1 ++ toLe 1 r.2.1 ++ toLe 2 r.2.2 ++ zeros 4 ++ w.1) s

/-- GATE_LOAD; only with CHECK_ONLY does a failed check end OK. -/
def gateLoadCmd (checkOnly : Bool) : Cmd := {
  opcode := 0x0600, cls := 2, chain := true
  ready := fun c s => s.pairOff (u8 c.p 0)
  check := fun c s =>
    let r := s.loadCheck c.p
    firstErr [errIf (decide (c.p.length < 24)) .range, need ((u8 c.p 1).testBit 1 == checkOnly) 1, rsv c 3 1, rsv c 6 2,
      errIf (c.p.length != 24 + 8 * u16 c.p 4) .range,
      errIf (!checkOnly && r.1 != 0) (let o := loadOffset c.p r; if o = 0xFFFF then .range else .at o)]
  size := fun _ _ => 32
  leases := fun _ _ => [0x1D]
  run := gateLoadRun checkOnly }

/-- GATE_LOAD. -/
def execGateLoad (q : Request) (s : State) : Host.Outcome State Fault Refusal := .next (runCmd (gateLoadCmd false) q s)
/-- GATE_LOAD with CHECK_ONLY. -/
def execGateLoadCheckOnly (q : Request) (s : State) : Host.Outcome State Fault Refusal := .next (runCmd (gateLoadCmd true) q s)

/-! ### GATE_SWITCH (R263, R264) -/

/-- The ports a GATE_SWITCH names. -/
def switchPorts (p : List Byte) : List Nat := (List.range 80).filter (portIn p 0)
/-- The start S of a port for a switch that begins at domain time t: the first start of its admin calendar at or after the
switch instant X and at least 2 µs after t. -/
def State.switchStart (s : State) (port t : Nat) : Nat :=
  let x := match s.calendarNow port with | some c => c.cycleStart t | none => t
  match (s.gate port).admin with | some c => c.cycleStart (max x (t + 2000 * ns16)) | none => x

/-- The switch executes at domain time t: each named port that still has an admin calendar commits it. -/
def State.fireSwitch (s : State) (p : List Byte) (t : Nat) : State :=
  s.forEach ((switchPorts p).filter (fun x => (s.gate x).admin.isSome)) (fun x s => s.commitGate x (s.switchStart x t) (u8 p 11))

/-- The reply of GATE_SWITCH for a start at t: 16 bytes a port. -/
def State.switchReply (s : State) (p : List Byte) (t : Nat) : List Byte :=
  (switchPorts p).flatMap (fun x => toLe 1 x ++ zeros 3 ++ timeBytes (s.switchStart x t))

/-- What GATE_SWITCH does at step 10 of R58. -/
def gateSwitchRun (c : Ctx) (s : State) : Ran :=
  let dom := u8 c.p 11
  match s.gateBusy (switchPorts c.p) with
  | some us => .error (.busy us) s
  | none =>
    if (u8 c.p 10).testBit 0 then
      let t := timeAt c.p 12
      match s.due dom t with
      | .past => .error (.pastAt 12) s
      | .late => .reply .late (s.switchReply c.p (s.now dom) ++ timeBytes (s.now dom)) (s.fireSwitch c.p (s.now dom))
      | .scheduled =>
        if s.actionsFull then .error (.busy s.earliest) s
        else .ok (s.switchReply c.p t) (s.schedule 0x0601 c.dest.tag (ownerCode c.master) dom t c.p)
    else .ok (s.switchReply c.p (s.now dom)) (s.fireSwitch c.p (s.now dom))

/-- GATE_SWITCH. -/
def gateSwitchCmd : Cmd := {
  opcode := 0x0601, cls := 1
  ready := fun c s => firstErr ((switchPorts c.p).map s.pairOff)
  check := fun c s =>
    let dom := u8 c.p 11
    firstErr [lenIs c 24, errIf (switchPorts c.p).isEmpty (.at 0), need (decide (u8 c.p 10 < 2)) 10, need (decide (dom < 8)) 11,
      errIf ((u8 c.p 10).testBit 0 && !timeOk c.p 12) (.at 12),
      ((switchPorts c.p).find? (fun x => (s.gate x).admin.isNone || s.adminDom x != dom ||
        (match s.calendarNow x with | some k => k.dom != dom | none => false))).map (fun _ => .at 0)]
  size := fun c _ => 16 * (switchPorts c.p).length + 12
  leases := fun _ _ => [0x1D]
  run := gateSwitchRun }

/-- GATE_SWITCH. -/
def execGateSwitch (q : Request) (s : State) : Host.Outcome State Fault Refusal := .next (runCmd gateSwitchCmd q s)

/-- Whether an action is a step or a frequency change: at one instant these come after every other (R307). -/
def Action.last (a : Action) : Bool := a.opcode == 0x0301 || a.opcode == 0x0302
/-- The order of actions of one domain that fall due (R307): by time, steps and frequency changes last, then by handle. -/
def Action.before (a b : Action) : Bool :=
  decide (a.t < b.t) || (a.t == b.t && ((!a.last && b.last) || (a.last == b.last && decide (a.handle < b.handle))))

/-- Whether an action's turn has come among those of its domain (R307). -/
def State.turn (s : State) (a : Action) : Bool := s.clock.actions.all (fun b => b.dom != a.dom || !b.before a)

/-- The action of a handle and opcode, once its domain reads its T and its turn has come. -/
def State.dueAction (s : State) (h opcode : Nat) : Option Action :=
  (s.action h).filter (fun a => a.opcode == opcode && decide (a.t ≤ s.now a.dom) && s.timeUp && s.turn a)
/-- An action at its time: it executes while its function is ready, and is cancelled with NOT_READY otherwise (R318). -/
def State.atTime (s : State) (h opcode : Nat) (ready : Action → Bool) (fire : Action → State → State) : State :=
  match s.dueAction h opcode with
  | none => s
  | some a => if ready a then fire a (s.dropAction h) else (s.dropAction h).outcome a 0x102 (s.outcomeTime a.dom)

/-- Whether a gate switch can execute: the pairs of its ports are powered. -/
def State.switchReady (s : State) (p : List Byte) : Bool := (switchPorts p).all (fun x => s.on (pairPd (pairOf x)))

/-- SCHEDULED_GATE_SWITCH. -/
def execScheduledGateSwitch (h : Nat) (s : State) : Host.Outcome State Fault Refusal :=
  let s := s.fresh
  .next (s.atTime h 0x0601 (fun a => s.switchReady a.data) (fun a s => s.fireSwitch a.data a.t))

end Sys2Proof.Machine
end

