-- ==== Sys2Proof/Machine/Lanes.lean ====
section
/-! DEFINITION. High and edge lanes (chapter 04): port types and their lanes, lock reports, link invalidation (R142, R352),
timing marks, sleep, equalisation, eyes and margin probes. -/
namespace Sys2Proof.Machine

/-! ### Lane states -/

/-- RX_STATE of a lane (R135). -/
def State.rxState (s : State) (l : Lane) : Nat := s.f (laneKey l 5) 0 4
/-- RX_STATE set. -/
def State.setRx (s : State) (l : Lane) (v : Nat) : State := s.setf (laneKey l 5) 0 4 v
/-- TX_STATE of a lane: 0 OFF, 1 STARTING, 2 ACTIVE, 3 SLEEP. -/
def State.txState (s : State) (l : Lane) : Nat := s.f (laneKey l 5) 4 4
/-- TX_STATE set. -/
def State.setTx (s : State) (l : Lane) (v : Nat) : State := s.setf (laneKey l 5) 4 4 v
/-- Whether a lane's receive direction is timing (R143). -/
def State.rxTiming (s : State) (l : Lane) : Bool := s.b (laneKey l 5) 9
/-- Whether a lane's transmit direction is timing (R143). -/
def State.txTiming (s : State) (l : Lane) : Bool := s.b (laneKey l 5) 10
/-- A lane's bit of DEV_LANE_READY (R118). -/
def State.setLaneReady (s : State) (l : Lane) (b : Bool) : State :=
  match l with
  | .hl n => s.setf Reg.devLaneReadyHl n 1 (bit b)
  | .el n => s.setf Reg.devLaneReadyEl n 1 (bit b)

/-! ### Phase amounts of a lane count (R339) -/

/-- n unit intervals at a type's symbol rate as a phase amount, rounded once to the nearest 2^-16 ns. -/
def uiPhase (t : TypeRow) (n : Nat) : Int := roundDiv (n * 65536 * 100000 : Nat) t.rate5

/-! ### Link states (R352-R356) -/

/-- The link state of a port: 0 INVALID, 1 MEASURING, 2 SUSPECT, 3 VALID. -/
def State.linkState (s : State) (p : Nat) : Nat := s.f (Reg.pcsLinkState p) 0 4

/-- A port's link enters a state; a change raises LINK_STATE and is counted (R352). -/
def State.linkSet (s : State) (p new cause delay : Nat) : State :=
  let old := s.linkState p
  if new = old then s
  else
    let s := s.setf (Reg.pcsLinkState p) 0 4 new
    let s := if new = 0 then s.count (Reg.pcsLinkCnt p) 32 32 1 else s
    let s := if new = 2 then s.count (Reg.pcsLinkCnt p) 16 16 1 else s
    let s := if new = 1 && cause == 4 then s.count (Reg.pcsLinkCnt p) 0 16 1 else s
    let s := if new = 1 then (s.setf (Reg.pcsLinkState p) 14 1 0).setf (Reg.pcsLinkState p) 16 8 0 else s
    s.raise 0x900 (toLe 1 p ++ toLe 1 new ++ toLe 1 old ++ toLe 1 cause ++ toLe 8 (if cause = 5 || cause == 6 then delay else 0))

/-- Any cause of INVALID: exchanges counted so far are discarded (R352, R356). -/
def State.linkInvalid (s : State) (p cause : Nat) : State :=
  (s.setf (Reg.pcsLinkState p) 16 8 0).linkSet p 0 cause 0

/-- The receive reference lane of a port: the lane whose LANE_ORDER is 0 at the current lock (R338). -/
def State.rxRef (s : State) (p : Nat) : Lane :=
  ((s.portLanes p).find? (fun l => s.f (laneKey l 8) 18 2 == 0)).getD (lowestLane p)

/-- The fixed delays of a port's reference lanes shown (R345). -/
def State.linkFix (s : State) (p : Nat) : State :=
  let k := fun (l : Lane) => (if laneKind l = 0 then 0x100 else 0x140) + laneNum l
  (s.set (Reg.pcsLinkRxFix p) (s.get (Reg.calLaneRxFix (k (s.rxRef p))))).set (Reg.pcsLinkTxFix p) (s.get (Reg.calLaneTxFix (k (lowestLane p))))

/-- The receive delay written at a lock: the fixed delay plus RX_VAR_UI unit intervals (R339). -/
def State.linkRxDelay (s : State) (p : Nat) : State :=
  match typeRow (s.codeInUse p) with
  | none => s
  | some t =>
    let s := s.linkFix p
    s.set (Reg.pcsLinkRxDelay p) (unsigned 64 (signed 64 (s.get (Reg.pcsLinkRxFix p)) + uiPhase t (s.f (laneKey (s.rxRef p) 9) 0 16)))

/-- The transmit delay written at a start: the fixed delay plus TX_GBX_UI unit intervals (R339). -/
def State.linkTxDelay (s : State) (p : Nat) : State :=
  match typeRow (s.codeInUse p) with
  | none => s
  | some t =>
    let s := s.linkFix p
    s.set (Reg.pcsLinkTxDelay p) (unsigned 64 (signed 64 (s.get (Reg.pcsLinkTxFix p)) + uiPhase t (s.f (laneKey (lowestLane p) 10) 0 10)))

/-- INVALID is left once every lane is LOCKED with a valid report and the transmit reference lane has started (R352). -/
def State.linkProgress (s : State) (p cause : Nat) : State :=
  let ls := s.portLanes p
  if s.linkState p = 0 && !ls.isEmpty && ls.all (fun l => s.rxState l == 4 && s.b (laneKey l 8) 0) &&
      (s.txState (lowestLane p) == 2 || s.txState (lowestLane p) == 3) then
    let rx := s.rxRef p
    let s := s.setf (Reg.pcsLinkState p) 48 16 (s.f (laneKey rx 8) 48 16)
    let s := s.setf (Reg.pcsLinkState p) 32 16 (s.f (laneKey (lowestLane p) 10) 48 16)
    (s.setf (Reg.pcsLinkState p) 24 6 (laneNum rx)).linkSet p 1 cause 0
  else s

/-! ### Port readiness (R118) -/

/-- A port's ready bits brought up to date; a port that stops being ready invalidates its link, and one that is ready again with its
lanes still LOCKED measures it anew (R352; DEDUCED, notes/assumptions/61.md). -/
def State.portRefresh (s : State) (p : Nat) : State :=
  let up := s.portUp p
  if up = s.portReady p then s
  else
    let s := s.setPortReady p up
    if p < 80 then
      let s := s.setf (Reg.macLinkStatus p) 9 1 (bit up)
      if up then s.linkProgress p 0 else s.linkInvalid p 1
    else s
/-- The same, and a port that is not ready and does not drain loses what its queues hold (R118, R192). -/
def State.portRecheck (s : State) (p : Nat) : State :=
  let s := s.portRefresh p
  if s.portReady p || s.drains p then s else s.dropPort p

/-! ### Calibration states of a lane's items that the lane resets (R345, R394) -/

/-- A lane's receive and transmit fixed-delay items become UNCAL, at the nominal values of the type (R342, R345). -/
def State.laneUncal (s : State) (l : Lane) (code : Nat) : State :=
  let k := (if laneKind l = 0 then 0x100 else 0x140) + laneNum l
  let inst := match l with | .hl n => n | .el n => 32 + n
  let stale := fun (st : Nat) => st == 0 || st == 3
  let wasRx := stale (s.f (Reg.calLaneState k) 0 4)
  let wasTx := stale (s.f (Reg.calLaneState k) 4 4)
  let s := (s.setf (Reg.calLaneState k) 0 8 0)
  let port := (s.portOfLane l).getD 200
  let s := { s with cal := { s.cal with
    steps := s.cal.steps.filter (fun (x : Nat × Nat × Int × Int) => x.1 != inst && x.1 != 128 + inst)
    deadlines := s.cal.deadlines.filter (fun (x : Nat × Nat) => x.1 != inst && x.1 != 128 + inst)
    running := s.cal.running.filter (fun (x : Nat × Bool) => x.1 / 2 != port) } }
  let s := match typeRow code with
    | some t => (s.set (Reg.calLaneRxFix k) (t.rxFix * 65536)).set (Reg.calLaneTxFix k) (t.txFix * 65536)
    | none => s
  let s := if wasRx then s else s.raise 0xB00 (toLe 1 0 ++ toLe 1 inst ++ toLe 1 0 ++ toLe 1 0)
  if wasTx then s else s.raise 0xB00 (toLe 1 1 ++ toLe 1 inst ++ toLe 1 1 ++ toLe 1 0)

/-! ### Loss of lock, locks and transmitter starts (R135-R142) -/

/-- The result word of a margin probe with a status; the probe ends and MARGIN_DONE is raised (R151). -/
def State.marginEnd (s : State) (l : Lane) (status : Nat) : State :=
  let s := (s.setf (laneKey l 0x13) 0 8 status).setf (laneKey l 0x12) 4 1 0
  s.raise 0x203 (toLe 1 (laneKind l) ++ toLe 1 (laneNum l) ++ zeros 2 ++ toLe 8 (s.get (laneKey l 0x13)))

/-- A probe in progress is aborted (R151). -/
def State.marginAbort (s : State) (l : Lane) : State :=
  if s.f (laneKey l 0x13) 0 8 == 1 then s.marginEnd l 3 else s

/-- A departure of a receive direction from LOCKED other than into SLEEP (R135): counted, LOCK_VALID cleared, reported. -/
def State.laneLose (s : State) (l : Lane) (cause next : Nat) : State :=
  if s.rxState l == 4 then
    let timing := s.rxTiming l
    let s := ((s.setRx l next).count (laneKey l 0x0B) 0 32 1).setf (laneKey l 8) 0 1 0
    let s := (((s.set (laneKey l 0x10) 0).set (laneKey l 0x11) 0).setLaneReady l false).marginAbort l
    let s := s.setf (laneKey l 4) 4 1 0
    s.raise 0x201 (toLe 1 (laneKind l) ++ toLe 1 (laneNum l) ++ toLe 1 cause ++ toLe 1 (bit timing))
  else s.setRx l next

/-- The settled flags of a lane's detectors start again at a lock or start (R347). -/
def State.unsettle (s : State) (l : Lane) (tx : Bool) : State :=
  { s.setf (laneKey l 0x1B) (if tx then 33 else 32) 1 0 with
    link := { s.link with readings := assocDel s.link.readings (2 * portAt l + bit tx) } }

/-- The deskew range of a lane's kind, in UI (R137). -/
def deskewMax (l : Lane) : Nat := if laneKind l = 0 then 4095 else 2047
/-- A lane's report within the ranges of R138: ALIGN_UI inside the deserialiser word of the lane's mode (20 UI in 8b/10b modes,
else 64), and DESKEW_UI and LANE_ORDER 0 on a port of one lane. -/
def State.ranged (s : State) (l : Lane) (single : Bool) (r : LaneReport) : LaneReport :=
  { align := min r.align (if s.f (laneKey l 0) 8 4 = 1 then 19 else 63), gbx := min r.gbx 1023
    deskew := if single then 0 else r.deskew, order := if single then 0 else r.order % 4 }
/-- The lock report of R138 for one lane: ALIGN_UI, GBX_UI, DESKEW_UI and LANE_ORDER as counted. -/
def State.laneReport (s : State) (l : Lane) (single : Bool) (x : LaneReport) : State :=
  let r := s.ranged l single x
  let seq := s.f (laneKey l 8) 48 16 + 1
  let w := setBits (setBits (setBits (setBits (setBits 1 18 2 r.order) 20 6 r.align) 26 10 r.gbx) 36 12 r.deskew) 48 16 seq
  (((s.set (laneKey l 9) (r.align + r.gbx + r.deskew)).set (laneKey l 8) w).setRx l 4).unsettle l false

/-- LANE_LOCK for a receive direction (R141, R152). -/
def State.laneLockEvent (s : State) (l : Lane) : State :=
  s.raise 0x200 (toLe 1 (laneKind l) ++ toLe 1 (laneNum l) ++ zeros 2 ++ toLe 8 (s.get (laneKey l 8)) ++
    toLe 2 (s.f (laneKey l 9) 0 16) ++ zeros 2)

/-- Whether the CTLE setting is held: ONCE after its search, and any timing direction while locked (R133, R134). -/
def State.ctleFrozen (s : State) (l : Lane) : Bool := s.f (laneKey l 3) 8 2 == 1 || s.rxTiming l

/-- A transmitter start (R140): TX_SEQ, a gearbox depth within the type's window that the spec leaves open, the equaliser
taps taken, the link invalidated. -/
def State.txStart (s : State) (l : Lane) : State :=
  match s.portOfLane l with
  | none => s
  | some p =>
    match typeRow (s.codeInUse p) with
    | none => s
    | some t =>
      let depth := t.txLo + Config.gearboxDepth s.drawn % (t.txHi - t.txLo + 1)
      let w := setBits (setBits 0 0 10 depth) 48 16 (s.f (laneKey l 10) 48 16 + 1)
      let s := (((s.draw.set (laneKey l 10) w).setTx l 2).unsettle l true)
      let s := { s with txeq := assocSet s.txeq (laneKey l 2) (s.get (laneKey l 2)) }
      let s := s.linkInvalid p 0
      let s := if l = lowestLane p then s.linkTxDelay p else s
      (s.raise 0x200 (toLe 1 (laneKind l) ++ toLe 1 (laneNum l) ++ [1, 0] ++ toLe 8 w ++ zeros 4)).linkProgress p 0

/-- LANE_SIGNAL_DETECT (R135): NO_SIGNAL to ACQUIRE. -/
def execLaneSignalDetect (lane : Lane) (s : State) : Host.Outcome State Fault Refusal :=
  let s := s.fresh
  .next (if laneExists lane then
    (if s.rxState lane == 1 then (s.setRx lane 2).setf (laneKey lane 5) 11 1 1 else s.setf (laneKey lane 5) 11 1 1)
    else s)

/-- LANE_CLOCK_STABLE (R133, R135): ACQUIRE to ALIGN, with the peaking in use: the host's under FIXED, the search's else. -/
def execLaneClockStable (lane : Lane) (found : Nat) (s : State) : Host.Outcome State Fault Refusal :=
  let s := s.fresh
  .next (if laneExists lane then
    (if s.rxState lane == 2 then
      let c := if s.f (laneKey lane 3) 8 2 == 0 then s.f (laneKey lane 3) 0 4 else found
      (s.setRx lane 3).setf (laneKey lane 4) 0 4 (min c (if laneKind lane = 0 then 15 else 11))
    else s)
    else s)

/-- The CTLE at a lock: a setting written meanwhile under FIXED takes effect (R134), and FROZEN shows whether it is held. -/
def State.ctleLocked (s : State) (l : Lane) : State :=
  let s := if s.f (laneKey l 3) 8 2 == 0 then s.setf (laneKey l 4) 0 4 (s.f (laneKey l 3) 0 4) else s
  s.setf (laneKey l 4) 4 1 (bit (s.ctleFrozen l))
/-- The Clause 37 exchange of a 1000BASE-X port, while AN37_EN is 1 (R156): full duplex, and PAUSE as PAUSE_CFG enables it. -/
def State.advertise (s : State) (p : Nat) : State :=
  if s.codeInUse p = 1 && s.b (Reg.macCfg p) 4 then s.emit (.an37 p (s.b (Reg.pauseCfg p) 0)) else s
/-- LANE_LOCK (R137, R138, R141, R142): every lane of the port, in ALIGN or WAKE, enters LOCKED together with its report;
the link passes through INVALID. With a skew beyond the range the lanes stay as they are (R137). -/
def execLaneLock (p : Nat) (reports : List LaneReport) (s : State) : Host.Outcome State Fault Refusal :=
  let s := s.fresh
  let ls := s.portLanes p
  atUnit p 80 s (
    let single := ls.length == 1
    let rs := ls.zip (reports ++ List.replicate 4 ⟨0, 0, 0, 0⟩)
    if !ls.isEmpty && ls.all (fun l => s.rxState l == 3 || s.rxState l == 6) &&
        (single || rs.all (fun x => decide (x.2.deskew ≤ deskewMax x.1))) then
      let s := s.forEach rs (fun x s => s.laneReport x.1 single x.2)
      let s := s.forEach ls (fun l s => (s.setLaneReady l true).ctleLocked l)
      let s := (s.linkInvalid p 0).linkRxDelay p
      let s := s.forEach ls (fun l s => s.laneLockEvent l)
      ((s.linkProgress p 0).advertise p).portRefresh p
    else s)

/-- The lanes of the lost lane's port, each with its cause and next state: the lane itself, and, on a multi-lane port, every
other lane with cause 3 (R137). -/
def State.lockLost (s : State) (l : Lane) (cause next : Nat) : State :=
  match s.portOfLane l with
  | none => s.laneLose l cause next
  | some p =>
    let s := s.forEach (s.portLanes p) (fun m s => if m = l then s.laneLose m cause next else s.laneLose m 3 3)
    let s := { s with cal := { s.cal with running := assocDel s.cal.running (2 * p) } }
    (s.linkInvalid p 1).portRecheck p

/-- Whether alignment is lost by the criterion of the lane's line code (R136): on a sync-header lane, 16 invalid headers within 64
blocks; a comma lane's loss of synchronisation and the loss of alignment-marker lock are the PCS's own finding. -/
def State.alignmentLost (s : State) (l : Lane) (headers : List Bool) : Bool :=
  s.f (laneKey l 0) 8 4 != 2 || decide (16 ≤ ((headers.take 64).filter (fun ok => !ok)).length)
/-- A wake that fails (R135): the direction goes back to ACQUIRE, and its lane is no longer ready. -/
def State.wakeFailed (s : State) (l : Lane) : State :=
  let s := (s.setRx l 2).setLaneReady l false
  match s.portOfLane l with
  | some p => s.portRecheck p
  | none => s
/-- Whether a loss of lock of a kind is one on a lane: a loss of alignment by its lane's criterion. -/
def State.lossHolds (s : State) (l : Lane) : LockLoss → Bool
  | .alignment headers => s.alignmentLost l headers
  | _ => true
/-- LANE_LOCK_LOST (R135-R137). In WAKE it is the wake that fails; the other states have no such transition. -/
def execLaneLockLost (lane : Lane) (cause : LockLoss) (s : State) : Host.Outcome State Fault Refusal :=
  let s := s.fresh
  .next (if laneExists lane && s.lossHolds lane cause then
    (if s.rxState lane == 4 then
      match cause with
      | .signal => (s.setf (laneKey lane 5) 11 1 0).lockLost lane 0 1
      | .alignment _ => s.lockLost lane 1 3
      | .clock => s.lockLost lane 2 2
    else if s.rxState lane == 6 then s.wakeFailed lane
    else s)
    else s)

/-- DESKEW_RETRY (R137): lanes whose skew is beyond the range stay in ALIGN; the failure counts on the lowest lane. -/
def execDeskewRetry (p : Nat) (s : State) : Host.Outcome State Fault Refusal :=
  let s := s.fresh
  atUnit p 80 s (if decide (1 < (s.portLanes p).length) && (s.portLanes p).all (fun l => s.rxState l == 3)
    then s.count (laneKey (lowestLane p) 0x0B) 32 32 1 else s)

/-- Whether the device implements LPI for a type code (R146). -/
def lpiType (code : Nat) : Bool := code == 1 || code == 3 || code == 4 || code == 5
/-- Whether a port advertises LPI receive support in its LLDP EEE TLV (R146): LPI_RX is allowed and the direction is not timing. -/
def State.eeeAdvertised (s : State) (p : Nat) : Bool :=
  lpiType (s.codeInUse p) && s.b (Reg.pwrPlanP p) 1 && !s.rxTiming (lowestLane p)
/-- LANE_RECEIVE_SLEEP (R146, R148): received LPI puts a locked, permitted, non-timing direction into SLEEP; against the
advertisement it is loss of signal. -/
def execLaneReceiveSleep (p : Nat) (s : State) : Host.Outcome State Fault Refusal :=
  let s := s.fresh
  let l := lowestLane p
  atUnit p 80 s (
    if s.rxState l == 4 then
      if s.eeeAdvertised p then
        let s := (((s.setRx l 5).marginAbort l).setf (Reg.macLinkStatus p) 12 1 1).setSide p (fun x => { x with sleptRx := s.ticks })
        ((s.set (laneKey l 0x10) 0).set (laneKey l 0x11) 0).stat p 0x4A 1
      else (s.setf (laneKey l 5) 11 1 0).lockLost l 0 1
    else s)

/-- The receive direction wakes (R148): counted in RX_SLEEPS, and a calibration step of it in progress ends. -/
def State.rxWake (s : State) (p : Nat) : State :=
  let l := lowestLane p
  if s.rxState l == 5 then
    let s := ((s.setRx l 6).count (laneKey l 0x0C) 32 32 1).setf (Reg.macLinkStatus p) 12 1 0
    { s with cal := { s.cal with running := assocDel s.cal.running (2 * p) } }
  else s
/-- LANE_WAKE (R148): the partner's wake signal takes a sleeping direction into WAKE. -/
def execLaneWake (p : Nat) (s : State) : Host.Outcome State Fault Refusal :=
  let s := s.fresh
  atUnit p 80 s (s.rxWake p)

/-- CTLE_ADAPT_STEP (R133, R134): at most one step per 10 ms on a locked, non-timing CONTINUOUS direction. -/
def execCtleAdaptStep (lane : Lane) (up : Bool) (s : State) : Host.Outcome State Fault Refusal :=
  let s := s.fresh
  .next (if laneExists lane then
    (if s.rxState lane == 4 && s.f (laneKey lane 3) 8 2 == 2 && !s.rxTiming lane then
      let c := s.f (laneKey lane 4) 0 4
      let top := if laneKind lane = 0 then 15 else 11
      s.setf (laneKey lane 4) 0 4 (if up then min (c + 1) top else c - 1)
    else s)
    else s)

/-- EYE_REFRESH (R150): a locked direction's openings, saturating at 255, and SNR; NRZ modes use the middle eye alone. -/
def execEyeRefresh (lane : Lane) (heights widths : List Nat) (snr : Nat) (s : State) : Host.Outcome State Fault Refusal :=
  let s := s.fresh
  .next (if laneExists lane then
    (if s.rxState lane == 4 then
      let pam := s.f (laneKey lane 0) 4 4 == 1
      let h := fun i => if pam || i == 1 then min (heights.getD i 0) 255 else 0
      let w := fun i => if pam || i == 1 then min (widths.getD i 0) 255 else 0
      let v := w 0 + w 1 * 2 ^ 8 + w 2 * 2 ^ 16 + h 0 * 2 ^ 24 + h 1 * 2 ^ 32 + h 2 * 2 ^ 40
      (s.set (laneKey lane 0x10) v).set (laneKey lane 0x11) (min snr 65535)
    else (s.set (laneKey lane 0x10) 0).set (laneKey lane 0x11) 0)
    else s)

/-- The eye a probe takes: in PAM4 the smallest height at the start, in NRZ the middle (R151). Of equal heights it is the lowest
eye's (DESIGN CHOICE, notes/assumptions/51.md). -/
def State.probeEye (s : State) (l : Lane) : Nat :=
  let h := fun i => s.f (laneKey l 0x10) (24 + 8 * i) 8
  if s.f (laneKey l 0) 4 4 != 1 then 1
  else if h 0 ≤ h 1 && h 0 ≤ h 2 then 0 else if h 1 ≤ h 2 then 1 else 2

/-- MARGIN_START written as 1 (R151): ignored while running; ends at once on a direction that is not locked. -/
def State.marginStart (s : State) (l : Lane) : State :=
  if s.f (laneKey l 0x13) 0 8 == 1 then s
  else if s.rxState l == 4 then
    ((s.set (laneKey l 0x13) 0).setf (laneKey l 0x13) 0 10 (1 + s.probeEye l * 256)).setf (laneKey l 0x12) 4 1 1
  else (s.set (laneKey l 0x13) (if laneKind l = 0 then 0 else 256)).marginEnd l 4

/-- MARGIN_DONE (R151): the margins of a probe, left, right, upper and lower: one the host started, or one that the margin
self-test makes of a locked lane (R435). -/
def execMarginDone (lane : Lane) (margins : List Nat) (s : State) : Host.Outcome State Fault Refusal :=
  let s := s.fresh
  let own := s.f (laneKey lane 0x13) 0 8 != 1 && s.rxState lane == 4 && s.selfTest 2
  .next (if laneExists lane then
    (if s.f (laneKey lane 0x13) 0 8 == 1 || own then
      let s := if own then s.marginStart lane else s
      let m := fun i => min (margins.getD i 0) 255
      let s := s.setf (laneKey lane 0x13) 16 32 (m 3 + m 2 * 2 ^ 8 + m 1 * 2 ^ 16 + m 0 * 2 ^ 24)
      let s := s.marginEnd lane 2
      if own then s.tested (decide (s.f Reg.healthCfg 16 8 ≤ m 0) && decide (s.f Reg.healthCfg 16 8 ≤ m 1)) else s
    else s)
    else s)

/-- A write of the peaking setting or CTLE_ADAPT (R134): at once on a non-timing direction, at the next lock on a timing one. -/
def State.ctleWritten (s : State) (l : Lane) : State :=
  if s.rxTiming l && s.rxState l == 4 then s
  else
    let s := if s.f (laneKey l 3) 8 2 == 0 then s.setf (laneKey l 4) 0 4 (s.f (laneKey l 3) 0 4) else s
    s.setf (laneKey l 4) 4 1 (bit (s.rxState l == 4 && s.ctleFrozen l))

/-- A write of the transmit taps (R134): at once on a non-timing direction, at the next start on a timing one. -/
def State.txeqWritten (s : State) (l : Lane) : State :=
  if s.txTiming l then s else { s with txeq := assocSet s.txeq (laneKey l 2) (s.get (laneKey l 2)) }

/-- The transmit taps R131 admits: MAIN at least 32, and MAIN plus the magnitudes of the others at most 64. -/
def txeqOk (w : Nat) : Bool :=
  let mag := fun lo => (signed 8 (bits w lo 8)).natAbs
  decide (32 ≤ bits w 8 8) && decide (bits w 8 8 + mag 0 + mag 16 + mag 24 ≤ 64)

/-- HLANE_RESTART.RX: a forced re-lock (R135, cause 5). -/
def State.restartRx (s : State) (l : Lane) : State :=
  if s.rxState l == 4 then s.lockLost l 5 2 else if s.rxState l == 3 || s.rxState l == 6 then s.setRx l 2 else s

/-! ### PAM4 mapping and precoding (R129, R130) -/

/-- The symbol value of a bit pair, first bit more significant. -/
def pam4Gray (first second : Bool) : Nat :=
  match first, second with
  | false, false => 0 | false, true => 1 | true, true => 2 | true, false => 3
/-- The transmit precoder: P(j) = (G(j) - P(j-1)) mod 4, from the history P(j-1). -/
def precode : Nat → List Nat → List Nat
  | _, [] => []
  | p, g :: gs => let q := (g + 4 - p) % 4; q :: precode q gs
/-- The receive precoder: G(j) = (P(j) + P(j-1)) mod 4; the first decided symbol is the history for the second. -/
def unprecode : List Nat → List Nat
  | p :: q :: ps => (p + q) % 4 :: unprecode (q :: ps)
  | _ => []
/-- The nominal level of a symbol value: -3, -1, +1, +3. -/
def pam4Level (v : Nat) : Int := 2 * (v : Int) - 3
/-- The bit pair of a symbol value. -/
def pam4Pair : Nat → List Bool
  | 0 => [false, false] | 1 => [false, true] | 2 => [true, true] | _ => [true, false]
/-- Bits in transmission order taken in pairs and Gray-mapped. -/
def pam4Map : List Bool → List Nat
  | a :: b :: rest => pam4Gray a b :: pam4Map rest
  | _ => []
/-- Whether a lane is in a PAM4 mode. -/
def State.pam4 (s : State) (l : Lane) : Bool := s.f (laneKey l 0) 4 4 == 1
/-- The symbols that a lane's transmitter sends for bits from its start on: Gray-mapped, and precoded when TX_PRECODE is 1; in an
NRZ mode one bit a symbol. TX_INVERT is polarity and lies behind them. -/
def State.txSymbols (s : State) (l : Lane) (bs : List Bool) : List Nat :=
  if s.pam4 l then (if s.b (laneKey l 1) 6 then precode 0 (pam4Map bs) else pam4Map bs) else bs.map bit
/-- The bits that a lane's receiver recovers from decided symbols: through the receive precoder when RX_PRECODE is 1. -/
def State.rxBits (s : State) (l : Lane) (v : List Nat) : List Bool :=
  if s.pam4 l then (if s.b (laneKey l 1) 5 then unprecode v else v).flatMap pam4Pair else v.map (· == 1)

end Sys2Proof.Machine
end

