-- ==== Sys2Proof/Machine/Classify.lean ====
section
/-! DEFINITION. What a frame meets on its way in (R33): policers (R194), sequence generation and recovery (R279-R287), stream
watch (R291-R293), learning (R189) and destination sets (R186-R192). -/
namespace Sys2Proof.Machine

/-! ### Policers (R194) -/

/-- The verdict of a policer on a frame of length l at a step-free stamp t. -/
def State.police (s : State) (p l t : Nat) : State × Bool :=
  match assoc s.fwd.tables.pol p with
  | none => (s, true)
  | some e =>
    let cap := u32 e 4 * tokenUnit
    let x := (assoc s.fwd.policers p).getD ⟨cap, t⟩
    let tokens := min cap (x.tokens + (t - x.last) * u32 e 0)
    let keep := fun (s : State) (n : Nat) => { s with fwd := { s.fwd with policers := assocSet s.fwd.policers p ⟨n, t⟩ } }
    let sdu := Reg.polSdu (0x20 + p / 512) (p % 512)
    let cnt := Reg.polCnt (p / 512) (p % 512)
    if s.b sdu 32 then ((keep s tokens).count sdu 0 32 1, false)
    else if u16 e 8 != 0 && decide (u16 e 8 < l) then
      let s := (keep s tokens).count sdu 0 32 1
      (if (u8 e 10).testBit 1 then (s.setf sdu 32 1 1).raise 0x404 (toLe 2 p) else s, false)
    else if decide (l * tokenUnit ≤ tokens) && u32 e 0 != 0 then ((keep s (tokens - l * tokenUnit)).count cnt 32 32 1, true)
    else ((keep s tokens).count cnt 0 32 1, false)

/-! ### FRER (R279-R288) -/

/-- A recovery function's counter raised. -/
def State.rcvyCount (s : State) (r c n : Nat) : State := s.wrap (rcvyKey r c) 0 64 n
/-- The history of a recovery function under the vector algorithm. -/
def State.history (s : State) (r : Nat) : Nat := (assoc s.red.hist r).getD 0
/-- A frame passed: counted, and the reset timer restarted (R284, R286). -/
def State.rcvyPass (s : State) (r seq : Nat) (hist : Option Nat) (newest : Bool) : State :=
  let s := s.rcvyCount r 0 1
  let s := if newest then (s.setf (rcvyKey r 7) 0 16 seq).setf (rcvyKey r 7) 16 1 0 else s
  { s with red := { s.red with
    hist := (match hist with | some h => assocSet s.red.hist r h | none => s.red.hist)
    lastPass := assocSet s.red.lastPass r s.ticks } }

/-- The zero bits among bits lo .. hi - 1 of a history. -/
def zeroBits (h lo hi : Nat) : Nat := ((List.range hi).filter (fun i => decide (lo ≤ i) && !h.testBit i)).length

/-- One copy taken by a recovery function on a port, a member or not (R283-R285, R287). Copies come in the order of their frames'
commands, which is that of their stamps and, among equal ones, of their ports (R283, notes/assumptions/55.md). The result says
whether it passes. -/
def State.recover (s : State) (r port : Nat) (seq : Option Nat) : State × Bool :=
  match assoc s.fwd.tables.rcvy r with
  | none => (s, true)
  | some e =>
    if (List.range 4).any (fun i => u8 e (16 + i) == port && s.b (rcvyKey r 7) (24 + i)) then (s.rcvyCount r 1 1, false)
    else match seq with
      | none =>
        if (u8 e 0).testBit 2 then (s.rcvyPass r 0 none false, true) else (s.rcvyCount r 5 1, false)
      | some n =>
        let recov := s.f (rcvyKey r 7) 0 16
        if s.b (rcvyKey r 7) 16 then (s.rcvyPass r n (some 1) true, true)
        else if (u8 e 0).testBit 1 then
          if n = recov then (s.rcvyCount r 1 1, false)
          else
            let s := if (n + 65536 - recov) % 65536 = 1 then s else s.rcvyCount r 2 1
            (s.rcvyPass r n none true, true)
        else
          let len := u16 e 2
          let d := signed 16 ((n + 65536 - recov) % 65536)
          let h := s.history r
          if (len : Int) ≤ d ∨ d ≤ -(len : Int) then (s.rcvyCount r 3 1, false)
          else if 0 < d then
            let k := d.toNat
            let s := s.rcvyCount r 4 (zeroBits h (len - k) len)
            (s.rcvyPass r n (some ((h * 2 ^ k ||| 1) % 2 ^ len)) true, true)
          else if h.testBit (-d).toNat then (s.rcvyCount r 1 1, false)
          else ((s.rcvyCount r 2 1).rcvyPass r n (some (h ||| 2 ^ (-d).toNat)) false, true)

/-- The sequence number a stream gives a frame, whether generation assigned it, and its recovery verdict (R279, R283). -/
def State.frer (s : State) (h port : Nat) (received : Option Nat) : State × Option Nat × Bool × Bool :=
  match assoc s.fwd.tables.stream h with
  | none => (s, none, false, true)
  | some e =>
    let gen := (u8 e 0).testBit 1
    let seq := if gen then some (s.f (genKey h) 0 16) else received
    let s := if gen then s.wrap (genKey h) 0 16 1 else s
    if (u8 e 0).testBit 2 then let r := s.recover (u16 e 2) port seq; (r.1, seq, gen, r.2) else (s, seq, gen, true)

/-! ### Stream watch (R291, R293) -/

/-- Whether the watch unit runs: PD2 on, and E5 serving (WATCH in DEV_READY). -/
def State.watchUp (s : State) : Bool := s.on 2 && s.ready 19
/-- A frame not watched: counted, every window degraded, reported at most once in 1 s (R291, R294). -/
def State.watchLoss (s : State) : State :=
  let s := s.forEach (s.red.watches.map (·.1)) (fun e s => s.setf (watchKey e 0) 36 1 1)
  let s := { s with red := { s.red with watches := s.red.watches.map (fun (x : Nat × Watch) => (x.1, { x.2 with windowDegraded := true })) } }
  let s := s.count Reg.watchLost 0 32 1
  let due := match s.red.watchTick with | none => true | some t => decide (t + 1250000000 ≤ s.ticks)
  if due then ({ s with red := { s.red with watchTick := some s.ticks } }).raise 0x705 (toLe 4 (s.f Reg.watchLost 0 32)) else s

/-- The largest magnitude of a list of n-byte big-endian signed samples on a 24-bit scale; k bounds their number. -/
def peakOf (fmt : Nat) : Nat → List Byte → Nat
  | 0, _ => 0
  | k + 1, d =>
    let n := if fmt = 0 then 2 else if fmt = 1 then 3 else 4
    if d.length < n then 0
    else
      let v : Int := if fmt = 0 then signed 16 (beNat (d.take 2)) * 256
        else if fmt = 1 then signed 24 (beNat (d.take 3)) else signed 24 (beNat (slice d 1 3))
      max (min v.natAbs 8388607) (peakOf fmt k (d.drop n))

/-- The sample rate of a watch entry in Hz (R292). -/
def watchRate : Nat → Nat
  | 0 => 48000 | 1 => 96000 | _ => 44100

/-- The offset of a frame from the first of its window, in 2^-16 ns: stamps less RTP time (R293). -/
def rtpOffset (t0 ts0 t ts rate : Nat) : Int :=
  ((t : Int) - t0) - roundDiv (signed 32 ((ts + 2 ^ 32 - ts0) % 2 ^ 32) * (1000000000 * 65536)) rate

/-- One watched frame measured (R293): its RTP header at an offset of the frame's bytes. -/
def State.watchMeasure (s : State) (e : Nat) (w : Watch) (d : List Byte) (off stop : Nat) : State :=
  let x := w.entry
  let seq := be16 d (off + 2)
  let ts := be32 d (off + 4)
  if (u8 x 0).testBit 2 && be32 d (off + 8) != u32 x 8 then s.count (watchKey e 2) 32 16 1
  else
    let dom := u8 x 3
    let hdr := 12 + 4 * (u8 d off % 16)
    let hdr := if (u8 d off).testBit 4 then hdr + 4 + 4 * be16 d (off + hdr + 2) else hdr
    let pad := if (u8 d off).testBit 5 then u8 d (stop - 1) else 0
    let body := slice d (off + hdr) (stop - pad - (off + hdr))
    let good := body.length == u8 x 2 * u16 x 6 * (if u8 x 1 = 0 then 2 else if u8 x 1 = 1 then 3 else 4)
    let pk := if good then peakOf (u8 x 1) (u8 x 2 * u16 x 6) body else 0
    let ahead := match w.lastSeq with | some l => signed 16 ((seq + 65536 - l) % 65536) | none => 1
    let lost := if 1 < ahead then (ahead - 1).toNat else 0
    let t := s.runNow dom
    let newWin := w.windowGen != (s.dom dom).gen
    let first := if newWin then none else w.first
    let s := if newWin then s.setf (watchKey e 0) 36 1 0 else s
    let o := match first with | some (t0, ts0) => rtpOffset t0 ts0 t ts (watchRate (u8 x 4)) | none => 0
    let fresh := first.isNone
    let loud := good && decide (u32 x 20 ≤ pk)
    let w := { w with
      lastFrame := s.ticks, lastSeq := (if 0 < ahead then some seq else w.lastSeq), windowLost := (if newWin then 0 else w.windowLost) + lost
      windowPeak := max (if newWin then 0 else w.windowPeak) pk, windowGen := (s.dom dom).gen
      windowStart := (if newWin then s.ticks else w.windowStart), windowDegraded := !newWin && w.windowDegraded
      first := some (first.getD (t, ts)), pdvLo := (if fresh then o else min w.pdvLo o), pdvHi := (if fresh then o else max w.pdvHi o)
      loudTick := (if loud then s.ticks else w.loudTick), heard := !loud && (w.heard || good) }
    let s := { s with red := { s.red with watches := assocSet s.red.watches e w } }
    let s := (s.wrap (watchKey e 1) 0 64 1).count (watchKey e 2) 0 32 lost
    let s := if good then s else s.count (watchKey e 2) 32 16 1
    if 0 < ahead then s.setf (watchKey e 0) 48 16 seq else s

/-- The watch unit's rate (R291): whether it takes one more frame, counted over seconds that each begin with a frame
(notes/assumptions/56.md). -/
def State.watchTakes (s : State) : Bool × State :=
  let again := decide (s.red.watchSecond + 1250000000 ≤ s.ticks)
  let n := if again then 0 else s.red.watchCount
  (decide (n < 48000000), { s with red := { s.red with
    watchSecond := (if again then s.ticks else s.red.watchSecond), watchCount := n + 1 } })
/-- A frame named by its catalogue action to watch entry e, on a port (R291). -/
def State.watchFrame (s : State) (e port : Nat) (d : List Byte) (off stop : Nat) : State :=
  let r := s.watchTakes
  let s := r.2
  if !s.watchUp || !r.1 then s.watchLoss
  else match assoc s.red.watches e with
    | none => s
    | some w => if u8 w.entry 5 = port then s.watchMeasure e w d off stop else s.count (watchKey e 2) 48 16 1

/-! ### Learning (R189) -/

/-- FDB_LEARN_LOSS, at most once in 1 s. -/
def State.learnLoss (s : State) : State :=
  let due := match s.fwd.learnTick with | none => true | some t => decide (t + 1250000000 ≤ s.ticks)
  if due then ({ s with fwd := { s.fwd with learnTick := some s.ticks } }).raise 0x405
    (toLe 4 (s.f Reg.fdbLearnLost 0 32) ++ toLe 4 (s.f Reg.fdbLearnFull 0 32)) else s

/-- A source address queued for learning, with its port and the run value of its stamp; at most 4,096 wait. -/
def State.learnQueued (s : State) (key port t : Nat) : State :=
  if s.fwd.learnQueue.length < 4096 then
    { s with fwd := { s.fwd with learnQueue := s.fwd.learnQueue ++ [(key, port, t)] } }
  else (s.count Reg.fdbLearnLost 0 32 1).learnLoss

/-- What a learned or snooped entry holds for a frame stamped t: the last change that applies from t or before. Changes stand in the
order of the instants from which they apply. -/
def Learned.at (x : Learned) (t : Nat) : Option (Nat × Nat) :=
  ((x.changes.filter (fun c => decide (c.1 ≤ t))).getLast?).bind (·.2)

/-- 2 µs in units of 2^-16 ns. -/
def learnDelay : Nat := 2000 * ns16

/-- A change put in its place, after those that apply from the same instant or before. -/
def putChange (c : Nat × Option (Nat × Nat)) : List (Nat × Option (Nat × Nat)) → List (Nat × Option (Nat × Nat))
  | [] => [c]
  | d :: ds => if c.1 < d.1 then c :: d :: ds else d :: putChange c ds
/-- An entry's changes with one more from a run value; of those that apply before the earliest question only the last is kept. -/
def Learned.change (x : Learned) (t now : Nat) (v : Option (Nat × Nat)) : Learned :=
  let all := putChange (t, v) x.changes
  let old := all.filter (fun c => decide (c.1 ≤ now))
  { x with changes := old.drop (old.length - 1) ++ all.filter (fun c => decide (now < c.1)) }

/-- A learned entry changed or added. -/
def State.setLearned (s : State) (x : Learned) : State :=
  { s with fwd := { s.fwd with learned := s.fwd.learned.filter (fun y => y.key != x.key) ++ [x] } }

/-- What an entry holds in the end. -/
def Learned.final (x : Learned) : Option (Nat × Nat) := (x.changes.getLast?).bind (·.2)
/-- A learned entry of a full bucket, which one the spec leaves open, gives its place. -/
def State.evict (s : State) (here : List Learned) : State :=
  match here[Config.fdbVictim s.drawn % here.length]? with
  | some v => ({ s with fwd := { s.fwd with learned := s.fwd.learned.filter (fun y => y.key != v.key) } }).draw
  | none => s
/-- A new learned or snooped entry (R188, R189): a bucket full of static entries refuses it; one full otherwise loses a learned
entry. -/
def State.addLearned (s : State) (x : Learned) : State :=
  let statics := (s.fwd.tables.fdb.filter (fun e => fdbBucketOf e.1 == fdbBucketOf x.key)).length
  let here := s.fwd.learned.filter (fun y => fdbBucketOf y.key == fdbBucketOf x.key)
  if 8 ≤ statics then (s.count Reg.fdbLearnFull 0 32 1).learnLoss
  else (if statics + here.length < 8 then s else s.evict here).setLearned x
/-- An address is learned on a port by a frame stamped t, moved or renewed (R189). -/
def State.learn (s : State) (key port t : Nat) : State :=
  if (assoc s.fwd.tables.fdb key).isSome then s
  else match s.fwd.learned.find? (fun x => x.key == key) with
    | some x =>
      let y := { x with renewed := max x.renewed t }
      s.setLearned (if x.final = some (0, port) then y else y.change (t + learnDelay) (s.runNow s.fwdDom) (some (0, port)))
    | none => s.addLearned ⟨key, [(t + learnDelay, some (0, port))], t, false⟩
/-- The address at the front of the learning queue is learned. -/
def State.learnOne (s : State) : State :=
  match s.fwd.learnQueue with
  | [] => s
  | (key, port, t) :: rest => ({ s with fwd := { s.fwd with learnQueue := rest } }).learn key port t
/-- The addresses at the front of the queue whose learning applies to a frame stamped t are learned, n at most: what a frame's
lookup meets depends on stamps alone (R189). -/
def State.learnDue (s : State) (t : Nat) : Nat → State
  | 0 => s
  | n + 1 =>
    match s.fwd.learnQueue with
    | (_, _, u) :: _ => if u + learnDelay ≤ t then s.learnOne.learnDue t n else s
    | [] => s

/-- The FDB's answer for a key and stamp: (kind 0 port, 1 group, 2 drop; number). -/
def State.fdbLookup (s : State) (key t : Nat) : Option (Nat × Nat) :=
  match assoc s.fwd.tables.fdb key with
  | some e => some (u8 e 8, u16 e 10)
  | none => ((s.fwd.learned.find? (fun x => x.key == key)).bind (fun x => x.at t))

/-! ### Destinations (R185-R192) -/

/-- Where a frame goes: dropped against the VLAN counter of its ingress port, dropped silently, or a set of ports with the
group whose member policers apply. -/
inductive Dest where
  | vlanDrop
  | drop
  | ports (l : List Nat) (group : Option Nat)
  deriving DecidableEq, Repr

/-- The ports of a port set. -/
def portSet (e : List Byte) (off : Nat) : List Nat := (List.range 83).filter (portIn e off)

/-- A group's ports (R191): invalid groups drop the frame; only HAIRPIN lets it return to its ingress port. -/
def State.groupDest (s : State) (g port : Nat) : Dest :=
  match assoc s.fwd.tables.mcast g with
  | none => .vlanDrop
  | some e => .ports ((portSet e 0).filter (fun p => (u8 e 11).testBit 1 || p != port)) (some g)

/-- The destination of a frame under DEST_MODE 0 (R188), in a VLAN entry. -/
def State.lookupDest (s : State) (vlan : List Byte) (mac port t : Nat) : Dest :=
  let flood := Dest.ports ((portSet vlan 0).filter (· != port)) none
  if mac = 0xFFFFFFFFFFFF then flood
  else match s.fdbLookup (fdbKey (u16 vlan 24) mac) t with
    | some (0, p) => .ports [p] none
    | some (1, g) => s.groupDest g port
    | some _ => .drop
    | none =>
      if mac.testBit 40 then (if (u8 vlan 26).testBit 3 then .drop else flood)
      else (if (u8 vlan 26).testBit 2 then .drop else flood)

/-- The member policer of a port in a group. -/
def State.memberPolicer (s : State) (g p : Nat) : Option Nat :=
  (assoc s.fwd.tables.mcast g).bind (fun e =>
    ((List.range 4).find? (fun i => (u8 e (12 + 4 * i + 1)).testBit 0 && u8 e (12 + 4 * i) == p)).map (fun i => u16 e (12 + 4 * i + 2)))

end Sys2Proof.Machine
end

