-- ==== Sys2Proof/Machine/Edit.lean ====
section
/-! DEFINITION. The bytes a copy leaves with: VLAN tag, DSCP, sequence tags (R281), padding (R161), checksums (R164), the
correction field (R165, R333, R341) and inserted times (R296, R334), and the length that they come to (R194, R253). -/
namespace Sys2Proof.Machine

/-! ### The stale state of a port's stamps (R395) -/

/-- The class 2 item of a port's island is stale. -/
def State.islandStale (s : State) (p : Nat) : Bool := staleState (s.f (Reg.calItemState (0x230 + (portIsland p - 14))) 0 4)
/-- The calibration words of a lane (R392). -/
def calLane (l : Lane) : Nat := (if laneKind l = 0 then 0x100 else 0x140) + laneNum l
/-- The receive reference lane of a port: the lane whose LANE_ORDER is 0 at the current lock (R338). -/
def State.refLane (s : State) (p : Nat) : Lane :=
  ((s.portLanes p).find? (fun l => s.f (laneKey l 8) 18 2 == 0)).getD (lowestLane p)
/-- Whether a port's ingress stamps are stale. -/
def State.staleRx (s : State) (p : Nat) : Bool :=
  decide (p < 80) && (staleState (s.f (Reg.calLaneState (calLane (s.refLane p))) 0 4) || s.islandStale p)
/-- Whether a port's egress stamps are stale. -/
def State.staleTx (s : State) (p : Nat) : Bool :=
  decide (p < 80) && (staleState (s.f (Reg.calLaneState (calLane (lowestLane p))) 4 4) || s.islandStale p)

/-! ### Bytes -/

/-- The parse of a frame's bytes as received on a port. -/
def State.parsed (s : State) (port : Nat) (d : List Byte) : Parsed :=
  parse (s.b (Reg.catPortCfg (0x100 + port)) 16) (s.f Reg.catCfg 0 16) (s.f Reg.catRtpPorts 0 16) (s.f Reg.catRtpPorts 16 16) d

/-- A PTP port's configuration word: port p of instance i. -/
def ptpPort (i p : Nat) : Nat := 0x80 * i + p
/-- The transport code of a PTP message: 0 L2, 1 UDP/IPv4, 2 UDP/IPv6. -/
def Parsed.transport (x : Parsed) : Nat := if x.udp then (if x.ipv4 then 1 else 2) else 0
/-- The PTP instance a message on a port belongs to (R331). -/
def State.ptpInstance (s : State) (x : Parsed) (d : List Byte) (p : Nat) : Option Nat :=
  if x.ptp && decide (p < 80) then
    (List.range 8).find? (fun i => s.f (Reg.ptpInstCfg (0x3F0 + i)) 62 2 != 0 &&
      s.f (Reg.ptpInstCfg (0x3F0 + i)) 40 8 == u8 d (x.ptpOff + 4) && s.b (Reg.ptpPortCfg (ptpPort i p)) 63 &&
      s.f (Reg.ptpPortCfg (ptpPort i p)) 59 2 == x.transport)
  else none

/-- A difference of FWD_DOMAIN scaled to an instance's domain by the ratio of their rates (R333). -/
def State.scaled (s : State) (inst : Nat) (fwd : Nat) (dt : Int) : Int :=
  roundDiv (dt * (2 ^ 40 + (s.dom inst).freq)) (2 ^ 40 + (s.dom fwd).freq).toNat

/-- The correction field of a PTP message raised by an amount in 2^-16 ns. -/
def Parsed.correct (x : Parsed) (d : List Byte) (amount : Int) : List Byte :=
  let o := x.ptpOff + 8
  x.l4Edit d o (toBe 8 (unsigned 64 (signed 64 (beNat (slice d o 8)) + amount)))

/-- What a P2P transparent clock adds for the ingress link (R333, R350): meanLinkDelay and t_in less it. -/
def State.tcDelay (s : State) (i p : Nat) : Int :=
  let mean := signed 64 (s.get (Reg.ptpPortDelay (ptpPort i p)))
  mean + (signed 64 (s.get (Reg.pcsLinkTIn p)) - mean)

/-- What a transparent clock adds for the device's own paths (R341): the receive delay of the ingress port and the transmit delay
of the egress port. -/
def State.tcPlane (s : State) (pin pout : Nat) : Int :=
  signed 64 (s.get (Reg.pcsLinkRxDelay pin)) + signed 64 (s.get (Reg.pcsLinkTxDelay pout))

/-- The transparent-clock correction of a copy (R333, R341): event messages of an instance of CLOCK_TYPE 2 or 3 between two
of its enabled ports gain their residence time and the delays to the reference planes; a P2P instance adds the ingress link delay
to Sync. -/
def State.tcCorrect (s : State) (p : Nat) (f : Frame) (x : Parsed) (d : List Byte) : List Byte :=
  match f.ptp with
  | none => d
  | some (i, _) =>
    let ct := s.f (Reg.ptpInstCfg (0x3F0 + i)) 57 2
    if 2 ≤ ct && s.b (Reg.ptpPortCfg (ptpPort i p)) 63 && x.event d then
      let res := s.scaled i f.stamp.dom (s.age f.stamp)
      let link := if ct = 3 && u8 d x.ptpOff % 16 == 0 then s.tcDelay i f.port else 0
      x.correct d (res + link + s.tcPlane f.port p)
    else d

/-- The sequence tag that a port puts on a copy of a stream (R281): 0 none, 1 R-tag, 2 HSR tag, 3 PRP trailer, 4 as
received. A copy with no sequence number gets none; P80-P82 have no FRER_PORT_CFG and keep tags (TX_TAG 4). -/
def State.txTag (s : State) (p : Nat) (f : Frame) : Nat :=
  if f.stream.isNone then 4
  else
    let t := if p < 80 then s.f (Reg.frerPortCfg (0x200 + p)) 0 3 else 4
    if t = 4 then (if f.gen then 1 else 4) else if f.seq.isNone then 0 else t

/-- The bytes of a classified copy, up to the FCS, padded to 60; the flag says whether it was padded. The padding of a PRP copy
goes before its trailer (R161). -/
def State.editCopy (s : State) (p : Nat) (f : Frame) (c : Copy) : List Byte × Bool :=
  let x := s.parsed f.port f.data
  let d := s.tcCorrect p f x f.data
  let d := if f.action.testBit 95 then x.setDscp d (bits f.action 89 6) else d
  let tag := s.txTag p f
  let seq := toBe 2 (f.seq.getD 0)
  let addr := d.take 12
  let tpid := if x.outer.isSome then be16 d 12 else 0x8100
  let pcp := if f.action.testBit 99 then bits f.action 96 3 else f.pcp
  let outer := if c.untag then [] else toBe 2 tpid ++ toBe 2 (pcp * 8192 + f.dei * 4096 + f.vid)
  let vlanEnd := if x.inner.isSome then 20 else if x.outer.isSome then 16 else 12
  let inner := if x.inner.isSome then slice d 16 4 else []
  let kept := slice d vlanEnd (x.l2 - 2 - vlanEnd)
  let body := d.drop (x.l2 - 2)
  let body := if tag != 4 && x.prp.isSome then body.take (body.length - 6) else body
  let room := if tag = 3 then 54 else 60
  let front := addr ++ outer ++ inner
  let mid := if tag = 4 then kept else if tag = 1 then toBe 2 0xF1C1 ++ [0, 0] ++ seq else if tag = 2 then zeros 6 else []
  let short := decide ((front ++ mid ++ body).length < room)
  let body := if short then body ++ zeros (room - (front ++ mid ++ body).length) else body
  let lsdu := body.length - 2 + 6
  let mid := if tag = 2 then toBe 2 0x892F ++ toBe 2 (s.f (Reg.frerPortCfg (0x200 + p)) 8 4 * 4096 + lsdu % 4096) ++ seq else mid
  let trail := if tag = 3 then seq ++ toBe 2 (s.f (Reg.frerPortCfg (0x200 + p)) 4 4 * 4096 + lsdu % 4096) ++ toBe 2 0x88FB else []
  (front ++ mid ++ body ++ trail, short)

/-- The offset of an evening primrose payload: after Ethertype 0x88B6, one VLAN tag allowed (R296). -/
def probeOff (d : List Byte) : Nat := if be16 d 12 = 0x8100 then 18 else 14

/-- Bytes padded to 60, which the FCS brings to 64 (R161), and whether they needed it. -/
def padded (d : List Byte) : List Byte × Bool := if d.length < 60 then (d ++ zeros (60 - d.length), true) else (d, false)

/-- The bytes of a copy, up to the FCS, at the moment it starts: by kind 0 classified, 1 errored, 2 from an engine, 3
sample, 4 unedited, 5 probe, 6 echo, 7 one-step PTP Sync of the instance in its action, whose time is that at the reference plane
(R334, R340), 8 echo without stamps. An echo's STALE is set for a stale egress path too, whose stamp is t3 (R296). The flag says
padded; a flagged copy never is (R159). -/
def State.copyBytes (s : State) (p : Nat) (f : Frame) (c : Copy) : List Byte × Bool :=
  if c.kind = 1 then (f.data.take (c.len - 4), false)
  else if c.mirror.isSome then padded (f.data.take (c.len - 4))
  else if c.kind = 0 then s.editCopy p f c
  else if c.kind = 5 || c.kind = 6 then
    let o := probeOff f.data
    let t := timeBytes (s.portStamp p (u8 f.data (o + 9))).time
    if c.kind = 5 then (patch f.data (o + 16) t, false)
    else (patch (patch f.data (o + 40) t) (o + 14) (toLe 1 (u8 f.data (o + 14) ||| 2 * bit (s.staleTx p))), false)
  else if c.kind = 7 then
    let x := s.parsed 81 f.data
    let t := ((((s.portStamp p f.action).time : Nat) : Int) + signed 64 (s.get (Reg.pcsLinkTxDelay p))).toNat
    let d := x.l4Edit f.data (x.ptpOff + 34) (toBe 6 (secOf t) ++ toBe 4 (nsOf t))
    padded (x.correct d (t % 65536 : Nat))
  else padded f.data

/-- The length of a copy as it will be sent, its FCS included (R161, R194). -/
def State.sentLen (s : State) (p : Nat) (f : Frame) (c : Copy) : Nat := (s.copyBytes p f c).1.length + 4
/-- The bytes of the tags that the egress inserts in a classified copy (R253): the VLAN tag of a frame that carried none, and a
sequence tag. -/
def State.insertedLen (s : State) (p : Nat) (f : Frame) (c : Copy) : Nat :=
  (if (s.parsed f.port f.data).outer.isNone && !c.untag then 4 else 0) + (if s.txTag p f = 1 || s.txTag p f = 2 || s.txTag p f = 3 then 6 else 0)
/-- The length that the scheduler takes for a copy (R253), LEN_OVERHEAD aside. -/
def State.takenLen (s : State) (p : Nat) (f : Frame) (c : Copy) : Nat :=
  s.sentLen p f c - (if c.kind = 0 && c.mirror.isNone then s.insertedLen p f c else 0)

/-- Whether a copy leaves with a stomped FCS: flagged copies by an external port (R159). -/
def Copy.stomped (c : Copy) (f : Frame) (p : Nat) : Bool := f.err != 0 && decide (p < 80) && c.kind == 1

end Sys2Proof.Machine
end

