-- ==== Sys2Proof/Machine/Forward.lean ====
section
/-! DEFINITION. Reception (R157-R163, R182-R202): one frame from its ports' checks to the admission of its copies, host
frames, and the learning queue. -/
namespace Sys2Proof.Machine

/-! ### Calibration steps that frames end (R397, R398) -/

/-- A step of a direction (2 * port + 1 for transmit) in progress, and whether it is forced. -/
def State.calStep (s : State) (key : Nat) : Option Bool := assoc s.cal.running key
/-- A step in progress ended and discarded. -/
def State.calDrop (s : State) (key : Nat) : State := { s with cal := { s.cal with running := assocDel s.cal.running key } }
/-- A start of frame received ends the receive step of its port, and the gap that the direction was in (R396, R398). -/
def State.calRxEnd (s : State) (p : Nat) : State :=
  let s := s.setSide p (fun x => { x with lastHeard := s.ticks })
  if (s.calStep (2 * p)).isSome then (s.calDrop (2 * p)).count (Reg.calPortCnt p) 0 16 1 else s
/-- A frame that becomes eligible ends a transmit step that is not forced. -/
def State.calYield (s : State) (p : Nat) : State :=
  if s.calStep (2 * p + 1) == some false then ((s.calDrop (2 * p + 1)).count (Reg.calPortCnt p) 32 32 1).occurs 0x11 p 1 else s

/-! ### Admission of a frame's copies -/

/-- One copy to be made: its port and how it is made. -/
inductive Offer where
  /-- A copy of the destination set, with the VLAN entry it is checked against. -/
  | copy (port : Nat)
  /-- The copy of COPY_HOST or COPY_ENGINE, in a queue. -/
  | extra (port queue : Nat)
  /-- The copy of a mirror session with its source kind. -/
  | mirror (port session kind : Nat)
  deriving DecidableEq, Repr

/-- The egress port of an offer. -/
def Offer.port : Offer → Nat
  | .copy p => p | .extra p _ => p | .mirror p _ _ => p

/-- Offers in the order of their egress ports (R215), mirror copies after others of their port. -/
def sortOffers (l : List Offer) : List Offer := (List.range 83).flatMap (fun p => l.filter (fun o => o.port == p))

/-- Whether a copy may be cut through (R272). -/
def State.cutOk (s : State) (f : Frame) (p : Nat) : Bool :=
  decide (f.port < 80) && decide (s.rate p ≤ s.rate f.port) && !f.action.testBit 87 && !s.b (Reg.catPortCfg (0x100 + f.port)) 16

/-- One copy of a stored frame's destination set offered to its port: readiness, VLAN, member policer (on the length of the copy,
R194) and admission, each refusal counted alone (R192). n is the charge at the decision. -/
def State.offerCopy (s : State) (f : Frame) (vlan : List Byte) (group : Option Nat) (n p q : Nat) : State :=
  if !portIn vlan 0 p then s.wrap (Reg.mcastDropVlan p) 0 64 1
  else if !s.portReady p then s.wrap (Reg.mcastDropLink p) 0 64 1
  else
    let pol := group.bind (fun g => s.memberPolicer g p)
    let c := { Copy.of f f.len (decide (q < 5)) with untag := portIn vlan 12 p, cut := s.cutOk f p && pol.isNone }
    let r := match pol with | some i => s.police i (s.sentLen p f c) f.stamp.run | none => (s, true)
    if r.2 then (r.1.enqueue p q n { c with sched := s.takenLen p f c }).1 else r.1.wrap (Reg.mcastDropPol p) 0 64 1

/-- The offers of a stored frame admitted in order (R215); pol and elim mark its mirror copies (R197). -/
def State.offerAll (s : State) (f : Frame) (vlan : List Byte) (group : Option Nat) (n pair : Nat) (pol elim : Bool)
    (l : List Offer) : State :=
  s.forEach (sortOffers l) (fun o s => match o with
    | .copy p => s.offerCopy f vlan group n p f.queue
    | .extra p q => s.offerCopy f vlan none n p q
    | .mirror _ m k => s.mirrorFrame pair f m k n f.port f.len f.stamp.time pol elim)

/-- The mirror offers of a frame received on a port. -/
def State.mirrorOffers (s : State) (port action : Nat) : List Offer :=
  (s.mirrorsIn port action).map (fun x => .mirror ((assoc s.fwd.tables.mirr x.1).elim 0 (fun e => u8 e 1)) x.1 x.2)

/-! ### Classification (R183-R192) -/

/-- The charge of a frame at admission (R215): the port's limit while it still arrives on an external port. -/
def State.chargeOf (s : State) (p len : Nat) : Nat :=
  if p < 80 && !s.b (Reg.catPortCfg (0x100 + p)) 16 then cellsOf (s.f (Reg.macMaxFrame p) 0 14) else cellsOf len

/-- The frame record of bytes d received on a port, parsed as x, its catalogue answer being hit and action. -/
def State.newFrame (s : State) (p : Nat) (d : List Byte) (len err csum csumReq : Nat) (x : Parsed) (hit : Option Nat)
    (action : Nat) : Frame :=
  let cfg := s.get (Reg.catPortCfg (0x100 + p))
  let tag := x.outer.getD ⟨bits cfg 21 3, 0, 0⟩
  let q := if action.testBit 103 then bits action 100 3 else tag.pcp
  let stamp := s.portStamp p s.fwdDom
  { id := s.buf.nextId, data := d, len := len, port := p, err := err, csum := csum, epoch := s.f Reg.catEpochCurrent 0 32
    stamp := stamp, ptp := (s.ptpInstance x d p).map (fun i => (i, s.portStamp p i)), queue := q, pcp := tag.pcp, dei := tag.dei
    vid := if tag.vid = 0 then bits cfg 0 12 else tag.vid, tagged := x.outer.isSome, hit := hit, action := action, stream := none
    seq := none, gen := false, prio := tag.pcp, stale := s.staleRx p, carrel := decide (5 ≤ q), csumReq := csumReq }

/-- A good frame that reaches its pipeline (R182-R192): looked up, policed, given FRER treatment, watched, learned, mirrored,
and its copies admitted. -/
def State.classify (s : State) (p : Nat) (d : List Byte) (len csum csumReq : Nat) (ts : Option Nat) : State :=
  let x := s.parsed p d
  let s := if x.deep then s.count Reg.catParseDepth 0 32 1 else s
  let cfg := s.get (Reg.catPortCfg (0x100 + p))
  let key := x.key d p ⟨bits cfg 21 3, 0, bits cfg 0 12⟩ (bits cfg 24 8)
  let hit := s.fwd.tables.cat.find? (fun e => catMatches key e.2)
  let action := match hit with | some e => catAction e.2 | none => 0
  let s := match hit with | some e => s.wrap (Reg.catHit (0x200 + e.1 / 512) (e.1 % 512)) 0 64 1 | none => s
  let f := s.newFrame p d len 0 csum csumReq x (hit.map (·.1)) action
  let s := s.learnDue f.stamp.run s.fwd.learnQueue.length
  let outerVid := match x.outer with | some t => t.vid | none => 0
  let accept := bits cfg 18 2
  let vlan? := assoc s.fwd.tables.vlan f.vid
  let vlan := vlan?.getD []
  let vlanDrop := (accept == 1 && outerVid == 0) || (accept == 2 && outerVid != 0) || vlan?.isNone ||
    (cfg.testBit 20 && !portIn vlan 0 p)
  let s := if action.testBit 44 && x.rtp then s.watchFrame (bits action 32 12) p d x.rtpOff (min d.length (x.l4 + x.l4len)) else s
  let pol := if action.testBit 87 && !vlanDrop then s.police (bits action 73 14) len f.stamp.run else (s, true)
  let fr := if action.testBit 72 && pol.2 && !vlanDrop
    then let r := pol.1.frer (bits action 58 14) p x.seq; (r.1, some (bits action 58 14), r.2.1, r.2.2.1, r.2.2.2)
    else (pol.1, none, none, false, true)
  let s := fr.1
  let f := { f with stream := fr.2.1, seq := fr.2.2.1, gen := fr.2.2.2.1 }
  let elim := !fr.2.2.2.2
  let mac := be48 d 6
  let src := fdbKey (u16 vlan 24) mac
  let learn := !mac.testBit 40 && (u8 vlan 26).testBit 1 && cfg.testBit 17 && !action.testBit 49 && (assoc s.fwd.tables.fdb src).isNone
  let s := if learn then s.learnQueued src p f.stamp.run else s
  let dest := if !pol.2 || elim then Dest.drop
    else if vlanDrop then .vlanDrop
    else match bits action 126 2 with
      | 0 => s.lookupDest vlan (be48 d 0) p f.stamp.run
      | 1 => .drop
      | 2 => s.groupDest (bits action 112 14) p
      | _ => .ports [bits action 112 14] none
  let s := if dest = .vlanDrop then s.wrap (Reg.mcastDropVlan p) 0 64 1 else s
  let passes := pol.2 && !elim && !vlanDrop
  let main := match dest with | .ports l g => (l.map Offer.copy, g) | _ => ([], none)
  let extra := if passes then
      (if action.testBit 111 then [Offer.extra 80 (bits action 108 3)] else []) ++
      (if action.testBit 107 then [Offer.extra 81 f.queue] else []) else []
  let offers := main.1 ++ extra ++ s.mirrorOffers p action
  if offers.isEmpty then s
  else
    let s := (s.storeFrame f).offerAll f vlan main.2 (s.chargeOf p len) (pairOf p) (!pol.2) elim offers
    let s := match ts with
      | none => s
      | some tag => { s with buf := { s.buf with queues := s.buf.queues.map (fun (y : Nat × Queue) =>
          (y.1, { y.2 with copies := y.2.copies.map (fun (c : Copy) => if c.frame == f.id then { c with ts := some tag } else c) })) } }
    (s.settle f.id).collect.pfcCheckAll

/-! ### Receive errors (R157, R158, R163, R180) -/

/-- RX_ERR of a received frame (R158) of a length, with what the PCS found. A frame that failed reassembly carries ASSEMBLY and TRUNC
alone (R168). -/
def State.rxErr (s : State) (p len : Nat) (pcs : PcsReport) (frame : List Byte) : Nat :=
  if pcs.assembly then 3 else
  let mx := s.f (Reg.macMaxFrame p) 0 14
  let jab := decide (16384 ≤ len)
  let tooLong := decide (mx < len) && !jab
  bit jab * 128 + bit tooLong * 64 + bit (decide (len < 64)) * 32 + bit pcs.uncorr * 16 + bit pcs.code * 8 +
    bit (len < 4 || toLe 4 (crc32 (frame.take (len - 4))) != frame.drop (len - 4)) * 4 + bit (jab || tooLong) * 2

/-- The counter of an errored frame: that of its highest set bit among bits 7-2, or RX_ASSEMBLY_ERR (R158, R168). -/
def errIndex (e : Nat) : Nat :=
  if e.testBit 7 then 0x0A else if e.testBit 6 then 0x09 else if e.testBit 5 then 0x08 else if e.testBit 4 then 0x0C
  else if e.testBit 3 then 0x0B else if e.testBit 2 then 0x07 else 0x2D

/-- Copies already under way when an error is found at the frame's end: each ends with a stomped FCS, cut at MAC_MAX_FRAME
(R160). `under` names their ports: only copies cut through can have begun, with the bytes that the frame's classification gives
them; whatever else it does is undone, since an errored frame is looked up nowhere (R159). -/
def State.stompUnderway (s : State) (p err : Nat) (frame : List Byte) (under : List Nat) : State :=
  let d := frame.take (min (frame.length - 4) (s.f (Reg.macMaxFrame p) 0 14 - 4))
  let t := s.classify p d (d.length + 4) 0 0 none
  match t.frame s.buf.nextId with
  | none => s
  | some f =>
    if err.testBit 5 || err.testBit 0 then s
    else
      let begun := t.allCopies.filter (fun x => x.2.2.frame == f.id && x.2.2.cut && x.2.2.mirror.isNone && decide (x.1 < 80) && under.contains x.1)
      s.forEach begun (fun x s =>
        let b := t.copyBytes x.1 f x.2.2
        let s := (s.emit (.frame x.1 (b.1 ++ fcs b.1 true))).stat x.1 (0x50 + x.2.1) 1
        (if b.2 then s.stat x.1 0x29 1 else s).stat x.1 0x27 1)

/-- An errored frame (R158, R159): counted once; with DELIVER_FLAGS delivered to P80 and to mirror sessions of the port, and counted
again when any of them takes it. -/
def State.errored (s : State) (p err : Nat) (frame : List Byte) (under : List Nat) : State :=
  let s := ((s.stat p (errIndex err) 1).occurs 0x03 p frame.length).stompUnderway p err frame under
  if s.b (Reg.macCfg p) 2 then
    let len := frame.length
    let cut := if err.testBit 7 || err.testBit 6 then min len (s.f (Reg.macMaxFrame p) 0 14) else len
    let q := s.f (Reg.macCfg p) 8 3
    let base := s.newFrame p (frame.take cut) len err 0 0 {} none 0
    let f := { base with queue := q, carrel := false }
    let s := s.storeFrame f
    let n := s.chargeOf p cut
    let r := if s.portReady 80 then s.enqueue 80 q n { Copy.of f cut true with kind := 1 } else (s.wrap (Reg.mcastDropLink 80) 0 64 1, false)
    let t := r.1.forEach (r.1.mirrorOffers p 0) (fun o s => match o with
      | .mirror _ m k => s.mirrorFrame (pairOf p) f m k n p cut f.stamp.time false false
      | _ => s)
    let t := (t.settle f.id).collect.pfcCheckAll
    if t.buf.frames.any (fun g => decide (f.id ≤ g.id)) then t.stat p 0x0F 1 else t
  else s

/-- A good frame that is not classified offered to the mirror sessions that take every frame of its port (R197). -/
def State.mirrorTaken (s : State) (p : Nat) (d : List Byte) (len : Nat) : State :=
  if (s.mirrorsIn p 0).isEmpty then s
  else
    let f := s.newFrame p d len 0 0 0 (s.parsed p d) none 0
    (((s.storeFrame f).mirrorPort f p).settle f.id).collect.pfcCheckAll

/-- Whether a good frame is a control request (R83): addressed to CMD_INBAND_MAC with Ethertype 0x88B5 after at most one
VLAN tag. -/
def State.isInband (s : State) (d : List Byte) : Bool :=
  be48 d 0 == s.f Reg.cmdInbandMac 0 48 &&
    (be16 d 12 == 0x88B5 || ((be16 d 12 == 0x8100 || be16 d 12 == 0x88A8 || be16 d 12 == s.f Reg.catCfg 0 16) && be16 d 16 == 0x88B5))
/-- Whether a port is enabled for in-band control. -/
def State.inbandPort (s : State) (p : Nat) : Bool :=
  if p < 64 then s.b Reg.cmdInbandPortsLo p else s.b Reg.cmdInbandPortsHi (p - 64)
/-- Whether a good frame is an evening primrose frame for this device (R297, R298). -/
def State.isProbe (s : State) (d : List Byte) : Bool :=
  be48 d 0 == s.f Reg.cmdInbandMac 0 48 && be16 d (probeOff d - 2) == 0x88B6 && u16 d (probeOff d) == 0x9F1D

/-- Whether a good frame is a bellflower on the port of path B, which the pair hardware takes (R425). -/
def State.isBellflower (s : State) (p : Nat) (d : List Byte) : Bool :=
  s.f Reg.pairState (20 + 2 * 1) 2 != 0 && s.f Reg.pairCfg 8 8 == p &&
    be16 d (probeOff d - 2) == 0x88B6 && u16 d (probeOff d) == 0xB7F1

/-- The engine-mode instance that takes a PTP message (R329-R331): every message but Management of an ordinary or boundary clock,
and the peer-delay messages of a P2P transparent clock; the others are forwarded. -/
def State.ptpTaken (s : State) (x : Parsed) (d : List Byte) (p : Nat) : Option Nat :=
  let kind := u8 d x.ptpOff % 16
  (s.ptpInstance x d p).filter (fun i =>
    let ct := s.f (Reg.ptpInstCfg (0x3F0 + i)) 57 2
    s.f (Reg.ptpInstCfg (0x3F0 + i)) 62 2 == 1 && kind != 13 &&
      (decide (ct < 2) || (ct == 3 && (kind == 2 || kind == 3 || kind == 10))))

/-- The ticks of a number of quanta, 512 bit times each at the port's current speed (R169), rounded up. -/
def State.quantaTicks (s : State) (p n : Nat) : Nat := let r := max 1 (s.rate p); (n * 640000 + r - 1) / r
/-- A stop of a queue, or of the transmitter (8), by a number of quanta: it goes on from its start, until they run out (R169, R171). -/
def State.noteStop (s : State) (p k quanta : Nat) : State :=
  let on := s.b (Reg.pauseStatus p) (if k = 8 then 16 else k)
  let since := match assoc (s.side p).stops k with | some t => if on then t.1 else s.ticks | none => s.ticks
  s.setSide p (fun x => { x with stops := assocSet x.stops k (since, s.ticks + s.quantaTicks p quanta) })

/-- A received PAUSE (R169, R171): it stops or releases the transmitter, or is ignored while the watchdog says so. -/
def State.pauseReceived (s : State) (p quanta : Nat) : State :=
  let s := s.stat p 5 1
  if !s.b (Reg.pauseCfg p) 0 then s
  else if (s.side p).ignoring.testBit 8 then s.stat p 0x41 1
  else (s.noteStop p 8 quanta).setf (Reg.pauseStatus p) 16 1 (bit (quanta != 0))

/-- A received PFC frame (R169, R171): for each priority of both the frame and RX_PFC_PRI its queue stops or is released. -/
def State.pfcReceived (s : State) (p enable : Nat) (quanta : List Nat) : State :=
  let s := s.stat p 6 1
  if !s.b (Reg.pauseCfg p) 1 then s
  else
    let named := (bitsSet enable 7).filter (fun k => s.b (Reg.pauseCfg p) (8 + k))
    let ignored := named.filter (fun k => (s.side p).ignoring.testBit k)
    let s := if ignored.isEmpty then s else s.stat p 0x41 1
    s.forEach (named.filter (fun k => !ignored.contains k)) (fun k s =>
      let stop := quanta.getD k 0 != 0
      let s := if stop then s.stat p (0x30 + k) 1 else s
      (s.noteStop p k (quanta.getD k 0)).setf (Reg.pauseStatus p) k 1 (bit stop))

/-- A MAC Control frame (R156): PAUSE (opcode 0x0001) and PFC (0x0101) act; any other ends in the MAC. -/
def State.macControl (s : State) (p : Nat) (d : List Byte) : State :=
  match be16 d 14 with
  | 0x0001 => s.pauseReceived p (be16 d 16)
  | 0x0101 => s.pfcReceived p (be16 d 16) ((List.range 8).map (fun k => be16 d (18 + 2 * k)))
  | _ => s

/-- A good frame on an external port once counted: MAC Control acts on the port and ends there; control requests, probes and the messages
of an engine-mode PTP clock are taken by their own rows of the table; a host-mode instance's event message gives an
INGRESS_PTP record (R309); every other frame is classified. -/
def State.good (s : State) (p : Nat) (d : List Byte) (len : Nat) : State :=
  let x := s.parsed p d
  if be16 d 12 = 0x8808 then s.macControl p d
  else if s.isInband d then (if s.inbandPort p then s else s.count Reg.cmdInbandDrop 0 32 1).mirrorTaken p d len
  else if s.isProbe d || s.isBellflower p d || (s.ptpTaken x d p).isSome then s.mirrorTaken p d len
  else
    let csum := if s.b (Reg.macCfg p) 3 then x.csum d else 0
    let s := if csum.testBit 1 then s.stat p 0x0D 1 else s
    let s := if csum.testBit 3 then s.stat p 0x0E 1 else s
    match s.ptpInstance x d p with
    | some i =>
      let s := if s.f (Reg.ptpInstCfg (0x3F0 + i)) 62 2 = 2 && x.event d then
          s.pushStamp p (s.stampRecord 3 (s.portStamp p i) p (be16 d (x.ptpOff + 30)) (u8 d x.ptpOff % 16)
            (ns32Of (s.portStamp p s.fwdDom).time) (s.staleRx p) false)
        else s
      s.classify p d len csum 0 none
    | none => s.classify p d len csum 0 none

/-- The counters that the PCS and the merge sublayer feed (R168, R180). -/
def State.pcsCount (s : State) (p : Nat) (x : PcsReport) : State :=
  if s.b (Reg.macLinkStatus p) 8 then
    s.forEach [(0x2C, if s.b (Reg.macMergeCfg p) 0 then x.fragments else 0), (0x42, x.corrCw), (0x43, x.uncorrCw), (0x44, x.corrSymbols), (0x45, x.errBlocks)]
      (fun y s => if y.2 = 0 then s else s.stat p y.1 y.2)
  else s

/-- A frame from the wire, its FCS included: pcs carries what the PCS and merge sublayer found (R158), under the ports with
a copy cut through already (R160). A port that is not ready, asleep, or with RX_EN clear, receives nothing. The merge sublayer
reassembles, and answers a Verify mPacket, only while it is enabled (R167, R168). -/
def State.receive (s : State) (p : Nat) (frame : List Byte) (pcs : PcsReport) (under : List Nat) : State :=
  let s := s.pcsCount p pcs
  if !s.hears p then s
  else
    let merges := s.b (Reg.macMergeCfg p) 0
    let pcs := { pcs with assembly := pcs.assembly && merges }
    let s := if pcs.verify && merges then s.emit (.mpacket p true) else s
    let s := s.epochDue.calRxEnd p
    let err := s.rxErr p frame.length pcs frame
    if err != 0 then s.errored p err frame under
    else
      let d := frame.take (frame.length - 4)
      let s := s.countGood p d frame.length
      s.good p d frame.length

/-- A frame arrives on a port (R157). -/
def execFrameReceive (p : Nat) (frame : List Byte) (pcs : PcsReport) (under : List Nat) (s : State) :
    Host.Outcome State Fault Refusal :=
  let s := s.fresh
  atUnit p 83 s (s.receive p frame pcs under)

/-! ### Learning, ageing and flushing (R188-R190) -/

/-- FDB_LEARN (R189). -/
def execFdbLearn (s : State) : Host.Outcome State Fault Refusal := .next (s.fresh.learnOne)

/-- Removal of learned entries that satisfy a test, for frames stamped 2 µs from now or later (R189, R190). -/
def State.forget (s : State) (test : Learned → Bool) : State :=
  let now := s.runNow s.fwdDom
  { s with fwd := { s.fwd with learned := s.fwd.learned.map (fun x =>
    if test x then x.change (now + learnDelay) now none else x) } }

/-- The instant at which a learned entry falls due (R189): FDB_AGE_S after the stamp that last renewed it, on FWD_DOMAIN without its
steps. -/
def State.ageDue (s : State) (x : Learned) : Nat := x.renewed + s.f Reg.fdbAgeS 0 20 * 1000000000 * ns16
/-- FDB_AGE_OUT (R189): entries that no frame has renewed for FDB_AGE_S go, for frames stamped 2 µs or more after the instant each
falls due; entries that are gone for every frame to come leave the table. -/
def execFdbAgeOut (s : State) : Host.Outcome State Fault Refusal :=
  let s := s.fresh
  let s := s.learnDue (s.runNow s.fwdDom + learnDelay) s.fwd.learnQueue.length
  let now := s.runNow s.fwdDom
  let aged := s.fwd.learned.map (fun (x : Learned) =>
    if !x.snooped && decide (s.ageDue x ≤ now) && x.final.isSome then x.change (s.ageDue x + learnDelay) now none else x)
  let stays := fun (x : Learned) => x.final.isSome || x.changes.any (fun c => decide (now < c.1))
  .next { s with fwd := { s.fwd with learned := aged.filter stays } }

/-- The flush of FDB_FLUSH (R190): by port, by FID, both, or all learned entries, those that wait to be learned among them. -/
def State.fdbFlush (s : State) (v : Nat) : State :=
  let byFid := v.testBit 33
  let byPort := v.testBit 32
  let s := s.learnDue (s.runNow s.fwdDom + learnDelay) s.fwd.learnQueue.length
  s.forget (fun x => !x.snooped && x.final.isSome && (!byFid || x.key / 2 ^ 48 == bits v 0 12) &&
    (!byPort || x.final == some (0, bits v 16 7)))

/-- IGMP_MLD_SNOOPING: an engine's FDB multicast entry, for a FID and group address, to a port or group, or its removal,
effective 2 µs after the write (R190). The entry it writes is the engine's own; E10 and E11 must serve. -/
def execIgmpMldSnooping (fid mac : Nat) (dest : Option (Nat × Nat)) (s : State) : Host.Outcome State Fault Refusal :=
  let s := s.fresh
  if (s.serves 10 || s.serves 11) && mac.testBit 40 then
    let key := fdbKey (fid % 4096) (mac % 2 ^ 48)
    let now := s.runNow s.fwdDom
    match s.fwd.learned.find? (fun x => x.key == key) with
    | some x => .next (s.setLearned ({ x with snooped := true, renewed := now }.change (now + learnDelay) now dest))
    | none => .next (if dest.isSome then s.addLearned ⟨key, [(now + learnDelay, dest)], now, true⟩ else s)
  else .next s

/-! ### Frames from the host (R162, R166, R202) -/

/-- The completion of a transmit entry (R202): 16 bytes with the phase, then vector 17 under the ring's MOD_US. -/
def State.complete (s : State) (tag status : Nat) : State :=
  if s.on 1 && s.b (Reg.p80RingCtrl 9) 31 then
    let n := s.f (Reg.p80RingDev 9) 0 16
    let size := 2 ^ s.f (Reg.p80RingCtrl 9) 0 4
    let e := toLe 4 tag ++ toLe 1 status ++ zeros 10 ++ toLe 1 (phaseOf n size)
    ((s.emit (.dma (s.get (Reg.p80RingBase 9) / 4096 * 4096 + 16 * (n % size)) e)).setf (Reg.p80RingDev 9) 0 16 (n + 1)).signal 17 (s.modUs 17)
  else s

/-- The checksums a host frame asks for (R166): L3_CSUM and L4_CSUM computed in full. The flag says that a header was not
found, and the frame is then sent unchanged. -/
def hostCsum (x : Parsed) (d : List Byte) (l3 l4 : Bool) : List Byte × Bool :=
  let noL3 := l3 && !x.ipv4
  let noL4 := l4 && !(x.udp || x.tcp)
  if noL3 || noL4 then (d, true)
  else
    let d1 := if l4 then
        let o := x.l4 + (if x.udp then 6 else 16)
        let d0 := patch d o [0, 0]
        let c := 0xFFFF - fold16 (x.pseudo d0 + sum16 (slice d0 x.l4 x.l4len))
        patch d0 o (toBe 2 (if x.udp && c == 0 then 0xFFFF else c))
      else d
    (if l3 then ipv4Csum d1 x.l3 else d1, false)

/-- A frame of P80 for a named port stored and offered to it and to the mirror sessions of P80, and its completion. -/
def State.submitTo (s : State) (port q csumReq tag : Nat) (ts : Option Nat) (d : List Byte) : State :=
  let f := { s.ownFrame 80 q d with csumReq := csumReq, ptp := none }
  let a := ((s.storeFrame f).mirrorPort f 80).enqueue port q (cellsOf f.len) { Copy.of f f.len (decide (q < 5)) with kind := 4, ts := ts }
  a.1.collect.complete tag (if a.2 then 0 else 3)
/-- A frame of P80 for the pipeline classified, and its completion. -/
def State.submitLookup (s : State) (csumReq tag : Nat) (ts : Option Nat) (d : List Byte) : State :=
  let id := s.buf.nextId
  let s := s.classify 80 d (d.length + 4) 0 csumReq ts
  s.complete tag (if id < s.buf.nextId && (s.frame id).isNone then 3 else 0)
/-- One transmit entry of P80 with the frame it points to, fetched in turn: rejected for its length or port, or admitted;
its completion follows (R162, R202). -/
def State.submit (s : State) (entry frame : List Byte) : State :=
  let n := u16 entry 8
  let d := frame.take n ++ zeros (60 - (frame.take n).length)
  let port := u8 entry 10
  let fl := u8 entry 11
  let tag := u32 entry 12
  let ts := if fl.testBit 5 then some tag else none
  if n < 14 || decide (15996 < n) || (decide (port < 80) && decide (s.f (Reg.macMaxFrame port) 0 14 - 4 < n)) then
    (s.stat 80 0x2E 1).complete tag 1
  else if port != 0x7F && (decide (80 ≤ port) || !s.portReady port) then s.complete tag 2
  else
    let s := s.countGood 80 d (d.length + 4)
    let r := hostCsum (s.parsed 80 d) d (fl.testBit 3) (fl.testBit 4)
    let s := if r.2 then s.stat 80 0x2F 1 else s
    if port != 0x7F then s.submitTo port (fl % 8) (bits fl 3 2) tag ts r.1
    else s.submitLookup (bits fl 3 2) tag ts r.1

/-- HOST_FRAME_SUBMIT: the next transmit entry, as DMA reads it, with its frame; the transmit ring must be enabled and hold
an entry not yet fetched, and the device's count then rises (R201). Above P80's limits the entry waits in the ring (R36). -/
def execHostFrameSubmit (entry frame : List Byte) (s : State) : Host.Outcome State Fault Refusal :=
  let s := s.fresh
  let dev := s.f (Reg.p80RingDev 8) 0 16
  if s.on 1 && s.b (Reg.p80RingCtrl 8) 31 && dev != s.rings.counts.getD 8 0 && decide (s.rings.nextIn ≤ 60 * s.ticks) then
    let s := { s with rings := { s.rings with nextIn := nextFree 80 s.rings.nextIn s.ticks (max 60 (u16 entry 8) + 4) } }
    .next ((s.setf (Reg.p80RingDev 8) 0 16 (dev + 1)).epochDue.submit entry frame)
  else .next s

end Sys2Proof.Machine
end

