-- ==== Sys2Proof/Machine/Egress.lean ====
section
/-! DEFINITION. Egress (R161, R169, R199-R201, R233-R235, R249-R257): what a port sends next, ageing and GATE_NOFIT, the
starts and departures of copies, preemption, P80 delivery and re-entry by P82. -/
namespace Sys2Proof.Machine

/-! ### Eligibility (R251-R257) -/

/-- Whether a copy may start now under its gate and guard band (R256). -/
def State.gateFits (s : State) (p q n : Nat) : Bool :=
  match s.openLeft p q with
  | none => true
  | some t => fits n (s.rate p) t || (decide (q < 5) && s.preempting p && fits (s.fragment p) (s.rate p) t)

/-- The tokens of a shaped queue now, in 10^-7 bytes: at RATE_KBPS one tick of 0.8 ns adds RATE_KBPS of them. A bucket
starts full (notes/assumptions/24.md). -/
def State.tokens (s : State) (p q : Nat) : Int :=
  let cap := s.f (Reg.schedShaperQ p q) 0 20 * 10000000
  match (s.side p).tokens.find? (fun x => x.1 == q) with
  | some (_, n, t) => min cap (n + (s.ticks - t) * s.f (Reg.schedShaperQ p q) 32 32)
  | none => cap
/-- A shaper's word was written, `old` before: the tokens it holds so far accrued as that said. -/
def State.shaperWritten (s : State) (p q old : Nat) : State :=
  match (s.side p).tokens.find? (fun x => x.1 == q) with
  | some (_, n, t) =>
    let held := min ((bits old 0 20 * 10000000 : Nat) : Int) (n + ((s.ticks - t) * bits old 32 32 : Nat))
    s.setSide p (fun x => { x with tokens := x.tokens.filter (fun y => y.1 != q) ++ [(q, held, s.ticks)] })
  | none => s
/-- Whether a queue's shaper holds a non-negative count. -/
def State.shaped (s : State) (p q : Nat) : Bool := s.f (Reg.schedShaperQ p q) 32 32 == 0 || decide (0 ≤ s.tokens p q)

/-- Whether a copy is of a PTP event message, which received flow control does not hold at the head (R169). -/
def State.ptpEvent (s : State) (c : Copy) : Bool :=
  match s.frame c.frame with
  | some f => (s.parsed f.port f.data).event f.data
  | none => false
/-- Whether a queue is stopped by received PAUSE or PFC (R169). -/
def State.stopped (s : State) (p q : Nat) : Bool :=
  decide (p < 80) && q != 7 && (s.b (Reg.pauseStatus p) 16 || s.b (Reg.pauseStatus p) q)

/-- Whether a P80 receive ring can take a frame: enabled, with a posted buffer, and PD1 on (R201, R49). -/
def State.ringTakes (s : State) (q : Nat) : Bool :=
  s.on 1 && s.b (Reg.p80RingCtrl q) 31 && s.f (Reg.p80RingDev q) 0 16 != s.rings.counts.getD q 0

/-- Whether a port can start any frame: ready, or with its domain draining, TX_EN, awake, and no forced window (R121, R147, R251,
R401); an internal port, within its limits (R36). -/
def State.portSends (s : State) (p : Nat) : Bool :=
  (s.portReady p || s.drains p) && (if 80 ≤ p then decide ((s.side p).nextStart ≤ 60 * s.ticks) else (s.b (Reg.macCfg p) 1 && !s.b (Reg.macLinkStatus p) 11 && s.calStep (2 * p + 1) != some true))

/-- Whether the head of a queue is eligible (R251). -/
def State.eligible (s : State) (p q : Nat) : Bool :=
  match s.head p q with
  | none => false
  | some c => s.portSends p && (!s.stopped p q || s.ptpEvent c) && s.gateFits p q (s.schedLen p c) &&
      (decide (5 ≤ q) || s.shaped p q) && (p != 80 || s.ringTakes q)

/-! ### Drops at the head (R233, R234) -/

/-- Heads of a queue that have aged out are dropped; k bounds their number. -/
def State.cleanHead (s : State) (p q : Nat) : Nat → State
  | 0 => s
  | k + 1 =>
    match s.head p q with
    | none => s
    | some c =>
      match s.frame c.frame with
      | none => s
      | some f => if s.expired p q f.stamp then ((s.stat p (0x60 + q) 1).dropHead p q).cleanHead p q k else s

/-! ### Refilling (R228, R235) -/

/-- Frames whose cells lie in a page that has expired are dropped with it, counted as aged (R235). -/
def State.dropAged (s : State) (p q : Nat) (l : List Nat) : State :=
  let lost := ((s.q p q).copies.filter (fun c => l.contains c.serial)).length
  let s := (s.stat p (0x60 + q) lost).removeCopies p q (fun c => l.contains c.serial)
  let x := s.q p q
  let strip := fun (g : Page) => { g with parts := g.parts.filter (fun y => !l.contains y.1) }
  s.setQ p q { x with chain := x.chain.map strip, writing := (x.writing.map strip).filter (fun g => !g.parts.isEmpty) }
/-- Whether the newest frame that starts in a page has passed the queue's AGE_US. -/
def State.pageAged (s : State) (p q : Nat) (g : Page) : Bool :=
  s.ageUs p q != 0 && (match g.newest with
    | some r => decide (s.ageUs p q * 1000 * ns16 < s.runNow s.fwdDom - r)
    | none => false)
/-- The next page of a chain freed without being read. -/
def State.skipPage (s : State) (p q : Nat) (g : Page) : State :=
  let x := s.q p q
  (s.setQ p q { x with chain := x.chain.take x.reads ++ x.chain.drop (x.reads + 1) }).dropAged p q (serialsIn [g])
/-- The next page of a chain read into n newly issued BULK cells. -/
def State.readPage (s : State) (p q n : Nat) : State :=
  let r := s.issue 1 n
  let x := r.1.q p q
  r.1.setQ p q { x with chain := modifyAt x.chain x.reads (fun g => { g with cells := r.2 }), reads := x.reads + 1, waits := false }
/-- Reads of a queue's chain begun in chain order, while the head holds fewer than HEAD_CELLS and fewer than four are
outstanding; a page that has aged is skipped, and a read that finds no cells waits, counted once. k bounds their number. -/
def State.refill (s : State) (p q : Nat) : Nat → State
  | 0 => s
  | k + 1 =>
    let x := s.q p q
    match x.chain[x.reads]? with
    | none => s
    | some g =>
      if !s.spillUp || decide (4 ≤ x.reads) || decide (s.headCells p q ≤ x.head) then s
      else if s.pageAged p q g then (s.skipPage p q g).refill p q k
      else
        let n := (g.parts.map (·.2)).sum
        if s.bulkFree < n then (if x.waits then s else (s.setQ p q { x with waits := true }).count Reg.stackRefillWait 0 32 1)
        else (s.readPage p q n).refill p q k
/-- The same for every queue with a chain. -/
def State.refillAll (s : State) : State :=
  s.forEach ((s.buf.queues.filter (fun (x : Nat × Queue) => !x.2.chain.isEmpty)).map (·.1)) (fun k s =>
    s.refill (k / 8) (k % 8) (s.q (k / 8) (k % 8)).chain.length)

/-- What follows the release of cells: the collection of frames, refills, spill states, the new head under R257, the carrel pool, and
flow control. -/
def State.released (s : State) (p q : Nat) : State :=
  (((((s.collect.refillAll).spillCheck p q).judge p q).collect).moveK).pfcCheckAll

/-- HEAD_AGE_EXPIRY: the head of a bulk queue passes its AGE_US and is dropped, its gate open or not, its port ready or
not (R234). -/
def execHeadAgeExpiry (p q : Nat) (s : State) : Host.Outcome State Fault Refusal :=
  let s := s.fresh
  atUnit p 83 s (if q < 5 then (s.cleanHead p q (s.q p q).copies.length).released p q else s)

/-! ### The choice of the next queue (R249, R250) -/

/-- The weight of a bulk queue; a weight of 0, which a write cannot give, counts as 1 (notes/assumptions/24.md). -/
def State.weight (s : State) (p q : Nat) : Nat := max 1 (s.f (Reg.schedDwrrW p) (8 * q) 8)

/-- The round-robin group's next queue (R250); k bounds the visits. -/
def State.roundRobin (s : State) (p : Nat) : Nat → State × Option Nat
  | 0 => (s, none)
  | k + 1 =>
    let x := s.side p
    let q := x.visit
    let next := if q = 0 then 4 else q - 1
    let el := s.eligible p q
    if !x.visiting && !el then (s.setSide p (fun y => { y with visit := next })).roundRobin p k
    else
      let d := x.deficit.getD q 0 + (if x.visiting then 0 else (s.weight p q * 256 : Nat))
      let len := match s.head p q with | some c => s.schedLen p c | none => 0
      if el && decide ((len : Int) ≤ d) then
        (s.setSide p (fun y => { y with visiting := true, deficit := y.deficit.set q (d - len) }), some q)
      else
        let d := if (s.q p q).copies.isEmpty then 0 else d
        (s.setSide p (fun y => { y with visiting := false, visit := next, deficit := y.deficit.set q d })).roundRobin p k

/-- The first eligible strict queue. -/
def State.strict (s : State) (p : Nat) : Option Nat := [7, 6, 5].find? (s.eligible p)

/-- A visit whose queue can send no more of its quantum ends (R250), an empty queue's deficit at 0. -/
def State.endVisit (s : State) (p : Nat) : State :=
  let x := s.side p
  let q := x.visit
  let goes := s.eligible p q && (match s.head p q with | some c => decide ((s.schedLen p c : Int) ≤ x.deficit.getD q 0) | none => false)
  if x.visiting && !goes then
    s.setSide p (fun y => { y with
      visiting := false, visit := (if q = 0 then 4 else q - 1)
      deficit := (if (s.q p q).copies.isEmpty then y.deficit.set q 0 else y.deficit) })
  else s

/-- The queue to start next, when the transmitter is free and no preempted frame goes first (R249). -/
def State.choose (s : State) (p : Nat) : State × Option Nat :=
  match s.strict p with
  | some q => (s, some q)
  | none => if [4, 3, 2, 1, 0].any (s.eligible p) then s.roundRobin p 700 else (s.endVisit p, none)

/-! ### Delivery to P80 (R200, R201) -/

/-- The descriptor of a copy (R200): its first three words; the fourth, internal, reads zero. -/
def descriptor (f : Frame) (c : Copy) (event : Bool) (len err : Nat) : List Byte :=
  let w0 := len * 2 ^ 50 + f.port * 2 ^ 43 + f.queue % 8 * 2 ^ 40 + err * 2 ^ 32 + f.csum * 2 ^ 28 + f.epoch % 2 * 2 ^ 27 +
    f.stamp.dom * 2 ^ 24 + f.stamp.time % 65536 * 2 ^ 8 + f.stamp.gen % 256
  let w1 := ns32Of f.stamp.time * 2 ^ 32 + f.len % 2 ^ 14 * 2 ^ 16 + bit c.mirror.isSome * 2 ^ 15 + bit c.sample.isSome * 2 ^ 14 +
    bit c.polDrop * 2 ^ 13 + bit c.frerElim * 2 ^ 12 + bit event * 2 ^ 11 + bit f.stream.isSome * 2 ^ 10 + bit f.hit.isSome * 2 ^ 9 +
    bit f.tagged * 2 ^ 8 + bit f.stale * 2 ^ 7
  let w2 := f.hit.getD 0 * 2 ^ 51 + f.pcp * 2 ^ 47 + f.dei * 2 ^ 46 + f.vid * 2 ^ 34 + f.stream.getD 0 * 2 ^ 20 +
    ((c.mirror <|> c.sample).getD 0) * 2 ^ 17 + f.seq.getD 0
  toLe 8 w0 ++ toLe 8 w1 ++ toLe 8 w2 ++ zeros 8

/-- A copy delivered to a P80 receive ring: the frame to its buffer, cut to the buffer's size, the descriptor and the phase
to its entry, then the ring's vector (R201). TRUNC says that less is delivered than was received (R158). `buf` is the buffer address
that the entry holds. -/
def State.deliverHost (s : State) (q : Nat) (f : Frame) (c : Copy) (bytes : List Byte) (buf : Nat) : State :=
  let n := s.f (Reg.p80RingDev q) 0 16
  let size := 2 ^ s.f (Reg.p80RingCtrl q) 0 4
  let room := 2 ^ s.f (Reg.p80RingCtrl q) 24 4
  let cut := decide (room < bytes.length)
  let s := if cut then s.count Reg.p80RxTrunc 0 32 1 else s
  let addr := s.get (Reg.p80RingBase q) / 4096 * 4096 + 64 * (n % size)
  let err := if cut || decide (c.len < f.len) then setBits f.err 1 1 1 else f.err
  let desc := descriptor f c ((s.parsed f.port f.data).event f.data) (min room bytes.length) err
  let s := ((s.emit (.dma buf (bytes.take room))).emit (.dma addr desc)).emit (.dma (addr + 63) (toLe 1 (phaseOf n size)))
  (s.setf (Reg.p80RingDev q) 0 16 (n + 1)).signal (9 + q) (s.modUs (9 + q))

/-- A sample that re-enters goes to P80 without lookup (R199). -/
def State.reenterSample (s : State) (q : Nat) (c : Copy) (d : List Byte) : State :=
  let g := { s.ownFrame 82 q d with carrel := false, len := d.length + 4 }
  let s := (s.storeFrame g).mirrorPort g 82
  let r := if s.portReady 80 then s.enqueue 80 q (cellsOf g.len) { Copy.of g g.len true with kind := 4, sample := c.sample } else (s, false)
  let s := r.1.collect
  match c.sample with
  | some m => if r.2 then s.count (Reg.mirrCnt m) 0 32 1 else s.count (Reg.mirrStatus m) 32 32 1
  | none => s
/-- A probe that re-enters goes to its slot's port and queue (R298). -/
def State.reenterProbe (s : State) (slot : Nat) (d : List Byte) : State :=
  let p := s.f (Reg.proofPathCfg (0x100 + slot)) 48 8
  let q := s.f (Reg.proofPathCfg (0x100 + slot)) 44 3
  let g := { s.ownFrame 82 q d with action := slot }
  let s := (s.storeFrame g).mirrorPort g 82
  (if s.portReady p then (s.enqueue p q (cellsOf g.len) { Copy.of g g.len (decide (q < 5)) with kind := 5 }).1
    else s.wrap (Reg.mcastDropLink p) 0 64 1).collect
/-- A frame that leaves on P82 re-enters as an arrival on P82 (R37): a sample, a probe, or any other frame, which is classified. -/
def State.reenter (s : State) (q : Nat) (f : Frame) (c : Copy) (bytes : List Byte) : State :=
  let d := bytes.take (bytes.length - 4)
  let s := s.epochDue.countGood 82 d bytes.length
  if c.kind = 3 then s.reenterSample q c d
  else if c.kind = 5 then s.reenterProbe f.action d
  else s.classify 82 d bytes.length 0 0 none

/-! ### Starts and departures -/

/-- The stamps that a copy's start keeps (R310): a TS_REQ copy's EGRESS record; a PTP message of an engine's own. -/
def State.startStamp (s : State) (p : Nat) (f : Frame) (c : Copy) : State :=
  let x := s.parsed f.port f.data
  let seq := if x.ptp then be16 f.data (x.ptpOff + 30) else 0
  let ty := if x.ptp then u8 f.data x.ptpOff % 16 else 0
  match c.ts with
  | some tag =>
    let host := (List.range 8).find? (fun i => x.ptp && s.f (Reg.ptpInstCfg (0x3F0 + i)) 62 2 == 2 &&
      s.f (Reg.ptpInstCfg (0x3F0 + i)) 40 8 == u8 f.data (x.ptpOff + 4))
    s.pushStamp p (s.stampRecord 1 (s.portStamp p (host.getD s.fwdDom)) p seq ty tag (s.staleTx p) false)
  | none =>
    if f.port = 81 && x.event f.data then
      s.pushStamp p (s.stampRecord 1 (s.portStamp p f.action) p seq ty 0 (s.staleTx p) true)
    else s

/-- Whether bytes end with their valid FCS. -/
def fcsValid (bytes : List Byte) : Bool := fcs (bytes.take (bytes.length - 4)) false == bytes.drop (bytes.length - 4)
/-- The counters of a copy that starts (R180): by its queue, and, of one with a valid FCS, by its octets and destination. -/
def State.countSent (s : State) (p q : Nat) (bytes : List Byte) (stomped valid padded : Bool) : State :=
  let s := if padded then s.stat p 0x29 1 else s
  let s := s.stat p (0x50 + q) 1
  if stomped then s.stat p 0x27 1 else if valid then s.sentGood p bytes else s

/-- A copy that started with a good FCS ends stomped instead: its counters as of a good frame are taken back (R160). -/
def State.recountStomped (s : State) (p : Nat) (bytes : List Byte) : State :=
  (((s.wrap (shelf 0x0E (0x100 + p) 0x27) 0 64 1).wrap (shelf 0x0E (0x100 + p) 0x20) 0 64 (2 ^ 64 - 1)).wrap (shelf 0x0E (0x100 + p) 0x21) 0 64
    (2 ^ 64 - bytes.length)).wrap (shelf 0x0E (0x100 + p) (0x22 + castOf (be48 bytes 0))) 0 64 (2 ^ 64 - 1)

/-- The largest sojourn of a queue since the last sample raised (R268): the step-free time of the sampling domain since the frame's
ingress stamp, in ns. -/
def State.sojourned (s : State) (p q : Nat) (f : Frame) : State :=
  let d := s.f Reg.qmonPeriod 32 3
  let ns := min ((s.runNow d - f.runs.getD d 0) / ns16) 0xFFFFFFFF
  s.setSide p (fun x => { x with sojourn := assocSet x.sojourn q (max ns ((assoc x.sojourn q).getD 0)) })

/-- Egress mirror copies of a copy that is sent (R197), by the sessions of the frame's own epoch (R206). -/
def State.mirrorSent (s : State) (p : Nat) (f : Frame) (len : Nat) : State :=
  s.forEach (s.mirrorsOut f.epoch p) (fun m s =>
    s.mirrorFrame (pairOf p) f m.1 m.2 (cellsOf len) p len (s.portStamp p s.fwdDom).time false false)

/-- The tokens that a shaped queue's frame takes (R253). -/
def State.debit (s : State) (p q : Nat) (c : Copy) : State :=
  if q < 5 && s.f (Reg.schedShaperQ p q) 32 32 != 0 then
    s.setSide p (fun x => { x with tokens := x.tokens.filter (fun y => y.1 != q) ++
      [(q, s.tokens p q - (s.schedLen p c * 10000000 : Nat), s.ticks)] })
  else s

/-- What a copy's first byte brings about, its bytes being those that leave: tokens, stamps, counters, the transmitter's state, and
the next head under R257. -/
def State.begin (s : State) (p q : Nat) (f : Frame) (c : Copy) (bytes : List Byte) (padded : Bool) : State :=
  let s := ((s.debit p q c).startStamp p f c).sojourned p q f
  let s := s.countSent p q bytes (c.stomped f p) (f.err == 0 || fcsValid bytes) padded
  let s := match c.mirror with | some m => s.count (Reg.mirrCnt m) 32 32 1 | none => s
  let s := if c.kind = 6 || c.kind = 8 then s.count Reg.proofReflectCnt 0 32 1 else s
  let s := s.setSide p (fun x => { x with
    sending := some ⟨q, c, bytes, s.portStamp p s.fwdDom, 0, 0, s.ticks⟩
    nextStart := (if p < 80 then x.nextStart else nextFree p x.nextStart s.ticks bytes.length) })
  (s.busy p).judge p q

/-- The head of a queue starts (R161, R249): too long a frame is dropped before its first byte; otherwise its bytes leave. An errored
frame reaches P80 as it was received (R159). -/
def State.start (s : State) (p q buf : Nat) : State :=
  match (s.q p q).copies with
  | [] => s
  | c :: rest =>
    match s.frame c.frame with
    | none => s
    | some f =>
      let b := s.copyBytes p f c
      let bytes := if f.err != 0 && p == 80 then f.data.take c.len else b.1 ++ fcs b.1 (c.stomped f p)
      let s := s.setQ p q { s.q p q with copies := rest }
      if s.f (Reg.macMaxFrame p) 0 14 < bytes.length then ((s.stat p 0x28 1).deadCopy p c).released p q
      else
        let s := (s.begin p q f c bytes b.2).mirrorSent p f c.len
        if p < 80 then s.emit (.frame p bytes)
        else if p = 80 then s.deliverHost q f c bytes buf
        else if p = 82 then s.reenter q f c bytes
        else s

/-- A port's queues once their heads are cleaned and judged; a frame that is eligible ends a transmit calibration step. -/
def State.egressReady (s : State) (p : Nat) : State :=
  let s := s.forEach (List.range 8) (fun q s => (s.cleanHead p q (s.q p q).copies.length).judge p q)
  let s := s.collect
  if (List.range 8).any (s.eligible p) then s.calYield p else s

/-! ### Preemption (R167, R168, R252, R256, R265) -/

/-- The bytes of a frame under way, or preempted, that its fragments do not yet hold. -/
def Sending.left (t : Sending) : Nat := t.bytes.length - t.sent
/-- The bytes that the present fragment has sent: a tick of 0.8 ns at R Mb/s carries R / 10,000 of them. -/
def State.progress (s : State) (p : Nat) (t : Sending) : Nat := (s.ticks - t.began) * s.rate p / 10000
/-- Whether a fragment may end after n of the bytes that are left: no shorter than the minimum, with at least 64 left (R167, R273). -/
def State.cutLegal (s : State) (p : Nat) (t : Sending) (n : Nat) : Bool :=
  decide (64 * (1 + s.f (Reg.macMergeCfg p) 8 2) ≤ n) && decide (n + 64 ≤ t.left)
/-- The frame under way is cut after n bytes of its present fragment, and waits (R180). -/
def State.cutAt (s : State) (p n : Nat) (t : Sending) : State :=
  let s := s.stat p 0x2B 1
  let s := if t.fragments = 0 then s.stat p 0x2A 1 else s
  s.setSide p (fun y => { y with sending := none, preempted := some { t with fragments := t.fragments + 1, sent := t.sent + n } })
/-- Whether and where the preemptable frame under way is cut now: for an eligible express frame, as soon as a fragment may end
(R252); when its gate has closed, at the last point that the fragment rules allow (R256, R265). -/
def State.cutPoint (s : State) (p : Nat) (t : Sending) : Option Nat :=
  let n := s.progress p t
  if t.queue < 5 && s.preempting p && (s.side p).preempted.isNone then
    if s.openLeft p t.queue = some 0 then (if s.cutLegal p t (min n (t.left - 64)) then some (min n (t.left - 64)) else none)
    else if (s.strict p).isSome && s.cutLegal p t n then some n else none
  else none
/-- A preempted frame resumes while its queue's gate lets the rest of it, or a fragment, through; flow control does not hold it
(R169, R249). -/
def State.resume (s : State) (p : Nat) (t : Sending) : State :=
  if s.portSends p && s.gateFits p t.queue (t.left + s.overhead p) then
    s.setSide p (fun y => { y with sending := some { t with began := s.ticks }, preempted := none })
  else s

/-- A free transmitter takes the head of the first eligible express queue, the preempted frame, or the head that the round robin
gives (R249). -/
def State.startNext (s : State) (p buf : Nat) : State :=
  match s.strict p with
  | some q => s.start p q buf
  | none =>
    match (s.side p).preempted with
    | some t => s.resume p t
    | none =>
      match (s.choose p).2 with
      | some q => (s.choose p).1.start p q buf
      | none => (s.choose p).1
/-- What a port does next (R249, R252, R256): a busy transmitter goes on unless the frame under way is cut. -/
def State.sendNext (s : State) (p buf : Nat) : State :=
  match (s.side p).sending with
  | some t => match s.cutPoint p t with | some n => (s.cutAt p n t).startNext p buf | none => s
  | none => s.startNext p buf

/-- EGRESS_FRAME_START (R249). `buf` is the buffer address in the P80 receive entry, when the port is P80. -/
def execEgressFrameStart (p buf : Nat) (s : State) : Host.Outcome State Fault Refusal :=
  atUnit p 83 s.fresh ((s.fresh.epochDue.egressReady p).sendNext p buf)

/-- COPY_DEPARTURE (R35): the copy under way on a port has left; its cells are released, and what follows from that. A visit of the
round robin that can send no more ends (R250). -/
def execCopyDeparture (p : Nat) (s : State) : Host.Outcome State Fault Refusal :=
  let s := s.fresh
  atUnit p 83 s (match (s.side p).sending with
    | none => s
    | some t =>
      let s := if 0 < t.fragments then s.stat p 0x2B 1 else s
      let s := ((s.setSide p (fun x => { x with sending := none })).busy p).released p t.queue
      if (s.strict p).isNone then s.endVisit p else s)

end Sys2Proof.Machine
end

