-- ==== Sys2Proof/Machine/Stacks.lean ====
section
/-! DEFINITION. The stacks and the inventory audit (R217, R227-R229, R235-R247). A page number is the spill manager's own
choice and an operand; the channels alternate (R240). The order in which page requests of different queues are served is timing
(R239): the commands that end them give it. -/
namespace Sys2Proof.Machine

/-! ### Channels leaving service (R242, R243) -/

/-- Every chain page that lies in a lost channel, or, with no channel left in service, every page, is lost; queues that
spilled with no channel left go on with their tails. The result counts the frames lost. -/
def State.loseChannel (s : State) (c : Nat) : State × Nat :=
  let none_ := s.channel 0 != 2 && s.channel 1 != 2
  let r := (s.buf.queues.map (·.1)).foldl (fun (a : State × Nat) k =>
    let x := a.1.q (k / 8) (k % 8)
    if x.chain.any (fun g => g.ch == c || none_) then
      let r := a.1.losePages (k / 8) (k % 8) (fun g => g.ch == c || none_)
      (r.1, a.2 + r.2)
    else a) (s, 0)
  if none_ then
    (r.1.forEach (r.1.buf.queues.map (·.1)) (fun k s => if (s.q (k / 8) (k % 8)).state != 0 then s.mergeTail (k / 8) (k % 8) else s), r.2)
  else r

/-- A channel leaves IN_SERVICE for a state (0 OFF, 3 OUT_OF_SERVICE) with a cause: its pages' frames are dropped and
STACK_CHANNEL is raised. A channel not in service only takes the state. -/
def State.channelLeave (s : State) (c st cause : Nat) : State :=
  let was := s.channel c
  let s := (s.setf (Reg.stackChStatus (1 + c)) 0 4 st).setf (Reg.stackChStatus (1 + c)) 8 8 cause
  if was = 2 then
    let r := s.loseChannel c
    ((r.1.raise 0x502 (toLe 1 c ++ toLe 1 st ++ toLe 1 cause ++ [0] ++ toLe 4 r.2)).moveK.pfcCheckAll).refresh
  else s.refresh

/-- STACK_CH_RETIRED_N, and a channel whose list is full leaves service (R242). -/
def State.retiredCheck (s : State) (c : Nat) : State :=
  let n := (s.retiredList c).length
  let s := s.set (Reg.stackChRetiredN (1 + c)) n
  if 4096 ≤ n && s.channel c == 2 then s.channelLeave c 3 4 else s

/-- A page entered in its channel's retirement list with a cause, and STACK_PAGE_RETIRED with the frames it lost. -/
def State.retirePage (s : State) (c n cause lost : Nat) : State :=
  let s := match (List.range 4096).find? (fun i => !s.b (retiredKey c i) 63) with
    | some i => s.set (retiredKey c i) (2 ^ 63 + cause * 2 ^ 56 + n % 2 ^ 23)
    | none => s
  (s.raise 0x501 (toLe 1 c ++ toLe 1 cause ++ zeros 2 ++ toLe 4 n ++ toLe 4 lost)).retiredCheck c

/-! ### Packing and writing (R227, R240, R241) -/

/-- Whether the oldest cell of a tail's partial page has waited PACK_US; 1 µs is 1,250 ticks. -/
def State.packDue (s : State) (p q : Nat) : Bool :=
  match (s.q p q).loose with
  | [] => false
  | c :: _ => decide (c.joined + s.f Reg.stackCfg 8 8 * 1250 ≤ s.ticks)

/-- PAGE_PACK_TIMER: the oldest cell of a tail's partial page has waited PACK_US, and the page is written with its unused
cells empty. -/
def execPagePackTimer (p q : Nat) (s : State) : Host.Outcome State Fault Refusal :=
  let s := s.fresh
  atUnit p 83 s (if (s.q p q).state == 1 && s.maySpill p q && s.packDue p q then s.packPage p q else s)

/-- Whether a channel has a page to give: IN_SERVICE, enabled for new pages by CH_EN, and with a page neither held nor retired. -/
def State.hasPage (s : State) (c : Nat) : Bool :=
  let gone := ((s.pagesHeld c ++ s.retiredList c).filter (fun n => decide (n < s.channelPages c))).eraseDups
  s.channelUp c && s.b Reg.stackCfg c && decide (gone.length < s.channelPages c)
/-- The channel that the next page comes from: alternately when both have one. -/
def State.nextChannel (s : State) : Option Nat :=
  let a := s.hasPage 0
  let b := s.hasPage 1
  if a && b then some (1 - s.buf.lastChannel) else if a then some 0 else if b then some 1 else none

/-- A page written without error: its copies hold its cells in the chain, and their on-chip cells are released (R229). -/
def State.pageWritten (s : State) (p q ch page : Nat) : State :=
  let x := s.q p q
  match x.writing with
  | [] => s
  | g :: rest =>
    let move := fun (c : Copy) => match g.parts.find? (fun y => y.1 == c.serial) with
      | some (_, k) =>
        let d := { c with pages := c.pages + k, writing := c.writing - k, on := c.on - k }
        if d.pages = d.cells then { d with seg := 2 } else d
      | none => c
    let s := s.setQ p q { x with copies := x.copies.map move, writing := rest, chain := x.chain ++ [{ g with ch := ch, num := page }] }
    s.released p q

/-- PAGE_WRITE_DONE: the oldest page write of a queue ends on a free page of the channel whose turn it is. A write that failed
CRC three times retires that page and is made again on another. -/
def execPageWriteDone (p q page : Nat) (failed : Bool) (s : State) : Host.Outcome State Fault Refusal :=
  let s := s.fresh
  atUnit p 83 s (
    if s.spillUp && !(s.q p q).writing.isEmpty then
      match s.nextChannel with
      | none => s
      | some c =>
        if s.pageFree c page then
          let s := { s with buf := { s.buf with lastChannel := c } }.occurs 0x0D c 1
          if failed then s.retirePage c page 1 0 else s.pageWritten p q c page
        else s
    else s)

/-! ### Refilling (R228, R235, R241) -/

/-- The oldest page read of a queue ends in the cells issued for it. -/
def State.pageRead (s : State) (p q : Nat) (g : Page) (rest : List Page) : State :=
  let x := s.q p q
  let fill := fun (a : List Copy × List Nat) (c : Copy) => match g.parts.find? (fun y => y.1 == c.serial) with
    | some (_, k) =>
      let d := { c with pages := c.pages - k, on := c.on + k, refill := c.refill ++ a.2.take k }
      (a.1 ++ [if d.on = d.cells then { d with seg := 0 } else d], a.2.drop k)
    | none => (a.1 ++ [c], a.2)
  s.setQ p q { x with copies := (x.copies.foldl fill ([], g.cells)).1, chain := rest, reads := x.reads - 1 }

/-- Uncorrectable reads of a channel within the last second, this one included; more than UE_LIMIT of them put it out of
service (R242). 1 s is 1,250,000,000 ticks. -/
def State.uncorrectable (s : State) (c : Nat) : State :=
  let recent := s.ticks :: ((assoc s.buf.ueTicks c).getD []).filter (fun t => decide (s.ticks < t + 1250000000))
  let s := { s with buf := { s.buf with ueTicks := assocSet s.buf.ueTicks c recent } }
  let s := s.count (Reg.stackChEcc (1 + c)) 32 32 1
  if s.f Reg.stackCfg 16 8 < recent.length then s.channelLeave c 3 3 else s

/-- PAGE_READ_DONE: the oldest page read of a queue ends; corrected errors are counted, and an uncorrectable error that repeats
drops every frame with a cell in the page and retires it (R241). -/
def execPageReadDone (p q corrected : Nat) (bad : Bool) (s : State) : Host.Outcome State Fault Refusal :=
  let s := s.fresh
  atUnit p 83 s (
    let x := s.q p q
    match x.chain with
    | [] => s
    | g :: rest =>
      if s.spillUp && s.channelUp g.ch && x.reads != 0 then
        let s := (s.count (Reg.stackChEcc (1 + g.ch)) 0 32 corrected).occurs 0x0C g.ch 1
        if bad then
          let l := serialsIn [g]
          let n := (x.copies.filter (fun c => l.contains c.serial)).length
          let s := (s.setQ p q { x with chain := rest, reads := x.reads - 1 }).dropSerials p q l
          ((s.retirePage g.ch g.num 2 n).uncorrectable g.ch).released p q
        else (s.pageRead p q g rest).released p q
      else s)

/-- STACK_CHAIN_ABANDONED: the background sweep has freed the pages of an abandoned remainder (R243). -/
def execStackChainAbandoned (s : State) : Host.Outcome State Fault Refusal :=
  let s := s.fresh
  .next (match s.buf.abandoned with
    | [] => s
    | (k, n, _) :: rest =>
      ({ s with buf := { s.buf with abandoned := rest } }).raise 0x503 (toLe 1 (k / 8) ++ toLe 1 (k % 8) ++ zeros 2 ++ toLe 4 n))

/-! ### Training (R236, R238) -/

/-- DDR_TRAINING_DONE: a channel's training ends with its results; step is the failing step, 0 for success. A channel whose
organisation differs from that of one in service fails; one whose retirement list is full leaves service at once (R242). -/
def execDdrTrainingDone (c step readEye writeEye vref : Nat) (s : State) : Host.Outcome State Fault Refusal :=
  let s := s.fresh
  atUnit c 2 s (
    if s.on (8 + c) && s.islandUp (12 + c) && s.channel c == 1 then
      let org := s.f (Reg.stackChOrg (1 + c)) 0 8
      let s := s.set (Reg.stackChTrain (1 + c)) (min readEye 255 * 2 ^ 24 + min writeEye 255 * 2 ^ 16 + min vref 255 * 2 ^ 8 + min step 6)
      let other := s.channel (1 - c) == 2 && assoc s.buf.trainedOrg (1 - c) != some org
      let put := fun (st cause : Nat) => (s.setf (Reg.stackChStatus (1 + c)) 0 4 st).setf (Reg.stackChStatus (1 + c)) 8 8 cause
      if step != 0 then (put 3 1).refresh
      else if other then (put 3 2).refresh
      else
        let s := put 2 0
        (({ s with buf := { s.buf with trainedOrg := assocSet s.buf.trainedOrg c org } }).retiredCheck c).refresh
    else s)

/-- DQS_DRIFT_TRACK: the controller follows DQS drift and the temperature report; no parameter shows it (R238). -/
def execDqsDriftTrack (c : Nat) (s : State) : Host.Outcome State Fault Refusal :=
  atUnit c 2 s.fresh s.fresh

/-- Clearing a bit of CH_EN takes its channel out of service (R243). -/
def State.chEnCleared (s : State) (old : Nat) : State :=
  s.forEach [0, 1] (fun c s => if old.testBit c && !s.b Reg.stackCfg c && s.channel c == 2 then s.channelLeave c 3 6 else s)

/-! ### Memory faults and the audit (R217, R244-R247) -/

/-- A frame dropped inside the device: its copies that have not started go, counted against its ingress port. -/
def State.dropFrame (s : State) (id : Nat) : State :=
  match s.frame id with
  | none => s
  | some f =>
    let s := s.stat f.port 0x47 1
    let keys := (s.buf.queues.filter (fun x => x.2.copies.any (fun c => c.frame == id))).map (·.1)
    let s := s.forEach keys (fun k s => s.removeCopies (k / 8) (k % 8) (fun c => c.frame == id))
    (s.forEach keys (fun k s => s.spillCheck (k / 8) (k % 8))).moveK.pfcCheckAll

/-- A copy under way is lost with what carries it. -/
def State.cutUnderway (s : State) (p : Nat) (test : Sending → Bool) : State :=
  let t := (s.side p).underway.filter test
  let keep := fun (t : Sending) => !test t
  let s := s.setSide p (fun x => { x with sending := x.sending.filter keep, preempted := x.preempted.filter keep })
  s.forEach t (fun t s => s.deadCopy p t.copy)
/-- Frames whose cells are lost (R52, R121): dropped whole, copies under way included, each counted once as an internal drop against
its ingress port. -/
def State.cutFrames (s : State) (ids : List Nat) : State :=
  s.forEach ids (fun id s =>
    let s := s.forEach (s.ports.map (·.1)) (fun p s => s.cutUnderway p (fun t => t.copy.frame == id))
    s.dropFrame id)
/-- The copies under way on a list of ports are dropped inside the device, each frame counted once (R52, R121). -/
def State.internalDrops (s : State) (ps : List Nat) : State :=
  let ids := (ps.flatMap (fun p => (s.side p).underway.map (fun t => t.copy.frame))).eraseDups
  let s := s.forEach (ids.filterMap s.frame) (fun f s => s.stat f.port 0x47 1)
  (s.forEach ps (fun p s => s.cutUnderway p (fun _ => true))).collect
/-- Whether a cell lies in the upper half of the buffer. -/
def upperCell (c : Nat) : Bool := decide (131072 ≤ c)
/-- The frames with a cell in the upper half, read in from the stacks or not. -/
def State.upperFrames (s : State) : List Nat :=
  let refilled := (s.allCopies.filter (fun c => c.2.2.refill.any upperCell)).map (fun c => c.2.2.frame)
  ((s.buf.frames.filter (fun f => (s.frameCells f).any upperCell)).map (·.id) ++ refilled).eraseDups
/-- Page reads into upper cells, and those after them, begin anew. -/
def Queue.readsBack (x : Queue) : Queue :=
  let n := min x.reads (x.chain.takeWhile (fun g => !g.cells.any upperCell)).length
  { x with chain := x.chain.take n ++ (x.chain.drop n).map (fun g => { g with cells := [] }), reads := n }
/-- The upper half of the buffer is lost: what lies in it is dropped, and none of its cells stays issued or out of service. -/
def State.cutUpper (s : State) : State :=
  let s := s.cutFrames s.upperFrames
  let s := s.forEach ((s.buf.queues.filter (fun x => x.2.chain.any (fun g => g.cells.any upperCell))).map (·.1)) (fun k s =>
    s.setQ (k / 8) (k % 8) (s.q (k / 8) (k % 8)).readsBack)
  let low := fun (c : Nat) => !upperCell c
  ({ s with buf := { s.buf with
    desk := s.buf.desk.filter (fun (x : Nat × Nat) => low x.1), strayed := s.buf.strayed.filter low
    crossed := s.buf.crossed.filter low, missed := s.buf.missed.filter (fun (x : Nat × Nat) => low x.1)
    held := s.buf.held.filter low, testHeld := s.buf.testHeld.filter low } }).refillAll

/-- The cells that an uncorrectable error leaves wrong at the desk: of a queue or descriptor memory, cells of the frame it drops
that stay issued without a reference; of a free-list memory, free cells that no list holds any more, and issued ones that one
does. -/
def State.faultCells (s : State) (mem : Nat) (frame : Option Nat) (cells : List Nat) : State :=
  let here := (cells.filter (fun c => decide (c < s.cellsPresent))).eraseDups
  if mem = 2 then
    let off := s.offLists
    { s with buf := { s.buf with
      strayed := s.buf.strayed ++ here.filter (fun c => !off.contains c)
      crossed := s.buf.crossed ++ here.filter (fun c => (s.cellTag c).isSome && off.contains c && !s.buf.held.contains c) } }
  else
    let own := ((frame.bind s.frame).map s.frameCells).getD []
    { s with buf := { s.buf with missed := (here.filter (fun c => own.contains c)).foldl (fun l c => assocSet l c 0) s.buf.missed } }

/-- BUF_MEM_FAULT: an error of a queue (0), descriptor (1) or free-list (2) memory. A corrected one is counted; an
uncorrectable one drops the frame it affects, and may leave cells without a reference (R217). -/
def execBufMemFault (mem : Nat) (corrected : Bool) (frame : Option Nat) (cells : List Nat) (s : State) :
    Host.Outcome State Fault Refusal :=
  let s := s.fresh
  atUnit mem 3 s (
    if corrected then s.count Reg.bufMemErr 0 32 1
    else
      let port := (frame.bind s.frame).elim 0xFF (·.port)
      let s := (s.count Reg.bufMemErr 32 32 1).raise 0x507 (toLe 1 mem ++ toLe 1 port)
      let s := s.faultCells mem frame cells
      match frame with | some id => s.dropFrame id | none => s)

/-- AUDIT_FINDING, at most once in 1 s with the count since the last (R245). -/
def State.finding (s : State) (kind action cell : Nat) : State :=
  let n := s.buf.findings + 1
  let due := match s.buf.findTick with | none => true | some t => decide (t + 1250000000 ≤ s.ticks)
  let s := s.set Reg.auditLast (kind * 2 ^ 20 + cell % 2 ^ 18)
  let s := if kind = 1 then s else s.mark 3
  let s := { s with health := { s.health with
    leaks := s.health.leaks + bit (kind = 1), crosslinks := s.health.crosslinks + bit (kind = 2)
    countErrors := s.health.countErrors + bit (kind = 3) } }
  let s := { s with buf := { s.buf with findings := (if due then 0 else n), findTick := (if due then some s.ticks else s.buf.findTick) } }
  if due then s.raise 0x504 (toLe 1 kind ++ toLe 1 action ++ zeros 2 ++ toLe 4 cell ++ toLe 4 n) else s

/-- One carrel cell that a pass has not marked: a leak at its second pass running, reclaimed when RECLAIM is 1 (R245). -/
def State.auditLeak (s : State) (c : Nat) : State :=
  let n := (assoc s.buf.missed c).getD 0
  let set := fun (l : List (Nat × Nat)) => { s with buf := { s.buf with missed := l } }
  if n = 1 then
    let s := (set (assocSet s.buf.missed c 2)).count Reg.auditLeaks 0 32 1
    if s.b Reg.auditCfg 1 then
      let s := { s with buf := { s.buf with missed := assocDel s.buf.missed c, desk := s.buf.desk.filter (fun x => x.1 != c) } }
      (s.count Reg.auditLeaks 32 32 1).finding 1 1 c
    else s.finding 1 0 c
  else if n = 0 then set (assocSet s.buf.missed c 1) else s

/-- A copy under way of a frame ends with a stomped FCS in place of the one it started with, and is counted so (R160, R246). -/
def State.stompSending (s : State) (id : Nat) : State :=
  s.forEach ((s.ports.filter (fun (x : Nat × PortSide) => x.2.underway.any (fun t => t.copy.frame == id))).map (·.1)) (fun p s =>
    let hit := (s.side p).underway.filter (fun t => t.copy.frame == id)
    let fix := fun (t : Sending) => if t.copy.frame == id then
      { t with bytes := (t.bytes.take (t.bytes.length - 4)) ++ fcs (t.bytes.take (t.bytes.length - 4)) true } else t
    let s := s.setSide p (fun x => { x with sending := x.sending.map fix, preempted := x.preempted.map fix })
    s.forEach hit (fun t s => (s.emit (.stomp p)).recountStomped p t.bytes))

/-- One crosslink (R246): the cell leaves its free list and is held out of service, and the frames that refer to it are dropped
before their next copies. -/
def State.auditCross (s : State) (cell : Nat) : State :=
  let frames := (s.buf.frames.filter (fun f => (s.frameCells f).contains cell)).map (·.id)
  let s := { s with buf := { s.buf with crossed := s.buf.crossed.filter (· != cell), held := s.buf.held ++ [cell] } }
  let s := s.forEach frames (fun f s => (s.stompSending f).dropFrame f)
  (s.count Reg.auditCrosslinks 0 32 1).finding 2 2 cell

/-- Whether a frame holds a CARREL-tagged cell. -/
def State.holdsCarrel (s : State) (f : Frame) : Bool := (s.frameCells f).any (fun c => s.cellTag c == some 2)
/-- The cells that a pass marks (R244): those of every resident frame that holds CARREL-tagged cells. -/
def State.auditMarks (s : State) : List Nat := (s.buf.frames.filter s.holdsCarrel).flatMap s.frameCells
/-- The halves, 0 of PD6 and 1 of PD7, whose free and issued cells do not add up to C: a cell on no free list and not issued
counts once too few, and one that is both once too many. -/
def State.auditMismatches (s : State) : List Nat :=
  [0, 1].filter (fun h => (s.buf.strayed.filter (fun c => c / 131072 == h)).length != (s.buf.crossed.filter (fun c => c / 131072 == h)).length)

/-- Upsets of the free-list memory that no check has seen: issued cells that stand on a free list as well, and free cells that
stand on none. -/
def State.upset (s : State) (crosslinks strayed : List Nat) : State :=
  (s.faultCells 2 none (crosslinks.filter (fun c => (s.cellTag c).isSome))).faultCells 2 none
    (strayed.filter (fun c => (s.cellTag c).isNone))
/-- AUDIT_PASS (R244-R247): one pass, begun PERIOD_US or more after the last, over the cells as they stand; `crosslinks` and
`strayed` are the upsets since then that no check has seen. The pass is one command, so that AUDIT_STATUS.RUNNING is never seen. -/
def execAuditPass (crosslinks strayed : List Nat) (s : State) : Host.Outcome State Fault Refusal :=
  let s := s.fresh
  let due := match s.buf.auditTick with | none => true | some t => decide (t + s.f Reg.auditCfg 12 20 * 1250 ≤ s.ticks)
  .next (if s.b Reg.auditCfg 0 && s.spillUp && due then
    let s := s.upset crosslinks strayed
    let s := { s with buf := { s.buf with auditTick := some s.ticks } }
    let marks := s.auditMarks
    let unmarked := (s.buf.desk.filter (fun x => x.2 == 2 && !marks.contains x.1)).map (·.1)
    let s := s.forEach unmarked (fun c s => s.auditLeak c)
    let s := s.forEach (s.buf.crossed.filter (fun c => marks.contains c)) (fun c s => s.auditCross c)
    let s := s.forEach s.auditMismatches (fun _ s => (s.count Reg.auditCountErr 0 32 1).finding 3 0 0)
    s.wrap Reg.auditStatus 32 32 1
  else s)

end Sys2Proof.Machine
end

