-- ==== Sys2Proof/Machine/Ports.lean ====
section
/-! DEFINITION. Ports (chapter 05): type changes, links, timing marks (R143, R145), flow control received and the pause
watchdog, low-power idle, merge verification, speed steps, the power plan (R123) and statistics snapshots. -/
namespace Sys2Proof.Machine

/-! ### Lanes of a port starting and stopping (R128, R140, R155) -/

/-- The lane mode word of a type code (R126, R128). -/
def modeWord (code : Nat) : Nat :=
  match typeRow code with
  | some t => t.rate + t.pam4 * 16 + t.align * 256 + t.fec * 4096
  | none => 0

/-- The lanes of a port start: mode, receive state NO_SIGNAL, calibration UNCAL, transmitter start. -/
def State.startLanes (s : State) (p : Nat) : State :=
  s.forEach (s.portLanes p) (fun l s =>
    let s := ((s.set (laneKey l 0) (modeWord (s.codeInUse p))).setRx l 1).setf (laneKey l 5) 11 1 0
    (s.laneUncal l (s.codeInUse p)).txStart l)

/-- The lanes of a port stop; those LOCKED lose lock with cause 4. -/
def State.stopLanes (s : State) (p : Nat) : State :=
  s.forEach (s.portLanes p) (fun l s => (((s.laneLose l 4 0).setRx l 0).setTx l 0).set (laneKey l 0) 0)

/-! ### Links (R118, R181) -/

/-- The link of a port goes down, with PORT_LINK and its cause; the port is no longer ready and its queues drop (R118, R192). -/
def State.linkDown (s : State) (p cause : Nat) : State :=
  let s := if s.b (Reg.macLinkStatus p) 8 then
      ((s.setf (Reg.macLinkStatus p) 8 1 0).stat p 0x46 1).raise 0x300 (toLe 1 p ++ [0] ++ toLe 1 cause ++ toLe 1 (s.codeInUse p))
    else s
  s.portRecheck p

/-- PORT_LINK_DOWN (R118): the port stops being ready and its queued copies are dropped. -/
def execPortLinkDown (p cause : Nat) (s : State) : Host.Outcome State Fault Refusal :=
  let s := s.fresh
  atUnit p 80 s (s.linkDown p (min cause 4))

/-! ### Merge verification (R167) -/

/-- The verification state changes, with MERGE_STATUS. -/
def State.mergeSet (s : State) (p st : Nat) : State :=
  if s.f (Reg.macMergeStatus p) 0 4 = st then s else (s.setf (Reg.macMergeStatus p) 0 4 st).raise 0x304 (toLe 1 p ++ toLe 1 st)

/-- The state that a link-up, or a change of MAC_MERGE_CFG, gives. -/
def State.mergeInit (s : State) (p : Nat) : State :=
  let st := if !s.b (Reg.macMergeCfg p) 0 then 0 else if s.b (Reg.macMergeCfg p) 1 then 5 else 1
  (s.setSide p (fun x => { x with mergeTries := 0 })).mergeSet p st

/-- MERGE_VERIFY_TIMER: verification begins with a Verify mPacket, succeeds when the verify interval brought the partner's Respond,
and after another Verify for each VERIFY_TIME_MS without one fails with the VERIFY_LIMITth. -/
def execMergeVerifyTimer (p : Nat) (answered : Bool) (s : State) : Host.Outcome State Fault Refusal :=
  let s := s.fresh
  let st := s.f (Reg.macMergeStatus p) 0 4
  let n := (s.side p).mergeTries
  atUnit p 80 s (
    if !s.b (Reg.macLinkStatus p) 8 then s
    else if st = 1 then ((s.setSide p (fun x => { x with mergeTries := 1, mergeAt := s.ticks })).mergeSet p 2).emit (.mpacket p false)
    else if st = 2 then
      if answered then s.mergeSet p 3
      else if s.ticks < (s.side p).mergeAt + s.f (Reg.macMergeCfg p) 16 8 * 1250000 then s
      else if s.f (Reg.macMergeCfg p) 24 4 ≤ n then s.mergeSet p 4
      else (s.setSide p (fun x => { x with mergeTries := n + 1, mergeAt := s.ticks })).emit (.mpacket p false)
    else s)

/-- PORT_LINK_UP (R118, R167): the PCS aligns with every lane LOCKED. A speed step under way ends. -/
def execPortLinkUp (p cause : Nat) (s : State) : Host.Outcome State Fault Refusal :=
  let s := s.fresh
  atUnit p 80 s (
    if s.portType p != 0 && (s.portLanes p).all (fun l => s.rxState l == 4) && !s.b (Reg.macLinkStatus p) 8 && s.on (portPd p) &&
        s.islandUp (portIsland p) then
      let s := s.setf (Reg.macLinkStatus p) 8 1 1
      let s := if s.f (Reg.macStepStatus p) 4 4 = 3 then
          (s.setf (Reg.macStepStatus p) 4 4 (bit (s.codeInUse p != s.portType p))).setSide p (fun x => { x with stepEnd := some s.ticks })
        else s
      let s := s.raise 0x300 (toLe 1 p ++ [1] ++ toLe 1 (min cause 4) ++ toLe 1 (s.codeInUse p))
      (s.mergeInit p).portRefresh p
    else s)

/-! ### Type changes (R128, R154, R155) -/

/-- Whether a port number lies inside the lane group of a configured multi-lane port of another number (R153). -/
def State.insideGroup (s : State) (p : Nat) : Bool :=
  match s.portOfLane (lowestLane p) with | some o => o != p | none => false
/-- Whether a port has a timing direction (R143). -/
def State.portTiming (s : State) (p : Nat) : Bool := s.rxTiming (lowestLane p) || s.txTiming (lowestLane p)
/-- Whether MAC_PORT_TYPE takes a code: allowed there, no port inside its group, and no timing direction (R128, R153, R154). -/
def State.typeOk (s : State) (p code : Nat) : Bool :=
  typeAllowed p code && (code == 0 || !s.insideGroup p) && !s.portTiming p &&
    ((lanesOfType p code).drop 1).all (fun l => s.portType (portAt l) == 0)

/-- A port's type changed (R155): down at once, lanes restarted, link INVALID, deficits cleared (R250), pools recounted. -/
def State.typeWritten (s : State) (p code : Nat) : State :=
  let s := s.stopLanes p
  let s := (s.linkInvalid p 2).linkDown p 2
  let s := (s.setf (Reg.macPortType p) 0 8 code).set (Reg.macLinkStatus p) code
  let s := s.setf (Reg.macStepStatus p) 0 8 (code % 16)
  let s := s.setSide p (fun x => { x with
    stepCode := 0xFF, stepSent := false, stepHeard := false, deficit := [0, 0, 0, 0, 0], visit := 4, visiting := false })
  let s := (s.set (Reg.pcsLinkRxDelay p) 0).set (Reg.pcsLinkTxDelay p) 0
  let s := if s.on (portPd p) then (s.startLanes p).linkFix p else s
  (s.portRefresh p).poolCheck

/-! ### Flow control received and sent (R169-R171) -/

/-- PFC_XOFF_REFRESH: half of the quanta time after its last, XOFF is repeated for those of the named priorities whose count stays above
XON (R170). -/
def execPfcXoffRefresh (p pri : Nat) (s : State) : Host.Outcome State Fault Refusal :=
  let s := s.fresh
  atUnit p 80 s (
    let half := s.quantaTicks p (s.f (Reg.pfcQuanta p) 0 16) / 2
    let due := fun (k : Nat) => match assoc (s.side p).xoffAt k with | some t => decide (t + half ≤ s.ticks) | none => true
    let l := (bitsSet pri 7).filter (fun k => s.b (Reg.pauseStatus p) (8 + k) && due k &&
      decide (s.f (Reg.pfcWmP p k) 0 18 < s.pfcCells p k))
    if l.isEmpty then s else s.sendPfc p l [])

/-- The counters of a MAC Control frame as received: 64 octets, good, multicast. -/
def State.controlCounted (s : State) (p : Nat) : State :=
  (((s.stat p 0 1).stat p 1 64).stat p 3 1).stat p 0x10 1

/-- Whether a port takes MAC Control frames (R118): it receives. -/
def State.receives (s : State) (p : Nat) : Bool :=
  s.hears p

/-- PAUSE_FRAME_RECEIVE (R169): a PAUSE frame with its quanta. -/
def execPauseFrameReceive (p quanta : Nat) (s : State) : Host.Outcome State Fault Refusal :=
  let s := s.fresh
  atUnit p 80 s (if s.receives p then (s.controlCounted p).pauseReceived p quanta else s)

/-- PFC_FRAME_RECEIVE (R169): a PFC frame with its enable vector and quanta. -/
def execPfcFrameReceive (p enable : Nat) (quanta : List Nat) (s : State) : Host.Outcome State Fault Refusal :=
  let s := s.fresh
  atUnit p 80 s (if s.receives p then (s.controlCounted p).pfcReceived p enable quanta else s)

/-- The stopped queues of a mask, or the transmitter (0xFF, named 8), whose stop meets a test of its start and its end (R169, R171). -/
def State.stopsOf (s : State) (p queues : Nat) (test : Nat × Nat → Bool) : List Nat :=
  (if queues = 0xFF then [8] else bitsSet queues 7).filter (fun k => s.b (Reg.pauseStatus p) (if k = 8 then 16 else k) &&
    (match assoc (s.side p).stops k with | some t => test t | none => true))
/-- Stops ended. -/
def State.endStops (s : State) (p : Nat) (l : List Nat) : State :=
  s.forEach l (fun k s => s.setf (Reg.pauseStatus p) (if k = 8 then 16 else k) 1 0)

/-- PAUSE_QUANTA_EXPIRY (R169): the quanta of link-wide PAUSE (0xFF) or of the named queues run out. -/
def execPauseQuantaExpiry (p queues : Nat) (s : State) : Host.Outcome State Fault Refusal :=
  let s := s.fresh
  atUnit p 80 s (s.endStops p (s.stopsOf p queues (fun t => decide (t.2 ≤ s.ticks))))

/-- What a watchdog trip does once it has released what is stopped (R171): the pauses of mask m are ignored from now. -/
def State.watchdogTrip (s : State) (p m ev : Nat) : State :=
  (((s.setSide p (fun x => { x with
    ignoring := x.ignoring ||| m, ignores := (bitsSet m 9).foldl (fun l k => assocSet l k s.ticks) x.ignores })).setf (Reg.pauseStatus p) 17 1 1).stat p 0x40 1).raise 0x301
    (toLe 1 p ++ [0] ++ toLe 1 ev)
/-- PAUSE_WATCHDOG_TRIP (R171): a stop of the transmitter (0xFF) or of the named queues has lasted longer than PAUSE_WD_MS. -/
def execPauseWatchdogTrip (p queues : Nat) (s : State) : Host.Outcome State Fault Refusal :=
  let s := s.fresh
  atUnit p 80 s (
    let l := s.stopsOf p queues (fun t => decide (t.1 + s.f (Reg.pauseWd p) 0 16 * 1250000 < s.ticks))
    if l.isEmpty then s else (s.endStops p l).watchdogTrip p (maskOf l) (if queues = 0xFF then 0xFF else maskOf l))

/-- PAUSE_IGNORE_END (R171): PAUSE_IGNORE_MS ends; pause is honoured again. -/
def execPauseIgnoreEnd (p queues : Nat) (s : State) : Host.Outcome State Fault Refusal :=
  let s := s.fresh
  atUnit p 80 s (
    let old := (s.side p).ignoring
    let ended := fun (k : Nat) => match assoc (s.side p).ignores k with
      | some t => decide (t + s.f (Reg.pauseWd p) 16 16 * 1250000 ≤ s.ticks) | none => true
    let m := maskOf ((if queues = 0xFF then [8] else bitsSet queues 7).filter (fun k => old.testBit k && ended k))
    if m = 0 then s
    else
      let left := maskOf ((bitsSet old 9).filter (fun k => !m.testBit k))
      ((s.setSide p (fun x => { x with ignoring := left })).setf (Reg.pauseStatus p) 17 1 (bit (left != 0))).raise 0x301
        (toLe 1 p ++ [1] ++ toLe 1 (if m = 0x100 then 0xFF else m)))

/-! ### Low-power idle (R124, R144-R148, R173) -/

/-- Whether all queues of a port are empty and nothing is under way. -/
def State.portIdle (s : State) (p : Nat) : Bool :=
  (List.range 8).all (fun q => (s.q p q).copies.isEmpty) && (s.side p).underway.isEmpty

/-- LPI_ENTRY: the transmit direction sleeps once its queues have been empty for MAC_LPI_IDLE_US (1 µs is 1,250 ticks), while the
plan permits it, it is not timing, and the partner's LLDP advertises LPI receive support. -/
def execLpiEntry (p : Nat) (advertised : Bool) (s : State) : Host.Outcome State Fault Refusal :=
  let s := s.fresh
  let l := lowestLane p
  atUnit p 80 s (
    if lpiType (s.codeInUse p) && s.b (Reg.pwrPlanP p) 0 && !s.txTiming l && advertised && s.portReady p && s.portIdle p &&
        decide ((s.side p).lastBusy + s.f (Reg.macLpiIdleUs p) 0 20 * 1250 ≤ s.ticks) && s.txState l == 2 then
      let s := s.setSide p (fun x => { x with sleptTx := s.ticks })
      (((s.setTx l 3).count (laneKey l 0x0C) 0 32 1).setf (Reg.macLinkStatus p) 11 1 1).stat p 0x49 1
    else s)

/-- The transmit direction awake again; its gearbox ran on, and a calibration step of it in progress has ended (R148). -/
def State.txWake (s : State) (p : Nat) : State :=
  let l := lowestLane p
  if s.txState l == 3 then
    let s := (s.setTx l 2).setf (Reg.macLinkStatus p) 11 1 0
    { s with cal := { s.cal with running := assocDel s.cal.running (2 * p + 1) } }
  else s

/-- LPI_TRANSMIT_EXIT (R147): the wake that a frame in a queue started completes. -/
def execLpiTransmitExit (p : Nat) (s : State) : Host.Outcome State Fault Refusal :=
  let s := s.fresh
  atUnit p 80 s (if s.portIdle p then s else s.txWake p)

/-! ### Speed steps (R149, R174-R176) -/

/-- A proposal or agreement dropped. -/
def State.withdrawStep (s : State) (p : Nat) : State :=
  let s := s.setSide p (fun x => { x with stepCode := 0xFF, stepSent := false, stepHeard := false })
  if s.f (Reg.macStepStatus p) 4 4 = 2 then s.setf (Reg.macStepStatus p) 4 4 (bit (s.codeInUse p != s.portType p)) else s

/-- The lane of a port retuned to another speed: a re-lock and a transmitter start; the port goes down (R149, R176;
notes/assumptions/40.md for the cause of LANE_LOCK_LOST and the instant of SPEED_STEP). -/
def State.retune (s : State) (p code cause : Nat) : State :=
  let old := s.codeInUse p
  let l := lowestLane p
  let s := s.withdrawStep p
  let s := (s.laneLose l 4 2).setf (Reg.macLinkStatus p) 0 8 code
  let s := s.setf (Reg.macLinkStatus p) 10 3 (bit (code != s.portType p))
  let s := (s.setf (Reg.macStepStatus p) 0 8 (code % 16 + 3 * 16)).set (laneKey l 0) (modeWord code)
  let s := ((s.laneUncal l code).txStart l).stat p 0x48 1
  (s.linkDown p 3).raise 0x302 (toLe 1 p ++ toLe 1 old ++ toLe 1 code ++ toLe 1 cause)

/-- A port back at its configured speed, any proposal dropped (R145, R176). -/
def State.restoreSpeed (s : State) (p cause : Nat) : State :=
  if s.codeInUse p != s.portType p then s.retune p (s.portType p) cause else s.withdrawStep p

/-- A speed code for comparing: 25GBASE-R with RS-FEC counts as 25GBASE-R (R174). -/
def speedOf (code : Nat) : Nat := if code = 5 then 4 else code

/-- Whether a port may step at all: one edge lane, permitted, a TLV configured, neither direction timing (R124, R144, R174). -/
def State.maySteps (s : State) (p : Nat) : Bool :=
  decide (32 ≤ p) && decide (1 ≤ s.portType p) && decide (s.portType p ≤ 5) && s.b (Reg.pwrPlanP p) 2 &&
    s.f Reg.macStepTlv 0 32 != 0 && !s.portTiming p
/-- Whether the plan's minimum dwell has passed since the last step ended. 1 s is 1,250,000,000 ticks. -/
def State.dwelt (s : State) (p : Nat) : Bool :=
  match (s.side p).stepEnd with
  | none => true
  | some t => decide (t + s.f (Reg.pwrPlanP p) 32 16 * 1250000000 ≤ s.ticks)
/-- The lowest speed code that the plan allows a port. -/
def State.lowestSpeed (s : State) (p : Nat) : Nat := s.f (Reg.pwrPlanP p) 16 8 + 1

/-- The LLDP EEE TLV of a port, when it advertises LPI receive support (R146; layout of IEEE 802.3 and times of R147 in whole µs,
PRESUMED, notes/assumptions/40.md). -/
def State.eeeTlv (s : State) (p : Nat) : List Byte :=
  if s.eeeAdvertised p then
    let tw := if s.codeInUse p = 1 then (17, 11) else if s.codeInUse p = 3 then (12, 10) else (11, 9)
    toBe 2 (127 * 512 + 14) ++ [0x00, 0x12, 0x0F, 5] ++ toBe 2 tw.1 ++ toBe 2 tw.2 ++ toBe 2 tw.2 ++ toBe 2 tw.1 ++ toBe 2 tw.2
  else []
/-- The LLDP frame that carries a step TLV (R175; notes/assumptions/40.md for the other TLVs). -/
def State.stepFrame (s : State) (p code number : Nat) : List Byte :=
  let mac := toBe 6 (s.f Reg.cmdInbandMac 0 48)
  toBe 6 0x0180C200000E ++ mac ++ toBe 2 0x88CC ++ toBe 2 (1 * 512 + 7) ++ [4] ++ mac ++ toBe 2 (2 * 512 + 2) ++ [7] ++ toLe 1 p ++
    toBe 2 (3 * 512 + 2) ++ toBe 2 120 ++ s.eeeTlv p ++ toBe 2 (127 * 512 + 8) ++ toBe 3 (s.f Reg.macStepTlv 8 24) ++
    toLe 1 (s.f Reg.macStepTlv 0 8) ++ toLe 1 code ++ toLe 1 number ++ zeros 2 ++ zeros 2

/-- A port proposes a step at once. -/
def State.propose (s : State) (p code cause : Nat) : State :=
  let n := (s.f (Reg.macStepStatus p) 8 8 + 1) % 256
  let s := s.setf (Reg.macStepStatus p) 4 12 (2 + n * 16)
  let s := s.setSide p (fun x => { x with stepCode := code, stepSent := true, stepHeard := false, stepCause := cause, stepAt := s.ticks })
  s.deviceSend p 7 (s.stepFrame p code n)

/-- SPEED_STEP_EVALUATE (R174): rxDown and txDown are the averages over WINDOW_S in per cent of the next lower speed, rxUp and
txUp those over 100 ms in per cent of the current speed. -/
def execSpeedStepEvaluate (p rxDown txDown rxUp txUp : Nat) (s : State) : Host.Outcome State Fault Refusal :=
  let s := s.fresh
  atUnit p 80 s (
    let cur := s.codeInUse p
    let st := s.f (Reg.macStepStatus p) 4 4
    let cfg := Reg.macStepCfg p
    if s.maySteps p && s.dwelt p && decide (st < 2) && (s.side p).stepCode == 0xFF && s.portReady p then
      let deep := (List.range 8).any (fun q => decide (s.f cfg 32 16 ≤ s.occ p q))
      let busy := decide (s.f cfg 24 8 < rxUp) || decide (s.f cfg 24 8 < txUp)
      let refused := match (s.side p).stepRefused with
        | some t => decide (s.ticks < t + s.f cfg 0 16 * 1250000000) | none => false
      if decide (speedOf cur < speedOf (s.portType p)) && (deep || busy) then s.propose p (s.portType p) (if busy then 1 else 2)
      else if decide (s.lowestSpeed p < speedOf cur) && decide (rxDown < s.f cfg 16 8) && decide (txDown < s.f cfg 16 8) &&
          !refused then
        s.propose p (speedOf cur - 1) 0
      else s
    else s)

/-- Whether a port agrees to a partner's proposal (R175): down under the conditions of R174, up to its configured speed. -/
def State.agreesStep (s : State) (p code : Nat) (loadOk : Bool) : Bool :=
  if speedOf code < speedOf (s.codeInUse p) then
    s.maySteps p && s.dwelt p && loadOk && decide (s.lowestSpeed p ≤ code) && decide (1 ≤ code)
  else decide (32 ≤ p) && decide (code ≤ 5) && decide (speedOf (s.codeInUse p) < speedOf code) &&
    decide (speedOf code ≤ speedOf (s.portType p)) && code != 0
/-- The answer to the proposal that the port itself has made. -/
def State.stepAnswered (s : State) (p code : Nat) : State :=
  let x := s.side p
  let cur := s.codeInUse p
  if code = 0xFF then
    let s := s.withdrawStep p
    let s := if speedOf x.stepCode < speedOf cur then s.setSide p (fun y => { y with stepRefused := some s.ticks }) else s
    s.raise 0x302 (toLe 1 p ++ toLe 1 cur ++ toLe 1 x.stepCode ++ [5])
  else s.setSide p (fun y => { y with stepHeard := true, stepAt := s.ticks })
/-- A partner's proposal answered. -/
def State.stepProposed (s : State) (p code number : Nat) (loadOk : Bool) : State :=
  let agree := s.agreesStep p code loadOk
  let down := decide (speedOf code < speedOf (s.codeInUse p))
  let s := s.setf (Reg.macStepStatus p) 8 8 number
  if agree then
    let s := s.setSide p (fun y => { y with stepCode := code, stepSent := true, stepHeard := true, stepCause := bit (!down), stepAt := s.ticks })
    s.deviceSend p 7 (s.stepFrame p code number)
  else s.deviceSend p 7 (s.stepFrame p 0xFF number)

/-- STEP_TLV_RECEIVE (R175): an answer to the port's own proposal, or the partner's proposal, which is answered; loadOk says
whether the port's own transmit load allows a step down. -/
def execStepTlvReceive (p code number : Nat) (loadOk : Bool) (s : State) : Host.Outcome State Fault Refusal :=
  let s := s.fresh
  atUnit p 80 s (
    if s.f Reg.macStepTlv 0 32 = 0 || s.f (Reg.macStepStatus p) 4 4 == 3 then s
    else if s.f (Reg.macStepStatus p) 4 4 == 2 && number % 256 == s.f (Reg.macStepStatus p) 8 8 &&
        (code == 0xFF || code == (s.side p).stepCode) then s.stepAnswered p code
    else if code = 0xFF then s
    else s.stepProposed p code number loadOk)

/-- STEP_RETUNE (R175): 50 ms after each end has sent and received the same TLV, the port retunes. A return to the configured
speed takes its FEC with it (R174). -/
def execStepRetune (p : Nat) (s : State) : Host.Outcome State Fault Refusal :=
  let s := s.fresh
  atUnit p 80 s (
    let x := s.side p
    if x.stepSent && x.stepHeard && x.stepCode != 0xFF && decide (x.stepAt + 62500000 ≤ s.ticks) then
      let code := if speedOf x.stepCode = speedOf (s.portType p) then s.portType p else x.stepCode
      s.retune p code x.stepCause
    else s)

/-- STEP_PROPOSAL_TIMEOUT (R175): no answer within 3 s withdraws the proposal. -/
def execStepProposalTimeout (p : Nat) (s : State) : Host.Outcome State Fault Refusal :=
  let s := s.fresh
  atUnit p 80 s (if s.f (Reg.macStepStatus p) 4 4 == 2 && !(s.side p).stepHeard &&
      decide ((s.side p).stepAt + 3750000000 ≤ s.ticks) then s.withdrawStep p else s)

/-! ### Timing marks (R143-R145) -/

/-- The marks that the configuration gives a port: receive and transmit (notes/assumptions/41.md: a port reference counts
while it is enabled). -/
def State.timingMarks (s : State) (p : Nat) : Bool × Bool :=
  let l := lowestLane p
  let ptp := (List.range 8).any (fun i => s.b (Reg.ptpPortCfg (0x80 * i + p)) 63)
  let src := (List.range 16).any (fun r => s.b (Reg.refselRefCfg (8 + r)) 63 && s.f (Reg.refselRefCfg (8 + r)) 48 8 == p)
  (src || ptp || s.b (laneKey l 1) 9, ptp || s.b (Reg.refselPortCfg (0x200 + p)) 61 || s.b (laneKey l 1) 10)

/-- The marks of a lane shown: a change freezes or frees a locked lane's CTLE and raises LANE_TIMING_CHANGE (R143). A lane that
becomes timing leaves its loopback, which never happens on a timing direction (R144; DEDUCED, notes/assumptions/52.md). -/
def State.markLane (s : State) (l : Lane) (new : Nat) : State :=
  let old := bit (s.rxTiming l) + 2 * bit (s.txTiming l)
  if old = new then s
  else
    let s := s.setf (laneKey l 5) 9 2 new
    let s := if new = 0 then s else s.setf (laneKey l 1) 3 2 0
    let s := s.setf (laneKey l 4) 4 1 (bit (s.rxState l == 4 && s.ctleFrozen l))
    s.raise 0x202 (toLe 1 (laneKind l) ++ toLe 1 (laneNum l) ++ toLe 1 new ++ toLe 1 old)

/-- TIMING_MARK_EVALUATION: the marks of every lane of a port brought up to date; a direction that becomes timing wakes, and
the port returns to its configured speed. -/
def execTimingMarkEvaluation (p : Nat) (s : State) : Host.Outcome State Fault Refusal :=
  let s := s.fresh
  atUnit p 80 s (
    let m := s.timingMarks p
    let new := bit m.1 + 2 * bit m.2
    let s := s.forEach (s.portLanes p) (fun l s => s.markLane l new)
    if s.portType p = 0 || new = 0 then s
    else
      let s := if m.2 then s.txWake p else s
      let s := if m.1 then s.rxWake p else s
      s.restoreSpeed p 3)

/-! ### The power plan (R123) -/

/-- Entry i of a plan. -/
def planEntry (p : List Byte) (i : Nat) : List Byte := slice p (4 + 8 * i) 8
/-- The fault of a plan entry, as an offset in it. A port of type 0 has no configured speed, and any lowest speed lies above it
(DESIGN CHOICE, notes/assumptions/53.md). -/
def planFault (s : State) (p : List Byte) (i : Nat) : Option Nat :=
  let e := planEntry p i
  let port := u8 e 0
  let code := s.portType port
  if 80 ≤ port then some 0
  else if (List.range i).any (fun j => u8 (planEntry p j) 0 == port) then some 0
  else if 8 ≤ u8 e 1 then some 1
  else if (u8 e 1).testBit 2 && (decide (port < 32) || code == 8 || code == 9) then some 1
  else if 3 < u8 e 2 then some 2
  else if decide (speedOf code < u8 e 2 + 1) && decide (code < 6) then some 2
  else if u8 e 3 != 0 then some 3
  else if u16 e 4 = 0 || 3600 < u16 e 4 then some 4
  else if u16 e 6 != 0 then some 6
  else none

/-- What the withdrawal of a port's permissions brings: it wakes, and returns to its configured speed (R123, R176). -/
def State.planApply (s : State) (p : Nat) : State :=
  let w := s.get (Reg.pwrPlanP p)
  let s := if w.testBit 0 then s else s.txWake p
  let s := if w.testBit 1 then s else s.rxWake p
  if w.testBit 2 then s else s.restoreSpeed p 4

/-- What PWR_PLAN does at step 10 of R58. -/
def pwrPlanRun (c : Ctx) (s : State) : Ran :=
  let es := (List.range (u16 c.p 0)).map (planEntry c.p)
  let s := s.forEach (List.range 80) (fun p s => s.set (Reg.pwrPlanP p) (match es.find? (fun e => u8 e 0 == p) with
    | some e => u16 e 4 * 2 ^ 32 + u8 e 2 * 2 ^ 16 + u8 e 1 | none => 0))
  .ok [] (s.forEach ((List.range 80).filter (fun p => s.portType p != 0)) (fun p s => s.planApply p))

/-- PWR_PLAN. -/
def pwrPlanCmd : Cmd := {
  opcode := 0x0801, cls := 1
  check := fun c s => firstErr [errIf (decide (c.p.length < 4)) .range, need (decide (u16 c.p 0 ≤ 80)) 0, rsv c 2 2,
    errIf (c.p.length != 4 + 8 * u16 c.p 0) .range,
    (List.range (u16 c.p 0)).findSome? (fun i => (planFault s c.p i).map (fun o => .at (4 + 8 * i + o)))]
  leases := fun _ _ => [0x01]
  run := pwrPlanRun }

/-- PWR_PLAN. -/
def execPwrPlan (q : Request) (s : State) : Host.Outcome State Fault Refusal := .next (runCmd pwrPlanCmd q s)

/-! ### Snapshots (R177-R180) -/

/-- The first shelfmark of a bank: 0 and 1 hold snapshots, 2 the live values. -/
def bankBase (b : Nat) : Nat := shelf 0x0E (0x80 * b) 0
/-- Whether a shelfmark lies in a bank. -/
def inBank (b k : Nat) : Bool := decide (bankBase b ≤ k) && decide (k < bankBase b + 83 * 4096)
/-- A bank's counters read zero. -/
def State.clearBank (s : State) (b : Nat) : State := { s with words := s.words.filter (fun (x : Nat × Word) => !inBank b x.1) }
/-- STAT_SNAPb_INFO. -/
def snapInfo (b : Nat) : Nat := shelf 0x0E 0x3FF (4 * b)
/-- The state of a bank: 0 EMPTY, 1 PENDING, 2 FILLING, 3 VALID. -/
def State.snapState (s : State) (b : Nat) : Nat := s.f (snapInfo b) 0 4
/-- The bank a snapshot takes: the one that does not hold the most recent VALID snapshot. -/
def State.nextBank (s : State) : Nat :=
  let v := fun b => if s.snapState b = 3 then s.f (snapInfo b) 8 32 else 0
  if v 0 = 0 && v 1 = 0 then 0 else if v 1 < v 0 then 1 else 0
/-- The T of a bank. -/
def State.snapTime (s : State) (b : Nat) : Nat :=
  (s.f (snapInfo b + 2) 0 48 * 1000000000 + s.f (snapInfo b + 1) 16 32) * ns16 + s.f (snapInfo b + 1) 0 16
/-- The reply and event payload of a bank. -/
def State.snapBytes (s : State) (b : Nat) : List Byte :=
  toLe 1 b ++ zeros 3 ++ toLe 4 (s.f (snapInfo b) 8 32) ++ timeBytes (s.snapTime b)

/-- A bank taken for a snapshot at T of a domain. -/
def State.snapTake (s : State) (dom t : Nat) (scheduled : Bool) : State :=
  let b := s.nextBank
  let n := (s.snap.number + 1) % 2 ^ 32
  let s := ({ s with snap := ⟨n, b, scheduled, none⟩ }).clearBank b
  (s.set (snapInfo b) (n * 256 + dom * 16 + 1)).setTime (snapInfo b + 1) t

/-- The counters captured at T: the live values as they stand (R178). -/
def State.snapCapture (s : State) : State :=
  let l := (s.words.filter (fun (x : Nat × Word) => inBank 2 x.1)).map (fun (x : Nat × Word) => (x.1 - bankBase 2, x.2.toNat))
  ({ s with snap := { s.snap with captured := some l } }).setf (snapInfo s.snap.bank) 0 4 2

/-- The bank PENDING or FILLING, if any. -/
def State.snapBusy (s : State) : Option Nat := [0, 1].find? (fun b => s.snapState b == 1 || s.snapState b == 2)

/-- What STAT_SNAPSHOT does at step 10 of R58. -/
def statSnapshotRun (c : Ctx) (s : State) : Ran :=
  let dom := u8 c.p 0
  let t := timeAt c.p 4
  match s.snapBusy with
  | some b => .error (.busy (s.usUntil (s.f (snapInfo b) 4 4) (s.snapTime b + 20000 * ns16))) s
  | none =>
    if (u8 c.p 1).testBit 0 then .later (.snapshot false) ((s.snapTake dom (s.now dom) false).snapCapture)
    else match s.due dom t with
      | .past => .error (.pastAt 4) s
      | .late => .later (.snapshot true) ((s.snapTake dom (s.now dom) false).snapCapture)
      | .scheduled =>
        if s.actionsFull then .error (.busy s.earliest) s
        else
          let s := s.snapTake dom t true
          .ok (s.snapBytes s.snap.bank) (s.schedule 0x0B00 c.dest.tag (ownerCode c.master) dom t c.p)

/-- STAT_SNAPSHOT (R179). -/
def statSnapshotCmd : Cmd := {
  opcode := 0x0B00, cls := 2, engine := some 9, pds := [4, 14]
  ready := fun _ s => errIf (!s.timeUp) (.plain .notReady)
  check := fun c _ => firstErr [lenIs c 16, need (decide (u8 c.p 0 < 8)) 0, need (decide (u8 c.p 1 < 2)) 1, rsv c 2 2,
    errIf (!(u8 c.p 1).testBit 0 && !timeOk c.p 4) (.at 4)]
  size := fun _ _ => 20
  leases := fun _ _ => [0x0E]
  run := statSnapshotRun }

/-- STAT_SNAPSHOT. -/
def execStatSnapshot (q : Request) (s : State) : Host.Outcome State Fault Refusal := .next (runCmd statSnapshotCmd q s)

/-- What a cancelled snapshot leaves: its bank EMPTY. -/
def State.snapCancel (s : State) : State :=
  match s.snapBusy with
  | some b => (s.set (snapInfo b) 0).setTime (snapInfo b + 1) 0
  | none => s

/-- Whether a snapshot can execute: PD4 is on. -/
def State.snapReady (s : State) : Bool := s.on 4

/-- A snapshot executed at domain time t. -/
def State.fireSnapshot (s : State) (t : Nat) : State := (s.setTime (snapInfo s.snap.bank + 1) t).snapCapture

/-- SCHEDULED_SNAPSHOT: at T the counters are captured; cancelled when PD4 is off (R318). -/
def execScheduledSnapshot (h : Nat) (s : State) : Host.Outcome State Fault Refusal :=
  let s := s.fresh
  .next (s.atTime h 0x0B00 (fun _ => s.snapReady) (fun a s => s.fireSnapshot a.t))

/-- The STAT_SNAPSHOT commands that wait for their snapshot. -/
def State.snapsOpen (s : State) : List Deferred := s.ctl.deferred.filter (fun d => match d.job with | .snapshot _ => true | _ => false)
/-- A STAT_SNAPSHOT replied to with the bank that holds it (R179). -/
def State.answerSnapshot (s : State) (b : Nat) (d : Deferred) : State :=
  match d.job with
  | .snapshot late => s.answerDeferred d (if late then .late else .ok) (s.snapBytes b)
  | _ => s
/-- A snapshot captured written to its bank, which is then valid. -/
def State.fillBank (s : State) (b : Nat) (l : List (Nat × Nat)) : State :=
  let s := (s.forEach l (fun (x : Nat × Nat) s => s.set (bankBase b + x.1) x.2)).setf (snapInfo b) 0 4 3
  { s with snap := { s.snap with captured := none } }

/-- STAT_SNAPSHOT_DONE (R179): the bank is VALID; a scheduled snapshot raises its event, any other has its reply written. -/
def execStatSnapshotDone (s : State) : Host.Outcome State Fault Refusal :=
  let s := s.fresh
  .next (match s.snap.captured with
    | none => s
    | some l =>
      let b := s.snap.bank
      let s := s.fillBank b l
      if s.snap.scheduled then s.raise 0x303 (s.snapBytes b) else s.forEach s.snapsOpen (fun d s => s.answerSnapshot b d))

end Sys2Proof.Machine
end

