-- ==== Sys2Proof/Machine/Link.lean ====
section
/-! DEFINITION. Sub-nanosecond link phase (chapter 11): phase detector readings, link measurement, REMEASURE and ACCEPT. -/
namespace Sys2Proof.Machine

/-! ### Phase detectors (R346-R348) -/

/-- The number of readings kept for a detector. -/
def detectorKey : Detector → Nat
  | .rx l => 2 * portAt l
  | .tx l => 2 * portAt l + 1
  | .island i => 200 + i
/-- Whether a detector's clocks run: those of the DDMTD island, and a locked receive direction, a started transmit direction, or a
PCS island. -/
def State.detectorUp (s : State) (d : Detector) : Bool :=
  s.timeUp && s.islandUp 19 && (match d with
    | .rx l => laneExists l && s.rxState l == 4
    | .tx l => laneExists l && (s.txState l == 2 || s.txState l == 3)
    | .island i => decide (i < 4) && s.islandUp (14 + i))
/-- The readings a detector needs to settle. -/
def State.settleCount (s : State) : Nat := 2 ^ s.f Reg.timeDdmtdCfg 0 4
/-- The readings of a detector since its last lock, start or glitch. -/
def State.readings (s : State) (d : Detector) : Nat := (assoc s.link.readings (detectorKey d)).getD 0
/-- Those set, with the settled flag of a lane's detector. -/
def State.setReadings (s : State) (d : Detector) (n : Nat) : State :=
  let s := { s with link := { s.link with readings := assocSet s.link.readings (detectorKey d) n } }
  let up := bit (decide (s.settleCount ≤ n))
  match d with
  | .rx l => s.setf (laneKey l 0x1B) 32 1 up
  | .tx l => s.setf (laneKey l 0x1B) 33 1 up
  | .island _ => s
/-- Whether a detector is settled. -/
def State.settled (s : State) (d : Detector) : Bool := decide (s.settleCount ≤ s.readings d)

/-- The ports whose links use a detector: a reference lane's port, or every port of the island. -/
def State.detectorPorts (s : State) (d : Detector) : List Nat :=
  (List.range 80).filter (fun p => s.portType p != 0 && (match d with
    | .rx l => s.rxRef p == l
    | .tx l => lowestLane p == l
    | .island i => portIsland p == 14 + i))

/-- The fitted phase and rate published (R347). -/
def State.publish (s : State) (d : Detector) (phase rate : Int) : State :=
  match d with
  | .rx l => (s.set (laneKey l 0x18) (unsigned 64 phase)).setf (laneKey l 0x1A) 32 32 (unsigned 32 rate)
  | .tx l => (s.set (laneKey l 0x19) (unsigned 64 phase)).setf (laneKey l 0x1A) 0 32 (unsigned 32 rate)
  | .island i => s.set (Reg.timeReplicaPhase i) (unsigned 64 phase)

/-- A glitch counted and reported, its fit discarded, and every link that uses the detector measured again (R348); of one that is
MEASURING the exchanges counted are those since it settles anew (R353). -/
def State.glitch (s : State) (d : Detector) (departure : Int) : State :=
  let s := match d with
    | .rx l => s.count (laneKey l 0x1B) 0 16 1
    | .tx l => s.count (laneKey l 0x1B) 16 16 1
    | .island _ => s.count Reg.timeReplicaGlitch 0 16 1
  let b := match d with
    | .rx l => toLe 1 (laneKind l) ++ toLe 1 (laneNum l) ++ [0]
    | .tx l => toLe 1 (laneKind l) ++ toLe 1 (laneNum l) ++ [1]
    | .island i => [2] ++ toLe 1 (14 + i) ++ [2]
  let s := (s.raise 0x901 (b ++ [0] ++ toLe 8 (unsigned 64 departure))).setReadings d 1
  s.forEach (s.detectorPorts d) (fun p s =>
    if 2 ≤ s.linkState p then s.linkSet p 1 4 0 else s.setf (Reg.pcsLinkState p) 16 8 0)

/-- DDMTD_READING: a detector's fitted phase (2^-16 ns) and rate after a reading, and the reading's departure from the fit
before it. -/
def execDdmtdReading (d : Detector) (phase rate departure : Int) (s : State) : Host.Outcome State Fault Refusal :=
  let s := s.fresh
  .next (if s.detectorUp d then
      let n := s.readings d
      let bad := n != 0 && decide (s.f Reg.timeDdmtdCfg 16 16 * 65536 < departure.natAbs * 1000)
      let s := s.publish d phase rate
      if bad then s.glitch d departure else s.setReadings d (min (n + 1) 65535)
    else s)

/-! ### Measurement (R353-R356) -/

/-- The engine-mode instance of lowest number that a port is enabled in. -/
def State.engineInstance (s : State) (p : Nat) : Option Nat :=
  (List.range 8).find? (fun i => s.f (Reg.ptpInstCfg (0x3F0 + i)) 62 2 == 1 && s.b (Reg.ptpPortCfg (0x80 * i + p)) 63)
/-- Condition 1 of R353: the detectors of the reference lanes and of the island are settled. -/
def State.linkSettled (s : State) (p : Nat) : Bool :=
  s.settled (.rx (s.rxRef p)) && s.settled (.tx (lowestLane p)) && s.settled (.island (portIsland p - 14))
/-- A delay exchange accepted on a link: counted while it is MEASURING and settled. -/
def State.linkExchange (s : State) (p inst : Nat) : State :=
  if s.linkState p = 1 && s.linkSettled p && s.engineInstance p == some inst then s.count (Reg.pcsLinkState p) 16 8 1 else s
/-- The delay a link completes with: that of its deciding instance, if it has one. -/
def State.linkDelay (s : State) (p : Nat) : Option Nat := (s.engineInstance p).map (fun i => s.get (Reg.ptpPortDelay (0x80 * i + p)))

/-- A link enters VALID with a delay (R353, R354). -/
def State.linkValid (s : State) (p cause : Nat) (delay : Option Nat) : State :=
  let s := match delay with | some d => s.set (Reg.pcsLinkLast p) d | none => s
  let s := { s with link := { s.link with
    valid := if s.link.valid.contains p then s.link.valid else s.link.valid ++ [p], suspect := assocDel s.link.suspect p } }
  s.linkSet p 3 cause (delay.getD 0)

/-- LINK_MEASUREMENT_COMPLETE: a MEASURING link that meets R353 becomes VALID, or SUSPECT when its delay has changed. -/
def execLinkMeasurementComplete (p : Nat) (s : State) : Host.Outcome State Fault Refusal :=
  let s := s.fresh
  atUnit p 80 s (
    let done := match s.engineInstance p with
      | some i => decide (min 255 (2 ^ s.f (Reg.ptpServoCfg (0x3F0 + i)) 36 4) ≤ s.f (Reg.pcsLinkState p) 16 8)
      | none => true
    if s.linkState p = 1 && s.linkSettled p && !s.staleRx p && !s.staleTx p && done then
      let delay := s.linkDelay p
      let diff := match delay with
        | some d => (signed 64 d - signed 64 (s.get (Reg.pcsLinkLast p))).natAbs
        | none => 0
      if s.link.valid.contains p && decide (s.f (Reg.pcsLinkCfg p) 0 32 * 65536 < diff * 1000) then
        let s := s.setf (Reg.pcsLinkState p) 14 1 1
        if s.b (Reg.pcsLinkCfg p) 32 then s.linkValid p 5 delay
        else
          let s := { s with link := { s.link with suspect := assocSet s.link.suspect p (delay.getD 0) } }
          s.linkSet p 2 5 (delay.getD 0)
      else s.linkValid p 5 delay
    else s)

/-- A write of PCS_LINK_CTRL (R352, R354, R356): REMEASURE acts alone; ACCEPT moves a SUSPECT link to VALID. -/
def State.linkCtrl (s : State) (p v : Nat) : State :=
  if v.testBit 1 then (s.linkInvalid p 3).linkProgress p 3
  else if v.testBit 0 && s.linkState p = 2 then s.linkValid p 6 (assoc s.link.suspect p)
  else s

/-- The medium's two delays from an averaged round trip D, all in 2^-16 ns (R350). -/
def State.mediumDelays (s : State) (p : Nat) (d : Int) : Int × Int :=
  let a := signed 32 (s.f (Reg.pcsLinkAsymCoeff p) 0 32)
  let c := signed 64 (s.get (Reg.pcsLinkAsymConst p))
  let tin := roundDiv ((d - c) * 2 ^ 40) (2 * 2 ^ 40 + a).toNat
  (tin, d - tin)

end Sys2Proof.Machine
end

