-- ==== Sys2Proof/Machine/Outputs.lean ====
section
/-! DEFINITION. The timing outputs (R382-R390): ownership, realignment and time-of-day messages. -/
namespace Sys2Proof.Machine

/-! ### Configuration and grids (R382-R385) -/

/-- An output's hidden state. -/
def State.outp (s : State) (i : Nat) : OutSide := s.outs.getD i OutSide.reset
/-- An output's hidden state changed. -/
def State.setOutp (s : State) (i : Nat) (f : OutSide → OutSide) : State := { s with outs := modifyAt s.outs i f }
/-- The PPSOUT a TODTX is linked to, from its OUT_PULSE in force. -/
def State.linkedPps (s : State) (i : Nat) : Nat := 8 + bits (s.outp i).pulse 48 2
/-- The source in force of an output: 0-7 a domain, 8 and 9 a plane; a TODTX has that of its linked PPSOUT. -/
def State.outSource (s : State) (i : Nat) : Nat :=
  bits (s.outp (if 16 ≤ i then s.linkedPps i else i)).cfg 56 4
/-- The frequency in force of an output, in Hz. -/
def State.outFreq (s : State) (i : Nat) : Nat := bits (s.outp i).cfg 0 32
/-- Whether an output keeps an output time and a grid of its own: not a TODTX, nor an output driven from a plane. -/
def State.outGrid (s : State) (i : Nat) : Bool := decide (i < 16) && decide (s.outSource i < 8) && s.outFreq i != 0

/-- 1 s in units of 2^-16 ns. -/
def sec16 : Nat := 1000000000 * ns16
/-- The first instant at or after x of the grid phase + k / freq s, all in 2^-16 ns. -/
def gridAt (freq phase x : Nat) : Nat :=
  let k := ((x - phase) * freq + sec16 - 1) / sec16
  phase + (k * sec16 + freq - 1) / freq
/-- The output time of a grid output now, in 2^-16 ns. -/
def State.outTime (s : State) (i : Nat) : Nat := ((s.now (s.outSource i) : Int) + (s.outp i).offset / (fine16 : Int)).toNat
/-- OUT_TIME_OFFSET as it reads. -/
def State.outOffset (s : State) (i : Nat) : Int := (s.outp (if 16 ≤ i then s.linkedPps i else i)).offset / (fine16 : Int)

/-- The written configuration differs from that in force (R385). -/
def State.cfgPending (s : State) (i : Nat) : Bool :=
  let x := s.outp i
  bits x.cfg 56 4 != s.f (Reg.outCfg i) 56 4 || bits x.cfg 0 32 != s.f (Reg.outCfg i) 0 32 ||
    x.phase != s.get (Reg.outPhase i) || x.pulse != s.get (Reg.outPulse i)
/-- CFG_PENDING shown. -/
def State.showPending (s : State) (i : Nat) : State := s.setf (Reg.outStatus i) 57 1 (bit (s.cfgPending i))
/-- An output takes its pending configuration; STD and POLARITY too when it starts driving (R385). An output that changes its
source domain keeps its output time. -/
def State.takeConfig (s : State) (i : Nat) (starts : Bool) : State :=
  let old := s.outSource i
  let w := s.get (Reg.outCfg i)
  let s := s.setOutp i (fun x => { x with
    cfg := if starts then w else setBits (setBits x.cfg 56 4 (w >>> 56)) 0 32 w
    phase := s.get (Reg.outPhase i), pulse := s.get (Reg.outPulse i) })
  let new := s.outSource i
  let s := if i < 16 && old != new && decide (old < 8) && decide (new < 8)
    then s.setOutp i (fun x => { x with
      offset := x.offset + (((s.dom old).run : Int) + (s.dom old).shift) - (((s.dom new).run : Int) + (s.dom new).shift) })
    else s
  s.showPending i

/-! ### Ownership (R386) -/

/-- The active role of R422: in PAIR mode, ACTIVE; a standalone unit holds it at all times (R419). -/
def State.activeRole (s : State) : Bool := s.f Reg.pairCfg 0 2 == 0 || s.f Reg.pairState 8 4 == 2
/-- What an output ought to do: 0 HIGHZ, 1 DRIVING, 2 SQUELCHED (R386). -/
def State.outDesired (s : State) (i : Nat) : Nat :=
  let own := s.f (Reg.outCfg i) 60 2
  if own = 0 || (own = 3 && !s.activeRole) then 0
  else if own = 2 then 2
  else
    let src := s.f (Reg.outCfg (if 16 ≤ i then s.linkedPps i else i)) 56 4
    let sq := s.f (Reg.outCfg i) 54 2
    if src < 8 && ((1 ≤ sq && s.tdLevel src == 0) || (sq == 2 && s.tdLevel src == 1)) then 2 else 1
/-- OUT_STATUS: 0 HIGHZ, 1 DRIVING, 2 SQUELCHED, 3 STATIC. -/
def State.outState (s : State) (i : Nat) : Nat := s.f (Reg.outStatus i) 59 2
/-- OUT_STATUS set. -/
def State.setOutState (s : State) (i v : Nat) : State := s.setf (Reg.outStatus i) 59 2 v

/-- The level that an output generates now, before POLARITY: high for its width after each edge of a PPSOUT; of any other, open. -/
def State.outLevel (s : State) (i : Nat) : Bool :=
  if 8 ≤ i && i < 12 && s.outGrid i then
    decide (((s.outTime i - (s.outp i).phase) * s.outFreq i) % sec16 < bits (s.outp i).pulse 0 32 * ns16 * s.outFreq i)
  else Config.ballLevel s.ticks (32 + i)
/-- The bus keeper of a single-ended output in OUT_OWN state PAIR holds the level that its line had when the driver released it, as
long as it is not driven (R476); a CLKOUT has none. -/
def State.keepLine (s : State) (i : Nat) (level : Bool) : State :=
  let held := s.outState i == 0 && s.f (Reg.outCfg i) 60 2 == 3 && decide (8 ≤ i)
  s.setOutp i (fun x => { x with line := if held then (if x.line.isSome then x.line else some level) else none })
/-- An output that will drive takes its configuration, its output time becomes the domain time, and its first edge is the
first of its grid at least 2 µs later. -/
def State.prepare (s : State) (i : Nat) : State :=
  let s := (s.takeConfig i true).setOutp i (fun x => { x with offset := 0, slew := none, doneAt := none, waits := none })
  let d := s.outSource i
  let at0 := if s.outGrid i
    then s.runNow d + (gridAt (s.outFreq i) (s.outp i).phase (s.now d + 2000 * ns16) - s.now d) else 0
  (s.setf (Reg.outStatus i) 58 1 0).setOutp i (fun x => { x with startAt := some at0 })
/-- An output brought toward what it ought to do: one that is not to drive takes its state unless it is driving still. The
change of a driver itself is OUTPUT_DRIVE_CHANGE. -/
def State.outWant (s : State) (i : Nat) : State :=
  let want := s.outDesired i
  let old := s.outState i
  if want = 1 || old = 1 then s else (s.setOutState i want).keepLine i (old == 0 && Config.ballLevel s.ticks (32 + i))
/-- Ownership of an output set (R386): one that is to be driven, now or with the active role, starts by the start rule. -/
def State.outOwn (s : State) (i own : Nat) : State :=
  let old := s.f (Reg.outCfg i) 60 2
  let s := s.setf (Reg.outCfg i) 60 2 own
  let s := if own != old && (own = 1 || own = 3) && s.outState i != 1 then s.prepare i else s
  s.outWant i
/-- Every output so. -/
def State.outWantAll (s : State) : State := if s.timeUp then s.forEach (List.range 18) (fun i s => s.outWant i) else s

/-- OUTPUT_DRIVE_CHANGE: an output stops driving at the end of its low phase, or starts: after OUT_OWN at its first edge
(R386), after a change of role or level in a low phase (R430). Its generators run on OUTSYN (R50). -/
def execOutputDriveChange (i : Nat) (s : State) : Host.Outcome State Fault Refusal :=
  let s := s.fresh
  atUnit i 18 s (
    if !(s.timeUp && s.islandUp 20) then s
    else
      let want := s.outDesired i
      let early := match (s.outp i).startAt with | some t => decide (s.runNow (s.outSource i) < t) | none => false
      if want = 1 then
        (if s.outState i != 1 && !early then
          (((s.setOutState i 1).setOutp i (fun x => { x with startAt := none })).keepLine i false).emit (.drive i true)
         else s)
      else if s.outState i = 1 then ((s.setOutState i want).keepLine i false).emit (.drive i false) else s)

/-- The output mask of a command payload. -/
def outMask (p : List Byte) (off : Nat) : Nat := leNat (slice p off 3)
/-- NOT_READY while the TIME island is stopped (R52), with TIME_READY's bit, which is then 0 (R116). -/
def State.timeStopped (s : State) : Option Err := errIf (s.on 14 && !s.islandUp 18) (.bit 16)
/-- The same of reference selection: REFSEL's bit. -/
def State.refStopped (s : State) : Option Err := errIf (s.on 14 && !s.islandUp 18) (.bit 17)

/-- What OUT_OWN does at step 10 of R58. -/
def outOwnRun (c : Ctx) (s : State) : Ran :=
  let s := s.forEach (bitsSet (outMask c.p 0) 18) (fun i s => s.outOwn i (u8 c.p 3))
  .ok (toLe 3 (maskOf ((List.range 18).filter (fun i => s.outDesired i == 1)))) s

/-- OUT_OWN (R386). -/
def outOwnCmd : Cmd := {
  opcode := 0x0501, cls := 0, pds := [14]
  ready := fun _ s => s.timeStopped
  check := fun c _ => firstErr [lenIs c 4, need (decide (outMask c.p 0 < 2 ^ 18)) 0, need (decide (u8 c.p 3 < 4)) 3]
  size := fun _ _ => 3
  leases := fun _ _ => [0x26]
  run := outOwnRun }

/-- OUT_OWN. -/
def execOutOwn (q : Request) (s : State) : Host.Outcome State Fault Refusal := .next (runCmd outOwnCmd q s)

/-! ### Realignment (R383, R387, R388) -/

/-- OUT_REALIGNED (R391). -/
def State.realigned (s : State) (i how : Nat) : State :=
  s.raise 0xA04 (toLe 1 i ++ toLe 1 how ++ zeros 2 ++ toLe 8 (unsigned 64 (s.outp i).before))

/-- The offset modulo the realignment period, in units of 1 / (5 * 2^40) ns, with the period: an MCLK's is that of its frame
sync (R388). -/
def State.realignDelta (s : State) (i : Nat) : Nat × Nat :=
  let unit := sec16 * fine16 * (if 12 ≤ i then bits (s.outp i).pulse 48 16 else 1)
  let f := s.outFreq i
  ((((s.outp i).offset * f) % (unit : Int)).toNat / f, unit / f)

/-- A realignment of one output at its execution (R388). -/
def State.realignNow (s : State) (i : Nat) (slew : Bool) : State :=
  let before := s.outOffset i
  let s := if (s.outp i).slew.isSome then s.realigned i 2 else s
  let s := (s.takeConfig i false).setOutp i (fun x => { x with before := before, waits := none, slew := none, doneAt := none })
  if !s.outGrid i then s.setOutp i (fun x => { x with doneAt := some 0 })
  else
    let dp := s.realignDelta i
    if slew then
      let rem : Int := if dp.1 * 2 ≤ dp.2 then -(dp.1 : Int) else (dp.2 - dp.1 : Nat)
      (s.setf (Reg.outStatus i) 58 1 1).setOutp i (fun x => { x with slew := some rem, first := true })
    else
      let d := s.outSource i
      let o := s.outTime i
      let edge := gridAt (s.outFreq i) (s.outp i).phase (o + 1)
      (s.setf (Reg.outStatus i) 58 1 0).setOutp i (fun x => { x with
        offset := 0, doneAt := some (s.runNow d + (edge - o) + dp.1 / fine16), first := true })

/-- A realignment of one output: a PPSOUT whose next pulse a message already describes realigns after that pulse (R390). -/
def State.realign (s : State) (i : Nat) (slew : Bool) : State :=
  match (s.outp i).described with
  | some t => if s.outGrid i && decide (s.outTime i < t) then s.setOutp i (fun x => { x with waits := some slew }) else s.realignNow i slew
  | none => s.realignNow i slew

/-- Every output of a mask realigned. -/
def State.fireRealign (s : State) (p : List Byte) : State :=
  s.forEach (bitsSet (outMask p 2) 18) (fun i s => s.realign i ((u8 p 1).testBit 1))

/-- The reply of OUT_REALIGN: 12 bytes an output. -/
def State.realignReply (s : State) (p : List Byte) : List Byte :=
  (bitsSet (outMask p 2) 18).flatMap (fun i => toLe 1 i ++ zeros 3 ++ toLe 8 (unsigned 64 (s.outOffset i)))

/-- What OUT_REALIGN does at step 10 of R58. -/
def outRealignRun (c : Ctx) (s : State) : Ran :=
  let d := u8 c.p 0
  let reply := s.realignReply c.p
  if (u8 c.p 1).testBit 0 then
    let t := timeAt c.p 8
    match s.due d t with
    | .past => .error (.pastAt 8) s
    | .late => .reply .late (reply ++ timeBytes (s.now d)) (s.fireRealign c.p)
    | .scheduled =>
      if s.actionsFull then .error (.busy s.earliest) s
      else .ok reply (s.schedule 0x0500 c.dest.tag (ownerCode c.master) d t c.p)
  else .ok reply (s.fireRealign c.p)

/-- OUT_REALIGN (R387). -/
def outRealignCmd : Cmd := {
  opcode := 0x0500, cls := 1, pds := [14]
  ready := fun _ s => s.timeStopped
  check := fun c _ => firstErr [lenIs c 20, need (decide (u8 c.p 0 < 8)) 0, need (decide (u8 c.p 1 < 4)) 1,
    need (decide (outMask c.p 2 < 2 ^ 18)) 2, rsv c 5 3, errIf ((u8 c.p 1).testBit 0 && !timeOk c.p 8) (.at 8)]
  size := fun c _ => 12 * (bitsSet (outMask c.p 2) 18).length + 12
  leases := fun _ _ => [0x26]
  run := outRealignRun }

/-- OUT_REALIGN. -/
def execOutRealign (q : Request) (s : State) : Host.Outcome State Fault Refusal := .next (runCmd outRealignCmd q s)

/-- SCHEDULED_REALIGN. -/
def execScheduledRealign (h : Nat) (s : State) : Host.Outcome State Fault Refusal :=
  let s := s.fresh
  .next (s.atTime h 0x0500 (fun _ => true) (fun a s => s.fireRealign a.data))

/-- OUT_REALIGNED: a step realignment completes when the lengthened interval ends, a slew when nothing remains to be moved. -/
def execOutRealigned (i : Nat) (s : State) : Host.Outcome State Fault Refusal :=
  let s := s.fresh
  atUnit i 18 s (
    if !s.timeUp then s
    else
      let x := s.outp i
      match x.slew, x.doneAt with
      | some 0, _ => ((s.setf (Reg.outStatus i) 58 1 0).setOutp i (fun x => { x with slew := none })).realigned i 1
      | _, some t => if t ≤ s.runNow (s.outSource i % 8) then (s.setOutp i (fun x => { x with doneAt := none })).realigned i 0 else s
      | _, _ => s)

/-- Units of 2^-40 in a bound given in ppb (R22). -/
def ppbUnits (ppb : Nat) : Nat := ppb * 2 ^ 40 / 1000000000

/-- One tick of an output: a slew moves on, and a realignment that waits for a described pulse is made once it has passed. -/
def State.outTick (s : State) (i : Nat) : State :=
  let x := s.outp i
  match x.slew, x.waits, x.described with
  | some r, _, _ =>
    if r = 0 then s
    else
      let g : Int := (4 * ppbUnits (s.f (Reg.outSlewPpb i) 0 32) : Nat)
      if r.natAbs ≤ g.toNat then s.setOutp i (fun x => { x with slew := some 0, offset := 0 })
      else
        let d := if r < 0 then -g else g
        s.setOutp i (fun x => { x with slew := some (r - d), offset := x.offset + d })
  | none, some w, some t => if t ≤ s.outTime i then s.realignNow i w else s
  | none, _, _ => s

/-- A domain's step, in units of 1 / (5 * 2^40) ns: the outputs it drives keep their phase (R383). -/
def State.outsStepped (s : State) (d : Nat) (fine : Int) : State :=
  s.forEach ((List.range 16).filter (fun i => s.outSource i == d)) (fun i s => s.setOutp i (fun x => { x with offset := x.offset - fine }))

/-! ### Time of day (R335, R390) -/

/-- The clockClass an instance announces (R335). -/
def State.clockClass (s : State) (d : Nat) : Nat :=
  if s.f (Reg.ptpInstCfg (0x3F0 + d)) 62 2 = 0 then 248
  else if s.tdLevel d = 2 then s.f (Reg.ptpInstQual (0x3F0 + d)) 56 8
  else if s.tdLevel d = 3 then s.f (Reg.ptpInstQual (0x3F0 + d)) 48 8
  else s.f (Reg.ptpInstQual (0x3F0 + d)) 40 8

/-- The UTC offset of a TODTX, with its flags: bit 0 LEAP61, bit 1 LEAP59, bit 2 valid. -/
def State.todUtc (s : State) (i d : Nat) : Int × Nat :=
  if bits (s.outp i).pulse 8 8 = 1 then
    let w := s.get (Reg.outTodUtc i)
    (signed 16 w, bits w 17 1 + 2 * bits w 18 1 + 4 * bits w 16 1)
  else if s.f (Reg.ptpInstCfg (0x3F0 + d)) 62 2 = 1 then
    let x := s.ptp.insts.getD d PtpInst.reset
    (x.utc, x.flags)
  else (0, 0)

/-- One bit of the CRC-16 of R390. -/
def crc16Bit (c : Nat) : Nat := if c ≥ 0x8000 then (c * 2 % 0x10000) ^^^ 0x1021 else c * 2
/-- The CRC-16 of R390: polynomial 0x1021, from 0xFFFF, no reflection. -/
def crc16 (bs : List Byte) : Nat :=
  bs.foldl (fun c b => crc16Bit (crc16Bit (crc16Bit (crc16Bit (crc16Bit (crc16Bit (crc16Bit (crc16Bit (c ^^^ (b.toNat * 256))))))))))
    0xFFFF

/-- The decimal digits of a number, n of them, in ASCII. -/
def digits : Nat → Nat → List Byte
  | 0, _ => []
  | n + 1, v => digits n (v / 10) ++ toLe 1 (48 + v % 10)
/-- A hexadecimal digit in ASCII. -/
def hexDigit (v : Nat) : List Byte := toLe 1 (if v < 10 then 48 + v else 55 + v)
/-- Year, month and day of a day counted from 1970-01-01 in the Gregorian calendar. -/
def civil (day : Nat) : Nat × Nat × Nat :=
  let z := day + 719468
  let era := z / 146097
  let doe := z % 146097
  let yoe := (doe - doe / 1460 + doe / 36524 - doe / 146096) / 365
  let doy := doe - (365 * yoe + yoe / 4 - yoe / 100)
  let mp := (5 * doy + 2) / 153
  let m := if mp < 10 then mp + 3 else mp - 9
  (yoe + era * 400 + (if m ≤ 2 then 1 else 0), m, doy - (153 * mp + 2) / 5 + 1)

/-- The NMEA 0183 ZDA sentence for a UTC second, with a talker (R390). -/
def zda (talker utc : Nat) : List Byte :=
  let c := civil (utc / 86400)
  let t := utc % 86400
  let body := toBe 2 talker ++ [0x5A, 0x44, 0x41, 0x2C] ++ digits 2 (t / 3600) ++ digits 2 (t / 60 % 60) ++ digits 2 (t % 60) ++
    [0x2E, 0x30, 0x30, 0x2C] ++ digits 2 c.2.2 ++ [0x2C] ++ digits 2 c.2.1 ++ [0x2C] ++ digits 4 c.1 ++
    [0x2C, 0x30, 0x30, 0x2C, 0x30, 0x30]
  let x := body.foldl (fun a b => a ^^^ b.toNat) 0
  [0x24] ++ body ++ [0x2A] ++ hexDigit (x / 16) ++ hexDigit (x % 16) ++ [0x0D, 0x0A]

/-- TOD_MESSAGE_START: LEAD_MS before a pulse of the linked PPSOUT the message that describes it starts (R390). -/
def execTodMessageStart (n : Nat) (s : State) : Host.Outcome State Fault Refusal :=
  let s := s.fresh
  atUnit n 2 s (
    let i := 16 + n
    let j := s.linkedPps i
    let d := s.outSource j
    let o := s.outTime j
    let pulse := gridAt 1 (s.outp j).phase (o + 1)
    let lead := bits (s.outp i).pulse 16 16
    if s.timeUp && s.islandUp 20 && s.outState i == 1 && s.outState j == 1 && s.outGrid j && s.outFreq j == 1 &&
        decide (pulse - o ≤ lead * 1000000 * ns16) && (s.outp i).described != some pulse then
      let first := (s.outp j).first
      let mark := fun (s : State) => (s.setOutp j (fun x => { x with described := some pulse, first := false })).setOutp i
        (fun x => { x with described := some pulse })
      let u := s.todUtc i d
      let sec := pulse / sec16
      if bits (s.outp i).pulse 56 8 = 0 then
        let body := toLe 1 16 ++ [1] ++ toLe 1 (s.tdLevel d + u.2 * 4 + bit first * 32) ++ toLe 6 sec ++
          toLe 2 (unsigned 16 u.1) ++ toLe 1 d ++ toLe 1 (s.clockClass d) ++ zeros 2
        (mark s).emit (.tod n ([0x7E] ++ body ++ toLe 2 (crc16 body)))
      else if u.2 / 4 % 2 = 1 then
        (mark s).emit (.tod n (zda (bits (s.outp i).pulse 32 16) (((sec : Int) - u.1).toNat)))
      else (mark s).count (Reg.outStatus i) 0 32 1
    else s)

end Sys2Proof.Machine
end

