-- ==== Sys2Proof/Machine/Redundant.lean ====
section
/-! DEFINITION. Seamless redundancy, stream watch and evening primrose (chapter 09), but for what a frame's reception does
(Classify). -/
namespace Sys2Proof.Machine

/-! ### Recovery functions (R286, R287, R289) -/

/-- 1 ms in ticks. -/
def msTicks : Nat := 1250000

/-- The entry of a recovery function, while PD6 holds it. -/
def State.rcvy (s : State) (r : Nat) : Option (List Byte) := if s.on 6 then assoc s.fwd.tables.rcvy r else none

/-- FRER_RESET_TIMER: no frame has passed for RESET_MS; take_any is set and one reset counted. -/
def execFrerResetTimer (r : Nat) (s : State) : Host.Outcome State Fault Refusal :=
  let s := s.fresh
  atUnit r 8192 s (match s.rcvy r, assoc s.red.lastPass r with
    | some e, some t =>
      if u16 e 4 ≤ (s.ticks - t) / msTicks then
        let s := { s with red := { s.red with lastPass := assocDel s.red.lastPass r } }
        (s.setf (rcvyKey r 7) 16 1 1).rcvyCount r 6 1
      else s
    | _, _ => s)

/-- passed × (LATENT_PATHS − 1) − discarded. -/
def State.latentValue (s : State) (r : Nat) (e : List Byte) : Int :=
  (s.get (rcvyKey r 0) * (u8 e 20 - 1) : Nat) - (s.get (rcvyKey r 1) : Int)
/-- The base recorded afresh. -/
def State.latentRecord (s : State) (r : Nat) (e : List Byte) : State :=
  { s with red := { s.red with latentBase := assocSet s.red.latentBase r (s.latentValue r e) } }
/-- Since when the periods of a function run, in ticks: its last base and its last test, neither before E5 last began to run (R289). -/
def State.latentSince (s : State) (r : Nat) : Nat × Nat :=
  let x := (assoc s.red.latentAt r).getD (0, 0)
  let t := s.red.latentStart
  (max x.1 t, max x.2 t)
/-- A base (true) or a test recorded as made now. -/
def State.latentMade (s : State) (r : Nat) (base : Bool) : State :=
  let x := (assoc s.red.latentAt r).getD (0, 0)
  { s with red := { s.red with latentAt := assocSet s.red.latentAt r (if base then (s.ticks, x.2) else (x.1, s.ticks)) } }

/-- LATENT_TEST: E5's test of a recovery function with LATENT_EN, LATENT_TEST_MS after the one before. -/
def execLatentTest (r : Nat) (s : State) : Host.Outcome State Fault Refusal :=
  let s := s.fresh
  atUnit r 8192 s (match s.rcvy r with
    | some e =>
      if s.serves 5 && (u8 e 0).testBit 3 && decide ((s.latentSince r).2 + u16 e 24 * msTicks ≤ s.ticks) then
        let d := s.latentValue r e - (assoc s.red.latentBase r).getD 0
        let s := s.latentMade r false
        if (u16 e 22 : Int) < d then
          ((s.count (rcvyKey r 7) 48 16 1).raise 0x700 (toLe 2 r ++ zeros 2 ++ toLe 4 d.toNat)).latentRecord r e
        else s
      else s
    | none => s)

/-- LATENT_BASE_RESET: E5 records the base, LATENT_RESET_MS after the one before. -/
def execLatentBaseReset (r : Nat) (s : State) : Host.Outcome State Fault Refusal :=
  let s := s.fresh
  atUnit r 8192 s (match s.rcvy r with
    | some e =>
      if s.serves 5 && (u8 e 0).testBit 3 && decide ((s.latentSince r).1 + u32 e 28 * msTicks ≤ s.ticks) then (s.latentRecord r e).latentMade r true
      else s
    | none => s)

/-- The slot of a port among a function's members. -/
def memberSlot (e : List Byte) (p : Nat) : Option Nat := (List.range 4).find? (fun i => u8 e (16 + i) == p)

/-- A member disabled for a watch entry (R287, R295): none when it was done, or the reason it was refused. -/
def State.disableMember (s : State) (r p e : Nat) : State × Option Nat :=
  match (s.rcvy r).bind (fun x => (memberSlot x p).map (fun i => (x, i))) with
  | none => (s, some 1)
  | some (x, i) =>
    let others := (List.range 4).filter (fun j => j != i && decide (u8 x (16 + j) < 80) && !s.b (rcvyKey r 7) (24 + j))
    if s.b (rcvyKey r 7) (24 + i) then
      ({ s with red := { s.red with disabledBy := s.red.disabledBy ++ [(r, p, e)] } }, none)
    else if others.isEmpty then (s, some 0)
    else
      let s := { s with red := { s.red with disabledBy := s.red.disabledBy ++ [(r, p, e)] } }
      ((s.setf (rcvyKey r 7) (24 + i) 1 1).raise 0x701 (toLe 2 r ++ toLe 1 p ++ [1] ++ toLe 2 e), none)

/-- A watch entry's hold on a member released; the member is enabled once no entry holds it. -/
def State.enableMember (s : State) (r p e : Nat) : State :=
  let held := s.red.disabledBy.contains (r, p, e)
  let s := { s with red := { s.red with disabledBy := s.red.disabledBy.filter (fun x => x != (r, p, e)) } }
  if !held || s.red.disabledBy.any (fun x => x.1 == r && x.2.1 == p) then s
  else match (s.rcvy r).bind (fun x => memberSlot x p) with
    | some i => (s.setf (rcvyKey r 7) (24 + i) 1 0).raise 0x701 (toLe 2 r ++ toLe 1 p ++ [0] ++ toLe 2 e)
    | none => s

/-! ### Stream watch entries (R292, R295) -/

/-- A watch entry's runtime set. -/
def State.setWatch (s : State) (e : Nat) (w : Option Watch) : State :=
  { s with red := { s.red with watches := (match w with | some w => assocSet s.red.watches e w | none => assocDel s.red.watches e) } }

/-- WATCH_COUNTS brought up to date. -/
def State.watchCounted (s : State) : State :=
  s.set Reg.watchCounts ((s.red.watches.filter (fun (x : Nat × Watch) => x.2.conds != 0)).length * 2 ^ 32 + s.red.watches.length)

/-- A watch entry as written, its timers starting now. -/
def State.newWatch (s : State) (x : List Byte) : Watch := {
  entry := x, start := s.ticks, windowStart := s.ticks, windowGen := (s.dom (u8 x 3)).gen, lastFrame := s.ticks, lastSeq := none
  windowLost := 0, windowPeak := 0, windowDegraded := false, first := none, pdvLo := 0, pdvHi := 0, loudTick := s.ticks
  heard := false, conds := 0, acts := 0, trig := 0, clearSince := none, disabled := false, contact := false }

/-- The actions an entry holds, released: its member and its contact. -/
def State.releaseActions (s : State) (e : Nat) : State :=
  match assoc s.red.watches e with
  | none => s
  | some w =>
    let s := if w.disabled then s.enableMember (u16 w.entry 36) (u8 w.entry 5) e else s
    (s.setWatch e (some { w with disabled := false, contact := false, acts := 0, trig := 0, clearSince := none })).setf (watchKey e 0) 24 2 0

/-- An entry's fields cleared. -/
def State.clearWatchWords (s : State) (e : Nat) : State :=
  s.forEach [0, 1, 2, 3] (fun w s => s.set (watchKey e w) 0)

/-- The first fault of a watch entry, as an offset in it (R292): every written entry is checked, valid or not. -/
def State.watchFault (s : State) (x : List Byte) : Option Nat :=
  let acts := [40, 41, 42, 43]
  let rec16 := u16 x 36
  let member := (s.rcvy rec16).bind (fun y => memberSlot y (u8 x 5))
  let chk := fun (bad : Bool) (o : Nat) => if bad then some o else none
  [chk (decide (16 ≤ u8 x 0)) 0, chk (u8 x 39 != 0) 39, (acts.find? (fun o => decide (8 ≤ u8 x o))),
    ((List.range 4).map (· + 44)).find? (fun o => u8 x o != 0),
    [chk (decide (2 < u8 x 1)) 1, chk (u8 x 2 == 0 || decide (64 < u8 x 2)) 2, chk (decide (7 < u8 x 3)) 3,
        chk (decide (2 < u8 x 4)) 4, chk (decide (79 < u8 x 5)) 5, chk (u16 x 6 == 0 || decide (480 < u16 x 6)) 6,
        chk (decide (u32 x 12 < 100) || decide (10000000 < u32 x 12)) 12, chk (decide (u16 x 16 < 10) || decide (60000 < u16 x 16)) 16,
        chk (decide (8388607 < u32 x 20)) 20, chk (u32 x 24 == 0 || decide (3600000 < u32 x 24)) 24,
        chk (u32 x 32 == 0 || decide (3600000 < u32 x 32)) 32, chk (decide (8191 < rec16) && rec16 != 0xFFFF) 36,
        chk (decide (31 < u8 x 38) && u8 x 38 != 0xFF) 38,
        acts.find? (fun o => (u8 x o).testBit 1 && (rec16 == 0xFFFF || member.isNone)),
        acts.find? (fun o => (u8 x o).testBit 2 && u8 x 38 == 0xFF)].findSome? id].findSome? id

/-- The payload checks of WATCH_SET for an operation. -/
def watchCheck (op : Nat) (c : Ctx) (s : State) : Option Err :=
  let n := u16 c.p 4
  firstErr [errIf (decide (c.p.length < 8)) .range, need (u8 c.p 0 == op) 0, rsv c 1 1, need (decide (u16 c.p 2 < 4096)) 2,
    need (decide (1 ≤ n) && decide (u16 c.p 2 + n ≤ 4096)) 4, rsv c 6 2,
    errIf (c.p.length != 8 + (if op = 0 then 48 * n else 0)) .range,
    if op = 0 then (List.range n).findSome? (fun i =>
      (s.watchFault (slice c.p (8 + 48 * i) 48)).map (fun o => .at (min 0xFFFE (8 + 48 * i + o)))) else none]

/-- An entry's condition timers restarted by a release (R295): what each condition counts begins again, the windows keeping their
phase. -/
def Watch.rearm (w : Watch) (now : Nat) : Watch :=
  { w with lastFrame := now, loudTick := now, heard := false, windowLost := 0, first := none, pdvLo := 0, pdvHi := 0 }

/-- The effect of WATCH_SET on one entry: its state and counters reset and its actions released (R292); conditions that this clears
raise WATCH_CONDITION (R294). -/
def State.watchSetOne (s : State) (op e : Nat) (x : List Byte) : State :=
  let old := ((assoc s.red.watches e).map (·.conds)).getD 0
  let s := (s.releaseActions e).clearWatchWords e
  let s := if old = 0 then s else s.raise 0x702 (toLe 2 e ++ [0] ++ toLe 1 old ++ [0])
  match op with
  | 0 => s.setWatch e (if (u8 x 0).testBit 0 then some (s.newWatch x) else none)
  | 1 => s.setWatch e none
  | _ => match assoc s.red.watches e with
    | some w => s.setWatch e (some { w.rearm s.ticks with conds := 0, lastSeq := none, windowPeak := 0 })
    | none => s

/-- WATCH_SET of one operation: 0 write, 1 clear, 2 release. -/
def watchSetCmd (op : Nat) : Cmd := {
  opcode := 0x0D00, cls := 1, chain := true, engine := some 5
  check := watchCheck op
  leases := fun _ _ => [0x2C]
  run := fun c s => .ok [] (s.forEach (List.range (u16 c.p 4)) (fun i s =>
    s.watchSetOne op (u16 c.p 2 + i) (slice c.p (8 + 48 * i) 48))).watchCounted }

/-- WATCH_SET, write. -/
def execWatchSetWrite (q : Request) (s : State) : Host.Outcome State Fault Refusal := .next (runCmd (watchSetCmd 0) q s)
/-- WATCH_SET, clear. -/
def execWatchSetClear (q : Request) (s : State) : Host.Outcome State Fault Refusal := .next (runCmd (watchSetCmd 1) q s)
/-- WATCH_SET, release actions. -/
def execWatchSetRelease (q : Request) (s : State) : Host.Outcome State Fault Refusal := .next (runCmd (watchSetCmd 2) q s)

/-! ### Evaluation (R294, R295) -/

/-- A bit set or cleared. -/
def putBit (v i : Nat) (b : Bool) : Nat := setBits v i 1 (bit b)

/-- The end of a window, if it has come: the entry, its conditions as the window leaves them, and the words it writes. -/
def State.watchWindow (s : State) (e : Nat) (w : Watch) (c : Nat) : State × Watch × Nat :=
  let x := w.entry
  let fresh := { w with windowLost := 0, windowPeak := 0, windowDegraded := false, first := none, pdvLo := 0, pdvHi := 0
                        windowGen := (s.dom (u8 x 3)).gen }
  if w.windowGen != (s.dom (u8 x 3)).gen then (s.setf (watchKey e 0) 36 1 0, { fresh with windowStart := s.ticks }, c)
  else if s.ticks < w.windowStart + u16 x 16 * msTicks then (s, w, c)
  else
    let pdv := min ((w.pdvHi - w.pdvLo).toNat / ns16) 0xFFFFFFFF
    let c := if w.windowLost ≤ u16 x 18 then putBit c 1 false else c
    let c := putBit c 3 (u32 x 28 != 0 && decide (u32 x 28 < pdv))
    let s := ((s.setf (watchKey e 0) 0 24 w.windowPeak).setf (watchKey e 0) 36 1 0).set (watchKey e 3) pdv
    (s, { fresh with windowStart := w.windowStart + u16 x 16 * msTicks }, c)

/-- The conditions of an entry between window ends. -/
def State.watchConds (s : State) (w : Watch) (c : Nat) : Nat :=
  let x := w.entry
  let c := putBit c 0 (decide (w.lastFrame + u32 x 12 * 1250 ≤ s.ticks))
  let c := if decide (u16 x 18 < w.windowLost) && !w.windowDegraded then putBit c 1 true else c
  let span := u32 x 24 * msTicks
  if w.heard && u32 x 20 != 0 && decide (w.loudTick + span ≤ s.ticks) && decide (s.ticks < w.lastFrame + span) then putBit c 2 true
  else if s.ticks < w.loudTick + span then putBit c 2 false else c

/-- The actions that the set conditions of an entry call for. -/
def wanted (x : List Byte) (c : Nat) : Nat := (bitsSet c 4).foldl (fun a i => a ||| u8 x (40 + i)) 0

/-- Actions newly called for are taken or refused once each (R295). -/
def State.watchAct (s : State) (e : Nat) (w : Watch) : State × Watch :=
  let x := w.entry
  let new := bitsSet (wanted x w.conds) 3 |>.filter (fun i => !w.acts.testBit i)
  let trig := (bitsSet w.conds 4).filter (fun i => u8 x (40 + i) != 0)
  let w := { w with acts := w.acts ||| maskOf new, trig := w.trig ||| maskOf trig }
  let refuse := fun (s : State) (why : Nat) => s.raise 0x703 (toLe 2 e ++ toLe 1 why)
  let a := if new.contains 1 then
      let r := s.disableMember (u16 x 36) (u8 x 5) e
      match r.2 with
      | none => (r.1.setf (watchKey e 0) 24 1 1, { w with disabled := true })
      | some why => (refuse r.1 why, w)
    else (s, w)
  if new.contains 2 then
    if !a.1.b Reg.gpioDir (u8 x 38) then (refuse a.1 2, a.2)
    else
      let s := if a.1.b Reg.gpioForce (u8 x 38) then refuse a.1 3 else a.1
      (s.setf (watchKey e 0) 25 1 1, { a.2 with contact := true })
  else a

/-- AUTO_RESTORE: actions released once their conditions have been clear for RESTORE_MS, the condition timers restarting. -/
def State.watchRestore (s : State) (e : Nat) (w : Watch) : State :=
  let x := w.entry
  if (u8 x 0).testBit 1 && w.acts != 0 then
    if w.conds &&& w.trig != 0 then s.setWatch e (some { w with clearSince := none })
    else match w.clearSince with
      | none => s.setWatch e (some { w with clearSince := some s.ticks })
      | some t =>
        if t + u32 x 32 * msTicks ≤ s.ticks then
          let s := (s.setWatch e (some w)).releaseActions e
          match assoc s.red.watches e with
          | some v => s.setWatch e (some (v.rearm s.ticks))
          | none => s
        else s.setWatch e (some w)
  else s.setWatch e (some w)

/-- One entry evaluated. -/
def State.watchOne (s : State) (e : Nat) : State :=
  match assoc s.red.watches e with
  | none => s
  | some w =>
    let old := w.conds
    let mid := s.watchConds w w.conds
    let r := s.watchWindow e w mid
    let w := { r.2.1 with conds := r.2.2 }
    let s := r.1.setf (watchKey e 0) 32 4 w.conds
    let a := s.watchAct e w
    let s := a.1
    let w := a.2
    let held := bit (wanted w.entry w.conds |>.testBit 0) + 2 * bit w.disabled + 4 * bit w.contact
    let s := if w.conds = old then s else s.raise 0x702 (toLe 2 e ++ toLe 1 w.conds ++ toLe 1 old ++ toLe 1 held)
    s.watchRestore e w

/-- WATCH_EVALUATE: E5 evaluates every entry, once per ms. -/
def execWatchEvaluate (s : State) : Host.Outcome State Fault Refusal :=
  let s := s.fresh
  let due := match s.red.evaluated with | some t => decide (t + msTicks ≤ s.ticks) | none => true
  .next (if s.watchUp && s.serves 5 && due then
      let s := { s with red := { s.red with evaluated := some s.ticks } }
      (s.forEach (s.red.watches.map (·.1)) (fun e s => s.watchOne e)).watchCounted
    else s)

/-! ### Evening primrose: runs (R298-R301) -/

/-- The configuration of a path slot. -/
def slotKey (n idx : Nat) : Nat := shelf 0x2D (0x100 + n) idx
/-- Number of probes, interval in ticks, timeout in ticks of a slot. -/
def State.slotProbes (s : State) (n : Nat) : Nat := max 1 (s.f (slotKey n 2) 38 10)
/-- The length of a slot in ticks. -/
def State.slotTicks (s : State) (n : Nat) : Nat :=
  (s.slotProbes n - 1) * s.f (slotKey n 2) 18 20 * 1250 + s.f (slotKey n 2) 0 18 * msTicks
/-- The state of proof: 0 IDLE, 1 PENDING, 2 RUNNING, and the slot in progress. -/
def State.proof (s : State) : Nat := s.f Reg.proofState 0 8
/-- The slot in progress. -/
def State.proofSlot (s : State) : Nat := s.f Reg.proofState 8 8
/-- The run number. -/
def State.proofRun (s : State) : Nat := s.f Reg.proofState 32 32
/-- Whether the engines of evening primrose run. -/
def State.proofUp (s : State) : Bool := s.serves 10 && s.serves 11

/-- A slot's results as it starts or is passed over: verdict, no probes, no echo. -/
def State.slotClear (s : State) (n verdict : Nat) : State :=
  let s := s.set (slotKey n 8) (verdict * 2 ^ 56 + s.proofRun % 256 * 2 ^ 48 + 0xFFFF * 2 ^ 16)
  ((s.set (slotKey n 9) 0).set (slotKey n 10) 0).set (slotKey n 11) 0

/-- The end of a run (R301): summary, event, IDLE. -/
def State.proofEnd (s : State) (aborted : Bool) : State :=
  let ran := s.red.proofAll.filter (fun n => s.f (slotKey n 8) 56 8 != 0)
  let failed := ran.filter (fun n => decide (2 ≤ s.f (slotKey n 8) 56 8) && s.f (slotKey n 8) 56 8 != 6)
  let pair := failed.filter (fun n => s.b (slotKey n 0) 62)
  let v := if aborted then 3 else if failed.isEmpty then 1 else 2
  let s := s.set Reg.proofSummary (v * 2 ^ 56 + failed.length * 2 ^ 32 + ran.length * 2 ^ 16 + pair.length)
  let s := (s.setTime (Reg.proofSummary + 1) s.red.proofStart).setf Reg.proofState 0 16 0
  s.raise 0x704 (toLe 4 s.proofRun ++ toLe 1 v ++ [0] ++ toLe 2 failed.length ++ timeBytes s.red.proofStart)

/-- The next slot of a run starts, slots whose port is not ready taking PORT_DOWN at once (R300). -/
def State.nextSlot (s : State) : List Nat → State
  | [] => ({ s with red := { s.red with proofSlots := [] } }).proofEnd false
  | n :: rest =>
    if s.portReady (s.f (slotKey n 0) 48 8) then
      let s := { s with red := { s.red with proofSlots := rest, slotStart := s.ticks, probesSent := 0, echoSum := 0, echoMax := 0 } }
      (s.slotClear n 0).setf Reg.proofState 8 8 n
    else (s.slotClear n 5).nextSlot rest

/-- The slots of a path mask. -/
def maskSlots (p : List Byte) : List Nat := (List.range 256).filter (fun n => (u8 p (16 + n / 8)).testBit (n % 8))

/-- A run starts at domain time t; the results of its slots begin as NOT_RUN. -/
def State.proofGo (s : State) (dom t : Nat) (slots : List Nat) : State :=
  let s := { s with red := { s.red with proofStart := t, proofDom := dom, proofAll := slots } }
  let s := s.setf Reg.proofState 0 8 2
  (s.forEach slots (fun n s => s.slotClear n 0)).nextSlot slots

/-- The remaining time of a pending or running run in µs: every slot at its full length. -/
def State.proofLeft (s : State) : Nat :=
  let us := fun (ts : Nat) => (ts + 1249) / 1250
  if s.proof = 1 then
    match s.clock.actions.find? (fun a => a.opcode == 0x0D01) with
    | some a => s.usUntil a.dom a.t + us ((maskSlots a.data).map s.slotTicks).sum
    | none => 0
  else us ((s.red.proofSlots.map s.slotTicks).sum + (s.red.slotStart + s.slotTicks s.proofSlot - s.ticks))

/-- What PROOF_RUN does at step 10 of R58. -/
def proofStartRun (c : Ctx) (s : State) : Ran :=
  let dom := u8 c.p 2
  let t := timeAt c.p 4
  let num := fun (s : State) => s.setf Reg.proofState 32 32 (s.proofRun + 1)
  let reply := fun (s : State) (t : Nat) => toLe 4 s.proofRun ++ timeBytes t
  if s.proof != 0 then .error (.busy s.proofLeft) s
  else if (u8 c.p 1).testBit 0 then
    match s.due dom t with
    | .past => .error (.pastAt 4) s
    | .late => let s := num s; .reply .late (reply s (s.now dom)) (s.proofGo dom (s.now dom) (maskSlots c.p))
    | .scheduled =>
      if s.actionsFull then .error (.busy s.earliest) s
      else
        let s := (num s).setf Reg.proofState 0 8 1
        .ok (reply s t) (s.schedule 0x0D01 c.dest.tag (ownerCode c.master) dom t c.p)
  else let s := num s; .ok (reply s (s.now dom)) (s.proofGo dom (s.now dom) (maskSlots c.p))

/-- PROOF_RUN, start. -/
def proofStartCmd : Cmd := {
  opcode := 0x0D01, cls := 1, engine := some 10, pds := [14]
  ready := fun _ s => firstErr [errIf (!s.proofUp) (.bit 22), errIf (!s.timeUp) (.plain .notReady)]
  check := fun c s => firstErr [errIf (c.p.length != 48) .range, need (u8 c.p 0 == 0) 0, need (decide (u8 c.p 1 < 2)) 1,
    need (decide (u8 c.p 2 < 8)) 2, rsv c 3 1, errIf (!timeOk c.p 4) (.at 4),
    errIf (maskSlots c.p).isEmpty (.at 16),
    ((maskSlots c.p).find? (fun n => !s.b (slotKey n 0) 63)).map (fun _ => .at 16)]
  size := fun _ _ => 16
  leases := fun _ _ => [0x2D]
  run := proofStartRun }

/-- PROOF_RUN, start. -/
def execProofRunStart (q : Request) (s : State) : Host.Outcome State Fault Refusal := .next (runCmd proofStartCmd q s)

/-- A running run ends with verdict ABORTED, its slot in progress too (R299). -/
def State.proofAbort (s : State) : State :=
  if s.proof = 2 then
    let s := s.setf (slotKey s.proofSlot 8) 56 8 6
    ({ s with red := { s.red with proofSlots := [] } }).proofEnd true
  else s

/-- PROOF_RUN, abort. -/
def proofAbortCmd : Cmd := {
  opcode := 0x0D01, cls := 1, engine := some 10
  ready := fun _ s => errIf (!s.proofUp) (.bit 22)
  check := fun c s => firstErr [errIf (c.p.length != 4) .range, need (u8 c.p 0 == 1) 0, need (decide (u8 c.p 1 < 2)) 1,
    need (decide (u8 c.p 2 < 8)) 2, rsv c 3 1, errIf (s.proof != 2) .range]
  leases := fun _ _ => [0x2D]
  run := fun _ s => .ok [] s.proofAbort }

/-- PROOF_RUN, abort. -/
def execProofRunAbort (q : Request) (s : State) : Host.Outcome State Fault Refusal := .next (runCmd proofAbortCmd q s)

/-- What a cancelled proof start leaves: IDLE. -/
def State.proofCancel (s : State) : State := if s.proof = 1 then s.setf Reg.proofState 0 8 0 else s

/-- SCHEDULED_PROOF_START: at T the run starts; cancelled while its engines do not run (R318). -/
def execScheduledProofStart (h : Nat) (s : State) : Host.Outcome State Fault Refusal :=
  let s := s.fresh
  .next (match s.dueAction h 0x0D01 with
    | none => s
    | some a =>
      if s.proofUp then (s.dropAction h).proofGo a.dom a.t (maskSlots a.data)
      else ((s.dropAction h).proofCancel).outcome a 0x102 (s.outcomeTime a.dom))

/-! ### Probes and echoes (R296-R298, R300) -/

/-- Probe i of a slot, without its FCS; t1 is put in as it leaves (R296). -/
def State.probeFrame (s : State) (n i : Nat) : List Byte :=
  let vid := s.f (slotKey n 0) 28 12
  let tag := if vid = 0 then [] else toBe 2 0x8100 ++ toBe 2 (s.f (slotKey n 0) 40 3 * 8192 + vid)
  let d := toBe 6 (s.f (slotKey n 1) 0 48) ++ toBe 6 (s.f Reg.cmdInbandMac 0 48) ++ tag ++ toBe 2 0x88B6 ++ toLe 2 0x9F1D ++ [1, 1] ++
    toLe 4 s.proofRun ++ toLe 1 n ++ toLe 1 s.red.proofDom ++ toLe 2 i ++ zeros 40
  d ++ zeros (s.f (slotKey n 0) 14 14 - 4 - d.length)

/-- PROBE_SEND: the slot in progress sends its next probe on P82, in the slot's queue. -/
def execProbeSend (s : State) : Host.Outcome State Fault Refusal :=
  let s := s.fresh
  let n := s.proofSlot
  let i := s.red.probesSent
  .next (
    if s.proof = 2 && s.proofUp && decide (i < s.slotProbes n) && decide (s.red.slotStart + i * s.f (slotKey n 2) 18 20 * 1250 ≤ s.ticks) then
      let q := s.f (slotKey n 0) 44 3
      let f := { s.ownFrame 82 q (s.probeFrame n i) with action := n }
      let s := { s with red := { s.red with probesSent := i + 1 } }
      let s := s.setf (slotKey n 8) 32 16 (i + 1)
      if s.portReady 82 then ((s.storeFrame f).enqueue 82 q (cellsOf f.len) { Copy.of f f.len (decide (q < 5)) with kind := 5 }).1.collect
      else s.wrap (Reg.mcastDropLink 82) 0 64 1
    else s)

/-- The verdict of a slot that has ended (R300). -/
def State.slotVerdict (s : State) (n : Nat) : Nat :=
  let echoes := s.f (slotKey n 8) 0 16
  let lim := s.f (slotKey n 3) 0 32
  if echoes = 0 then 4
  else if s.f (slotKey n 3) 32 10 < s.slotProbes n - echoes then 2
  else if lim != 0 && decide (lim * ns16 < s.red.echoMax) then 3
  else 1

/-- SLOT_END: TIMEOUT_MS after its last probe a slot ends with its verdict, and the next slot starts. -/
def execSlotEnd (s : State) : Host.Outcome State Fault Refusal :=
  let s := s.fresh
  let n := s.proofSlot
  .next (if s.proof = 2 && s.red.probesSent == s.slotProbes n && decide (s.red.slotStart + s.slotTicks n ≤ s.ticks) then
      (s.setf (slotKey n 8) 56 8 (s.slotVerdict n)).nextSlot s.red.proofSlots
    else s)

/-- A frame that arrives whole on an external port, counted as received. One that is for what the row names is mirrored (R197) and
taken, by its bytes before the FCS; any other goes the way of every frame. -/
def State.arrive (s : State) (p : Nat) (frame : List Byte) (mine : List Byte → State → Bool) (take : List Byte → State → State) : State :=
  if s.hears p then
    let s := s.epochDue.calRxEnd p
    let ok : PcsReport := ⟨false, false, false, 0, 0, 0, 0, 0, false⟩
    let err := s.rxErr p frame.length ok frame
    if err != 0 then s.errored p err frame []
    else
      let d := frame.take (frame.length - 4)
      let s := s.countGood p d frame.length
      if mine d s then take d (s.mirrorTaken p d frame.length) else s.good p d frame.length
  else s

/-- The delay that an echo gives, in 2^-16 ns (R300). -/
def echoDelay (y : List Byte) (t4 : Nat) : Nat :=
  let gap : Int := (t4 : Int) - timeAt y 16
  let turn : Int := (timeAt y 40 : Int) - timeAt y 28
  (if (u8 y 14).testBit 0 then gap else gap - turn).toNat

/-- An echo of the run in progress that arrives on a port counted (R298, R300). -/
def State.echoTaken (s : State) (p : Nat) (y : List Byte) : State :=
  let n := s.proofSlot
  let d := echoDelay y (s.portStamp p (u8 y 9)).time
  let ns := min (d / ns16) 0xFFFFFFFF
  let k := s.f (slotKey n 8) 0 16 + 1
  let sum := s.red.echoSum + d
  let s := { s with red := { s.red with echoSum := sum, echoMax := max d s.red.echoMax } }
  let s := (s.setf (slotKey n 8) 0 16 k).setf (slotKey n 8) 16 16 (u16 y 12)
  let s := s.set (slotKey n 9) (if k = 1 then ns else min ns (s.f (slotKey n 9) 0 32))
  let s := s.set (slotKey n 10) (min (sum / k / ns16) 0xFFFFFFFF)
  let s := s.setf (slotKey n 11) 0 32 (max ns (s.f (slotKey n 11) 0 32))
  if (u8 y 14).testBit 0 then s.setf (slotKey n 11) 32 1 1 else s

/-- ECHO_RECEIVE: an echo addressed to the device whose run number and slot match the run in progress counts if it arrives before its
slot ends (R300). -/
def execEchoReceive (p : Nat) (frame : List Byte) (s : State) : Host.Outcome State Fault Refusal :=
  let s := s.fresh
  atUnit p 80 s (s.arrive p frame (fun d s => s.isProbe d) (fun d s =>
    let y := d.drop (probeOff d)
    if u8 y 2 == 1 && u8 y 3 == 2 && s.proof == 2 && s.proofUp && u32 y 4 == s.proofRun && u8 y 8 == s.proofSlot &&
        decide (u8 y 9 < 8) && decide (s.ticks < s.red.slotStart + s.slotTicks s.proofSlot) then s.echoTaken p y else s))

/-- The reflector's count for an originator, run and slot, this probe included (R297): the list is oldest first. -/
def State.reflectCount (s : State) (mac run slot : Nat) : State × Nat :=
  let l := s.red.reflectors
  let n := match l.find? (fun x => x.1 == mac) with
    | some (_, r, sl, k) => if r = run && sl = slot then k + 1 else 1
    | none => 1
  let l := l.filter (fun x => x.1 != mac)
  let l := (if l.length < 16 then l else l.drop 1) ++ [(mac, run, slot, n)]
  ({ s with red := { s.red with reflectors := l } }, n)

/-- The echo of a probe (R297); t3 is put in as it leaves, and with NO_STAMPS both times are zero. -/
def echoFrame (d : List Byte) (t2 count flags : Nat) : List Byte :=
  let o := probeOff d
  let y := d.drop o
  slice d 6 6 ++ slice d 0 6 ++ slice d 12 (o - 12) ++ slice y 0 3 ++ [2] ++ slice y 4 8 ++ toLe 2 count ++ toLe 1 flags ++ [0] ++
    slice y 16 12 ++ (if flags = 1 then zeros 12 else timeBytes t2) ++ zeros 12 ++ y.drop 52

/-- Whether a port reflects probes. -/
def State.reflects (s : State) (p : Nat) : Bool :=
  if p < 64 then s.b Reg.proofReflectPortsLo p else s.b Reg.proofReflectPortsHi (p - 64)

/-- A probe for the device reflected, or dropped (R297); the echo counts as sent when it leaves. -/
def State.reflect (s : State) (p : Nat) (d : List Byte) : State :=
  let o := probeOff d
  let y := d.drop o
  let sec := s.ticks / 1250000000
  let n := if s.red.echoSecond = sec then s.red.echoCount else 0
  if (s.serves 10 || s.serves 11) && s.reflects p && decide (n < s.f Reg.proofEchoRate 0 16) && u8 y 2 == 1 && decide (u8 y 9 < 8) then
    let s := { s with red := { s.red with echoSecond := sec, echoCount := n + 1 } }
    let r := s.reflectCount (be48 d 6) (u32 y 4) (u8 y 8)
    let q := if o = 18 then be16 d 14 / 8192 else 0
    let flags := if r.1.timeUp then 2 * bit (r.1.staleRx p) else 1
    let f := { r.1.ownFrame 82 q (echoFrame d (r.1.portStamp p (u8 y 9)).time r.2 flags) with action := 0 }
    if r.1.portReady p then
      ((r.1.storeFrame f).enqueue p q (cellsOf f.len) { Copy.of f f.len (decide (q < 5)) with kind := (if flags = 1 then 8 else 6) }).1.collect
    else r.1.wrap (Reg.mcastDropLink p) 0 64 1
  else s.count Reg.proofReflectCnt 32 32 1

/-- PROBE_REFLECT: a probe addressed to the device. -/
def execProbeReflect (p : Nat) (frame : List Byte) (s : State) : Host.Outcome State Fault Refusal :=
  let s := s.fresh
  atUnit p 80 s (s.arrive p frame (fun d s => s.isProbe d) (fun d s =>
    if u8 d (probeOff d + 3) == 1 then s.reflect p d else s))

end Sys2Proof.Machine
end

