-- ==== Sys2Proof/Machine/Refs.lean ====
section
/-! DEFINITION. References, selection, holdover and ESMC (R360-R381). -/
namespace Sys2Proof.Machine

/-! ### DPLLs: frequency and level (R368-R375) -/

/-- A DPLL's hidden state. -/
def State.dpll (s : State) (i : Nat) : DpllSide := s.ref.dplls.getD i DpllSide.reset
/-- A DPLL's hidden state changed. -/
def State.setDpll (s : State) (i : Nat) (f : DpllSide → DpllSide) : State :=
  { s with ref := { s.ref with dplls := modifyAt s.ref.dplls i f } }
/-- A selector's hidden state. -/
def State.sel (s : State) (i : Nat) : SelSide := s.ref.sels.getD i SelSide.reset
/-- A selector's hidden state changed. -/
def State.setSel (s : State) (i : Nat) (f : SelSide → SelSide) : State :=
  { s with ref := { s.ref with sels := modifyAt s.ref.sels i f } }
/-- The frequency in force of a DPLL, in units of 2^-40 (R22). -/
def State.dpllFreq (s : State) (i : Nat) : Int := signed 32 (s.get (Reg.dpllStatus i))
/-- A frequency held within the range of R22. -/
def clampFreq (f : Int) : Int := max (-(2 ^ 31)) (min (2 ^ 31 - 1) f)

/-- The past frequencies of a DPLL from a tick on: older entries go, but for the one in force at it. -/
def pruneHist (since : Nat) : List (Nat × Int) → List (Nat × Int)
  | a :: b :: r => if b.1 ≤ since then pruneHist since (b :: r) else a :: b :: r
  | l => l
/-- The sum of frequency times ticks over a span, from a list of changes in rising order. -/
def histArea (a b : Nat) : List (Nat × Int) → Int
  | [] => 0
  | [(t, f)] => f * ((b - max a t : Nat) : Int)
  | (t, f) :: (u, g) :: r => f * ((min b u - max a t : Nat) : Int) + histArea a b ((u, g) :: r)

/-- A DPLL's frequency in force set, with its domain's rate. The past kept covers the longest average, 3,610 s (R375). -/
def State.setFreq (s : State) (i : Nat) (f : Int) : State :=
  let f := clampFreq f
  let s := s.setf (Reg.dpllStatus i) 0 32 (unsigned 32 f)
  let s := s.setDpll i (fun x => { x with
    hist := pruneHist (s.ticks - 4512500000000) (x.hist.filter (fun (h : Nat × Int) => decide (h.1 < s.ticks)) ++ [(s.ticks, f)]) })
  if i < 8 then (s.setDom i (fun x => { x with freq := f })).setf (Reg.timeFreq i) 0 32 (unsigned 32 f) else s

/-- The plane a domain takes its frequency from while its loop is closed: 8 or 9 (R377). -/
def State.hybrid (s : State) (i : Nat) : Option Nat :=
  let v := s.f (Reg.dpllCfg i) 58 2
  if i < 8 && (v = 1 || v = 2) then some (7 + v) else none
/-- The frequency a hybrid domain has from its plane. -/
def State.planeFreq (s : State) (i : Nat) : Int :=
  match s.hybrid i with | some k => if (s.dpll i).live then s.dpllFreq k else 0 | none => 0
/-- Whether E4 steers a DPLL that slews (R369). -/
def State.slewing (s : State) (i : Nat) : Bool := (s.dpll i).live && (s.dpll i).pending != 0
/-- A DPLL's frequency brought in force: its loop's, its plane's, and the slew's (R369, R377). -/
def State.retuneOne (s : State) (i : Nat) : State :=
  let x := s.dpll i
  let g : Int := if s.slewing i then (if x.pending < 0 then ppbUnits x.slew else -(ppbUnits x.slew : Int)) else 0
  let f := clampFreq (x.base + s.planeFreq i + g)
  if f = s.dpllFreq i then s else s.setFreq i f
/-- A DPLL so, and, of a plane, the domains that take its frequency. -/
def State.retuneDpll (s : State) (i : Nat) : State :=
  let s := s.retuneOne i
  if i < 8 then s else s.forEach ((List.range 8).filter (fun d => s.hybrid d == some i)) (fun d s => s.retuneOne d)

/-- The level of a DPLL: 0 FREE, 1 ACQUIRING, 2 LOCKED, 3 HOLDOVER. -/
def State.level (s : State) (i : Nat) : Nat := s.f (Reg.dpllStatus i) 60 4
/-- Whether the holdover estimate is valid (R375): it becomes so once LOCKED has lasted HO_AVG_S and HO_GUARD_MS. -/
def State.hoValid (s : State) (i : Nat) : Bool :=
  s.b (Reg.dpllStatus i) 59 || (s.level i == 2 && (match (s.dpll i).lockedAt with
    | some t => decide (t + s.f (Reg.dpllHoCfg i) 48 16 * 1250000000 + s.f (Reg.dpllHoCfg i) 32 16 * 1250000 ≤ s.ticks)
    | none => false))
/-- HO_VALID shown. -/
def State.showValid (s : State) (i : Nat) : State := s.setf (Reg.dpllStatus i) 59 1 (bit (s.hoValid i))
/-- The holdover estimate. -/
def State.hoFreq (s : State) (i : Nat) : Int := signed 32 (s.get (Reg.dpllHoFreq i))

/-- A DPLL enters a level: DPLL_LEVEL, counts, DEV_TD_LEVEL and TDn of a domain, and outputs that squelch (R374, R386). -/
def State.setLevel (s : State) (i new : Nat) : State :=
  let old := s.level i
  if new = old then s
  else
    let s := (s.showValid i).setf (Reg.dpllStatus i) 60 4 new
    let s := s.setDpll i (fun x => { x with lockedAt := if new = 2 then some s.ticks else none })
    let s := if new = 3 then s.count (Reg.dpllCnt i) 48 16 1 else if new = 2 then s.count (Reg.dpllCnt i) 32 16 1 else s
    let s := if i < 8 then s.setf Reg.devTdLevel (4 * i) 4 new else s
    ((s.raise 0xA03 (toLe 1 i ++ toLe 1 new ++ toLe 1 old ++ [0])).refresh).outWantAll

/-- A DPLL frozen at a frequency: its loop opens and nothing is slewed. -/
def State.openLoop (s : State) (i : Nat) (f : Int) : State :=
  (s.setDpll i (fun x => { x with base := f, pending := 0, live := false, calmAt := none })).retuneDpll i
/-- No reference is selected: HOLDOVER on the estimate, or FREE at the frequency in force (R374, R375). -/
def State.holdOver (s : State) (i : Nat) : State :=
  if s.hoValid i then (s.openLoop i (s.hoFreq i)).setLevel i 3 else (s.openLoop i (s.dpllFreq i)).setLevel i 0

/-- E4 stops: every DPLL it has steered holds its last frequency in HOLDOVER, and a slew stops (R44, R374). -/
def State.servoDown (s : State) : State :=
  s.forEach (List.range 10) (fun i s =>
    if s.level i = 0 then s
    else
      let f := (s.dpll i).base + s.planeFreq i
      ((s.setDpll i (fun x => { x with base := f, live := false, calmAt := none })).retuneDpll i).setLevel i 3)

/-- One tick of a domain's DPLL: a slew moves on by its rate for 0.8 ns (R369). -/
def State.slewTick (s : State) (i : Nat) : State :=
  if s.slewing i then
    let x := s.dpll i
    let g : Int := (4 * ppbUnits x.slew : Nat)
    if x.pending.natAbs ≤ g.toNat then (s.setDpll i (fun x => { x with pending := 0 })).retuneDpll i
    else s.setDpll i (fun x => { x with pending := x.pending - (if x.pending < 0 then -g else g) })
  else s

/-! ### References (R360-R365) -/

/-- The state of a reference (R362). -/
def State.refState (s : State) (r : Nat) : Nat := s.f (Reg.refselRefStatus r) 40 4
/-- The measured frequency offset of a reference. -/
def State.refFreq (s : State) (r : Nat) : Int := signed 32 (s.get (Reg.refselRefStatus r))
/-- The source port of a PREF. -/
def State.prefPort (s : State) (r : Nat) : Nat := s.f (Reg.refselRefCfg r) 48 8
/-- The slave port of a PTP instance, 0xFF for none. -/
def State.slavePort (s : State) (d : Nat) : Nat := s.f (Reg.ptpInstStatus (0x3F0 + d)) 40 8
/-- The portState of a port of an instance. -/
def State.ptpState (s : State) (d p : Nat) : Nat := s.f (Reg.ptpPortStatus (ptpPort d p)) 0 4
/-- 2 to the power of a signed log interval, in ticks: 1 s is 1,250,000,000 ticks (R332). -/
def logTicks (v : Nat) : Nat :=
  let i := signed 8 v
  if i < 0 then 1250000000 / 2 ^ i.natAbs else 1250000000 * 2 ^ i.toNat
/-- The Sync receipt timeout of a port, in ticks (R361). -/
def State.syncTimeout (s : State) (d p : Nat) : Nat :=
  s.f (Reg.ptpPortCfg2 (ptpPort d p)) 0 8 * logTicks (s.f (Reg.ptpPortCfg (ptpPort d p)) 24 8)
/-- Whether a link has the VALID state. -/
def State.linkIsValid (s : State) (p : Nat) : Bool := decide (p < 80) && s.linkState p == 3

/-- The condition of R361 that a reference fails: 0 none, 1 activity, 2 frequency, 3 link, 4 PTP, 5 disabled. -/
def State.refFails (s : State) (r : Nat) : Nat :=
  let freq := if decide ((s.refFreq r).natAbs * 1000000000 ≤ s.f (Reg.refselRefQual r) 0 32 * 2 ^ 40) then 0 else 2
  if !s.b (Reg.refselRefCfg r) 63 then 5
  else if r < 8 then (if s.ref.edges.testBit r then freq else 1)
  else if r < 24 then
    let p := s.prefPort r
    if s.linkIsValid p && s.rxState (s.rxRef p) == 4 then freq else 3
  else
    let d := r - 24
    let p := s.slavePort d
    let x := s.ptp.insts.getD d PtpInst.reset
    if s.f (Reg.ptpInstCfg (0x3F0 + d)) 62 2 = 1 && decide (p < 80) && decide (8 ≤ s.ptpState d p) &&
        (match x.last with | some t => decide (s.ticks ≤ t + s.syncTimeout d p) | none => false) then
      (if s.linkIsValid p then freq else 3)
    else 4

/-- A port of an instance enters a state: PTP_PORT_STATE (R337). -/
def State.setPtpState (s : State) (d p new : Nat) : State :=
  let old := s.ptpState d p
  if new = old then s
  else (s.setf (Reg.ptpPortStatus (ptpPort d p)) 0 4 new).raise 0x801 (toLe 1 d ++ toLe 1 p ++ toLe 1 new ++ toLe 1 old)

/-- The slave port of a DREF follows it into and out of QUALIFIED (R334). -/
def State.slaveFollows (s : State) (r new old : Nat) : State :=
  let p := s.slavePort (r - 24)
  if 24 ≤ r && decide (p < 80) && s.serves (2 + (r - 24) / 4) then
    (if new = 4 && s.ptpState (r - 24) p = 8 then s.setPtpState (r - 24) p 9
     else if old = 4 && s.ptpState (r - 24) p = 9 then s.setPtpState (r - 24) p 8 else s)
  else s

/-- A reference enters a state: REF_STATE, its counts, REFSEL readiness, and the slave port of a DREF (R334, R362). -/
def State.setRef (s : State) (r new cond : Nat) : State :=
  let old := s.refState r
  if new = old then s
  else
    let s := s.setf (Reg.refselRefStatus r) 40 4 new
    let s := { s with ref := { s.ref with
      since := assocSet s.ref.since r s.ticks
      lapsed := if old = 4 then setBits s.ref.lapsed r 1 1 else s.ref.lapsed } }
    let s := if new = 1 then s.count (Reg.refselRefCnt r) 32 32 1 else if new = 4 then s.count (Reg.refselRefCnt r) 0 32 1 else s
    ((s.raise 0xA00 (toLe 1 r ++ toLe 1 new ++ toLe 1 old ++ toLe 1 cond)).slaveFollows r new old).refresh

/-- Since when a reference is in its state. -/
def State.refSince (s : State) (r : Nat) : Nat := (assoc s.ref.since r).getD 0
/-- The wait-to-restore of a reference has passed, counted from the start of the wait (R362). -/
def State.wtrDone (s : State) (r : Nat) : Bool :=
  decide (s.refSince r + s.f (Reg.refselRefQual r) 48 16 * 1250000000 ≤ s.ticks)
/-- The rest of a wait, in whole seconds, rounded up. -/
def State.wtrLeft (s : State) (r : Nat) : Nat :=
  if s.refState r = 3 then
    (s.refSince r + s.f (Reg.refselRefQual r) 48 16 * 1250000000 - s.ticks + 1249999999) / 1250000000 else 0
/-- MONITORING has lasted QUAL_MS with every condition held. -/
def State.monitored (s : State) (r : Nat) : Bool :=
  decide (s.refSince r + s.f (Reg.refselRefQual r) 32 16 * 1250000 ≤ s.ticks)

/-- A reference's failure, if it fails a condition (R361). -/
def State.refDown (s : State) (r : Nat) : State :=
  let c := s.refFails r
  if c = 5 then s.setRef r 0 5
  else if c != 0 && decide (2 ≤ s.refState r) then s.setRef r 1 c else s
/-- A reference's advance while it fails none: MONITORING, WTR, QUALIFIED (R362). -/
def State.refUp (s : State) (r : Nat) : State :=
  if s.refFails r != 0 then s
  else match s.refState r with
    | 0 => s.setRef r 2 0
    | 1 => s.setRef r 2 0
    | 2 => if s.monitored r then s.setRef r 3 0 else s
    | 3 => if s.wtrDone r then s.setRef r 4 0 else s
    | _ => s

/-- A write of ENABLE or of WTR_S takes effect (R362). -/
def State.refWritten (s : State) (r : Nat) : State :=
  if !s.b (Reg.refselRefCfg r) 63 then s.setRef r 0 5
  else if s.refState r = 0 then s.setRef r 2 0
  else if s.refState r = 3 && s.f (Reg.refselRefQual r) 48 16 = 0 then s.refUp r else s

/-- Whether the source path of a reference is stale (R363). -/
def State.refStale (s : State) (r : Nat) : Bool :=
  if r < 8 then false
  else if r < 24 then s.staleRx (s.prefPort r)
  else decide (s.slavePort (r - 24) < 80) && s.b (Reg.ptpPortStatus (ptpPort (r - 24) (s.slavePort (r - 24)))) 6

/-! ### Quality levels (R365, R379, R380) -/

/-- Whether a port's received level is FAILED. -/
def State.qlFailed (s : State) (p : Nat) : Bool := (assoc s.ref.heard p).isNone || !s.b (Reg.refselPortCfg (0x200 + p)) 60
/-- The quality level of a reference; none for a REFIN or DREF without a fixed one. -/
def State.refQl (s : State) (r : Nat) : Option Nat :=
  if s.b (Reg.refselRefCfg r) 61 then some (s.f (Reg.refselRefCfg r) 56 4)
  else if 8 ≤ r && r < 24 then some (if s.prefPort r < 80 then s.f (Reg.refselPortStatus (0x200 + s.prefPort r)) 0 4 else 0xF) else none
/-- Whether that level is the FAILED one of a port. -/
def State.refQlFailed (s : State) (r : Nat) : Bool :=
  !s.b (Reg.refselRefCfg r) 61 && decide (8 ≤ r) && decide (r < 24) && (decide (80 ≤ s.prefPort r) || s.qlFailed (s.prefPort r))
/-- The level shown or sent for a reference: one without a level has an open value. -/
def State.refQlShown (s : State) (r : Nat) : Nat := (s.refQl r).getD (Config.noLevel r % 16)
/-- The levels of an option, best first; DNU and DUS are not among them. -/
def qlOrder (option : Nat) : List Nat := if option = 0 then [0x2, 0x4, 0x8, 0xB] else [0x1, 0x0, 0x7, 0x4, 0xD, 0xA, 0xC, 0xE]
/-- The place of a reference's level in a selector's option; none makes it ineligible. -/
def State.qlPlace (s : State) (sel r : Nat) : Option Nat :=
  if s.refQlFailed r then none
  else match s.refQl r with
    | none => none
    | some q => (qlOrder (s.f (Reg.refselSelCfg (0x100 + sel)) 61 1)).findIdx? (· == q)

/-! ### Ranks and order (R360, R364) -/

/-- Whether a selector can use a reference (R360). -/
def State.usable (s : State) (sel r : Nat) : Bool :=
  if r < 8 then sel < 8 && (s.hybrid sel).isNone || 8 ≤ sel || s.b (Reg.refselRefCfg r) 62
  else if r < 24 then (s.hybrid sel).isNone else r == 24 + sel
/-- The rank of a reference in a selector. -/
def State.rank (s : State) (sel r : Nat) : Nat :=
  if r < 16 then s.f (Reg.refselRankLo (0x100 + sel)) (4 * r) 4 else s.f (Reg.refselRankHi (0x100 + sel)) (4 * (r - 16)) 4
/-- Whether a selector has marked a reference DISAGREE. -/
def State.marked (s : State) (sel r : Nat) : Bool := ((s.sel sel).marks.any (fun m => m.1 == r))
/-- QL_EN of a selector. -/
def State.qlEn (s : State) (sel : Nat) : Bool := s.b (Reg.refselSelCfg (0x100 + sel)) 62
/-- Whether a reference of a view of the qualified ones could be selected but for a mark. -/
def State.admissible (s : State) (sel view r : Nat) : Bool :=
  view.testBit r && s.rank sel r != 0 && (!s.qlEn sel || (s.qlPlace sel r).isSome)
/-- Whether a reference is eligible (R364). -/
def State.refEligible (s : State) (sel view r : Nat) : Bool := s.admissible sel view r && !s.marked sel r
/-- The keys of R364 as one number, better lower: level, staleness, rank. -/
def State.orderKey (s : State) (sel r : Nat) : Nat :=
  (if s.qlEn sel then ((s.qlPlace sel r).getD 15) * 32 else 0) +
    (if s.refStale r && s.b (Reg.refselRefCfg r) 60 then 16 else 0) + s.rank sel r
/-- The eligible references with the least key, in number order. -/
def State.bestSet (s : State) (sel view : Nat) : List Nat :=
  let l := (List.range 32).filter (s.refEligible sel view)
  let k := (l.map (s.orderKey sel)).foldl min 0xFFFF
  l.filter (fun r => s.orderKey sel r == k)

/-- The state of a selector: 0 NONE, 1 SELECTED, 2 SWITCHING. -/
def State.selState (s : State) (sel : Nat) : Nat := s.f (Reg.refselSelStatus (0x100 + sel)) 36 4
/-- The selected reference, 0xFF for none. -/
def State.selected (s : State) (sel : Nat) : Nat := s.f (Reg.refselSelStatus (0x100 + sel)) 56 8
/-- The target of a switch, 0xFF for none. -/
def State.target (s : State) (sel : Nat) : Nat := s.f (Reg.refselSelStatus (0x100 + sel)) 48 8
/-- The forced reference, 0xFF for none. -/
def State.forcedRef (s : State) (sel : Nat) : Nat := s.f (Reg.refselSelStatus (0x100 + sel)) 40 8
/-- Selected reference, target and state set. -/
def State.setSelStatus (s : State) (sel selected target st : Nat) : State :=
  ((s.setf (Reg.refselSelStatus (0x100 + sel)) 56 8 selected).setf (Reg.refselSelStatus (0x100 + sel)) 48 8 target).setf
    (Reg.refselSelStatus (0x100 + sel)) 36 4 st
/-- REF_SWITCH (R391). -/
def State.refSwitch (s : State) (sel src dst what : Nat) (offset : Int) : State :=
  s.raise 0xA01 (toLe 1 sel ++ toLe 1 src ++ toLe 1 dst ++ toLe 1 what ++ toLe 8 (unsigned 64 offset))

/-! ### Switches (R366-R369) -/

/-- A switch starts: the DPLL is frozen at its estimate, or at the frequency in force; out of NONE it becomes ACQUIRING. -/
def State.startSwitch (s : State) (sel r : Nat) : State :=
  let old := s.selected sel
  let lvl := s.level sel
  let s := s.openLoop sel (if s.hoValid sel then s.hoFreq sel else s.dpllFreq sel)
  let s := s.setDpll sel (fun x => { x with fromFree := lvl = 0 })
  let s := ((s.setSelStatus sel old r 2).setSel sel (fun x => { x with since := s.ticks })).refSwitch sel old r 0 0
  if lvl = 0 || lvl = 3 then s.setLevel sel 1 else s
/-- A switch abandoned (R367): NONE, and holdover for at least SWITCH_MEAS_MS. -/
def State.abandon (s : State) (sel : Nat) : State :=
  let s := s.refSwitch sel (s.selected sel) (s.target sel) 2 0
  let s := (s.count (Reg.refselSelCnt (0x100 + sel)) 0 32 1).setSelStatus sel 0xFF 0xFF 0
  (s.setSel sel (fun x => { x with holdUntil := s.ticks + s.f (Reg.dpllSwitchCfg sel) 48 16 * 1250000 })).holdOver sel
/-- The selected reference is lost and nothing follows it. -/
def State.deselect (s : State) (sel : Nat) : State := (s.setSelStatus sel 0xFF 0xFF 0).holdOver sel

/-- Whether a reference is a phase reference for a DPLL (R360, R369, R377). -/
def State.phaseRef (s : State) (i r : Nat) : Bool :=
  decide (i < 8) && (decide (24 ≤ r) || (decide (r < 8) && s.b (Reg.refselRefCfg r) 62) || (s.hybrid i).isSome)
/-- A measured offset of a REFIN corrected for REFSEL_REF_DELAY (R360). -/
def State.corrected (s : State) (r : Nat) (phi : Int) : Int := if r < 8 then phi - s.get (Reg.refselRefDelay r) else phi
/-- An offset reduced to half a period either way, (-P / 2, P / 2], for a REFIN (R369). -/
def State.reduced (s : State) (r : Nat) (x : Int) : Int :=
  let f := s.f (Reg.refselRefCfg r) 0 32
  if r < 8 && f != 0 then
    let y := (x * f) % (sec16 : Int)
    let z := if (sec16 : Int) < 2 * y then y - sec16 else y
    roundDiv z f
  else x
/-- The written offset U of a domain (R381). -/
def State.userOffset (s : State) (i : Nat) : Int := signed 64 (s.get (Reg.dpllUserOffset i))

/-- The error of a DPLL from a measured offset of its selected reference: against its origin, or against U and what is still
to be slewed (R369, R381). -/
def State.phaseError (s : State) (i r : Nat) (phi : Int) : Int :=
  let x := s.dpll i
  if s.phaseRef i r then s.reduced r (s.corrected r phi - s.userOffset i) - x.pending / (fine16 : Int) else s.corrected r phi - x.origin

/-- A reading of a closed loop: its frequency, without a slew, and its error. -/
def State.loopReading (s : State) (i : Nat) (freq phi : Int) : State :=
  if (s.dpll i).live then
    let e := s.phaseError i (s.selected i) phi
    let s := s.set (Reg.dpllPhaseErr i) (unsigned 64 e)
    let calm := decide (e.natAbs * 1000 ≤ s.f (Reg.dpllCfg i) 32 16 * 65536)
    (s.setDpll i (fun x => { x with
      base := freq, calmAt := if calm then some (x.calmAt.getD s.ticks) else none })).retuneDpll i
  else s

/-- The step of a first closing, if the rule of its target asks for one (R336, R369). -/
def State.firstStep (s : State) (i r : Nat) (x : Int) : Bool :=
  let lim := if r < 24 then s.f (Reg.dpllFirstStepNs i) 0 32
    else (let v := s.f (Reg.ptpServoStep (0x3F0 + i)) 0 32; if v = 0 then 1000 else v)
  lim != 0 && decide (lim * ns16 < x.natAbs)

/-- A loop closes on a target with a measured offset (R369). -/
def State.close (s : State) (i r : Nat) (phi : Int) : State :=
  let phi := s.corrected r phi
  let was := s.dpll i
  let s := s.setDpll i (fun x => { x with live := true, fromFree := false, calmAt := none })
  let s := s.setDpll i (fun x => { x with base := was.base - s.planeFreq i })
  if s.phaseRef i r then
    let x := s.reduced r (phi - s.userOffset i)
    if was.fromFree && s.firstStep i r x then
      let s := if 24 ≤ r then s.count (Reg.ptpInstCnt (0x3F0 + i)) 16 16 1 else s
      { s with clock := { s.clock with landings := s.clock.landings ++ [{ dom := i, absolute := false, amount := -x, cause := 2 }] } }
    else
      (s.setDpll i (fun y => { y with pending := x * fine16, slew := s.f (Reg.dpllSwitchCfg i) 0 32 })).retuneDpll i
  else (s.setDpll i (fun y => { y with origin := phi })).retuneDpll i

/-! ### Disagreement (R371) -/

/-- The reference that a selector has or is acquiring. -/
def State.current (s : State) (sel : Nat) : Nat := if s.selState sel = 2 then s.target sel else s.selected sel
/-- Whether two references disagree. -/
def State.disagree (s : State) (sel a b : Nat) : Bool :=
  decide (s.f (Reg.refselSelCfg (0x100 + sel)) 32 16 * 2 ^ 40 < (s.refFreq a - s.refFreq b).natAbs * 1000000000)
/-- A difference of frequencies in ppb. -/
def diffPpb (a b : Int) : Int := roundDiv ((a - b) * 1000000000) (2 ^ 40)
/-- REF_DISAGREE (R391). -/
def State.refDisagree (s : State) (sel kept mark what : Nat) : State :=
  s.raise 0xA02 (toLe 1 sel ++ toLe 1 kept ++ toLe 1 mark ++ toLe 1 what ++
    toLe 4 (unsigned 32 (diffPpb (s.refFreq mark) (s.refFreq kept))))
/-- The DISAGREE bit of a reference: some selector has marked it. -/
def State.showMark (s : State) (r : Nat) : State :=
  s.setf (Reg.refselRefStatus r) 38 1 (bit ((List.range 10).any (fun k => s.marked k r)))
/-- The admissible references of equal rank with one that disagree with it are marked. -/
def State.markAll (s : State) (sel view r : Nat) : State :=
  s.forEach ((List.range 32).filter (fun q => q != r && s.refEligible sel view q && s.orderKey sel q == s.orderKey sel r &&
      s.disagree sel q r))
    (fun q s => ((s.setSel sel (fun x => { x with marks := x.marks ++ [(q, none)] })).refDisagree sel r q 0).showMark q)
/-- A mark cleared. -/
def State.unmark (s : State) (sel q : Nat) : State :=
  ((s.setSel sel (fun x => { x with marks := x.marks.filter (fun (m : Nat × Option Nat) => m.1 != q) })).refDisagree sel
    (s.current sel) q 1).showMark q
/-- Whether a marked reference still has a selected one of equal rank. -/
def State.markHolds (s : State) (sel q : Nat) : Bool :=
  let r := s.current sel
  s.selState sel != 0 && decide (r < 32) && s.rank sel q != 0 && s.orderKey sel q == s.orderKey sel r
/-- Marks brought up to date: those without an equal-rank selection go; of the rest, since when each agrees. -/
def State.tendMarks (s : State) (sel : Nat) : State :=
  let s := s.forEach ((s.sel sel).marks.filter (fun (m : Nat × Option Nat) => !s.markHolds sel m.1)) (fun m s => s.unmark sel m.1)
  s.setSel sel (fun x => { x with marks := x.marks.map (fun (m : Nat × Option Nat) =>
    (m.1, if s.disagree sel m.1 (s.current sel) then none else some (m.2.getD s.ticks))) })

/-- Which of the best references a selection takes: of a set that disagrees the one closest to the estimate, otherwise the
lowest-numbered (R371). -/
def State.pickRef (s : State) (sel view : Nat) : Option Nat :=
  let l := s.bestSet sel view
  if l.any (fun a => l.any (fun b => s.disagree sel a b)) && s.hoValid sel then
    let dist := fun r => (s.refFreq r - s.hoFreq sel).natAbs
    let m := (l.map dist).foldl min (2 ^ 40)
    l.find? (fun r => dist r == m)
  else l.head?

/-! ### Evaluation (R366, R367, R372) -/

/-- A switch to the best reference, with the marks its choice makes; NONE if there is none. -/
def State.switchBest (s : State) (sel view : Nat) : Option State :=
  (s.pickRef sel view).map (fun r => (s.startSwitch sel r).markAll sel view r)

/-- One selector's reaction to a view of the qualified references (R367, R372). -/
def State.react (s : State) (sel view : Nat) : State :=
  let f := s.forcedRef sel
  let free := decide ((s.sel sel).holdUntil ≤ s.ticks)
  let st := s.selState sel
  let r := s.selected sel
  if f != 0xFF then
    if st = 1 then (if !view.testBit f then s.deselect sel else if r = f then s else s.startSwitch sel f)
    else if st = 2 then (if view.testBit (s.target sel) then s else s.abandon sel)
    else if free && view.testBit f then s.startSwitch sel f else s
  else if st = 1 then
    if !s.refEligible sel view r then (s.switchBest sel view).getD (s.deselect sel)
    else
      let s := s.markAll sel view r
      let b := s.bestSet sel view
      if s.b (Reg.refselSelCfg (0x100 + sel)) 63 && b.any (fun q => decide (s.orderKey sel q < s.orderKey sel r))
      then (s.switchBest sel view).getD s else s
  else if st = 2 then (if s.refEligible sel view (s.target sel) then s else s.abandon sel)
  else if free then (s.switchBest sel view).getD s else s
/-- Every selector's reaction. -/
def State.reactAll (s : State) (view : Nat) : State :=
  (s.forEach (List.range 10) (fun k s => s.react k view)).forEach (List.range 10) (fun k s => s.tendMarks k)

/-- The mask of qualified references. -/
def State.qualified (s : State) : Nat := maskOf ((List.range 32).filter (s.refQualified))
/-- The changes since the last evaluation applied: failures first, then qualifications, each in reference order (R366). -/
def State.applyChanges (s : State) : State :=
  let now := s.qualified
  let view := s.ref.view
  let lost := (List.range 32).filter (fun r => view.testBit r && (!now.testBit r || s.ref.lapsed.testBit r))
  let kept := maskOf ((List.range 32).filter (fun r => view.testBit r && !lost.contains r))
  let gained := (List.range 32).filter (fun r => now.testBit r && !kept.testBit r)
  let a := lost.foldl (fun (x : Nat × State) r => (setBits x.1 r 1 0, x.2.reactAll (setBits x.1 r 1 0))) (view, s)
  let b := gained.foldl (fun (x : Nat × State) r => (setBits x.1 r 1 1, x.2.reactAll (setBits x.1 r 1 1))) a
  let s := b.2.reactAll now
  { s with ref := { s.ref with view := now, lapsed := 0 } }

/-- A loop that E4 takes back after a stop (R44, R366). -/
def State.takeBack (s : State) (i : Nat) : State :=
  if s.selState i = 1 && !(s.dpll i).live then
    let s := s.setDpll i (fun x => { x with live := true })
    let s := s.setDpll i (fun x => { x with base := x.base - s.planeFreq i })
    (s.retuneDpll i).setLevel i 1
  else if s.selState i = 2 && s.level i = 3 then s.setLevel i 1 else s

/-- What REFSEL shows of references and selectors after an evaluation. -/
def State.showRefs (s : State) : State :=
  let s := s.forEach (List.range 32) (fun r s =>
    (((s.setf (Reg.refselRefStatus r) 44 4 (s.refQlShown r)).setf (Reg.refselRefStatus r) 39 1 (bit (s.refStale r))).setf
      (Reg.refselRefStatus r) 37 1 (bit (s.refQlFailed r))))
  s.forEach (List.range 10) (fun k s =>
    let view := s.ref.view
    ((s.setf (Reg.refselSelStatus (0x100 + k)) 0 32 (maskOf ((List.range 32).filter (s.refEligible k view)))).setf
      (Reg.refselSelStatus (0x100 + k)) 32 4 (if s.selected k < 32 then s.refQlShown (s.selected k) else 0)).showValid k)

/-! ### ESMC (R379, R380) -/

/-- The level a port sends (R379). -/
def State.qlSent (s : State) (p : Nat) : Nat :=
  let pl := s.f (Reg.refselPortCfg (0x200 + p)) 62 2
  let k := if pl = 0 then 8 else 7 + pl
  let hold := if s.b (Reg.refselSelCfg (0x100 + k)) 61 then 0xA else 0xB
  if pl = 0 then hold
  else
    let r := s.current k
    if (s.level k = 1 || s.level k = 2) && r < 32 then
      (if 8 ≤ r && r < 24 && s.prefPort r = p then 0xF else s.refQlShown r)
    else hold
/-- An ESMC PDU (ITU-T G.8264; notes/assumptions/46.md): an event PDU has its event flag set. -/
def State.esmcFrame (s : State) (event : Bool) (ql : Nat) : List Byte :=
  toBe 6 0x0180C2000002 ++ toBe 6 (s.f Reg.cmdInbandMac 0 48) ++ toBe 2 0x8809 ++ [0x0A] ++ toBe 3 0x0019A7 ++ toBe 2 1 ++
    toLe 1 (0x10 + 8 * bit event) ++ zeros 3 ++ [0x01] ++ toBe 2 4 ++ toLe 1 ql ++ zeros 32
/-- Whether a port sends ESMC. -/
def State.esmcTx (s : State) (p : Nat) : Bool := s.b (Reg.refselPortCfg (0x200 + p)) 61
/-- A PDU sent, with its level shown. -/
def State.sendEsmc (s : State) (p : Nat) (event : Bool) : State :=
  (s.setf (Reg.refselPortStatus (0x200 + p)) 4 4 (s.qlSent p)).deviceSend p 7 (s.esmcFrame event (s.qlSent p))
/-- Event PDUs of the ports whose level has changed. -/
def State.esmcEvents (s : State) : State :=
  s.forEach ((List.range 80).filter (fun p => s.esmcTx p && s.portReady p && s.f (Reg.refselPortStatus (0x200 + p)) 4 4 != s.qlSent p))
    (fun p s => s.sendEsmc p true)
/-- The received level of a port set: ESMC_QL on a change (R380). -/
def State.setQl (s : State) (p new timedOut : Nat) : State :=
  let old := s.f (Reg.refselPortStatus (0x200 + p)) 0 4
  let s := s.setf (Reg.refselPortStatus (0x200 + p)) 0 4 new
  if new = old && timedOut = 0 then s else s.raise 0xA05 (toLe 1 p ++ toLe 1 new ++ toLe 1 old ++ toLe 1 timedOut)

/-! ### The events -/

/-- Whether E4 selects: its engine runs and PD14's hardware is clocked. -/
def State.selects (s : State) : Bool := s.serves 4 && s.timeUp

/-- REF_EVALUATE, once per ms: edges are the REFINs with rising edges, freqs the frequencies newly measured (R361), loops the readings of
the closed loops (R373). -/
def execRefEvaluate (edges : Nat) (freqs : List (Nat × Int)) (loops : List LoopReading) (s : State) :
    Host.Outcome State Fault Refusal :=
  let s := s.fresh
  .next (if s.selects && s.rested 18 1250000 then
      let s := s.mark 18
      let s := { s with ref := { s.ref with edges := edges } }
      let s := s.forEach (freqs.filter (fun (x : Nat × Int) => decide (x.1 < 32))) (fun x s =>
        s.setf (Reg.refselRefStatus x.1) 0 32 (unsigned 32 x.2))
      let s := s.forEach (List.range 10) (fun i s => s.takeBack i)
      let s := s.forEach (loops.filter (fun x => decide (x.dpll < 10))) (fun x s => s.loopReading x.dpll x.freq x.phase)
      let s := s.forEach (List.range 32) (fun r s => s.refDown r)
      let s := s.forEach (List.range 32) (fun r s => s.refUp r)
      s.applyChanges.showRefs.esmcEvents
    else s)

/-- REF_FAILURE: a monitor detects that a REFIN has lost its edges (lost), or another failed condition of R361. -/
def execRefFailure (r : Nat) (lost : Bool) (s : State) : Host.Outcome State Fault Refusal :=
  let s := s.fresh
  atUnit r 32 s (
    if s.timeUp then
      let s := if lost && decide (r < 8) then { s with ref := { s.ref with edges := setBits s.ref.edges r 1 0 } } else s
      s.refDown r
    else s)

/-- REF_MONITOR_PASS. -/
def execRefMonitorPass (r : Nat) (s : State) : Host.Outcome State Fault Refusal :=
  let s := s.fresh
  atUnit r 32 s (if s.selects && s.refState r == 2 then s.refUp r else s)

/-- WTR_EXPIRY. -/
def execWtrExpiry (r : Nat) (s : State) : Host.Outcome State Fault Refusal :=
  let s := s.fresh
  atUnit r 32 s (if s.selects && s.refState r == 3 then s.refUp r else s)

/-- DISAGREE_CLEAR: a selector's mark of a reference that has agreed for DISAGREE_CLEAR_S (R371). -/
def execDisagreeClear (sel r : Nat) (s : State) : Host.Outcome State Fault Refusal :=
  let s := s.fresh
  atUnit sel 10 s (
    match (s.sel sel).marks.find? (fun m => m.1 == r) with
    | some (_, since) =>
      let agreed := match since with
        | some t => decide (t + s.f (Reg.refselSelCfg (0x100 + sel)) 16 16 * 1250000000 ≤ s.ticks)
        | none => false
      if s.selects && (agreed || !s.markHolds sel r) then s.unmark sel r else s
    | none => s)

/-- SWITCH_MEASUREMENT_END: the loop closes on the target with its measured offset, and a revertive switch may follow at
once (R367-R370). -/
def execSwitchMeasurementEnd (sel : Nat) (phi : Int) (s : State) : Host.Outcome State Fault Refusal :=
  let s := s.fresh
  atUnit sel 10 s (
    if s.selects && s.selState sel == 2 && decide ((s.sel sel).since + s.f (Reg.dpllSwitchCfg sel) 48 16 * 1250000 ≤ s.ticks) &&
        s.refQualified (s.target sel) then
      let r := s.target sel
      let src := s.selected sel
      let s := (s.setSelStatus sel r 0xFF 1).count (Reg.refselSelCnt (0x100 + sel)) 32 32 1
      let s := (s.close sel r phi).refSwitch sel src r 1 (s.corrected r phi)
      s.react sel s.ref.view
    else s)

/-- DPLL_LOCK (R374). -/
def execDpllLock (i : Nat) (s : State) : Host.Outcome State Fault Refusal :=
  let s := s.fresh
  atUnit i 10 s (
    let x := s.dpll i
    let calm := match x.calmAt with
      | some t => decide (t + s.f (Reg.dpllCfg i) 48 8 * 1250000000 ≤ s.ticks)
      | none => false
    if s.selects && s.level i == 1 && x.live && x.pending == 0 && calm then s.setLevel i 2 else s)

/-- DPLL_UNLOCK: a LOCKED loop reads an offset whose error and pending phase exceed UNLOCK_PS (R374). -/
def execDpllUnlock (i : Nat) (phi : Int) (s : State) : Host.Outcome State Fault Refusal :=
  let s := s.fresh
  atUnit i 10 s (
    let x := s.dpll i
    if s.timeUp && s.level i == 2 && x.live then
      let s := s.loopReading i x.base phi
      let e := signed 64 (s.get (Reg.dpllPhaseErr i)) + x.pending / (fine16 : Int)
      if s.f (Reg.dpllCfg i) 0 32 * 65536 < e.natAbs * 1000 then s.setLevel i 1 else s
    else s)

/-- HOLDOVER_ESTIMATE_WRITE: once per second the frequency averaged over HO_AVG_S up to HO_GUARD_MS before now (R375). -/
def execHoldoverEstimateWrite (i : Nat) (s : State) : Host.Outcome State Fault Refusal :=
  let s := s.fresh
  atUnit i 10 s (
    let due := match (s.dpll i).wroteAt with | some t => decide (t + 1250000000 ≤ s.ticks) | none => true
    if s.timeUp && s.level i == 2 && due then
      let s := s.setDpll i (fun x => { x with wroteAt := some s.ticks })
      let b := s.ticks - s.f (Reg.dpllHoCfg i) 32 16 * 1250000
      let h := (s.dpll i).hist
      let a := max (b - s.f (Reg.dpllHoCfg i) 48 16 * 1250000000) ((h.head?.map (·.1)).getD b)
      let f := if a < b then roundDiv (histArea a b h) (b - a) else s.dpllFreq i
      (s.setf (Reg.dpllHoFreq i) 0 32 (unsigned 32 f)).showValid i
    else s)

/-- HOLDOVER_STORE: a LOCKED domain's holdover frequency goes to the counter area of the flash, at most every 10 minutes
(R111). -/
def execHoldoverStore (d : Nat) (s : State) : Host.Outcome State Fault Refusal :=
  let s := s.fresh
  atUnit d 8 s (
    let due := match assoc s.boot.storedTick d with | some t => decide (t + 750000000000 ≤ s.ticks) | none => true
    if s.selects && s.tdLevel d == 2 && due then
      { s with boot := { s.boot with
        holdover := assocSet s.boot.holdover d (s.hoFreq d, s.f Reg.fwColdBoots 0 32), storedTick := assocSet s.boot.storedTick d s.ticks } }
    else s)

/-- CLEAR_OFFSET (R381): U becomes 0, and a domain on a phase reference slews back to it. -/
def State.clearUser (s : State) (d : Nat) : State :=
  let u := s.userOffset d
  let s := s.set (Reg.dpllUserOffset d) 0
  if (s.dpll d).live && s.phaseRef d (s.selected d) then
    (s.setDpll d (fun x => { x with pending := x.pending + u * fine16, slew := s.f (Reg.dpllSwitchCfg d) 0 32 })).retuneDpll d
  else s

/-- A step of a domain as its DPLL sees it, in 2^-16 ns (R314, R381): a written step made while ACQUIRING or LOCKED adds to U;
a built-out reference keeps its error. -/
def State.dpllStepped (s : State) (d cause : Nat) (step : Int) : State :=
  let s := if cause = 0 && (s.tdLevel d = 1 || s.tdLevel d = 2)
    then s.set (Reg.dpllUserOffset d) (unsigned 64 (s.userOffset d + step)) else s
  if (s.dpll d).live && !s.phaseRef d (s.selected d) then s.setDpll d (fun x => { x with origin := x.origin + step }) else s

/-- ESMC_INFO_SEND: one in a second. -/
def execEsmcInfoSend (p : Nat) (s : State) : Host.Outcome State Fault Refusal :=
  let s := s.fresh
  let due := match assoc s.ref.esmcSent p with | some t => decide (t + 1250000000 ≤ s.ticks) | none => true
  atUnit p 80 s (
    if s.selects && s.esmcTx p && s.portReady p && due then
      ({ s with ref := { s.ref with esmcSent := assocSet s.ref.esmcSent p s.ticks } }).sendEsmc p false
    else s)

/-- Whether bytes after the Ethertype are a valid ESMC PDU of version 1 with a QL TLV (G.8264). -/
def esmcValid (d : List Byte) : Bool :=
  be16 d 12 == 0x8809 && u8 d 14 == 0x0A && beNat (slice d 15 3) == 0x0019A7 && be16 d 18 == 1 && u8 d 20 / 16 == 1 &&
    u8 d 24 == 1 && be16 d 25 == 4

/-- ESMC_RECEIVE: an ESMC frame arrives; a valid PDU gives the port its level while ESMC_RX is set (R380). -/
def execEsmcReceive (p : Nat) (frame : List Byte) (s : State) : Host.Outcome State Fault Refusal :=
  let s := s.fresh
  atUnit p 80 s (s.arrive p frame (fun d _ => esmcValid d) (fun d s =>
    if s.selects && s.b (Reg.refselPortCfg (0x200 + p)) 60 then
      ({ s with ref := { s.ref with heard := assocSet s.ref.heard p s.ticks } }).setQl p (u8 d 27 % 16) 0
    else s))

/-- ESMC_TIMEOUT: no PDU for 5 s. -/
def execEsmcTimeout (p : Nat) (s : State) : Host.Outcome State Fault Refusal :=
  let s := s.fresh
  atUnit p 80 s (
    match assoc s.ref.heard p with
    | some t =>
      if s.selects && decide (t + 6250000000 ≤ s.ticks) then
        ({ s with ref := { s.ref with heard := assocDel s.ref.heard p } }).setQl p 0xF 1
      else s
    | none => s)

/-! ### Commands (R372) -/

/-- The reply of REF_FORCE and REF_RELEASE. -/
def State.selReply (s : State) (sel : Nat) : List Byte := toLe 1 (s.selState sel) ++ toLe 1 (s.selected sel)

/-- The force of a selector recorded, and its reference judged at once. -/
def State.recordForce (s : State) (sel r : Nat) : State :=
  let s := s.setf (Reg.refselSelStatus (0x100 + sel)) 40 8 r
  if s.refQualified r then { s with ref := { s.ref with view := setBits s.ref.view r 1 1 } } else s
/-- What the force does to the selector: a qualified reference is switched to, one that is not takes the selector to NONE. -/
def State.followForce (s : State) (sel r : Nat) : State :=
  if s.refQualified r then
    (if s.selState sel = 1 && s.selected sel != r then s.startSwitch sel r
     else if s.selState sel = 0 && decide ((s.sel sel).holdUntil ≤ s.ticks) then s.startSwitch sel r else s)
  else if s.selState sel = 2 then s.abandon sel
  else if s.selState sel = 1 then s.deselect sel else s

/-- What REF_FORCE does at step 10 of R58. -/
def refForceRun (c : Ctx) (s : State) : Ran :=
  let s := (s.recordForce (u8 c.p 0) (u8 c.p 1)).followForce (u8 c.p 0) (u8 c.p 1)
  .ok (s.selReply (u8 c.p 0)) s

/-- REF_FORCE. -/
def refForceCmd : Cmd := {
  opcode := 0x0400, cls := 1, engine := some 4, pds := [14]
  ready := fun _ s => s.refStopped
  check := fun c s =>
    let sel := u8 c.p 0
    let r := u8 c.p 1
    firstErr [lenIs c 4, need (decide (sel < 10)) 0, need (decide (r < 32)) 1, rsv c 2 2,
      need (s.usable sel r && s.refState r != 0) 1]
  size := fun _ _ => 2
  leases := fun _ _ => [0x24]
  run := refForceRun }

/-- What REF_RELEASE does at step 10 of R58. -/
def refReleaseRun (c : Ctx) (s : State) : Ran :=
  let s := s.setf (Reg.refselSelStatus (0x100 + u8 c.p 0)) 40 8 0xFF
  .ok (s.selReply (u8 c.p 0)) s

/-- REF_RELEASE. -/
def refReleaseCmd : Cmd := {
  opcode := 0x0401, cls := 1, engine := some 4, pds := [14]
  ready := fun _ s => s.refStopped
  check := fun c s => firstErr [lenIs c 4, need (decide (u8 c.p 0 < 10)) 0, rsv c 1 3, need (s.forcedRef (u8 c.p 0) != 0xFF) 0]
  size := fun _ _ => 2
  leases := fun _ _ => [0x24]
  run := refReleaseRun }

/-- What REF_CLEAR_WTR does at step 10 of R58. -/
def refClearWtrRun (c : Ctx) (s : State) : Ran :=
  let l := (bitsSet (u32 c.p 0) 32).filter (fun r => s.refState r == 3)
  .ok (toLe 4 (maskOf l)) (s.forEach l (fun r s => s.setRef r 4 0))

/-- REF_CLEAR_WTR. -/
def refClearWtrCmd : Cmd := {
  opcode := 0x0402, cls := 1, engine := some 4, pds := [14]
  ready := fun _ s => s.refStopped
  check := fun c _ => lenIs c 4
  size := fun _ _ => 4
  leases := fun _ _ => [0x24]
  run := refClearWtrRun }

/-- REF_FORCE. -/
def execRefForce (q : Request) (s : State) : Host.Outcome State Fault Refusal := .next (runCmd refForceCmd q s)
/-- REF_RELEASE. -/
def execRefRelease (q : Request) (s : State) : Host.Outcome State Fault Refusal := .next (runCmd refReleaseCmd q s)
/-- REF_CLEAR_WTR. -/
def execRefClearWtr (q : Request) (s : State) : Host.Outcome State Fault Refusal := .next (runCmd refClearWtrCmd q s)

end Sys2Proof.Machine
end

