-- ==== Sys2Proof/Machine/Ptp.lean ====
section
/-! DEFINITION. The PTP services of engine-mode instances (R329-R336, R349, R350): message rates, delay exchanges, offset
results, port states and parents. What IEEE 1588's own machines conclude is an operand (notes/assumptions/47.md). -/
namespace Sys2Proof.Machine

/-- A PTP instance's hidden state. -/
def State.inst (s : State) (d : Nat) : PtpInst := s.ptp.insts.getD d PtpInst.reset
/-- A PTP instance's hidden state changed. -/
def State.setInst (s : State) (d : Nat) (f : PtpInst → PtpInst) : State :=
  { s with ptp := { s.ptp with insts := modifyAt s.ptp.insts d f } }
/-- Whether an instance runs on its engine, E2 for 0-3 and E3 for 4-7 (R329). -/
def State.instRuns (s : State) (d : Nat) : Bool :=
  s.f (Reg.ptpInstCfg (0x3F0 + d)) 62 2 == 1 && s.serves (2 + d / 4) && s.timeUp
/-- Whether a port is enabled in an instance. -/
def State.ptpOn (s : State) (d p : Nat) : Bool := decide (p < 80) && s.b (Reg.ptpPortCfg (ptpPort d p)) 63

/-! ### The rate of an engine (R332) -/

/-- PTP_OVERLOAD, at most once in 1 s, with the messages dropped in the last second, n of them now. -/
def State.overload (s : State) (k n : Nat) : State :=
  let dropped := (s.ptp.dropped.getD k []).filter (fun t => decide (s.ticks < t + 1250000000)) ++ List.replicate n s.ticks
  let due := match s.ptp.told.getD k none with | none => true | some t => decide (t + 1250000000 ≤ s.ticks)
  let s := { s with ptp := { s.ptp with
    dropped := modifyAt s.ptp.dropped k (fun _ => dropped)
    told := modifyAt s.ptp.told k (fun t => if due then some s.ticks else t) } }
  if due then s.raise 0x805 (toLe 1 (2 + k) ++ zeros 3 ++ toLe 4 dropped.length) else s

/-- A message handled by an engine: whether it lies within the 50,000 of its second. -/
def State.handle (s : State) (k : Nat) : Bool × State :=
  let fresh := decide (s.ptp.second.getD k 0 + 1250000000 ≤ s.ticks)
  let n := if fresh then 0 else s.ptp.handled.getD k 0
  (decide (n < 50000), { s with ptp := { s.ptp with
    second := modifyAt s.ptp.second k (fun t => if fresh then s.ticks else t)
    handled := modifyAt s.ptp.handled k (fun _ => n + 1) } })

/-! ### Port states and parents (R334, R337) -/

/-- Whether a port's role and its instance allow a state (R330). -/
def State.stateAllowed (s : State) (d p st : Nat) : Bool :=
  let role := s.f (Reg.ptpPortCfg (ptpPort d p)) 61 2
  if st = 8 || st = 9 then role != 1 && role != 3
  else if st = 6 || st = 5 then role != 2 && !s.b (Reg.ptpInstCfg (0x3F0 + d)) 55
  else decide (1 ≤ st) && decide (st ≤ 7)
/-- The slave port shown. -/
def State.showSlave (s : State) (d : Nat) : State :=
  s.setf (Reg.ptpInstStatus (0x3F0 + d)) 40 8
    (((List.range 80).find? (fun p => s.ptpOn d p && (s.ptpState d p == 8 || s.ptpState d p == 9))).getD 0xFF)
/-- Port states applied: a slave port is SLAVE while its DREF is qualified, UNCALIBRATED otherwise (R334). -/
def State.ptpStates (s : State) (d : Nat) (l : List (Nat × Nat)) : State :=
  (s.forEach (l.filter (fun (x : Nat × Nat) => s.ptpOn d x.1 && s.stateAllowed d x.1 x.2)) (fun x s =>
    s.setPtpState d x.1 (if x.2 = 8 || x.2 = 9 then (if s.refQualified (24 + d) then 9 else 8) else x.2))).showSlave d

/-- The parent data of an instance: PTP_PARENT when the parent, the grandmaster or its class changes. -/
def State.setParent (s : State) (d : Nat) (x : PtpParent) : State :=
  let i := 0x3F0 + d
  let changed := s.get (Reg.ptpParentId i) != x.clock % 2 ^ 64 || s.get (Reg.ptpGmId i) != x.gm % 2 ^ 64 ||
    s.f (Reg.ptpGmInfo i) 48 16 != x.port % 2 ^ 16 || s.f (Reg.ptpGmInfo i) 40 8 != x.cls % 256
  let s := (s.set (Reg.ptpParentId i) x.clock).set (Reg.ptpGmId i) x.gm
  let s := s.set (Reg.ptpGmInfo i) (x.port % 2 ^ 16 * 2 ^ 48 + x.cls % 256 * 2 ^ 40 + x.accuracy % 256 * 2 ^ 32 +
    x.variance % 2 ^ 16 * 2 ^ 16 + x.priority1 % 256 * 256 + x.priority2 % 256)
  let s := (s.setf (Reg.ptpInstStatus i) 48 16 x.steps).setInst d (fun y => { y with utc := x.utc, flags := x.flags })
  if changed then s.raise 0x802 (toLe 1 d ++ toLe 1 (s.slavePort d) ++ toLe 2 x.port ++ toLe 8 x.clock ++ toLe 8 x.gm ++ toLe 1 x.cls)
  else s

/-! ### Delay exchanges (R334, R349, R350, R353, R356) -/

/-- The last exchanges of a port in an instance. -/
def State.exchanges (s : State) (d p : Nat) : List Int := (assoc s.ptp.delays (ptpPort d p)).getD []
/-- A discarded message or exchange counted. -/
def State.ptpDiscard (s : State) (d p : Nat) : State := s.count (Reg.ptpPortErr (ptpPort d p)) 16 16 1
/-- STALE of a port: whether its last measurement used a stale path (R311). -/
def State.markStale (s : State) (d p : Nat) : State :=
  s.setf (Reg.ptpPortStatus (ptpPort d p)) 6 1 (bit (s.staleRx p || s.staleTx p))

/-- A delay exchange: D, the average of the last 2^DELAY_AVG_LOG2 accepted, its half and its two directions. -/
def State.delayExchange (s : State) (d p : Nat) (x : Int × Int) (straddles : Bool) : State :=
  let dd := x.1 - x.2
  if straddles || decide (dd < 0) || decide ((2 * s.f (Reg.ptpDelayLimits (0x3F0 + d)) 0 32 * ns16 : Nat) < dd) then s.ptpDiscard d p
  else
    let n := 2 ^ s.f (Reg.ptpServoCfg (0x3F0 + d)) 36 4
    let l := (dd :: s.exchanges d p).take n
    let sum := l.foldl (· + ·) 0
    let s := { s with ptp := { s.ptp with delays := assocSet s.ptp.delays (ptpPort d p) l } }
    let s := s.set (Reg.ptpPortDelay (ptpPort d p)) (unsigned 64 (roundDiv sum (2 * l.length)))
    let m := s.mediumDelays p (roundDiv sum l.length)
    let s := (s.set (Reg.pcsLinkTIn p) (unsigned 64 m.1)).set (Reg.pcsLinkTOut p) (unsigned 64 m.2)
    (s.markStale d p).linkExchange p d

/-! ### Offset results (R336) -/

/-- A list of integers in rising order. -/
def insertInt (a : Int) : List Int → List Int
  | [] => [a]
  | b :: l => if a ≤ b then a :: b :: l else b :: insertInt a l
/-- The median of a list: of an even number the mean of the middle two. -/
def median (l : List Int) : Int :=
  let x := l.foldr insertInt []
  let n := x.length
  if n = 0 then 0 else if n % 2 = 1 then x.getD (n / 2) 0 else roundDiv (x.getD (n / 2 - 1) 0 + x.getD (n / 2) 0) 2
/-- What a result is held against: the median of the last eight accepted, 0 before eight have been. -/
def State.expected (s : State) (d : Nat) : Int := if (s.inst d).count < 8 then 0 else median (s.inst d).accepted
/-- JUMP_NS in 2^-16 ns. -/
def State.jumpLimit (s : State) (d : Nat) : Nat := s.f (Reg.ptpServoStep (0x3F0 + d)) 32 32 * ns16
/-- A result accepted, with the history it leaves. -/
def State.acceptOffset (s : State) (d : Nat) (o : Int) (history : List Int) : State :=
  (s.set (Reg.ptpOffset (0x3F0 + d)) (unsigned 64 o)).setInst d (fun x => { x with
    accepted := history, count := min 8 (x.count + 1), suspects := [], last := some s.ticks })
/-- PTP_JUMP. -/
def State.ptpJump (s : State) (d action : Nat) (j : Int) : State :=
  s.raise 0x803 (toLe 1 d ++ toLe 1 action ++ zeros 2 ++ toLe 8 (unsigned 64 j))
/-- Whether DREFd is the selected reference of its domain. -/
def State.drefSelected (s : State) (d : Nat) : Bool := s.selState d == 1 && s.selected d == 24 + d && (s.dpll d).live

/-- A jump confirmed by REF_JUMP_CONFIRM suspects: slewed, stepped, or, with DREFd not selected, only reported. Its history
restarts at o - j in each case. -/
def State.confirmJump (s : State) (d : Nat) (o : Int) : State :=
  let j := o - s.expected d
  let lim := s.f (Reg.ptpServoStep (0x3F0 + d)) 0 32
  if !s.drefSelected d then (s.setInst d (fun x => { x with accepted := [o - j], suspects := [] })).ptpJump d 3 j
  else if lim = 0 || decide (j.natAbs ≤ lim * ns16) then
    let s := (s.count (Reg.ptpInstCnt (0x3F0 + d)) 32 16 1).acceptOffset d (o - j) [o - j]
    let s := (s.setDpll d (fun x => { x with
      pending := x.pending + j * fine16, slew := s.f (Reg.ptpServoCfg (0x3F0 + d)) 0 32 })).retuneDpll d
    s.ptpJump d 1 j
  else
    let s := (s.count (Reg.ptpInstCnt (0x3F0 + d)) 16 16 1).acceptOffset d (o - j) [o]
    ({ s with clock := { s.clock with landings := s.clock.landings ++ [({ dom := d, absolute := false, amount := -j, cause := 1 } : Landing)] } }).ptpJump d 2 j

/-- Suspects that the next suspect does not confirm are dropped and reported (R336). -/
def State.dropSuspects (s : State) (d : Nat) (o : Int) : State :=
  match (s.inst d).suspects.head? with
  | some a =>
    if s.jumpLimit d < (o - a).natAbs then
      ((s.count (Reg.ptpInstCnt (0x3F0 + d)) 48 16 (s.inst d).suspects.length).setInst d
        (fun x => { x with suspects := [] })).ptpJump d 0 (a - s.expected d)
    else s
  | none => s

/-- An offset result (R336): accepted, withheld as a suspect, or confirming a jump. -/
def State.offsetResult (s : State) (d : Nat) (o : Int) : State :=
  if (o - s.expected d).natAbs ≤ s.jumpLimit d then s.acceptOffset d o ((o :: (s.inst d).accepted).take 8)
  else
    let s := (s.dropSuspects d o).setInst d (fun x => { x with suspects := x.suspects ++ [o] })
    if (s.inst d).suspects.length = s.f (Reg.ptpServoCfg (0x3F0 + d)) 40 4 then s.confirmJump d o else s

/-- A Sync exchange of the slave port: offsetFromMaster, withheld while the link is not VALID (R350, R355). -/
def State.syncExchange (s : State) (d p : Nat) (t : Int) : State :=
  if s.slavePort d = p then
    let s := s.markStale d p
    if s.linkIsValid p then s.offsetResult d (t - signed 64 (s.get (Reg.pcsLinkTIn p))) else s
  else s

/-- A step of a domain, in 2^-16 ns, as its instance's results see it: they are step-free (R305). -/
def State.ptpStepped (s : State) (d : Nat) (step : Int) : State :=
  s.setInst d (fun x => { x with accepted := x.accepted.map (· + step), suspects := x.suspects.map (· + step) })

/-! ### The events -/

/-- What the protocol machines find, applied. -/
def State.ptpFindings (s : State) (d p : Nat) (f : PtpFindings) : State :=
  let s := s.ptpStates d f.states
  let s := match f.parent with | some x => s.setParent d x | none => s
  let s := match f.delay with | some x => s.delayExchange d p x f.straddles | none => s
  let s := match f.sync with | some t => s.syncExchange d p t | none => s
  let profile := s.f (Reg.ptpInstCfg (0x3F0 + d)) 59 3
  let s := match f.capable with
    | some c => s.setf (Reg.ptpPortStatus (ptpPort d p)) 4 1 (bit (c && profile == 4 &&
        decide (signed 64 (s.get (Reg.ptpPortDelay (ptpPort d p))) ≤ (s.f (Reg.ptpDelayLimits (0x3F0 + d)) 32 32 * ns16 : Nat))))
    | none => s
  match f.l1sync with
  | some c => s.setf (Reg.ptpPortStatus (ptpPort d p)) 5 1 (bit (c && profile == 3 && s.b (Reg.ptpPortCfg (ptpPort d p)) 56))
  | none => s

/-- An Announce heard on a port of an instance: its receipt timeout starts again, and its sender is a foreign master, of up to 8
(R331, R332). -/
def State.announceHeard (s : State) (d p : Nat) (sender : List Byte) : State :=
  let k := ptpPort d p
  let l := (assoc s.ptp.foreign k).getD []
  { s with ptp := { s.ptp with
    announced := assocSet s.ptp.announced k s.ticks
    foreign := if l.contains sender || 8 ≤ l.length then s.ptp.foreign else assocSet s.ptp.foreign k (l ++ [sender]) } }

/-- PTP_MESSAGE_RECEIVE: a message of an engine-mode instance arrives (R331). -/
def execPtpMessageReceive (p : Nat) (frame : List Byte) (f : PtpFindings) (s : State) : Host.Outcome State Fault Refusal :=
  let s := s.fresh
  atUnit p 80 s (s.arrive p frame (fun b s => (s.ptpTaken (s.parsed p b) b p).isSome) (fun b s =>
    let x := s.parsed p b
    match s.ptpTaken x b p with
    | none => s
    | some d =>
      if s.instRuns d then
        let h := s.handle (d / 4)
        if h.1 then
          let s := h.2.count (Reg.ptpPortCnt (ptpPort d p)) 32 32 1
          if f.malformed then s.ptpDiscard d p
          else
            let s := if u8 b x.ptpOff % 16 = 11 then s.announceHeard d p (slice b (x.ptpOff + 20) 10) else s
            s.ptpFindings d p f
        else (h.2.count (Reg.ptpInstCnt (0x3F0 + d)) 0 16 1).overload (d / 4) 1
      else s))

/-- The destination of an instance's messages on a port: of the L2 transport, L2_DEST, and in profile 4 01-80-C2-00-00-0E. -/
def State.ptpDest (s : State) (d p dst : Nat) : Nat :=
  let w := s.get (Reg.ptpPortCfg (ptpPort d p))
  if bits w 59 2 != 0 then dst
  else if bits w 58 1 = 1 || s.f (Reg.ptpInstCfg (0x3F0 + d)) 59 3 = 4 then 0x0180C200000E else 0x011B19000000
/-- The frame of a message, from its Ethertype on in body, tagged as its port says (R330). -/
def State.ptpFrame (s : State) (d p dst : Nat) (body : List Byte) : List Byte :=
  let w := s.get (Reg.ptpPortCfg (ptpPort d p))
  toBe 6 (s.ptpDest d p dst) ++ toBe 6 (s.f Reg.cmdInbandMac 0 48) ++
    (if bits w 55 1 = 1 then toBe 2 0x8100 ++ toBe 2 (bits w 52 3 * 8192 + bits w 40 12) else []) ++ body

/-- The fields of a message that the instance's parameters fix: versionPTP 2 and minorVersionPTP (R330), domainNumber, its clock
identity, the port's message intervals in Sync, Follow_Up, Delay_Resp and Announce (R332; places of IEEE 1588, PRESUMED,
notes/assumptions/47.md), and, in an Announce of which it is the grandmaster, what it says of its clock (R335). -/
def State.ptpFields (s : State) (d p : Nat) (x : Parsed) (b : List Byte) : List Byte :=
  let w := s.get (Reg.ptpInstCfg (0x3F0 + d))
  let profile := bits w 59 3
  let minor := if profile = 3 || profile = 4 || w.testBit 54 then 1 else 0
  let me := toBe 8 (s.get (Reg.ptpInstId (0x3F0 + d)))
  let put := fun (off : Nat) (new b : List Byte) => x.l4Edit b (x.ptpOff + off) new
  let b := put 20 me (put 4 (toBe 1 (bits w 40 8)) (put 1 (toBe 1 (16 * minor + 2)) b))
  let v := s.get (Reg.ptpPortCfg (ptpPort d p))
  let b := match u8 b x.ptpOff % 16 with
    | 0 | 8 => put 33 (toBe 1 (bits v 24 8)) b
    | 9 => put 33 (toBe 1 (bits v 16 8)) b
    | 11 => put 33 (toBe 1 (bits v 8 8)) b
    | _ => b
  if u8 b x.ptpOff % 16 = 11 && slice b (x.ptpOff + 53) 8 == me && decide (x.ptpOff + 64 ≤ b.length) then
    let q := s.get (Reg.ptpInstQual (0x3F0 + d))
    put 63 (toBe 1 (bits q 8 8)) (put 52 (toBe 1 (bits w 24 8)) (put 50 (toBe 2 (bits q 16 16)) (put 49 (toBe 1 (bits q 32 8))
      (put 48 (toBe 1 (s.clockClass d)) (put 47 (toBe 1 (bits w 32 8)) b)))))
  else b

/-- A message handed to a port: in the instance's QUEUE; a one-step Sync takes its stamp as it leaves (R334). -/
def State.ptpSend (s : State) (d p : Nat) (bytes : List Byte) : State :=
  let q := s.f (Reg.ptpInstCfg (0x3F0 + d)) 51 3
  let x := s.parsed 81 bytes
  let bytes := if x.ptp then s.ptpFields d p x bytes else bytes
  let oneStep := !s.b (Reg.ptpInstCfg (0x3F0 + d)) 56 && x.ptp && u8 bytes x.ptpOff % 16 == 0
  s.sendOwn p q (if oneStep then 7 else 2) { s.ownFrame 81 q bytes with action := d }

/-- PTP_MESSAGE_SEND: a message that is due leaves by a port, late when its engine has handled its 50,000 (R332). -/
def execPtpMessageSend (d p dst : Nat) (body : List Byte) (f : PtpFindings) (s : State) : Host.Outcome State Fault Refusal :=
  let s := s.fresh
  atUnit (if d < 8 then p else 80) 80 s (
    if s.instRuns d && s.ptpOn d p then
      let h := s.handle (d / 4)
      let s := if h.1 then h.2 else h.2.overload (d / 4) 0
      let s := s.count (Reg.ptpPortCnt (ptpPort d p)) 0 32 1
      (s.ptpFindings d p f).ptpSend d p (s.ptpFrame d p dst body)
    else s)

/-- SYNC_RECEIPT_TIMEOUT: no accepted result of the slave port within its timeout (R361). -/
def execSyncReceiptTimeout (d : Nat) (s : State) : Host.Outcome State Fault Refusal :=
  let s := s.fresh
  atUnit d 8 s (
    let p := s.slavePort d
    let late := fun (o : Option Nat) => match o with | some t => decide (t + s.syncTimeout d p < s.ticks) | none => true
    if s.instRuns d && decide (p < 80) && late (s.inst d).last && late (s.inst d).timedOut then
      let s := s.setInst d (fun x => { x with timedOut := some s.ticks })
      (s.count (Reg.ptpPortErr (ptpPort d p)) 32 16 1).refDown (24 + d)
    else s)

/-- The announce receipt timeout of a port in ticks: announceReceiptTimeout Announce intervals (R332). -/
def State.announceTimeout (s : State) (d p : Nat) : Nat :=
  s.f (Reg.ptpPortCfg (ptpPort d p)) 0 8 * logTicks (s.f (Reg.ptpPortCfg (ptpPort d p)) 8 8)

/-- ANNOUNCE_RECEIPT_TIMEOUT: no Announce within the timeout of a port; its foreign masters go, and the BMCA chooses (R332). -/
def execAnnounceReceiptTimeout (d p : Nat) (f : PtpFindings) (s : State) : Host.Outcome State Fault Refusal :=
  let s := s.fresh
  let late := match assoc s.ptp.announced (ptpPort d p) with | some t => decide (t + s.announceTimeout d p ≤ s.ticks) | none => true
  atUnit d 8 s (
    if s.instRuns d && s.ptpOn d p && late then
      let s := { s with ptp := { s.ptp with
        announced := assocSet s.ptp.announced (ptpPort d p) s.ticks, foreign := assocDel s.ptp.foreign (ptpPort d p) } }
      (s.count (Reg.ptpPortErr (ptpPort d p)) 48 16 1).ptpFindings d p f
    else s)

end Sys2Proof.Machine
end

