-- ==== Sys2Proof/Machine/Cal.lean ====
section
/-! DEFINITION. Calibration on live traffic (R392-R406) and the temperature sensors it follows (R447, R448). -/
namespace Sys2Proof.Machine

/-! ### Items (R392-R395) -/

/-- The lane of a number: high lanes 0-31, edge lanes 32-79 (R404). -/
def laneOf (n : Nat) : Lane := if n < 32 then .hl n else .el (n - 32)
/-- The number of an item: 128 * class + instance. -/
def itemOf (cls i : Nat) : Nat := 128 * cls + i
/-- The word that holds an item's state and its place in it; CAL_TDC_STATE holds those of both delay lines, line 1 in bits that
read 0, and shows one of them (notes/assumptions/63.md). -/
def itemPlace (k : Nat) : Nat × Nat :=
  let i := k % 128
  match k / 128 with
  | 0 => (Reg.calLaneState (calLane (laneOf i)), 0)
  | 1 => (Reg.calLaneState (calLane (laneOf i)), 4)
  | 2 => (Reg.calItemState (0x230 + i), 0)
  | 3 => (Reg.calItemState (0x200 + i), 0)
  | 4 => (Reg.calTdcState, 4 * i)
  | _ => (Reg.calItemState (0x220 + i), 0)
/-- Where an item's recorded sensor value lies in that word. -/
def itemTempLo (k : Nat) : Nat := if k / 128 = 1 || k == 4 * 128 + 1 then 32 else 48
/-- The state of an item: 0 UNCAL, 1 CURRENT, 2 DUE, 3 STALE (R394). -/
def State.itemState (s : State) (k : Nat) : Nat := s.f (itemPlace k).1 (itemPlace k).2 4
/-- The sensor an item follows (R393). -/
def itemSensor (k : Nat) : Nat :=
  let i := k % 128
  match k / 128 with
  | 0 => if i < 32 then i / 8 else 4 + (i - 32) / 12
  | 1 => if i < 32 then i / 8 else 4 + (i - 32) / 12
  | 2 => if i < 2 then 8 else 10
  | 3 => 9
  | _ => 8
/-- The lanes that belong to configured ports, by number. -/
def State.calLanes (s : State) : List Nat := (List.range 80).filter (fun n => (s.portOfLane (laneOf n)).isSome)
/-- The background items. -/
def backgroundItems : List Nat :=
  (List.range 4).map (itemOf 2) ++ (List.range 18).map (itemOf 3) ++ (List.range 2).map (itemOf 4) ++ (List.range 10).map (itemOf 5)
/-- Every item that is calibrated. -/
def State.calItems (s : State) : List Nat := s.calLanes.map (itemOf 0) ++ s.calLanes.map (itemOf 1) ++ backgroundItems

/-- CAL_STALE (R406): what 0 became stale, 1 became CURRENT. The instance of class 2 is its island's number. -/
def State.calStale (s : State) (k what : Nat) : State :=
  let cls := k / 128
  s.raise 0xB00 (toLe 1 cls ++ toLe 1 (if cls = 2 then 14 + k % 128 else k % 128) ++ toLe 1 (min cls 2) ++ toLe 1 what)
/-- An item enters a state, with CAL_STALE when it enters or leaves a stale one. -/
def State.setItem (s : State) (k new : Nat) : State :=
  let old := s.itemState k
  let s := s.setf (itemPlace k).1 (itemPlace k).2 4 new
  if staleState old = staleState new then s else s.calStale k (bit (!staleState new))

/-! ### Runs (R404) -/

/-- Runs brought up to date after an item completed (stale false) or became STALE; those with nothing left end. -/
def State.settleRuns (s : State) (k : Nat) (stale : Bool) : State :=
  let live := s.calItems
  let step := fun (r : CalRun) =>
    let r := if r.items.contains k then (if stale then { r with stale := r.stale + 1 } else { r with done := r.done + 1 }) else r
    { r with items := r.items.filter (fun i => i != k && live.contains i) }
  let runs := s.cal.runs.map step
  let s := { s with cal := { s.cal with runs := runs.filter (fun r => !r.items.isEmpty) } }
  s.forEach (runs.filter (fun r => r.items.isEmpty)) (fun r s => s.raise 0xB01 (toLe 4 r.num ++ toLe 2 r.done ++ toLe 2 r.stale))

/-- A CURRENT item becomes DUE, with its deadline DEADLINE_MS away (R394). -/
def State.makeDue (s : State) (k : Nat) : State :=
  let s := s.setItem k 2
  { s with cal := { s.cal with
    deadlines := assocSet s.cal.deadlines k (s.ticks + s.f Reg.calCfg 32 16 * 1250000)
    steps := s.cal.steps.filter (fun (x : Nat × Nat × Int × Int) => x.1 != k) } }

/-! ### Steps (R396-R403) -/

/-- Whether the scheduler runs: E7 serves and PD14's hardware is clocked. -/
def State.calRuns (s : State) : Bool := s.serves 7 && s.timeUp
/-- Whether an item wants steps: every state but CURRENT. -/
def State.wants (s : State) (k : Nat) : Bool := s.itemState k != 1
/-- The items of a direction of a port. -/
def State.laneItems (s : State) (p : Nat) (tx : Bool) : List Nat := (s.portLanes p).map (fun l => itemOf (bit tx) (portAt l))
/-- The TIME cycles of one step (R396). -/
def stepTicks : Nat := 160
/-- Whether a port has a frame that may start: an eligible queue, or a preempted frame with fragments outstanding (R397). -/
def State.mayStart (s : State) (p : Nat) : Bool := (s.side p).preempted.isSome || (List.range 8).any (s.eligible p)
/-- Whether the transmitter of a port is idle with no eligible frame (R396, R397). -/
def State.txIdle (s : State) (p : Nat) : Bool := (s.side p).sending.isNone && !s.mayStart p
/-- Whether something that last happened at a tick lies a number of ns back (0.8 ns a tick). -/
def State.quietFor (s : State) (t ns : Nat) : Bool := decide (10 * ns ≤ 8 * (s.ticks - t))
/-- Whether a gap that began at a tick is a new one since the last step of its kind (R396). -/
def newGap (used : Option Nat) (t : Nat) : Bool := match used with | some u => decide (u ≤ t) | none => true
/-- Whether the gate-calendar entry in force on a port is a gap that has room for one step and has given none (R267, R396). -/
def State.calEntryOffers (s : State) (p : Nat) : Bool :=
  match s.entryInForce p with
  | none => false
  | some (c, i, start, left) => bits (c.entries.getD i 0) 39 1 == 1 && decide (128 * ns16 ≤ left) &&
      (match (s.side p).gapEntry with | some u => decide (u < start) | none => true)
/-- Whether an idle transmitter offers a gap: it has been idle for TX_IDLE_MIN_NS. -/
def State.txGap (s : State) (p : Nat) : Bool :=
  let t := (s.side p).lastBusy
  s.txIdle p && s.quietFor t (s.f (Reg.calPortCfg p) 8 8) && newGap (s.side p).gapTx t
/-- Whether a locked receiver offers a gap: it has received no frame for RX_IDLE_MIN_NS. -/
def State.rxGap (s : State) (p : Nat) : Bool :=
  let t := (s.side p).lastHeard
  (s.portLanes p).all (fun l => s.rxState l == 4) && s.quietFor t (s.f (Reg.calPortCfg p) 0 8) && newGap (s.side p).gapRx t
/-- Whether a direction has been asleep for 1 µs. -/
def State.sleepGap (s : State) (p : Nat) (tx : Bool) : Bool :=
  (s.portLanes p).all (fun l => if tx then s.txState l == 3 else s.rxState l == 5) &&
    s.quietFor (if tx then (s.side p).sleptTx else (s.side p).sleptRx) 1000

/-- A step of a direction starts. -/
def State.startStep (s : State) (p : Nat) (tx forced : Bool) : State :=
  let k := 2 * p + bit tx
  { s with cal := { s.cal with running := assocSet s.cal.running k forced, began := assocSet s.cal.began k s.ticks } }
/-- Whether a step in progress has lasted its 128 ns. -/
def State.stepOver (s : State) (k : Nat) : Bool := decide ((assoc s.cal.began k).getD 0 + stepTicks ≤ s.ticks)
/-- Whether a direction may take a step in a gap: the port offers gaps, an item wants it, and none is in progress. -/
def State.mayStep (s : State) (p : Nat) (tx : Bool) : Bool :=
  s.calRuns && s.portReady p && (s.laneItems p tx).any s.wants && (s.calStep (2 * p + bit tx)).isNone

/-- The step that a gap starts, if it offers one (R396): a CAL entry and each idle period give one, a sleep one after another. -/
def State.takeGap (s : State) (g : CalGap) : State :=
  match g with
  | .entry p =>
    if s.mayStep p true && s.txIdle p && s.calEntryOffers p then
      let run := match s.entryInForce p with | some x => s.runNow x.1.dom | none => 0
      (s.startStep p true false).setSide p (fun x => { x with gapEntry := some run })
    else s
  | .txIdle p =>
    if s.mayStep p true && s.txGap p then (s.startStep p true false).setSide p (fun x => { x with gapTx := some s.ticks }) else s
  | .rxIdle p =>
    if s.mayStep p false && s.rxGap p then (s.startStep p false false).setSide p (fun x => { x with gapRx := some s.ticks }) else s
  | .sleep p tx => if s.mayStep p tx && s.sleepGap p tx then s.startStep p tx false else s
  | .channel cls i =>
    let k := itemOf cls i
    if decide (2 ≤ cls) && backgroundItems.contains k && s.calRuns && s.wants k && !s.cal.background.contains k then
      { s with cal := { s.cal with background := s.cal.background ++ [k], began := assocSet s.cal.began (1024 + k) s.ticks } }
    else s
/-- The port of a gap; a background item's gap is of none. -/
def gapPort : CalGap → Nat
  | .entry p => p
  | .txIdle p => p
  | .rxIdle p => p
  | .sleep p _ => p
  | .channel _ _ => 0
/-- CAL_STEP_START (R396). -/
def execCalStepStart (g : CalGap) (s : State) : Host.Outcome State Fault Refusal :=
  let s := s.fresh
  atUnit (gapPort g) 80 s (s.takeGap g)

/-- A completed set replaces the values of a lane item (R399, R403). -/
def State.applyLane (s : State) (k : Nat) (raw det : Int) : State :=
  let l := laneOf (k % 128)
  let w := calLane l
  let s :=
    if k / 128 = 0 then
      ((s.set (Reg.calLaneRxRaw w) (unsigned 64 raw)).set (Reg.calLaneRxFix w)
        (unsigned 64 (raw + signed 32 (s.f (Reg.calLaneRefPath w) 32 32)))).setf (Reg.calLaneDdmtdOfs w) 32 32 (unsigned 32 det)
    else
      ((s.set (Reg.calLaneTxRaw w) (unsigned 64 raw)).set (Reg.calLaneTxFix w)
        (unsigned 64 (raw + signed 32 (s.f (Reg.calLaneRefPath w) 0 32)))).setf (Reg.calLaneDdmtdOfs w) 0 32 (unsigned 32 det)
  match s.portOfLane l with
  | none => s
  | some p =>
    let s := s.linkFix p
    if s.linkState p = 0 then s
    else if k / 128 = 0 then (if l = s.rxRef p then s.linkRxDelay p else s)
    else if l = lowestLane p then s.linkTxDelay p else s
/-- A completed set replaces the values of a background item; of class 4 the bins are (hits, position), 512 of a delay line. -/
def State.applyItem (s : State) (k : Nat) (raw : Int) (bins : List (Int × Int)) : State :=
  let i := k % 128
  let put := fun (w : Nat) => (s.set (Reg.calItemRaw w) (unsigned 64 raw)).set (Reg.calItemFix w) (unsigned 64 (raw + Config.calConst k))
  match k / 128 with
  | 2 => put (0x230 + i)
  | 3 => put (0x200 + i)
  | 5 => put (0x220 + i)
  | _ => s.forEach ((List.range 512).zip (bins.take 512)) (fun (x : Nat × Int × Int) s =>
      s.set (Reg.calTdcInl (0x240 + i) x.1) (unsigned 16 x.2.1 * 2 ^ 32 + unsigned 32 x.2.2))

/-- An item completes: CURRENT, with its sensor's value and the moment recorded. -/
def State.completeItem (s : State) (k : Nat) : State :=
  let s := (s.setItem k 1).setf (itemPlace k).1 (itemTempLo k) 16 (s.f (Reg.thermValue (itemSensor k)) 0 16)
  let s := { s with cal := { s.cal with
    steps := s.cal.steps.filter (fun (x : Nat × Nat × Int × Int) => x.1 != k), deadlines := assocDel s.cal.deadlines k
    completed := assocSet s.cal.completed k s.ticks } }
  s.settleRuns k false

/-- One step of an item counted; the last of its 2^STEPS_LOG2 completes it with the means. -/
def State.itemStep (s : State) (k : Nat) (v : Int × Int) (bins : List (Int × Int)) : State :=
  if !s.wants k then s
  else
    let old := (s.cal.steps.find? (fun x => x.1 == k)).getD (k, 0, 0, 0)
    let n := old.2.1 + 1
    let sum := old.2.2.1 + v.1
    let det := old.2.2.2 + v.2
    if n < 2 ^ s.f Reg.calCfg 0 4 then
      { s with cal := { s.cal with steps := s.cal.steps.filter (fun (x : Nat × Nat × Int × Int) => x.1 != k) ++ [(k, n, sum, det)] } }
    else if k / 128 < 2 then (s.applyLane k (roundDiv sum n) (roundDiv det n)).completeItem k
    else (s.applyItem k (roundDiv sum n) bins).completeItem k

/-- The step of a port's direction completes; a transmit step that is not forced yields instead once a frame may start (R397). -/
def State.laneStepDone (s : State) (p : Nat) (tx : Bool) (values : List (Int × Int)) : State :=
  let k := 2 * p + bit tx
  if tx && s.calStep k == some false && s.mayStart p then s.calYield p
  else if (s.calStep k).isSome && s.timeUp && s.stepOver k then
    let s := (s.calDrop k).count (Reg.calPortSteps p) (if tx then 32 else 0) 32 1
    s.forEach ((s.laneItems p tx).zip (values ++ List.replicate 4 (0, 0))) (fun x s => s.itemStep x.1 x.2 [])
  else s
/-- A background item's step completes. -/
def State.itemStepDone (s : State) (k : Nat) (values : List (Int × Int)) : State :=
  if s.cal.background.contains k && s.timeUp && s.stepOver (1024 + k) then
    ({ s with cal := { s.cal with background := s.cal.background.filter (· != k) } }).itemStep k (values.headD (0, 0)) values
  else s
/-- CAL_STEP_COMPLETE: per lane of the port, or of the item, what the step measured: RAW and the detector's error (R403); for
class 4 the 512 bins of its line's code-density run. -/
def execCalStepComplete (which : CalStep) (values : List (Int × Int)) (s : State) : Host.Outcome State Fault Refusal :=
  let s := s.fresh
  match which with
  | .lane p tx => atUnit p 80 s (s.laneStepDone p tx values)
  | .item cls i => .next (s.itemStepDone (itemOf cls i) values)

/-- SENSOR_SAMPLE, every 10 ms: items whose valid sensor has moved by more than TRIGGER since their last completion become due
(R393). -/
def execSensorSample (s : State) : Host.Outcome State Fault Refusal :=
  let s := s.fresh
  .next (if s.calRuns && s.rested 17 12500000 then
      let s := s.mark 17
      let moved := fun (k : Nat) =>
        let w := s.get (Reg.thermValue (itemSensor k))
        bits w 16 1 == 1 && s.itemState k == 1 &&
          decide (s.f Reg.calCfg 8 13 < (signed 16 w - signed 16 (s.f (itemPlace k).1 (itemTempLo k) 16)).natAbs)
      s.forEach (s.calItems.filter moved) (fun k s => s.makeDue k)
    else s)

/-- CAL_DEADLINE: a DUE item whose deadline has passed becomes STALE (R394). -/
def execCalDeadline (cls i : Nat) (s : State) : Host.Outcome State Fault Refusal :=
  let s := s.fresh
  let k := itemOf cls i
  let passed := match assoc s.cal.deadlines k with | some t => decide (t ≤ s.ticks) | none => false
  .next (if s.timeUp && s.calItems.contains k && s.itemState k == 2 && passed then (s.setItem k 3).settleRuns k true else s)

/-- FORCED_WINDOW (R401). -/
def execForcedWindow (p : Nat) (s : State) : Host.Outcome State Fault Refusal :=
  let s := s.fresh
  atUnit p 80 s (
    let lead := s.f Reg.calForceCfg 32 16 * 1250000
    let near := fun (k : Nat) =>
      staleState (s.itemState k) || (s.itemState k == 2 && (match assoc s.cal.deadlines k with
        | some t => decide (t ≤ s.ticks + lead)
        | none => false))
    let rested := match assoc s.cal.forced p with
      | some t => decide (t + s.f Reg.calForceCfg 0 32 * 1250 ≤ s.ticks)
      | none => true
    if s.mayStep p true && s.b (Reg.calPortCfg p) 16 && (s.side p).sending.isNone && (s.laneItems p true).any near && rested then
      let s := (s.startStep p true true).count (Reg.calPortCnt p) 16 16 1
      { s with cal := { s.cal with forced := assocSet s.cal.forced p s.ticks } }
    else s)

/-! ### Commands (R404, R405) -/

/-- The items a scope names; none when it is not a scope or names an unconfigured port or lane. -/
def State.scopeItems (s : State) (scope n : Nat) : Option (List Nat) :=
  match scope with
  | 0 => some s.calItems
  | 1 => if n < 80 && !(s.portLanes n).isEmpty then some (s.laneItems n false ++ s.laneItems n true) else none
  | 2 => if n < 80 && (s.portOfLane (laneOf n)).isSome then some [itemOf 0 n, itemOf 1 n] else none
  | 3 => some ((List.range 18).map (itemOf 3))
  | 4 => some ((List.range 10).map (itemOf 5))
  | 5 => some ((List.range 2).map (itemOf 4))
  | 6 => some ((List.range 4).map (itemOf 2))
  | _ => none
/-- The checks of both commands. -/
def scopeCheck (c : Ctx) (s : State) : Option Err :=
  firstErr [lenIs c 4, need (decide (u8 c.p 0 ≤ 6)) 0, need (s.scopeItems (u8 c.p 0) (u8 c.p 1)).isSome 1, rsv c 2 2]

/-- What CAL_RUN does at step 10 of R58. -/
def calRunRun (c : Ctx) (s : State) : Ran :=
  let items := (s.scopeItems (u8 c.p 0) (u8 c.p 1)).getD []
  if 8 ≤ s.cal.runs.length then
    let first := (s.cal.deadlines.map (fun (x : Nat × Nat) => x.2)).foldl min (s.ticks + 75000000000)
    .error (.busy ((first - s.ticks + 1249) / 1250)) s
  else
    let due := items.filter (fun k => s.itemState k == 1)
    let stale := (items.filter (fun k => s.itemState k == 3)).length
    let s := s.forEach due (fun k s => s.makeDue k)
    let n := s.cal.lastRun + 1
    let s := { s with cal := { s.cal with
      lastRun := n, runs := s.cal.runs ++ [(⟨n, items.filter (fun k => s.itemState k != 3), 0, stale⟩ : CalRun)] } }
    .ok (toLe 4 n ++ toLe 2 due.length) (s.settleRuns 0xFFFF false)

/-- CAL_RUN. -/
def calRunCmd : Cmd := {
  opcode := 0x0900, cls := 1, engine := some 7, pds := [14]
  ready := fun _ s => s.timeStopped
  check := scopeCheck
  size := fun _ _ => 6
  leases := fun _ _ => [0x28]
  run := calRunRun }

/-- Whole ms since an item completed, saturating; an item that has not reads the largest value. -/
def State.itemAge (s : State) (k : Nat) : Nat :=
  match assoc s.cal.completed k with | some t => min ((s.ticks - t) / 1250000) 0xFFFFFFFF | none => 0xFFFFFFFF
/-- How many items of a list are in a state. -/
def State.itemCount (s : State) (l : List Nat) (st : Nat) : Nat := (l.filter (fun k => s.itemState k == st)).length

/-- What CAL_STATUS does at step 10 of R58. -/
def calStatusRun (c : Ctx) (s : State) : Ran :=
  let l := (s.scopeItems (u8 c.p 0) (u8 c.p 1)).getD []
  .ok (toLe 2 (s.itemCount l 1) ++ toLe 2 (s.itemCount l 2) ++ toLe 2 (s.itemCount l 3) ++ toLe 2 (s.itemCount l 0) ++
    toLe 4 ((l.map s.itemAge).foldl max 0)) s

/-- CAL_STATUS. -/
def calStatusCmd : Cmd := {
  opcode := 0x0901, cls := 1, engine := some 7, pds := [14]
  ready := fun _ s => s.timeStopped
  check := scopeCheck
  size := fun _ _ => 12
  run := calStatusRun }

/-- CAL_RUN. -/
def execCalRun (q : Request) (s : State) : Host.Outcome State Fault Refusal := .next (runCmd calRunCmd q s)
/-- CAL_STATUS. -/
def execCalStatus (q : Request) (s : State) : Host.Outcome State Fault Refusal := .next (runCmd calStatusCmd q s)

/-! ### Sensors (R447, R448) -/

/-- One sensor's conversion, none when it fails: value, extremes and alarms; a change raises THERM_ALARM. -/
def State.convert (s : State) (n : Nat) (v : Option Int) : State :=
  let st := s.get (Reg.thermAlarmStatus n)
  let first := s.get (Reg.thermValue n) = 0 && bits st 2 1 = 0
  let s := match v with
    | some t =>
      let x := unsigned 16 t
      let w := s.get (Reg.thermMinmax n)
      let hi := if first then t else max t (signed 16 (bits w 16 16))
      let lo := if first then t else min t (signed 16 (bits w 0 16))
      (s.set (Reg.thermValue n) (0x10000 + x)).set (Reg.thermMinmax n) (unsigned 16 hi * 0x10000 + unsigned 16 lo)
    | none => s.setf (Reg.thermValue n) 16 1 0
  let t := signed 16 (s.get (Reg.thermValue n))
  let cfg := s.get (Reg.thermAlarmCfg n)
  let alarm := fun (old : Nat) (thr : Int) =>
    if thr ≤ t then 1 else if t ≤ thr - (bits cfg 0 16 : Nat) then 0 else old
  let warn := if v.isSome then alarm (bits st 0 1) (signed 16 (bits cfg 32 16)) else bits st 0 1
  let crit := if v.isSome then alarm (bits st 1 1) (signed 16 (bits cfg 16 16)) else bits st 1 1
  let new := warn + 2 * crit + 4 * bit v.isNone
  let s := s.set (Reg.thermAlarmStatus n) new
  if new = st % 8 then s else s.raise 0xE00 (toLe 1 n ++ toLe 1 new ++ toLe 1 (st % 8) ++ [0] ++ toLe 2 (s.get (Reg.thermValue n)))

/-- THERM_CONVERSION, once per ms: the twelve sensors convert; a failed conversion is none. -/
def execThermConversion (values : List (Option Int)) (s : State) : Host.Outcome State Fault Refusal :=
  let s := s.fresh
  .next (if s.rested 16 1250000 then (s.mark 16).forEach ((List.range 12).zip values) (fun x s => s.convert x.1 x.2) else s)

end Sys2Proof.Machine
end

