-- ==== Sys2Proof/Machine/Tdc.lean ====
section
/-! DEFINITION. The edge measurement unit and the EVIN stampers (R407-R418). -/
namespace Sys2Proof.Machine

/-! ### Inputs (R407-R409, R411) -/

/-- The unit changed. -/
def State.setTdc (s : State) (f : Tdc → Tdc) : State := { s with tdc := f s.tdc }
/-- The state of the measurement: 0 IDLE, 1 PENDING, 2 RUNNING, 3 ENDED. -/
def State.tdcPhase (s : State) : Nat := s.f Reg.tdcState 0 4
/-- The output an input taps; none for EVIN. -/
def tapOf (i : Nat) : Option Nat :=
  if i < 8 then none else if i < 24 then some (i - 8) else if i < 28 then some (i - 12) else some (i - 12)
/-- Whether an input presents edges at all: a squelched or static output has none. -/
def State.inputLive (s : State) (i : Nat) : Bool := match tapOf i with | none => true | some o => decide (s.outState o < 2)
/-- The delay of an input's edges, in 2^-16 ns (R408). -/
def State.inDelay (s : State) (i : Nat) : Int := if i < 8 then signed 64 (s.get (Reg.tdcInDelay i)) else 0
/-- An edge against a divider: whether it is presented, and the divider's count after it. -/
def State.divide (s : State) (i : Nat) (l : List (Nat × Nat)) : Bool × List (Nat × Nat) :=
  let n := (assoc l i).getD 0 + 1
  if max 1 (s.f (Reg.tdcInCfg i) 0 16) ≤ n then (true, assocSet l i 0) else (false, assocSet l i n)
/-- Whether an input is armed: an input of the PENDING or RUNNING measurement. -/
def State.armed (s : State) (i : Nat) : Bool :=
  (s.tdcPhase == 1 || s.tdcPhase == 2) && (s.tdc.a == i || (s.tdc.mode == 1 && s.tdc.b == i))
/-- Whether class 4 is stale (R395). -/
def State.tdcStale (s : State) : Bool := (List.range 2).any (fun i => staleState (s.itemState (itemOf 4 i)))
/-- The dividers of an input restarted: at arming, and at a write of DIV (R408). -/
def State.restartDiv (s : State) (i : Nat) : State :=
  s.setTdc (fun x => { x with divs := assocDel x.divs i, evDivs := assocDel x.evDivs i })

/-- EVIN_EDGE: an edge at ball EVINn, after INVERT; one that is presented is stamped on EVIN_DOMAIN, at most one in 1 µs
(1,250 ticks). -/
def execEvinEdge (n : Nat) (s : State) : Host.Outcome State Fault Refusal :=
  let s := s.fresh
  atUnit n 8 s (
    if s.timeUp && s.b Reg.ledgerEvinEn n then
      let r := s.divide n s.tdc.evDivs
      let s := s.setTdc (fun x => { x with evDivs := r.2 })
      if r.1 then
        let count := (assoc s.tdc.evCount n).getD 0 + 1
        let s := s.setTdc (fun x => { x with evCount := assocSet x.evCount n count })
        let s := if s.armed n then s else s.count (Reg.tdcInCnt n) 32 32 1
        let soon := match assoc s.tdc.evLast n with | some t => decide (s.ticks < t + 1250) | none => false
        if soon then s.count (Reg.tdcInLedgerSkip n) 0 32 1
        else
          let s := s.setTdc (fun x => { x with evLast := assocSet x.evLast n s.ticks })
          let d := s.f Reg.ledgerCfg 16 3
          let w := s.inDelay n
          let x : Stamp := ⟨d, ((s.runNow d : Int) - w).toNat, ((s.now d : Int) - w).toNat, (s.dom d).gen⟩
          s.record ⟨4, x, s.tdLevel d, n, 0, 0, s.tdcStale, count, false⟩
      else s
    else s)

/-! ### Samples and results (R413, R415, R416) -/

/-- The mean of the samples. -/
def Tdc.mean (x : Tdc) : Int := if x.count = 0 then 0 else roundDiv x.sum x.count
/-- The population standard deviation, to the nearest unit. -/
def Tdc.sdev (x : Tdc) : Nat :=
  if x.count ≤ 1 then 0
  else (natSqrt (4 * (x.count * x.sumSq - x.sum.natAbs * x.sum.natAbs) / (x.count * x.count)) + 1) / 2

/-- The result words brought up to date. -/
def State.showTdc (s : State) : State :=
  let x := s.tdc
  let s := ((s.set Reg.tdcSamples x.count).set Reg.tdcMean (unsigned 64 x.mean)).set Reg.tdcSdev x.sdev
  let s := ((s.set Reg.tdcMin (unsigned 64 x.min)).set Reg.tdcMax (unsigned 64 x.max)).setTime (Reg.tdcFirst 0) x.first
  s.setTime (Reg.tdcLast 0) x.last

/-- A measurement ends (R416), with TDC_DONE. -/
def State.endTdc (s : State) (cause : Nat) : State :=
  let s := (s.setf Reg.tdcState 0 4 3).setf Reg.tdcState 4 4 cause
  let s := { s with clock := { s.clock with actions := s.clock.actions.filter (fun a => a.opcode != 0x0A00) } }
  s.raise 0xC00 (toLe 4 s.tdc.number ++ toLe 1 cause ++ toLe 1 (s.f Reg.tdcState 8 2) ++ zeros 2 ++ toLe 4 s.tdc.count ++
    toLe 8 (unsigned 64 s.tdc.mean) ++ toLe 8 s.tdc.sdev)
/-- A PENDING or RUNNING measurement ends. -/
def State.stopTdc (s : State) (cause : Nat) : State := if s.tdcPhase = 1 || s.tdcPhase = 2 then s.endTdc cause else s

/-- One sample with the edge time that gave it; the Nth ends the measurement. -/
def State.sample (s : State) (v : Int) (t : Nat) : State :=
  let s := s.setTdc (fun x => { x with
    count := x.count + 1, sum := x.sum + v, sumSq := x.sumSq + v.natAbs * v.natAbs
    min := if x.count = 0 then v else min x.min v, max := if x.count = 0 then v else max x.max v
    first := if x.count = 0 then t else x.first, last := t, lastTick := s.ticks })
  let s := (if s.tdcStale then s.setf Reg.tdcState 8 1 1 else s).showTdc
  if s.tdc.n ≤ s.tdc.count then s.endTdc 1 else s

/-- The sample of TIME mode: the edge time less the nearest point of a grid of period p, in (-p / 2, p / 2]. -/
def gridSample (t p : Nat) : Int := if p = 0 then 0 else let y := t % p; if p < 2 * y then (y : Int) - p else y

/-- Edges of A that no B edge can reach any more are unpaired: 2 WINDOW after them every pairing has been decided. -/
def State.dropOldA (s : State) : State :=
  let now := s.runNow s.tdc.dom
  let gone := s.tdc.edgesA.filter (fun (e : Nat × Nat) => decide (e.1 + 2 * s.tdc.grid < now))
  s.setTdc (fun x => { x with
    edgesA := x.edgesA.filter (fun (e : Nat × Nat) => decide (now ≤ e.1 + 2 * x.grid)), unpaired := x.unpaired + gone.length })

/-- A captured edge of an input, at a step-free value and a domain time. -/
def State.captured (s : State) (i run t : Nat) : State :=
  match s.tdc.mode with
  | 0 => s.sample (gridSample t s.tdc.grid) t
  | 1 =>
    let s := s.dropOldA
    if s.tdc.a = i then s.setTdc (fun x => { x with edgesA := x.edgesA ++ [(run, t)] })
    else s.setTdc (fun x => { x with edgesB := x.edgesB ++ [(run, t)] })
  | _ =>
    let old := s.tdc.prev
    let s := s.setTdc (fun x => { x with prev := some run })
    match old with
    | some r => s.sample ((run : Int) - r) t
    | none => s

/-- TDC_EDGE: an edge of an armed input, with its place in its TIME cycle in units of 2^-9 ns (R410). A presented edge takes
the delay line whose turn it is, each busy for 16 ns (20 ticks); one that finds none free is missed. -/
def execTdcEdge (i fine : Nat) (s : State) : Host.Outcome State Fault Refusal :=
  let s := s.fresh
  atUnit i 30 s (
    if s.timeUp && s.armed i && s.inputLive i then
      let r := s.divide i s.tdc.divs
      let s := s.setTdc (fun x => { x with divs := r.2 })
      if r.1 then
        let s := s.count (Reg.tdcInCnt i) 32 32 1
        let d := s.tdc.dom
        let w : Int := (fine % 512 * 128 : Nat) - s.inDelay i
        let run := ((s.runNow d / 128 * 128 : Nat) + w).toNat
        let t := ((s.now d / 128 * 128 : Nat) + w).toNat
        if s.tdcPhase = 2 && decide (s.tdc.start ≤ run) then
          if s.tdc.lines.getD s.tdc.next 0 ≤ s.ticks then
            (s.setTdc (fun x => { x with lines := modifyAt x.lines x.next (fun _ => s.ticks + 20), next := 1 - x.next })).captured i run t
          else ((s.count (Reg.tdcInCnt i) 0 32 1).setTdc (fun x => { x with missed := x.missed + 1 })).setf Reg.tdcState 9 1 1
        else s
      else s
    else s)

/-- The unpaired A edge nearest to a B edge within WINDOW; the earlier wins a tie. -/
def Tdc.partner (x : Tdc) (b : Nat) : Option (Nat × Nat) :=
  let near := x.edgesA.filter (fun (e : Nat × Nat) => decide (((e.1 : Int) - b).natAbs ≤ x.grid))
  let best := (near.map (fun (e : Nat × Nat) => ((e.1 : Int) - b).natAbs)).foldl Nat.min (x.grid + 1)
  near.find? (fun e => ((e.1 : Int) - b).natAbs == best)

/-- TDC_INTERVAL_SAMPLE: WINDOW after the oldest B edge it is paired (R413). -/
def execTdcIntervalSample (s : State) : Host.Outcome State Fault Refusal :=
  let s := s.fresh
  .next (
    match s.tdc.edgesB with
    | [] => s
    | b :: rest =>
      if s.timeUp && s.tdcPhase == 2 && s.tdc.mode == 1 && decide (b.1 + s.tdc.grid ≤ s.runNow s.tdc.dom) then
        match s.tdc.partner b.1 with
        | some a =>
          ((s.setTdc (fun x => { x with edgesB := rest, edgesA := x.edgesA.filter (· != a) })).dropOldA).sample ((b.1 : Int) - a.1) b.2
        | none => (s.setTdc (fun x => { x with edgesB := rest, unpaired := x.unpaired + 1 })).dropOldA
      else s)

/-- TDC_TIMEOUT: TIMEOUT_S have passed without a sample. 1 s is 1,250,000,000 ticks. -/
def execTdcTimeout (s : State) : Host.Outcome State Fault Refusal :=
  let s := s.fresh
  .next (if s.timeUp && s.tdcPhase == 2 && decide (s.tdc.lastTick + s.tdc.timeout * 1250000000 ≤ s.ticks) then s.endTdc 2 else s)

/-! ### Commands (R414, R417) -/

/-- A measurement of a payload begins: PENDING until its start, at a domain time. -/
def State.armTdc (s : State) (p : List Byte) (at0 : Nat) : State :=
  let n := s.tdc.number + 1
  let s := s.setTdc (fun x => { Tdc.reset with
    number := n, mode := u8 p 0, a := u8 p 1, b := u8 p 2, dom := u8 p 3, n := u32 p 4, timeout := u16 p 8, grid := u64 p 12
    lines := x.lines, next := x.next, evDivs := x.evDivs, evLast := x.evLast, evCount := x.evCount, began := at0 })
  let s := s.restartDiv (u8 p 1)
  let s := if u8 p 0 = 1 then s.restartDiv (u8 p 2) else s
  (s.set Reg.tdcState (n * 2 ^ 32 + 1)).showTdc
/-- It starts: RUNNING from the instant its domain reads now. -/
def State.startTdc (s : State) : State :=
  (s.setf Reg.tdcState 0 4 2).setTdc (fun x => { x with start := s.runNow x.dom, lastTick := s.ticks })
/-- Whether a phase amount lies in 1 ns to 1 s. -/
def gridOk (v : Nat) : Bool := decide (ns16 ≤ v) && decide (v ≤ 1000000000 * ns16)
/-- The nominal rate of a tap exceeds its dead time (R411). -/
def State.tapFast (s : State) (i : Nat) : Bool :=
  match tapOf i with
  | some o => decide (o < 16) && decide (i < 24) && decide (125000000 * max 1 (s.f (Reg.tdcInCfg i) 0 16) < s.outFreq o)
  | none => false
/-- The time, in µs, until the measurement in progress would time out. -/
def State.tdcLeft (s : State) : Nat :=
  if s.tdcPhase = 2 then (s.tdc.lastTick + s.tdc.timeout * 1250000000 - s.ticks + 1249) / 1250
  else ((s.clock.actions.filter (fun a => a.opcode == 0x0A00)).map (fun a => s.usUntil a.dom a.t)).foldl max 0 + s.tdc.timeout * 1000000

/-- A measurement armed and started at once, and its reply. -/
def State.tdcGo (s : State) (p : List Byte) (st : Status) : Ran :=
  let s := (s.armTdc p (s.now (u8 p 3))).startTdc
  .reply st (toLe 4 s.tdc.number ++ timeBytes (s.now (u8 p 3))) s

/-- What TDC_ARM does at step 10 of R58. -/
def tdcArmRun (c : Ctx) (s : State) : Ran :=
  let d := u8 c.p 3
  if s.tdcPhase = 1 || s.tdcPhase = 2 then .error (.busy s.tdcLeft) s
  else
    if (u8 c.p 10).testBit 0 then
      let t := timeAt c.p 20
      match s.due d t with
      | .past => .error (.pastAt 20) s
      | .late => s.tdcGo c.p .late
      | .scheduled =>
        if s.actionsFull then .error (.busy s.earliest) s
        else
          let s := (s.armTdc c.p t).schedule 0x0A00 c.dest.tag (ownerCode c.master) d t c.p
          .ok (toLe 4 s.tdc.number ++ timeBytes t) s
    else s.tdcGo c.p .ok

/-- TDC_ARM. -/
def tdcArmCmd : Cmd := {
  opcode := 0x0A00, cls := 1, pds := [14]
  ready := fun _ s => s.timeStopped
  check := fun c s =>
    let m := u8 c.p 0
    let a := u8 c.p 1
    let b := u8 c.p 2
    firstErr [lenIs c 32, need (decide (m < 3)) 0, need (decide (a < 30) && !s.tapFast a) 1,
      need (if m = 1 then decide (b < 30) && b != a && !s.tapFast b else b == 0) 2, need (decide (u8 c.p 3 < 8)) 3,
      need (decide (1 ≤ u32 c.p 4) && decide (u32 c.p 4 ≤ 16777216)) 4,
      need (decide (1 ≤ u16 c.p 8) && decide (u16 c.p 8 ≤ 3600)) 8, need (decide (u8 c.p 10 < 2)) 10, rsv c 11 1,
      need (if m = 2 then u64 c.p 12 == 0 else gridOk (u64 c.p 12)) 12, errIf ((u8 c.p 10).testBit 0 && !timeOk c.p 20) (.at 20)]
  size := fun _ _ => 16
  leases := fun _ _ => [0x27]
  run := tdcArmRun }

/-- What TDC_ARM with mode ABORT does at step 10 of R58; the reply names the measurement it ends and that one's start. -/
def tdcAbortRun (_ : Ctx) (s : State) : Ran :=
  let s := s.stopTdc 3
  .ok (toLe 4 s.tdc.number ++ timeBytes s.tdc.began) s

/-- TDC_ARM with mode ABORT; RANGE with no measurement to end. -/
def tdcAbortCmd : Cmd := {
  opcode := 0x0A00, cls := 1, pds := [14]
  ready := fun _ s => s.timeStopped
  check := fun c s => firstErr [lenIs c 32, need (u8 c.p 0 == 3) 0, errIf (!(s.tdcPhase == 1 || s.tdcPhase == 2)) (.at 0)]
  size := fun _ _ => 16
  leases := fun _ _ => [0x27]
  run := tdcAbortRun }

/-- What TDC_RESULT does at step 10 of R58. -/
def tdcResultRun (_ : Ctx) (s : State) : Ran :=
  let x := s.tdc
  let w := s.get Reg.tdcState
  let stats := if x.count = 0 then zeros 56
    else toLe 8 (unsigned 64 x.mean) ++ toLe 8 x.sdev ++ toLe 8 (unsigned 64 x.min) ++ toLe 8 (unsigned 64 x.max) ++
      timeBytes x.first ++ timeBytes x.last
  .ok (toLe 1 (bits w 0 4) ++ toLe 1 (bits w 4 4) ++ toLe 1 (bits w 8 2) ++ toLe 1 x.mode ++ toLe 4 x.number ++ toLe 4 x.count ++
    toLe 4 x.missed ++ stats ++ toLe 4 (if x.mode = 1 then x.unpaired else 0)) s

/-- TDC_RESULT. -/
def tdcResultCmd : Cmd := {
  opcode := 0x0A01, cls := 1, pds := [14]
  ready := fun _ s => s.timeStopped
  check := fun c _ => lenIs c 0
  size := fun _ _ => 76
  run := tdcResultRun }

/-- TDC_ARM. -/
def execTdcArm (q : Request) (s : State) : Host.Outcome State Fault Refusal := .next (runCmd tdcArmCmd q s)
/-- TDC_ABORT. -/
def execTdcAbort (q : Request) (s : State) : Host.Outcome State Fault Refusal := .next (runCmd tdcAbortCmd q s)
/-- TDC_RESULT. -/
def execTdcResult (q : Request) (s : State) : Host.Outcome State Fault Refusal := .next (runCmd tdcResultCmd q s)

/-- SCHEDULED_TDC_START. -/
def execScheduledTdcStart (h : Nat) (s : State) : Host.Outcome State Fault Refusal :=
  let s := s.fresh
  .next (s.atTime h 0x0A00 (fun _ => true) (fun _ s => s.startTdc))

end Sys2Proof.Machine
end

