-- ==== Sys2Proof/Machine/Actions.lean ====
section
/-! DEFINITION. Steps, frequency changes and the pending one-shot actions (R10-R13, R303-R318). -/
namespace Sys2Proof.Machine

/-! ### What becomes of an action that does not execute (R317, R318) -/

/-- What a cancelled action leaves behind: a commit loses its frozen entries, a proof returns to IDLE, a snapshot's bank is
EMPTY, and a measurement ends with the cause given. -/
def State.undo (s : State) (a : Action) (cause : Nat) : State :=
  match a.opcode with
  | 0x0201 => s.unfreeze
  | 0x0A00 => s.stopTdc cause
  | 0x0B00 => s.snapCancel
  | 0x0D01 => s.proofCancel
  | _ => s

/-- An action cancelled under R318, with SCHEDULED_OUTCOME; its time is zero when its domain has stopped. -/
def State.cancelAction (s : State) (stopped : Bool) (a : Action) : State :=
  ((s.dropAction a.handle).undo a 5).outcome a 0x102 (if stopped then 0 else s.outcomeTime a.dom)
/-- The actions that meet a condition cancelled under R318, in the order of their handles. -/
def State.cancelWhere (s : State) (stopped : Bool) (c : Action → Bool) : State :=
  s.forEach (s.clock.actions.filter c) (fun a s => s.cancelAction stopped a)

/-! ### Frequency changes (R315) -/

/-- Whether a domain's DPLL owns its rate. -/
def State.steered (s : State) (d : Nat) : Bool := s.tdLevel d == 1 || s.tdLevel d == 2
/-- A frequency offset in force on a FREE domain, or as the holdover frequency of one in HOLDOVER. -/
def State.adjFreq (s : State) (d : Nat) (f : Int) : State :=
  if s.steered d then s
  else
    let s := if s.tdLevel d = 3 then s.setf (Reg.dpllHoFreq d) 0 32 (unsigned 32 f) else s
    (s.setDpll d (fun x => { x with base := f })).retuneDpll d
/-- The offset a TIME_ADJ_FREQ carries. -/
def adjOf (p : List Byte) : Int := signed 32 (u32 p 16)

/-! ### Steps (R306, R313, R314) -/

/-- The step a TIME_STEP carries. -/
def stepOf (p : List Byte) : Landing :=
  let abs := (u8 p 1).testBit 1
  { dom := u8 p 0, absolute := abs, amount := if abs then (timeAt p 16 : Nat) else signed 64 (u64 p 16), cause := 0 }
/-- Whether a step has an effect: a relative step of 0 has none (R313). -/
def Landing.real (x : Landing) : Bool := x.absolute || x.amount != 0
/-- The time a step leaves, from the time before it, both in 2^-16 ns. -/
def Landing.result (x : Landing) (old : Nat) : Nat := if x.absolute then x.amount.toNat else ((old : Int) + x.amount).toNat

/-- The time domain d will read before a step executed now lands, and its generation then: at the next replica realignment,
after the steps that wait for it already (R306). -/
def State.landingTime (s : State) (d : Nat) : Nat × Nat :=
  let x := s.dom d
  let n := 1024 - s.ticks % 1024
  let start := (((x.run : Int) + x.shift + n * 4 * (2 ^ 40 + x.freq)).toNat / fine16, x.gen)
  (s.clock.landings.filter (fun l => l.dom == d && l.real)).foldl (fun (t : Nat × Nat) l => (l.result t.1, (t.2 + 1) % 65536)) start

/-- What an action that executes at once, at domain time t, does; none when its function is not ready (R318). -/
def State.fire (s : State) (a : Action) (t : Nat) : Option State :=
  match a.opcode with
  | 0x0201 => match s.fwd.other with
    | some o => some (({ s with fwd := { s.fwd with other := some { o with t := t } } }).epochDue)
    | none => some s
  | 0x0301 => some { s with clock := { s.clock with landings := s.clock.landings ++ [{ stepOf a.data with told := some a }] } }
  | 0x0302 => some (s.adjFreq a.dom (adjOf a.data))
  | 0x0500 => some (s.fireRealign a.data)
  | 0x0601 => if s.switchReady a.data then some (s.fireSwitch a.data t) else none
  | 0x0A00 => some s.startTdc
  | 0x0B00 => if s.snapReady then some (s.fireSnapshot t) else none
  | 0x0D01 => if s.proofUp then some (s.proofGo a.dom t (maskSlots a.data)) else none
  | _ => some s

/-- An action executed late, at once, and its report: LATE, by a step once it has landed (R480), or NOT_READY when its function is
not ready (R318). -/
def State.fireLate (s : State) (a : Action) (now : Nat) : State :=
  match s.fire a now with
  | some t => if a.opcode = 0x0301 then t else t.outcome a 0x0001 now
  | none => (s.undo a 5).outcome a 0x102 now

/-- A pending action after a step of its domain (R13). -/
def State.reconsider (s : State) (a : Action) : State :=
  if s.due a.dom a.t = .scheduled then s
  else if s.due a.dom a.t = .past then ((s.dropAction a.handle).undo a 4).outcome a 0x205 (s.now a.dom)
  else if a.opcode = 0x0302 && s.steered a.dom then (s.dropAction a.handle).outcome a 0x205 (s.now a.dom)
  else (s.dropAction a.handle).fireLate a (s.now a.dom)

/-- A step lands (R306, R313, R314, R324): domain d read `old` and reads `new` at an instant of the step-free value `run`. -/
def State.landAt (s : State) (d cause old new run : Nat) : State :=
  let s := s.gatesDue
  let x := s.dom d
  let held := s.heldEntries d
  let gen := (x.gen + 1) % 65536
  let shift : Int := (new * fine16 : Nat) - (run : Int)
  let s := s.setDom d (fun x => { x with shift := shift, gen := gen })
  let s := s.discontinuity d cause old x.gen new gen
  let s := s.gateStep d held
  let s := (s.outsStepped d (shift - x.shift)).dpllStepped d cause ((new : Int) - old)
  let s := s.ptpStepped d ((new : Int) - old)
  let s := if s.tdcPhase = 2 && s.tdc.mode = 0 && s.tdc.dom = d then s.endTdc 4 else s
  let mine := s.clock.actions.filter (fun a => a.dom == d)
  (s.forEach (mine.filter (fun a => !a.last)) (fun a s => s.reconsider a)).forEach (mine.filter Action.last) (fun a s => s.reconsider a)

/-- A step that has waited for a replica realignment lands now; a late action's outcome gives the old time then (R480). -/
def State.land (s : State) (l : Landing) : State :=
  let s := match l.told with | some a => s.outcome a 0x0001 (s.now l.dom) | none => s
  if l.real then s.landAt l.dom l.cause (s.now l.dom) (l.result (s.now l.dom)) (s.dom l.dom).run else s

/-- REPLICA_REALIGN: every 1,024 TIME cycles the steps that executed at once land, in the order in which they executed. -/
def execReplicaRealign (s : State) : Host.Outcome State Fault Refusal :=
  let s := s.fresh
  .next (if s.timeUp && s.ticks % 1024 == 0 then
      ({ s with clock := { s.clock with landings := [] } }).forEach s.clock.landings (fun l s => s.land l)
    else s)

/-- SCHEDULED_STEP: a step lands exactly at its T; the domain has run on from there. -/
def execScheduledStep (h : Nat) (s : State) : Host.Outcome State Fault Refusal :=
  let s := s.fresh
  .next (match s.dueAction h 0x0301 with
    | none => s
    | some a =>
      let l := stepOf a.data
      let s := s.dropAction h
      let x := s.dom a.dom
      if l.real then s.landAt a.dom 0 a.t (l.result a.t) ((a.t * fine16 : Int) - x.shift).toNat else s)

/-- SCHEDULED_FREQ_CHANGE. -/
def execScheduledFreqChange (h : Nat) (s : State) : Host.Outcome State Fault Refusal :=
  let s := s.fresh
  .next (match s.dueAction h 0x0302 with
    | none => s
    | some a =>
      let s := s.dropAction h
      if s.steered a.dom then s.outcome a 0x205 (s.now a.dom) else s.adjFreq a.dom (adjOf a.data))

/-! ### Commands of group 0x03xx -/

/-- TIME_GET (R312). -/
def timeGetCmd : Cmd := {
  opcode := 0x0300, cls := 1, pds := [14]
  ready := fun _ s => s.timeStopped
  check := fun c _ => firstErr [lenIs c 1, need (u8 c.p 0 != 0) 0]
  size := fun c _ => 24 * (bitsSet (u8 c.p 0) 8).length
  run := fun c s => .ok ((bitsSet (u8 c.p 0) 8).flatMap (fun d =>
    toLe 1 d ++ toLe 1 (s.tdLevel d) ++ toLe 2 (s.dom d).gen ++ timeBytes (s.now d) ++ toLe 4 (unsigned 32 (s.dom d).freq) ++
      zeros 4)) s }

/-- The reply of TIME_STEP: the time before and after, and the generation after it. -/
def Landing.stepReply (l : Landing) (old gen : Nat) : List Byte :=
  timeBytes old ++ timeBytes (l.result old) ++ toLe 2 (if l.real then (gen + 1) % 65536 else gen)
/-- A step that executes at once: it lands at the next replica realignment, or, by zero, not at all (R306). -/
def State.stepNow (s : State) (d : Nat) (l : Landing) (st : Status) : Ran :=
  if l.real then
    .reply st (l.stepReply (s.landingTime d).1 (s.landingTime d).2)
      { s with clock := { s.clock with landings := s.clock.landings ++ [l] } }
  else .reply st (l.stepReply (s.now d) (s.dom d).gen) s

/-- What TIME_STEP does at step 10 of R58. -/
def timeStepRun (c : Ctx) (s : State) : Ran :=
  let d := u8 c.p 0
  let l := stepOf c.p
  if (u8 c.p 1).testBit 0 then
    let t := timeAt c.p 4
    match s.due d t with
    | .past => .error (.pastAt 4) s
    | .late => s.stepNow d l .late
    | .scheduled =>
      if s.actionsFull then .error (.busy s.earliest) s
      else .ok (l.stepReply t (s.dom d).gen) (s.schedule 0x0301 c.dest.tag (ownerCode c.master) d t c.p)
  else s.stepNow d l .ok

/-- TIME_STEP (R313). -/
def timeStepCmd : Cmd := {
  opcode := 0x0301, cls := 1, pds := [14]
  ready := fun _ s => s.timeStopped
  check := fun c _ =>
    let f := u8 c.p 1
    firstErr [lenIs c 28, need (decide (u8 c.p 0 < 8)) 0, need (decide (f < 4)) 1, rsv c 2 2,
      errIf (f.testBit 0 && !timeOk c.p 4) (.at 4), errIf (f.testBit 1 && !timeOk c.p 16) (.at 16),
      if f.testBit 1 then none else rsv c 24 4]
  size := fun _ _ => 26
  leases := fun _ _ => [0x20]
  run := timeStepRun }

/-- A frequency change that executes at once; a domain that a servo steers is BUSY (R315). -/
def State.adjNow (s : State) (d : Nat) (f : Int) (st : Status) (payload : List Byte) : Ran :=
  if s.steered d then .error (.busy 0) s else .reply st payload (s.adjFreq d f)

/-- What TIME_ADJ_FREQ does at step 10 of R58. -/
def timeAdjFreqRun (c : Ctx) (s : State) : Ran :=
  let d := u8 c.p 0
  let t := timeAt c.p 4
  if (u8 c.p 1).testBit 0 then
    match s.due d t with
    | .past => .error (.pastAt 4) s
    | .late => s.adjNow d (adjOf c.p) .late (timeBytes (s.now d))
    | .scheduled =>
      if s.actionsFull then .error (.busy s.earliest) s
      else .ok [] (s.schedule 0x0302 c.dest.tag (ownerCode c.master) d t c.p)
  else s.adjNow d (adjOf c.p) .ok []

/-- TIME_ADJ_FREQ (R315). Its T is judged under R18 without AT_TIME too: R315 does not say that it is then ignored. -/
def timeAdjFreqCmd : Cmd := {
  opcode := 0x0302, cls := 1, pds := [14]
  ready := fun _ s => s.timeStopped
  check := fun c _ =>
    firstErr [lenIs c 20, need (decide (u8 c.p 0 < 8)) 0, need (decide (u8 c.p 1 < 2)) 1, rsv c 2 2,
      errIf (!timeOk c.p 4) (.at 4)]
  size := fun _ _ => 12
  leases := fun _ _ => [0x20]
  run := timeAdjFreqRun }

/-- The pending actions in the order of their handles. -/
def State.actionsByHandle (s : State) : List Action :=
  (s.clock.actions.foldl (fun (m : List (Nat × Action)) a => assocSet m a.handle a) []).map (·.2)

/-- TIME_SCHEDULE, list (R317). -/
def timeScheduleListCmd : Cmd := {
  opcode := 0x0303, cls := 1, pds := [14]
  ready := fun _ s => s.timeStopped
  check := fun c _ => firstErr [lenIs c 4, need (u8 c.p 0 == 0) 0, rsv c 1 1]
  size := fun _ s => 8 + 24 * s.clock.actions.length
  run := fun _ s => .ok (toLe 2 s.clock.actions.length ++ zeros 6 ++ s.actionsByHandle.flatMap (fun a =>
    toLe 2 a.handle ++ toLe 2 a.opcode ++ toLe 2 a.tag ++ toLe 1 a.master ++ toLe 1 a.dom ++ timeBytes a.t ++ zeros 4)) s }

/-- What TIME_SCHEDULE does at step 10 of R58. -/
def timeScheduleCancelRun (c : Ctx) (s : State) : Ran :=
  match s.action (u16 c.p 2) with
  | none => .error (.at 2) s
  | some a =>
    if a.t < s.now a.dom + 2000 * ns16 then .error (.busy (s.usUntil a.dom a.t)) s
    else .ok [] ((s.dropAction a.handle).undo a 3)

/-- TIME_SCHEDULE, cancel (R317). -/
def timeScheduleCancelCmd : Cmd := {
  opcode := 0x0303, cls := 1, pds := [14]
  ready := fun _ s => s.timeStopped
  check := fun c s => firstErr [lenIs c 4, need (u8 c.p 0 == 1) 0, rsv c 1 1, errIf (s.action (u16 c.p 2)).isNone (.at 2)]
  leases := fun c s => match s.action (u16 c.p 2) with | some a => s.actionBlocks a | none => []
  run := timeScheduleCancelRun }

/-- TIME_GET. -/
def execTimeGet (q : Request) (s : State) : Host.Outcome State Fault Refusal := .next (runCmd timeGetCmd q s)
/-- TIME_STEP. -/
def execTimeStep (q : Request) (s : State) : Host.Outcome State Fault Refusal := .next (runCmd timeStepCmd q s)
/-- TIME_ADJ_FREQ. -/
def execTimeAdjFreq (q : Request) (s : State) : Host.Outcome State Fault Refusal := .next (runCmd timeAdjFreqCmd q s)
/-- TIME_SCHEDULE, list. -/
def execTimeScheduleList (q : Request) (s : State) : Host.Outcome State Fault Refusal := .next (runCmd timeScheduleListCmd q s)
/-- TIME_SCHEDULE, cancel. -/
def execTimeScheduleCancel (q : Request) (s : State) : Host.Outcome State Fault Refusal :=
  .next (runCmd timeScheduleCancelCmd q s)

end Sys2Proof.Machine
end

