-- ==== Sys2Proof/Machine/Gpio.lean ====
section
/-! DEFINITION. GPIO levels, OUT_FORCE and the I2C controllers (R468-R470). -/
namespace Sys2Proof.Machine

/-! ### Levels (R422, R468) -/

/-- Whether any sensor has CRIT set (R448). -/
def State.anyCrit (s : State) : Bool := (List.range 12).any (fun n => s.b (Reg.thermAlarmStatus n) 1)
/-- The levels at which watch entries drive a pin. -/
def State.watchLevels (s : State) (n : Nat) : List Bool :=
  (s.red.watches.filter (fun (x : Nat × Watch) => x.2.contact && u8 x.2.entry 38 == n)).map (fun x => (u8 x.2.entry 0).testBit 3)
/-- What drives pin n, as GPIO_STATE shows it (0 nothing, 1 the host, 2 stream watch, 3 a force or CRIT), and its level. Watch
entries that disagree leave the level open. -/
def State.gpioDrives (s : State) (n : Nat) : Nat × Bool :=
  let contact := s.b Reg.pairContactMask n
  if contact && !s.activeRole then (0, false)
  else if s.f Reg.thermCfg 0 8 == n && s.anyCrit then (3, false)
  else if !s.b Reg.gpioDir n then (0, false)
  else if s.b Reg.gpioForce n then (3, s.b Reg.gpioForce (32 + n))
  else match s.watchLevels n with
    | [] => (1, match s.pair.adopted with | some w => if contact then w.testBit n else s.b Reg.gpioOut n | none => s.b Reg.gpioOut n)
    | b :: rest => (2, if rest.all (· == b) then b else Config.ballLevel s.ticks n)
/-- The level at the ball of pin n: that driven; of a pin not driven or released, what the board presents, or, of a contact pin, the
last level, which its bus keeper holds unless it is overdriven (R476). -/
def State.gpioLevel (s : State) (n : Nat) : Bool :=
  let d := s.gpioDrives n
  if d.1 != 0 && !(d.2 && s.b Reg.gpioOd n) then d.2
  else if s.b Reg.pairContactMask n then (Config.overdriven s.ticks n).getD (s.pair.keeper.testBit n)
  else Config.ballLevel s.ticks n
/-- GPIO_IN. -/
def State.gpioIn (s : State) : Nat := maskOf ((List.range 32).filter s.gpioLevel)
/-- The levels of the contact pins, as their bus keepers take them (R476). -/
def State.contactLevels (s : State) : Nat := if s.get Reg.pairContactMask = 0 then 0 else s.gpioIn &&& s.get Reg.pairContactMask
/-- GPIO_STATE. -/
def State.gpioState (s : State) : Nat := ((List.range 32).map (fun n => (s.gpioDrives n).1 * 4 ^ n)).sum

/-! ### OUT_FORCE (R469) -/

/-- What OUT_FORCE does at step 10 of R58. -/
def outForceRun (c : Ctx) (s : State) : Ran :=
  let s := s.forEach (bitsSet (u32 c.p 0) 32) (fun n s =>
    (s.setf Reg.gpioForce n 1 1).setf Reg.gpioForce (32 + n) 1 (bit ((u32 c.p 4).testBit n)))
  .ok (toLe 4 (s.get Reg.gpioForce)) s

/-- OUT_FORCE, force. -/
def outForceCmd : Cmd := {
  opcode := 0x0502, cls := 0
  check := fun c s => firstErr [lenIs c 12, need (u8 c.p 8 == 0) 8, rsv c 9 3,
    ((bitsSet (u32 c.p 0) 32).find? (fun n => !s.b Reg.gpioDir n)).map (fun _ => .at 0)]
  size := fun _ _ => 4
  leases := fun _ _ => [0x34]
  run := outForceRun }

/-- What OUT_FORCE does at step 10 of R58. -/
def outForceReleaseRun (c : Ctx) (s : State) : Ran :=
  let s := s.forEach (bitsSet (u32 c.p 0) 32) (fun n s => (s.setf Reg.gpioForce n 1 0).setf Reg.gpioForce (32 + n) 1 0)
  .ok (toLe 4 (s.get Reg.gpioForce)) s

/-- OUT_FORCE, release. -/
def outForceReleaseCmd : Cmd := {
  opcode := 0x0502, cls := 0
  check := fun c _ => firstErr [lenIs c 12, need (u8 c.p 8 == 1) 8, rsv c 9 3]
  size := fun _ _ => 4
  leases := fun _ _ => [0x34]
  run := outForceReleaseRun }

/-- OUT_FORCE. -/
def execOutForce (q : Request) (s : State) : Host.Outcome State Fault Refusal := .next (runCmd outForceCmd q s)
/-- OUT_FORCE, release. -/
def execOutForceRelease (q : Request) (s : State) : Host.Outcome State Fault Refusal := .next (runCmd outForceReleaseCmd q s)

/-! ### I2C (R470) -/

/-- Whether controller k has a transfer in progress. -/
def State.i2cBusy (s : State) (k : Nat) : Bool := s.b (Reg.i2cStatus (0x100 + k)) 8
/-- A transfer starts from I2C_XFER, unless one is in progress (R470) or the controller is off. -/
def State.i2cStart (s : State) (k : Nat) : State :=
  if s.i2cBusy k || s.f (Reg.i2cCfg (0x100 + k)) 0 2 == 0 then s
  else
    let w := s.get (Reg.i2cXfer (0x100 + k))
    let reads := s.boot.i2cReads.filter (· != k) ++ (if bits w 62 1 = 1 then [k] else [])
    (({ s with boot := { s.boot with i2cReads := reads } }).setf (Reg.i2cStatus (0x100 + k)) 8 1 1).emit
      (.i2c k (bits w 62 1 == 1) (bits w 48 7) (bits w 40 8) (bits w 0 8))
/-- A transfer ends with a result: 0 OK, 1 NACK, 2 bus stuck. -/
def State.i2cEnd (s : State) (k result : Nat) : State := (s.setf (Reg.i2cStatus (0x100 + k)) 8 1 0).setf (Reg.i2cStatus (0x100 + k)) 9 2 result

/-- I2C_DONE: the transfer of controller k completes, acknowledged or not; a read leaves its byte. -/
def execI2cDone (k : Nat) (ack : Bool) (value : Nat) (s : State) : Host.Outcome State Fault Refusal :=
  let s := s.fresh
  atUnit k 4 s (if s.i2cBusy k then
      let s := if ack && s.boot.i2cReads.contains k then s.setf (Reg.i2cStatus (0x100 + k)) 0 8 value else s
      s.i2cEnd k (if ack then 0 else 1)
    else s)

/-- I2C_BUS_STUCK: SCL or SDA held low for 35 ms ends the transfer. -/
def execI2cBusStuck (k : Nat) (s : State) : Host.Outcome State Fault Refusal :=
  let s := s.fresh
  atUnit k 4 s (if s.i2cBusy k then s.i2cEnd k 2 else s)

end Sys2Proof.Machine
end

