-- ==== Sys2Proof/Machine/Pair.lean ====
section
/-! DEFINITION. The partner pair: roles, bellflowers, takeover, handover, health and self-tests (chapter 15). -/
namespace Sys2Proof.Machine

/-! ### Verdicts and what is heard (R426, R433) -/

/-- The pair's hidden state changed. -/
def State.setPair (s : State) (f : PairSide → PairSide) : State := { s with pair := f s.pair }
/-- The health report's age in ms, saturating; 0 before the first report. -/
def State.reportAge (s : State) : Nat :=
  match s.health.reported with | some t => min ((s.ticks - t) / 1250000) 65535 | none => 0
/-- HEALTH_MAX_AGE_MS. -/
def State.maxAge (s : State) : Nat := s.f Reg.pairTimers 0 16
/-- The unit's verdict in its own decisions: UNKNOWN once the report is too old. -/
def State.verdict (s : State) : Nat :=
  if s.health.reported.isNone then 2 else if s.maxAge < s.reportAge then 2 else s.f Reg.healthReport 0 8
/-- The partner's verdict in this unit's decisions: UNKNOWN once the advertised report is too old. -/
def State.partnerVerdict (s : State) : Nat :=
  match s.pair.last with
  | some h => if s.maxAge < h.age + (s.ticks - h.tick) / 1250000 then 2 else h.verdict
  | none => 2
/-- Three periods: of the larger of the unit's own and the partner's, in ticks (R426). 1 µs is 1,250 ticks. -/
def State.threePeriods (s : State) : Nat :=
  3 * max (s.f Reg.pairCfg 32 16) (match s.pair.last with | some h => h.period | none => 0) * 1250
/-- What was last heard on a path: 0 A, 1 B. -/
def State.heardOn (s : State) (path : Nat) : Option Heard := if path = 0 then s.pair.heardA else s.pair.heardB
/-- The state of a path in PAIR_STATE: 0 off, 1 silent, 2 heard. -/
def State.pathState (s : State) (path : Nat) : Nat := s.f Reg.pairState (20 + 2 * path) 2
/-- Whether a path is not silent. -/
def State.pathLive (s : State) (path : Nat) : Bool :=
  match s.heardOn path with
  | some h => s.pathState path != 0 && decide (s.ticks < h.tick + s.threePeriods)
  | none => false
/-- Whether both paths are silent. -/
def State.bothSilent (s : State) : Bool := !s.pathLive 0 && !s.pathLive 1
/-- Whether the partner is heard in a role. -/
def State.partnerIn (s : State) (role : Nat) : Bool :=
  [0, 1].any (fun p => s.pathLive p && (match s.heardOn p with | some h => h.role == role | none => false))
/-- Whether the partner is heard active. -/
def State.partnerActive (s : State) : Bool := s.partnerIn 2
/-- Whether the partner has not been heard active for three periods. -/
def State.partnerGone (s : State) : Bool :=
  !s.partnerActive && (match s.pair.activeAt with | some t => decide (t + s.threePeriods ≤ s.ticks) | none => true)
/-- Whether the unit acts as preferred (R420). -/
def State.preferred (s : State) : Bool := s.b Reg.pairState 0

/-! ### Roles (R421, R422, R427-R432) -/

/-- The revertive wait-to-restore, which runs while its conditions hold (R432). -/
def State.wtrCheck (s : State) : State :=
  let runs := s.pairMode && s.preferred && s.b Reg.pairCfg 2 && s.role == 1 && s.partnerActive && s.verdict == 0 &&
    decide (s.pair.holdUntil ≤ s.ticks)
  s.setPair (fun x => { x with wtrSince := if runs then some (x.wtrSince.getD s.ticks) else none })
/-- The wait-to-restore that remains, in ms. -/
def State.pairWtrMs (s : State) : Nat :=
  match s.pair.wtrSince with
  | some t => (t + s.f Reg.pairCfg 16 16 * 1250000000 - s.ticks + 1249999) / 1250000
  | none => 0

/-- The unit takes a role (R421): its requests end, its contacts and PAIR outputs follow, PAIR_ROLE with the gap of a
takeover, and readiness. -/
def State.takeRoleGap (s : State) (new cause gap : Nat) : State :=
  let old := s.role
  if new = old then s
  else
    let s := (s.setf Reg.pairState 8 4 new).setPair (fun x => { x with
      takeReq := none, offer := none, settle := none, wtrSince := none, blocked := none, yielded := x.yielded && new != 2
      adopted := if new = 2 then x.last.map (·.gpio) else none })
    let s := s.raise 0xD00 (toLe 1 new ++ toLe 1 old ++ toLe 1 cause ++ [0] ++ toLe 4 gap)
    s.refresh.outWantAll
/-- The unit takes a role without a takeover: PAIR_ROLE carries gap 0. -/
def State.takeRole (s : State) (new cause : Nat) : State := s.takeRoleGap new cause 0

/-- The unit becomes ACTIVE by a takeover (R431): the gap runs from the last bellflower heard. -/
def State.takeOver (s : State) (cause : Nat) : State :=
  let s := match s.pair.last with
    | some h => s.set Reg.pairLastGap (min ((s.ticks - h.tick) / 1250) 0xFFFFFFFF)
    | none => (s.set Reg.pairLastGap (Config.noGap s.drawn % 2 ^ 32)).draw
  (s.count Reg.pairCnt 48 16 1).takeRoleGap 2 cause (s.f Reg.pairLastGap 0 32)

/-- PAIR_FENCE_OUT set (R427, R429). -/
def State.fenceOut (s : State) (on : Bool) : State :=
  if s.b Reg.pairState 24 == on then s else (s.setf Reg.pairState 24 1 (bit on)).emit (.fence on)

/-- The takeover begins: with the fence when both paths are silent, at once otherwise. -/
def State.beginTake (s : State) (fence : Bool) (silent other : Nat) : State :=
  if fence then (s.fenceOut true).setPair (fun x => { x with settle := some (s.ticks, silent) }) else s.takeOver other

/-- Whether the takeover conditions of R427 hold, in STANDBY or at the end of INIT. A unit in READING_ROOM is held. -/
def State.mayTake (s : State) : Bool :=
  s.pairMode && s.mode != 3 && s.pair.settle.isNone && s.b Reg.pairCfg 3 && s.partnerGone && !s.pair.fenceLow && s.verdict == 0 &&
    (s.bothSilent || s.preferred || s.partnerVerdict != 0)

/-- PAIR_TAKEOVER_BLOCKED: 0 verdict, 1 fenced, 2 no YIELDED, 3 AUTO_TAKE clear. -/
def State.blocked (s : State) (reason : Nat) : State :=
  s.raise 0xD02 (toLe 1 reason ++ zeros 3 ++ toLe 4 (s.f Reg.healthReport 32 32))
/-- A takeover by silence that cannot proceed, reported once for each reason and silence (R439). -/
def State.checkBlocked (s : State) : State :=
  let stands := s.pairMode && s.mode != 3 && (s.role == 1 || s.role == 3) && s.bothSilent && s.pair.settle.isNone
  if !stands then s.setPair (fun x => { x with blocked := none })
  else
    let reason := if s.pair.fenceLow then some 1 else if !s.b Reg.pairCfg 3 then some 3 else if s.verdict != 0 then some 0 else none
    match reason with
    | none => s.setPair (fun x => { x with blocked := none })
    | some r => if s.pair.blocked = some r then s else (s.setPair (fun x => { x with blocked := some r })).blocked r

/-- A unit in READING_ROOM is held in STANDBY (R421, R439); a FENCED unit stays FENCED. -/
def State.holdStandby (s : State) : State :=
  if s.pairMode && s.mode == 3 && (s.role == 0 || s.role == 2) then s.takeRole 1 0 else s
/-- MODE written to 1, or loaded so at a cold start (R421): INIT, or FENCED while PAIR_FENCE_IN_N is low. -/
def State.enterPair (s : State) : State :=
  let s := s.setPair (fun x => { PairSide.reset with seq := x.seq, initSince := s.ticks, fenceLow := x.fenceLow, keeper := x.keeper })
  let p := s.f Reg.pairCfg 8 8
  let s := s.setf Reg.pairState 20 2 1
  let s := s.setf Reg.pairState 22 2 (bit (decide (p < 80) && s.portReady p))
  let s := s.setf Reg.pairState 0 1 (s.f Reg.pairState 1 1)
  let s := s.setf Reg.pairState 25 1 (bit s.pair.fenceLow)
  let s := (s.takeRole 0 0).refresh
  (if s.pair.fenceLow then s.takeRole 3 5 else s.holdStandby).outWantAll
/-- MODE 0 (R419): a standalone unit is ACTIVE at all times, with its fence deasserted and both paths off. -/
def State.enterAlone (s : State) : State :=
  let s := s.fenceOut false
  let s := (s.setf Reg.pairState 20 6 0).setf Reg.pairState 12 8 0xF
  let s := s.setPair (fun x => { PairSide.reset with seq := x.seq, fenceLow := x.fenceLow, keeper := x.keeper })
  ((s.takeRole 2 0).setPair (fun x => { x with adopted := none })).refresh.outWantAll

/-! ### Bellflowers (R423-R426) -/

/-- The 48-byte payload. -/
def State.bellflower (s : State) : List Byte :=
  let x := s.pair
  let flags := bit (s.pathState 0 == 2) + 2 * bit (s.pathState 1 == 2) + 4 * bit x.takeReq.isSome + 8 * bit x.offer.isSome +
    16 * bit x.yielded + 32 * s.f Reg.pairState 24 1 + 64 * s.f Reg.pairState 25 1
  toLe 2 0xB7F1 ++ [1] ++ toLe 1 s.role ++ toLe 4 x.seq ++ toLe 8 (s.get Reg.devUid) ++ toLe 8 (s.get Reg.pairId) ++
    toLe 1 (bit (!s.preferred) + 128 * bit x.conflict) ++ toLe 1 (s.f Reg.healthReport 0 8) ++ toLe 1 flags ++ [0] ++
    toLe 2 s.reportAge ++ toLe 2 (s.f Reg.pairCfg 32 16) ++ toLe 4 (s.f Reg.healthReport 32 32) ++ toLe 4 s.gpioIn ++
    toLe 4 (s.get Reg.pairContactMask) ++ toLe 4 s.pairWtrMs

/-- A bellflower sent on each path: A in full while its island runs, B as a frame of PATH_B_PORT in Q7 (R424,
R425, R52). -/
def State.sendBellflower (s : State) : State :=
  let y := s.bellflower
  let s := s.setPair (fun x => { x with seq := (x.seq + 1) % 2 ^ 32 })
  let s := if s.islandUp 3 then s.emit (.bellflower (y ++ toLe 4 (crc32c y))) else s
  if s.pathState 1 = 0 then s
  else
    let w := s.get Reg.pairBDest
    let tag := if bits w 63 1 = 1 then toBe 2 0x8100 ++ toBe 2 (bits w 60 3 * 8192 + bits w 48 12) else []
    s.deviceSend (s.f Reg.pairCfg 8 8) 7
      (toBe 6 (bits w 0 48) ++ toBe 6 (s.f Reg.cmdInbandMac 0 48) ++ tag ++ toBe 2 0x88B6 ++ y ++ zeros 16)

/-- BELLFLOWER_SEND: every PERIOD_US; not in STANDALONE mode nor in READING_ROOM. -/
def execBellflowerSend (s : State) : Host.Outcome State Fault Refusal :=
  let s := s.fresh
  let due := match s.pair.sentAt with | some t => decide (t + s.f Reg.pairCfg 32 16 * 1250 ≤ s.ticks) | none => true
  .next (if s.pairMode && s.mode != 3 && due then (s.setPair (fun x => { x with sentAt := some s.ticks })).sendBellflower else s)

/-- What a bellflower says of its sender. -/
def heardOf (y : List Byte) (tick : Nat) : Heard :=
  ⟨tick, u8 y 3, u64 y 8, u8 y 24, u8 y 25, u8 y 26, u16 y 28, u16 y 30, u32 y 32, u32 y 36⟩

/-- PAIR_CONFLICT for preferences and periods that disagree with the partner's (R420). -/
def State.conflicts (s : State) (h : Heard) : State :=
  let same := h.pref % 128 == bit (!s.preferred) || decide (128 ≤ h.pref)
  let s := if same && !s.pair.conflict then
      ((s.setPair (fun x => { x with conflict := true })).setf Reg.pairState 0 1 (bit (decide (s.get Reg.devUid < h.uid)))).raise 0xD03
        (toLe 1 0 ++ zeros 3 ++ toLe 8 h.uid)
    else s
  let differs := h.period != s.f Reg.pairCfg 32 16
  let s' := s.setPair (fun x => { x with periodTold := differs })
  if differs && !s.pair.periodTold then s'.raise 0xD03 (toLe 1 1 ++ zeros 3 ++ toLe 8 h.uid) else s'

/-- The fields of PAIR and HEALTH that show the partner. -/
def State.showPartner (s : State) (h : Heard) : State :=
  let s := (s.setf Reg.pairState 16 4 s.partnerVerdict).setf Reg.pairState 12 4 h.role
  let s := s.set Reg.pairPartnerUid h.uid
  s.set Reg.healthPartner (h.findings * 2 ^ 32 + h.age * 65536 + s.partnerVerdict)

/-- The active unit grants a clean partner's request (R432): it becomes STANDBY and says so at once. -/
def State.yieldRole (s : State) : State :=
  let hold := s.pair.offer
  let s := (s.count Reg.pairCnt 32 16 1).takeRole 1 3
  let s := s.setPair (fun x => { x with
    yielded := true, holdUntil := match hold with | some n => s.ticks + n * 1250000000 | none => x.holdUntil })
  s.sendBellflower

/-- What a valid bellflower moves (R421, R429, R432, R437). -/
def State.react2 (s : State) (h : Heard) : State :=
  let s := if s.b Reg.pairState 24 && h.role == 3 then s.fenceOut false else s
  let s := if s.pair.yielded && (h.role == 2 || !h.flags.testBit 2) then s.setPair (fun x => { x with yielded := false }) else s
  if s.mode = 3 then s
  else if s.role = 0 then (if s.partnerActive then s.takeRole 1 0 else s)
  else if s.role = 1 then
    if s.pair.takeReq.isSome && h.flags.testBit 4 then (s.count Reg.pairCnt 32 16 1).takeRole 2 3
    else if s.pair.takeReq.isNone && h.flags.testBit 3 && h.role == 2 then
      (if s.verdict = 0 then s.setPair (fun x => { x with takeReq := some s.ticks })
       else if s.pair.blocked = some 0 then s else (s.setPair (fun x => { x with blocked := some 0 })).blocked 0)
    else s
  else if s.role = 2 && h.flags.testBit 2 && s.partnerVerdict == 0 then s.yieldRole
  else s

/-- A bellflower's payload, with whether its CRC or FCS was good, arrives on a path (R426). -/
def State.hear (s : State) (path : Nat) (good : Bool) (y : List Byte) : State :=
  if good && decide (48 ≤ y.length) && u16 y 0 == 0xB7F1 && u8 y 2 == 1 && u64 y 16 == s.get Reg.pairId && u64 y 8 != s.get Reg.devUid then
    let h := heardOf y s.ticks
    let s := s.setPair (fun x => { x with
      heardA := if path = 0 then some h else x.heardA, heardB := if path = 0 then x.heardB else some h, last := some h
      activeAt := if h.role = 2 then some s.ticks else x.activeAt })
    let s := if s.pathState path = 2 then s else (s.setf Reg.pairState (20 + 2 * path) 2 2).raise 0xD01 (toLe 1 path ++ [1])
    (((s.conflicts h).showPartner h).react2 h).wtrCheck.checkBlocked
  else s.count Reg.pairRxErr (16 * path) 16 1

/-- BELLFLOWER_RECEIVE: on path A (0) the bytes between K27.7 and K29.7, payload and CRC-32C; on path B (1) a frame that
arrives on PATH_B_PORT. -/
def execBellflowerReceive (path : Nat) (bytes : List Byte) (s : State) : Host.Outcome State Fault Refusal :=
  let s := s.fresh
  atUnit path 2 s (
    if !s.pairMode then s
    else if path = 0 then
      let y := bytes.take 48
      s.hear 0 (bytes.length == 52 && bytes.drop 48 == toLe 4 (crc32c y)) y
    else
      let p := s.f Reg.pairCfg 8 8
      if p < 80 && s.pathState 1 != 0 then
        let good := crc32 (bytes.take (bytes.length - 4)) == leNat (bytes.drop (bytes.length - 4))
        if good then s.arrive p bytes (fun d s => s.isBellflower p d) (fun d s => s.hear 1 true (d.drop (probeOff d)))
        else (s.arrive p bytes (fun _ _ => true) (fun _ s => s)).count Reg.pairRxErr 16 16 1
      else s)

/-- PATH_SILENT: no valid bellflower on a path for three periods (R426, R428). -/
def execPathSilent (path : Nat) (s : State) : Host.Outcome State Fault Refusal :=
  let s := s.fresh
  atUnit path 2 s (
    if s.pairMode && s.pathState path == 2 && !s.pathLive path then
      let s := (s.setf Reg.pairState (20 + 2 * path) 2 1).raise 0xD01 (toLe 1 path ++ [0])
      (if s.partnerActive then s.count Reg.pairCnt (if path = 0 then 16 else 0) 16 1 else s).wtrCheck.checkBlocked
    else s)

/-! ### Takeover and the fence -/

/-- PAIR_INIT_TIMEOUT: INIT_MS, or twice that for an alternate unit, has passed in INIT. -/
def execPairInitTimeout (s : State) : Host.Outcome State Fault Refusal :=
  let s := s.fresh
  let ms := s.f Reg.pairTimers 32 16 * (if s.preferred then 1 else 2)
  .next (if s.pairMode && s.role == 0 && decide (s.pair.initSince + ms * 1250000 ≤ s.ticks) && s.pair.settle.isNone then
      (if s.mayTake then s.beginTake s.bothSilent 0 0 else (s.takeRole 1 0).checkBlocked)
    else s)

/-- TAKEOVER: the conditions of R427 hold in STANDBY. -/
def execTakeover (s : State) : Host.Outcome State Fault Refusal :=
  let s := s.fresh
  .next (if s.role = 1 then (if s.mayTake then s.beginTake s.bothSilent 1 2 else s.checkBlocked) else s)

/-- FENCE_SETTLE: FENCE_SETTLE_US after the fence was asserted the unit becomes ACTIVE. -/
def execFenceSettle (s : State) : Host.Outcome State Fault Refusal :=
  let s := s.fresh
  .next (match s.pair.settle with
    | some (t, cause) =>
      if s.pairMode && decide (t + s.f Reg.pairTimers 16 16 * 1250 ≤ s.ticks) then s.takeOver cause else s
    | none => s)

/-- FENCE_IN_FALL: the unit is FENCED and releases every PAIR driver at once, whatever its level (R429). -/
def execFenceInFall (s : State) : Host.Outcome State Fault Refusal :=
  let s := s.fresh
  let s := s.setPair (fun x => { x with fenceLow := true })
  .next (if s.pairMode then
      let s := (s.setf Reg.pairState 25 1 1).takeRole 3 5
      (s.forEach ((List.range 18).filter (fun i => s.f (Reg.outCfg i) 60 2 == 3 && s.outState i == 1)) (fun i s =>
        ((s.setOutState i 0).keepLine i (s.outLevel i)).emit (.drive i false))).checkBlocked
    else s)

/-- FENCE_IN_RISE: a FENCED unit returns to STANDBY. -/
def execFenceInRise (s : State) : Host.Outcome State Fault Refusal :=
  let s := s.fresh
  let s := s.setPair (fun x => { x with fenceLow := false })
  .next (if s.pairMode then
      let s := s.setf Reg.pairState 25 1 0
      if s.role = 3 then s.takeRole 1 5 else s
    else s)

/-- TAKE_REQ_TIMEOUT: no YIELDED has come within three periods. -/
def execTakeReqTimeout (s : State) : Host.Outcome State Fault Refusal :=
  let s := s.fresh
  .next (match s.pair.takeReq with
    | some t => if t + s.threePeriods ≤ s.ticks then (s.setPair (fun x => { x with takeReq := none })).blocked 2 else s
    | none => s)

/-- PAIR_WTR_EXPIRY: the wait ends and the preferred unit requests a handover; should it not come, the wait runs afresh. -/
def execPairWtrExpiry (s : State) : Host.Outcome State Fault Refusal :=
  let s := s.fresh.wtrCheck
  .next (match s.pair.wtrSince with
    | some t =>
      if decide (t + s.f Reg.pairCfg 16 16 * 1250000000 ≤ s.ticks) && s.pair.takeReq.isNone then
        s.setPair (fun x => { x with takeReq := some s.ticks, wtrSince := some s.ticks })
      else s
    | none => s)

/-! ### Health (R433, R434) -/

/-- A finding held for a number of seconds after its cause last occurred. -/
def State.heldFor (s : State) (finding sec : Nat) : Bool :=
  match assoc s.health.marks finding with | some t => decide (s.ticks < t + sec * 1250000000) | none => false
/-- Every lane. -/
def everyLane : List Lane := (List.range 32).map Lane.hl ++ (List.range 48).map Lane.el
/-- Whether a lane's last probe gave a left or right margin below MARGIN_MIN. -/
def State.thinMargin (s : State) (l : Lane) : Bool :=
  s.f (laneKey l 0x13) 0 8 == 2 &&
    (decide (s.f (laneKey l 0x13) 40 8 < s.f Reg.healthCfg 16 8) || decide (s.f (laneKey l 0x13) 32 8 < s.f Reg.healthCfg 16 8))
/-- The findings word. -/
def State.findings (s : State) : Nat :=
  let v := s.f Reg.proofSummary 56 8
  let on := fun (c : Bool) (i : Nat) => if c then 2 ^ i else 0
  on s.health.memory 0 + on (everyLane.any s.thinMargin) 1 + on (s.heldFor 2 10) 2 + on (s.heldFor 3 60) 3 + on (v == 2) 4 +
    on (s.f Reg.proofSummary 0 16 != 0) 5 + on (s.calItems.any (fun k => s.itemState k == 3)) 6 + on (s.heldFor 7 60) 7 +
    on (s.heldFor 8 60) 8 + on ([1, 2].any (fun c => s.on (7 + c) && s.f (Reg.stackChStatus c) 0 4 == 3)) 9 + on (!s.ready 16) 10 +
    on ((List.range 12).any (fun n => s.get (Reg.thermAlarmStatus n) % 8 != 0)) 11 + on s.health.fenceLoop 12 +
    on (s.pathState 0 != 2) 13 + on (s.pathState 1 != 2) 14 + on (s.engines.any (fun e => e.selected && !e.running)) 15

/-- The verdict written, with HEALTH_VERDICT when it changes. -/
def State.setVerdict (s : State) (new findings : Nat) : State :=
  let old := s.f Reg.healthReport 0 8
  let s := (s.setf Reg.healthReport 0 8 new).setf Reg.healthReport 32 32 findings
  if new = old then s else s.raise 0xD04 (toLe 1 new ++ toLe 1 old ++ zeros 2 ++ toLe 4 findings)

/-- HEALTH_REPORT: E6 composes the report; the results of evening primrose are those of a powered PD3 (R301). -/
def execHealthReport (s : State) : Host.Outcome State Fault Refusal :=
  let s := s.fresh
  let due := match s.health.reported with | some t => decide (t + s.f Reg.healthCfg 0 10 * 1250000 ≤ s.ticks) | none => true
  .next (if s.serves 6 && due then
      let x := s.health
      let s := s.set Reg.healthAudit (x.leaks % 65536 * 2 ^ 32 + x.crosslinks % 65536 * 2 ^ 16 + x.countErrors % 65536)
      let s := { s with health := { s.health with reported := some s.ticks, leaks := 0, crosslinks := 0, countErrors := 0 } }
      let s := s.set Reg.healthProofSummary (s.get Reg.proofSummary)
      let s := (s.set (Reg.healthProofLast 0) (s.get (Reg.proofSummary + 1))).set (Reg.healthProofLast 1) (s.get (Reg.proofSummary + 2))
      let w := s.findings
      (s.setVerdict (bit (w &&& (s.f Reg.healthCfg 32 32 ||| 8) != 0)) w).wtrCheck.checkBlocked
    else s)

/-- SCRUB_PASS: the memory scrub completes a pass, one every 10 s, with or without an uncorrectable error. -/
def execScrubPass (bad : Bool) (s : State) : Host.Outcome State Fault Refusal :=
  let s := s.fresh
  .next (if s.selfTest 0 && s.rested 21 12500000000 then
      let s := s.mark 21
      ({ s with health := { s.health with memory := s.health.memory || bad } }).tested (!bad) else s)

/-- CELL_TEST: a batch of sixteen free cells, never more than 1 % of C, is written and read; failing cells are held out of
service. -/
def execCellTest (failing : List Nat) (s : State) : Host.Outcome State Fault Refusal :=
  let s := s.fresh
  .next (if s.selfTest 1 && decide (1600 ≤ s.cellsPresent) && decide (16 ≤ s.cellsFree) then
      let bad := (failing.filter (fun c => decide (c < s.cellsPresent) && !s.offLists.contains c)).eraseDups.take 16
      let s := { s with buf := { s.buf with testHeld := s.buf.testHeld ++ bad } }
      ({ s with health := { s.health with memory := s.health.memory || !bad.isEmpty } }).tested bad.isEmpty
    else s)

/-- CROSS_CHECK, every 1 s: each LOCKED DPLL compared with every other that selects the same reference; 1 ppb is 2^40 / 10^9 units. -/
def execCrossCheck (s : State) : Host.Outcome State Fault Refusal :=
  let s := s.fresh
  .next (if s.selfTest 3 && s.timeUp && s.rested 19 1250000000 then
      let s := s.mark 19
      let locked := (List.range 10).filter (fun i => s.level i == 2)
      let far := fun (i j : Nat) => i != j && s.selected i == s.selected j &&
        decide (s.f Reg.healthCfg 24 8 * 2 ^ 40 < (s.dpllFreq i - s.dpllFreq j).natAbs * 1000000000)
      let bad := locked.any (fun i => locked.any (far i))
      (if bad then s.mark 2 else s).tested (!bad)
    else s)

/-- FENCE_LOOP_TEST, every 1 s: PAIR_FENCE_OUT as read back at the ball, true asserted. -/
def execFenceLoopTest (readback : Bool) (s : State) : Host.Outcome State Fault Refusal :=
  let s := s.fresh
  .next (if s.selfTest 4 && s.rested 20 1250000000 then
      let s := s.mark 20
      let bad := readback != s.b Reg.pairState 24
      ({ s with health := { s.health with fenceLoop := bad } }).tested (!bad)
    else s)

/-! ### Commands (R436-R438) -/

/-- PAIR_STATE as it reads. -/
def State.pairStateWord (s : State) : Nat := setBits (s.get Reg.pairState) 48 16 ((s.pairWtrMs + 999) / 1000)
/-- HEALTH_REPORT as it reads. -/
def State.healthReportWord (s : State) : Nat := setBits (s.get Reg.healthReport) 16 16 s.reportAge

/-- BUSY without a time. -/
def busyErr : Err := .plain .busy

/-- The reply of PAIR_TAKE: the role now, and what was done (R436). -/
def State.pairReply (s : State) (act : Nat) : Ran := .ok (toLe 1 s.role ++ toLe 1 act ++ zeros 2) s

/-- What PAIR_TAKE does at step 10 of R58. -/
def pairTakeRun (c : Ctx) (s : State) : Ran :=
  let force := u8 c.p 0 == 1
  if s.role = 3 then .error busyErr s
  else if s.role = 2 then s.pairReply 0
  else if s.partnerActive then
    if force then (s.beginTake true 4 4).pairReply 2
    else (s.setPair (fun x => { x with takeReq := some (x.takeReq.getD s.ticks) })).pairReply 1
  else if s.verdict = 0 || force then (s.beginTake s.bothSilent 4 4).pairReply (if s.bothSilent then 2 else 3)
  else .error busyErr s

/-- PAIR_TAKE. -/
def pairTakeCmd : Cmd := {
  opcode := 0x0700, cls := 0, engine := some 6
  check := fun c s => firstErr [lenIs c 4, need (decide (u8 c.p 0 < 2)) 0, rsv c 1 3, errIf (!s.pairMode) .range]
  size := fun _ _ => 4
  leases := fun _ _ => [0x2A]
  run := pairTakeRun }

/-- What PAIR_YIELD does at step 10 of R58. -/
def pairYieldRun (c : Ctx) (s : State) : Ran :=
  if s.partnerIn 1 && s.partnerVerdict == 0 then .ok [] (s.setPair (fun x => { x with offer := some (u32 c.p 0) }))
  else .error busyErr s

/-- PAIR_YIELD. -/
def pairYieldCmd : Cmd := {
  opcode := 0x0701, cls := 0, engine := some 6
  check := fun c s => firstErr [lenIs c 4, need (decide (u32 c.p 0 ≤ 86400)) 0, errIf (s.role != 2) .range]
  leases := fun _ _ => [0x2A]
  run := pairYieldRun }

/-- PAIR_STATUS. -/
def pairStatusCmd : Cmd := {
  opcode := 0x0702, cls := 0, engine := some 6
  check := fun c _ => lenIs c 0
  size := fun _ _ => 32
  run := fun _ s => .ok (toLe 8 s.pairStateWord ++ toLe 8 s.healthReportWord ++ toLe 8 (s.get Reg.healthPartner) ++
    toLe 8 (s.get Reg.pairPartnerUid)) s }

/-- PAIR_TAKE. -/
def execPairTake (q : Request) (s : State) : Host.Outcome State Fault Refusal := .next (runCmd pairTakeCmd q s)
/-- PAIR_YIELD. -/
def execPairYield (q : Request) (s : State) : Host.Outcome State Fault Refusal := .next (runCmd pairYieldCmd q s)
/-- PAIR_STATUS. -/
def execPairStatus (q : Request) (s : State) : Host.Outcome State Fault Refusal := .next (runCmd pairStatusCmd q s)

end Sys2Proof.Machine
end

