-- ==== Sys2Proof/Machine/Perf.lean ====
section
/-! DEFINITION. Performance counters (R441-R446). A DBG cycle is 0.8 ns, one tick. -/
namespace Sys2Proof.Machine

/-! ### Events and counting (R441, R442) -/

/-- Whether an event is listed and its instance lies in its range. -/
def perfOk (code inst : Nat) : Bool :=
  let port := inst / 8
  match code with
  | 0x00 => true | 0x08 => true | 0x09 => true | 0x0E => true
  | 0x01 => decide (inst < 83) | 0x02 => decide (inst < 83) | 0x03 => decide (inst < 83)
  | 0x04 => decide (port < 83) | 0x06 => decide (port < 83) | 0x07 => decide (port < 83)
  | 0x05 => decide (port < 83) && decide (inst % 8 < 5)
  | 0x0A => decide (inst < 6) | 0x0B => decide (inst < 6)
  | 0x0C => decide (inst < 2) | 0x0D => decide (inst < 2)
  | 0x0F => decide (port < 80)
  | 0x10 => decide (inst < 80) | 0x11 => decide (inst < 80)
  | 0x12 => decide (inst < 4)
  | 0x40 => decide (inst < 12) | 0x41 => decide (inst < 12) | 0x42 => decide (inst < 12) | 0x43 => decide (inst < 12)
  | _ => false

/-- The power domain of an event's island. -/
def perfPd (code inst : Nat) : Nat :=
  match code with
  | 0x00 => 15 | 0x08 => 6 | 0x09 => 6 | 0x0E => 6
  | 0x01 => portPd inst | 0x02 => portPd inst | 0x03 => portPd inst | 0x10 => portPd inst | 0x11 => 14
  | 0x04 => 6 | 0x05 => 6 | 0x07 => 6 | 0x06 => pairPd (pairOf (inst / 8)) | 0x0F => pairPd (pairOf (inst / 8))
  | 0x0A => pairPd inst | 0x0B => pairPd inst
  | 0x0C => 8 + inst | 0x0D => 8 + inst
  | 0x12 => 14
  | _ => if inst = 0 then 0 else if inst < 6 then 2 else 3

/-- The value v an event presents in this cycle. -/
def State.perfValue (s : State) (code inst : Nat) : Nat :=
  let p := inst / 8
  let q := inst % 8
  if !s.on (perfPd code inst) then 0
  else match code with
    | 0x00 => 1
    | 0x04 => s.occ p q
    | 0x05 => (s.q p q).chain.length
    | 0x06 => bit (!(s.q p q).copies.isEmpty && !s.eligible p q)
    | 0x08 => s.sharedFree
    | 0x09 => s.carrelFree
    | 0x0B => bit ((assoc s.perf.occ (1024 * 0x0A + inst)).isNone)
    | 0x0E => (s.buf.queues.map (fun (x : Nat × Queue) => x.2.writing.length)).sum
    | 0x0F => bit (!(s.gatesNow p).testBit q)
    | _ => if 0x40 ≤ code then Config.engineEvent code inst s.ticks else (assoc s.perf.occ (1024 * code + inst)).getD 0

/-- What a counter adds in a cycle, from its mode, threshold, v and the v before. -/
def perfAdds (mode thresh v before : Nat) : Nat :=
  match mode with
  | 0 => v
  | 1 => bit (decide (thresh < v))
  | 2 => bit (decide (v ≤ thresh))
  | _ => bit (decide (thresh < v) && decide (before ≤ thresh))

/-- The event and instance a counter counts, as one number. -/
def State.perfEvent (s : State) (n : Nat) : Nat := s.f (Reg.perfSel n) 48 10 + 1024 * s.f (Reg.perfSel n) 40 8
/-- What the events of the counters in mode RISE present in this cycle, for the next. -/
def State.perfSeen (s : State) : List (Nat × Nat) :=
  ((List.range 64).filter (fun n => s.f (Reg.perfSel n) 58 2 == 3)).map (fun n =>
    (s.perfEvent n, s.perfValue (s.perfEvent n / 1024) (s.perfEvent n % 1024)))

/-- One cycle of an enabled counter; a wrap of one with SAMPLE waits to be captured. The first cycle of an event that no counter in mode
RISE selected in the cycle before shows no rise (DESIGN CHOICE, notes/assumptions/62.md). -/
def State.perfCount (s : State) (n : Nat) : State :=
  let w := s.get (Reg.perfSel n)
  let v := s.perfValue (bits w 40 8) (bits w 48 10)
  let a := perfAdds (bits w 58 2) (s.f (Reg.perfThresh n) 0 32) v ((assoc s.perf.prev (s.perfEvent n)).getD v)
  let c := s.f (Reg.perfCnt n) 0 48 + a
  let s := s.set (Reg.perfCnt n) (c % 2 ^ 48)
  if 2 ^ 48 ≤ c && bits w 62 1 = 1 then { s with perf := { s.perf with wrapped := s.perf.wrapped ++ [(n, s.get Reg.perfCycles)] } } else s

/-- One DBG cycle: PERF_CYCLES, every enabled counter, and the occurrences begin anew. -/
def State.perfTick (s : State) : State :=
  if s.on 15 && s.islandUp 21 then
    let s := s.wrap Reg.perfCycles 0 64 1
    let seen := s.perfSeen
    let s := s.forEach ((List.range 64).filter (fun n => s.b (Reg.perfSel n) 63)) (fun n s => s.perfCount n)
    { s with perf := { s.perf with occ := [], prev := seen } }
  else { s with perf := { s.perf with occ := [], prev := [] } }

/-! ### Overflow sampling (R445) -/

/-- PERF_OVERFLOW: a wrap of counter n is captured. For an engine event the context is an instruction's address, for others
PERF_CYCLES a number of cycles, at most 16, after the overflow; while OVF is set the overflow counts in LOST. -/
def execPerfOverflow (n address after : Nat) (s : State) : Host.Outcome State Fault Refusal :=
  let s := s.fresh
  atUnit n 64 s (
    match s.perf.wrapped.find? (fun x => x.1 == n) with
    | none => s
    | some w =>
      let s := { s with perf := { s.perf with wrapped := s.perf.wrapped.erase w } }
      if s.b (Reg.perfStatus n) 0 then s.count (Reg.perfStatus n) 16 16 1
      else
        let code := s.f (Reg.perfSel n) 40 8
        let ctx := if 0x40 ≤ code
          then 2 ^ 63 + 2 ^ 62 + s.f (Reg.perfSel n) 48 4 * 2 ^ 48 + address % 2 ^ 48 else 2 ^ 63 + (w.2 + min after 16) % 2 ^ 48
        ((s.set (Reg.perfSample n) ctx).setf (Reg.perfStatus n) 0 1 1).signal 7 (s.modUs 7))

/-- OVF of a counter cleared with its sample word. -/
def State.clearOvf (s : State) (n : Nat) : State :=
  { (s.setf (Reg.perfStatus n) 0 1 0).set (Reg.perfSample n) 0 with
    perf := { s.perf with wrapped := s.perf.wrapped.filter (fun (x : Nat × Nat) => x.1 != n) } }

/-! ### Commands (R443, R444) -/

/-- What PERF_SELECT does at step 10 of R58. -/
def perfSelectRun (c : Ctx) (s : State) : Ran :=
  let n := u8 c.p 0
  let s := (s.set (Reg.perfSel n) (bits (u64 c.p 8) 62 2 * 2 ^ 62 + bits (u64 c.p 8) 40 20 * 2 ^ 40)).set (Reg.perfThresh n) (u64 c.p 16)
  let s := if (u8 c.p 1).testBit 0 then (s.set (Reg.perfCnt n) 0).clearOvf n else s
  .ok [] s

/-- PERF_SELECT. -/
def perfSelectCmd : Cmd := {
  opcode := 0x0E00, cls := 1, engine := some 9, pds := [15]
  check := fun c _ =>
    let w := u64 c.p 8
    firstErr [lenIs c 24, need (decide (u8 c.p 0 < 64)) 0, need (decide (u8 c.p 1 < 2)) 1, rsv c 2 6,
      need (perfOk (bits w 40 8) (bits w 48 10)) 8, need (decide (u64 c.p 16 < 2 ^ 32)) 16]
  leases := fun _ _ => [0x30]
  run := perfSelectRun }

/-- What PERF_READ does at step 10 of R58. -/
def perfReadRun (c : Ctx) (s : State) : Ran :=
  .ok (toLe 8 (s.get Reg.perfCycles) ++ (bitsSet (u64 c.p 0) 64).flatMap (fun n => toLe 8 (s.get (Reg.perfCnt n)))) s

/-- PERF_READ. -/
def perfReadCmd : Cmd := {
  opcode := 0x0E01, cls := 1, engine := some 9, pds := [15]
  check := fun c _ => firstErr [lenIs c 8, need (u64 c.p 0 != 0) 0]
  size := fun c _ => 8 + 8 * (bitsSet (u64 c.p 0) 64).length
  run := perfReadRun }

/-- PERF_SELECT. -/
def execPerfSelect (q : Request) (s : State) : Host.Outcome State Fault Refusal := .next (runCmd perfSelectCmd q s)
/-- PERF_READ. -/
def execPerfRead (q : Request) (s : State) : Host.Outcome State Fault Refusal := .next (runCmd perfReadCmd q s)

end Sys2Proof.Machine
end

