-- ==== Sys2Proof/Machine/Power.lean ====
section
/-! DEFINITION. Power domains and clock islands: what a domain loses when it is cut off and does when it comes on (R47, R122,
R304), PWR_SET (R48, R120, R121), and islands that stop and restart (R51, R52). -/
namespace Sys2Proof.Machine

/-! ### Words over a reset (R27, R29) -/

/-- The mask of a row's fields with an access code. -/
def RegRow.mask (r : RegRow) (a : Access) : Nat :=
  r.fields.foldl (fun m f => if f.acc = a then m ||| ((2 ^ f.width - 1) <<< f.lo) else m) 0
/-- A word with the bits of a mask taken from another. -/
def mix (old new mask : Nat) : Nat := (old ^^^ (old &&& mask)) ||| (new &&& mask)
/-- What a word holds after its domain has been reset: its reset value, but for its RWS fields. -/
def keptWord (k : Nat) (v : Word) : Word :=
  match findRow k with
  | some r => BitVec.ofNat 64 (mix (resetWord k).toNat v.toNat (r.mask .rws))
  | none => resetWord k
/-- The words of a domain reset. -/
def State.resetWords (s : State) (n : Nat) : State :=
  { s with words := s.words.filterMap (fun (x : Nat × Word) =>
    if pdOfWord x.1 = n then (if keptWord x.1 x.2 = resetWord x.1 then none else some (x.1, keptWord x.1 x.2)) else some x) }

/-- The bits that the configuration block may load into a word: those whose reset is FW, and MAC_MAX_FRAME (R29). -/
def fwMask (k : Nat) (r : RegRow) : Nat :=
  r.fw ||| (if k / 0x1000000 = 0x0C && k % 0x1000 = Reg.macMaxFrame 0 % 0x1000 then 0x3FFF else 0)
/-- The FW values of the words that satisfy a test, loaded: the RWS fields among them, or all others. -/
def State.loadFw (s : State) (rws : Bool) (test : Nat → Bool) : State :=
  s.forEach (s.boot.cfg.filter (fun (x : Nat × Word) => test x.1)) (fun (x : Nat × Word) s =>
    match findRow x.1 with
    | some r =>
      let m := fwMask x.1 r
      let kept := m &&& r.mask .rws
      s.set x.1 (mix (s.get x.1) x.2.toNat (if rws then kept else m ^^^ kept))
    | none => s)

/-! ### Engines and islands -/

/-- Engines stop (R44, R299): E4 leaves its DPLLs in HOLDOVER, E10 or E11 aborts a proof run. -/
def State.stopEngines (s : State) (es : List Nat) : State :=
  let steered := es.contains 4 && (s.engine 4).running
  let s := if es.any (fun e => (e == 10 || e == 11) && (s.engine e).running) then s.proofAbort else s
  let s := s.forEach es (fun e s => s.setEngine e (fun g => { g with running := false, stalled := false }))
  if steered then s.servoDown else s
/-- Engines of which an image is loaded run; with E5, the periods of its latent-error tests restart (R289). -/
def State.runEngines (s : State) (es : List Nat) : State :=
  let s := if es.contains 5 then { s with red := { s.red with latentStart := s.ticks } } else s
  s.forEach es (fun e s => s.setEngine e (fun g => { g with running := true, stalled := false }))
/-- Whether the hardware an engine runs on is powered and clocked (R41, R42). -/
def State.engineHost (s : State) (e : Nat) : Bool :=
  if e = 0 then s.islandUp 0 else if e ≤ 5 then s.on 2 && s.islandUp 5 && s.islandUp 7 else s.on 2 && s.on 3 && s.islandUp 6 && s.islandUp 7
/-- Whether the image of an engine is loaded: FW_OP_RUN or FW_TIME_RUN names its slot. -/
def State.imageLoaded (s : State) (e : Nat) : Bool :=
  e == 0 || s.f (if 2 ≤ e && e ≤ 4 then Reg.fwTimeRun else Reg.fwOpRun) 48 8 != 0xFF

/-- CLK_ISL_STATUS of every island of a domain: 3 RUNNING and locked, 4 GATED. -/
def State.setIslands (s : State) (n v : Nat) : State :=
  s.forEach ((List.range 22).filter (fun i => islandPd i == n)) (fun i s => s.set (Reg.clkIslStatus i) v)

/-- Ports whose conditions for ready may have changed: one that stops being ready drops its copies, unless it drains (R118, R121,
R192). -/
def State.portsChanged (s : State) (ps : List Nat) : State := s.forEach ps (fun p s => s.portRecheck p)
/-- The ports of a pipeline pair's power domain. -/
def pipePorts (n : Nat) : List Nat := (List.range 83).filter (fun p => pairPd (pairOf p) == n)
/-- The external ports of a lane domain. -/
def lanePorts (n : Nat) : List Nat := (List.range 80).filter (fun p => portPd p == n)

/-! ### A domain cut off (R122) -/

/-- The loss of the command rings with PD1 (R82): nothing unfetched stays, every ENABLE is cleared, the link is down, and the
MSI-X table and PBA, which follow the PCIe layout, are reset. -/
def State.cutPcie (s : State) : State :=
  let s := (((s.setf Reg.cmdCmdrCtrl 31 1 0).setf Reg.cmdRplrCtrl 31 1 0).setf Reg.cmdEvtrCtrl 31 1 0)
  { s with
    words := s.words.filter (fun (x : Nat × Word) => !(x.1 / 0x1000 == 0x43FE || x.1 / 0x1000 == 0x43FF))
    ctl := { s.ctl with
      cmdProd := s.f Reg.cmdCmdrCons 0 16
      deferred := s.ctl.deferred.map (fun d => if d.dest.via == .pcie then { d with mute := true } else d) }
    boot := { s.boot with linkUp := false } }

/-- A pipeline domain (4 or 5): its ports' copies are dropped and their calendars go, but for those in force that PD5 gets back
from PD4. -/
def State.cutPipes (s : State) (n : Nat) : State :=
  let ps := pipePorts n
  let s := (s.internalDrops ps).portsChanged ps
  let s := { s with gates := s.gates.filterMap (fun (x : Nat × Gates) =>
    if ps.contains x.1 then (if n = 5 then x.2.oper.map (fun c => (x.1, { Gates.reset with oper := some c })) else none) else some x) }
  s.forEach ps (fun p s => s.setSide p (fun x => { PortSide.reset with
    mergeTries := x.mergeTries, ignoring := x.ignoring, stepCode := x.stepCode, stepSent := x.stepSent, stepHeard := x.stepHeard
    stepCause := x.stepCause, stepEnd := x.stepEnd, stepRefused := x.stepRefused }))

/-- The tables, learning, statistics and rings of PD4; snapshots go on being numbered (R179). -/
def State.cutTables (s : State) : State :=
  { s with
    fwd := .reset, snap := { SnapSide.reset with number := s.snap.number }
    boot := { s.boot with tablesLoaded := false, pipeFilled := s.boot.pipeFilled / 8 * 8 }
    ctl := { s.ctl with deferred := s.ctl.deferred.filter (fun d => match d.job with
      | .snapshot _ => d.dest.via == .sideband
      | _ => true) } }

/-- Side-band STAT_SNAPSHOT commands that PD4 took with it: the mailbox of E9 replies for it (R44). -/
def State.failSnapshots (s : State) : State :=
  s.forEach (s.ctl.deferred.filter (fun d => match d.job with | .snapshot _ => true | _ => false)) (fun d s =>
    (s.failDeferred d ⟨.internal, 0xFFFF, 6, 0⟩).deviceFault)

/-- The buffer, with every frame in it, the recovery functions and the queues of PD6. -/
def State.cutBuffer (s : State) : State :=
  let s := s.cutFrames (s.buf.frames.map (·.id))
  { s with
    buf := { BufferSide.reset with nextId := s.buf.nextId, trainedOrg := s.buf.trainedOrg }
    red := { s.red with hist := [], lastPass := [], latentBase := [], disabledBy := [] }
    ports := s.ports.map (fun (x : Nat × PortSide) => (x.1, { x.2 with sending := none, preempted := none })) }

/-- The lanes and links of a lane domain. -/
def State.cutLanes (s : State) (n : Nat) : State :=
  (s.internalDrops (lanePorts n)).forEach (lanePorts n) (fun p s =>
    let s := ((s.stopLanes p).linkInvalid p 1).linkDown p 4
    let s := s.forEach (s.portLanes p) (fun l s => s.laneUncal l (s.codeInUse p))
    { s with ports := assocDel s.ports p, txeq := s.txeq.filter (fun (x : Nat × Nat) =>
      !(s.portLanes p).any (fun l => laneKey l 2 == x.1)) })

/-- The timing core of PD14 (R304, R318, R389, R394, R416): its actions are cancelled, a measurement ends, outputs go static,
levels fall to FREE. The generations and the results of the last measurement stay. -/
def State.cutTime (s : State) : State :=
  let s := (s.cancelWhere true (fun _ => true)).stopTdc 5
  let s := s.forEach (List.range 18) (fun i s =>
    if s.outState i = 1 then (s.emit (.drive i false)).setOutState i 3 else s.setOutState i 3)
  let s := s.forEach (List.range 10) (fun i s => (s.setDpll i (fun x => { x with live := false })).setLevel i 0)
  { s with
    clock := { s.clock with domains := s.clock.domains.map (fun (x : Domain) => { x with freq := 0 }), landings := [] }
    ledger := List.replicate 4 .reset, fifos := [], cal := .reset, ref := .reset, outs := List.replicate 18 .reset
    link := { s.link with readings := [] }, tdc := { s.tdc with lines := [0, 0], divs := [], evDivs := [] } }

/-- The words of the edge measurement unit that outlive PD14. -/
def tdcKept : List Nat := (List.range 10).map (fun i => Reg.tdcState + i)

/-- Watch entries are lost with E5, and what they hold is released. -/
def State.cutWatch (s : State) : State :=
  let s := s.forEach (s.red.watches.map (·.1)) (fun e s => s.releaseActions e)
  { s with red := { s.red with watches := [], watchTick := none } }

/-- PD2 goes off: its engines stop, watches and PTP services end, and no image runs. -/
def State.cutEngines (s : State) : State :=
  let s := (s.stopEngines [1, 2, 3, 4, 5, 6, 7, 8, 9, 10, 11]).cutWatch
  let s := { s with ptp := .reset, boot := { s.boot with
    memory := [], trialAt := s.boot.trialAt.filter (fun (x : Nat × Nat) => x.1 == 3) } }
  (s.set Reg.fwOpRun (0xFF * 2 ^ 48)).set Reg.fwTimeRun (0xFF * 2 ^ 48)

/-- What domain n loses when it is cut off or reset. -/
def State.cutDomain (s : State) (n : Nat) : State :=
  let s := match n with
    | 1 => s.cutPcie
    | 2 => s.cutEngines
    | 3 => s.stopEngines [6, 7, 8, 9, 10, 11]
    | 4 => (s.cutPipes 4).cutTables.failSnapshots
    | 5 => let s := s.cutPipes 5; { s with boot := { s.boot with pipeFilled := s.boot.pipeFilled % 8 } }
    | 6 => s.cutBuffer
    | 7 => s.cutUpper
    | 8 => let s := s.channelLeave 0 0 5; { s with buf := { s.buf with trainedOrg := assocDel s.buf.trainedOrg 0 } }
    | 9 => let s := s.channelLeave 1 0 5; { s with buf := { s.buf with trainedOrg := assocDel s.buf.trainedOrg 1 } }
    | 14 => s.cutTime
    | 15 => { s with perf := .reset }
    | _ => if 10 ≤ n && n ≤ 13 then s.cutLanes n else s
  let kept := if n = 14 then tdcKept.map (fun k => (k, s.get k)) else []
  let s := (s.resetWords n).setIslands n 4
  let s := s.forEach kept (fun (x : Nat × Nat) s => s.set x.1 x.2)
  if 10 ≤ n && n ≤ 13 then s.poolCheck else s

/-! ### A domain that has come on -/

/-- PD14 starts (R304, R111): every domain at 0 s and FREE, a restart counted and its generation raised unless this is the start of
a cold start-up;
in READING_ROOM a domain with a valid stored frequency is in HOLDOVER at it. Outputs that may drive start by R386. -/
def State.startTime (s : State) : State :=
  let add := if s.boot.timeStarted then 1 else 0
  let s := if add = 0 then s else s.forEach (List.range 8) (fun d s => s.count (Reg.timeSteps d) 0 32 1)
  let s := { s with
    clock := { s.clock with domains := s.clock.domains.map (fun (x : Domain) =>
      { x with shift := -(x.run : Int), freq := 0, gen := (x.gen + add) % 65536 }) },
    boot := { s.boot with timeStarted := true } }
  let stored := s.boot.holdover.filter (fun (x : Nat × (Int × Nat)) =>
    s.mode == 3 && decide (x.1 < 8) && decide (s.f Reg.fwColdBoots 0 32 ≤ x.2.2 + 1))
  let s := s.forEach stored (fun (x : Nat × (Int × Nat)) s =>
    ((s.setf (Reg.dpllHoFreq x.1) 0 32 (unsigned 32 x.2.1)).openLoop x.1 x.2.1).setLevel x.1 3)
  (s.forEach ((List.range 18).filter (fun i => s.f (Reg.outCfg i) 60 2 == 1 || s.f (Reg.outCfg i) 60 2 == 3)) (fun i s =>
    s.prepare i)).outWantAll

/-- What domain n does once it is on. -/
def State.startDomain (s : State) (n : Nat) : State :=
  let s := (s.setIslands n 3).loadFw false (fun k => pdOfWord k == n)
  match n with
  | 3 => s.runEngines ([6, 7, 8, 9, 10, 11].filter s.imageLoaded)
  | 6 => s.moveK.poolCheck
  | 7 => s.moveK.poolCheck.pfcCheckAll
  | 8 => (s.setf (Reg.stackChStatus 1) 0 4 1).retiredCheck 0
  | 9 => (s.setf (Reg.stackChStatus 2) 0 4 1).retiredCheck 1
  | 14 => s.startTime
  | _ =>
    if 10 ≤ n && n ≤ 13 then
      (s.forEach ((lanePorts n).filter (fun p => s.portType p != 0)) (fun p s =>
        let c := s.portType p
        let s := (s.set (Reg.macLinkStatus p) c).setf (Reg.macStepStatus p) 0 8 (c % 16)
        ((s.setSide p (fun x => { x with stepCode := 0xFF })).startLanes p).linkFix p)).poolCheck
    else s

/-! ### Transitions (R119-R122) -/

/-- The time, in µs, that a transition of a domain takes (R122). -/
def upUs (n : Nat) : Nat := [0, 2000, 2000, 1000, 3000, 3000, 4000, 2000, 3000, 3000, 2000, 2000, 2000, 2000, 3000, 1000].getD n 0
/-- The same, of turning off. -/
def downUs (n : Nat) : Nat := if n = 8 || n = 9 then 2000 else 1000
/-- The state of a domain set, from now. -/
def State.setPd (s : State) (n v : Nat) : State :=
  let s := s.setf Reg.pwrState (2 * n) 2 v
  { s with boot := { s.boot with transit := if v = 1 || v = 3 then assocSet s.boot.transit n s.ticks else assocDel s.boot.transit n } }
/-- The remaining time of a transition, in µs, rounded up. -/
def State.transitLeft (s : State) (n : Nat) : Nat :=
  let us := if s.pd n = 1 then upUs n else downUs n
  match assoc s.boot.transit n with
  | some t => (t + us * 1250 - s.ticks + 1249) / 1250
  | none => us

/-- The domains that hold the state an action would change (R318). -/
def State.actionPds (s : State) (a : Action) : List Nat :=
  match a.opcode with
  | 0x0201 => (match s.fwd.other with
    | some o => o.changes.map (fun x => if x.block = 0x1D then pairPd (pairOf x.key) else if x.block = 0x13 then 6 else 4)
    | none => [])
  | 0x0601 => (switchPorts a.data).map (fun p => pairPd (pairOf p))
  | 0x0B00 => [4]
  | 0x0D01 => [3]
  | _ => [14]

/-- The ports that a domain's state makes ready or not. -/
def portsOfPd (n : Nat) : List Nat :=
  if n = 4 || n = 5 then pipePorts n else if n = 6 then List.range 83 else if 10 ≤ n && n ≤ 13 then lanePorts n else []

/-- Domain n starts to turn off (R121): its functions are no longer ready, what its queues hold drains, and the actions on its state
are cancelled. A PWR_SET that turns PD14 off takes the domains' times away at once, so that SCHEDULED_OUTCOME gives 0 (R94;
DESIGN CHOICE, notes/assumptions/59.md). -/
def State.beginOff (s : State) (n : Nat) : State :=
  let s := s.cancelWhere (n == 14) (fun a => n == 14 || (s.actionPds a).contains n)
  let s := s.setPd n 3
  let s := if n = 2 then s.stopEngines [1, 2, 3, 4, 5] else if n = 3 then s.stopEngines [6, 7, 8, 9, 10, 11] else s
  let s := s.portsChanged (portsOfPd n)
  if n = 7 then s.moveK.poolCheck.pfcCheckAll.refresh else s.refresh

/-- The domains that a PWR_SET turns on or off, from its payload, and those it adds under R48. -/
def setOn (p : List Byte) : List Nat := (bitsSet (u16 p 0) 16).filter (fun n => (u16 p 2).testBit n)
/-- Those it turns off. -/
def setOff (p : List Byte) : List Nat := (bitsSet (u16 p 0) 16).filter (fun n => !(u16 p 2).testBit n)
/-- Those it adds: required by one it turns on, and neither named so nor on already. -/
def State.setAdded (s : State) (p : List Byte) : List Nat :=
  (List.range 16).filter (fun n => n != 0 && !(setOn p).contains n && s.pd n != 2 && s.pd n != 1 &&
    (setOn p).any (fun m => (requiresAll m).contains n))
/-- The domains that stay on (R48). -/
def State.setStays (s : State) (p : List Byte) : List Nat :=
  (List.range 16).filter (fun n => (setOn p).contains n ||
    (setOn p).any (fun m => (requiresAll m).contains n) || ((s.pd n == 2 || s.pd n == 1) && !(setOff p).contains n))

/-- Those that a PWR_SET powers up: turned on or added, and off now. -/
def State.setUps (s : State) (p : List Byte) : List Nat :=
  (List.range 16).filter (fun n => ((setOn p).contains n || (s.setAdded p).contains n) && s.pd n == 0)
/-- Those that it turns off: on now. -/
def State.setDowns (s : State) (p : List Byte) : List Nat := (setOff p).filter (fun n => s.pd n == 2)
/-- The domains that are on, or come on, once it has ended: the mask that it replies. -/
def State.setTarget (s : State) (p : List Byte) : Nat :=
  maskOf ((List.range 16).filter (fun n => n == 0 || (s.setUps p).contains n ||
    ((s.pd n == 2 || s.pd n == 1) && !(s.setDowns p).contains n)))
/-- The first domain that it names or adds and that is in transition. -/
def State.setBusy (s : State) (p : List Byte) : Option Nat :=
  ((bitsSet (u16 p 0) 16) ++ s.setAdded p).find? (fun n => s.pd n == 1 || s.pd n == 3)

/-- What PWR_SET does at step 10 of R58. -/
def pwrSetRun (c : Ctx) (s : State) : Ran :=
  match s.setBusy c.p with
  | some n => .error (.busy (s.transitLeft n)) s
  | none => .ok (toLe 2 (maskOf (s.setAdded c.p)) ++ toLe 2 (s.setTarget c.p))
      ((s.forEach (s.setUps c.p) (fun n s => s.setPd n 1)).forEach ((s.setDowns c.p).filter (· != 1)) (fun n s => s.beginOff n))

/-- PWR_SET (R120). PD1, which carries replies over PCIe, begins to turn off once its reply is written (R121). -/
def pwrSetCmd : Cmd := {
  opcode := 0x0800, cls := 1
  check := fun c s => firstErr [lenIs c 4, need (!(u16 c.p 0).testBit 0) 0,
    need (!(setOff c.p).any (fun n => (s.setStays c.p).any (fun m => (requires m).contains n))) 2]
  size := fun _ _ => 4
  leases := fun _ _ => [0x01]
  run := pwrSetRun
  after := fun c s => if (setOff c.p).contains 1 && s.pd 1 == 2 then s.beginOff 1 else s }

/-- PWR_SET. -/
def execPwrSet (q : Request) (s : State) : Host.Outcome State Fault Refusal := .next (runCmd pwrSetCmd q s)

/-- POWER_UP_COMPLETE (R122): a domain that powers up, with every domain it requires on, is on. -/
def execPowerUpComplete (pd : Nat) (s : State) : Host.Outcome State Fault Refusal :=
  let s := s.fresh
  atUnit pd 16 s (
    if s.pd pd == 1 && (requires pd).all s.on then
      (((s.setPd pd 2).startDomain pd).portsChanged (portsOfPd pd)).refresh
    else s)

/-- Whether frames pass through a power domain: lanes, pipelines and the buffer. -/
def framesPass (pd : Nat) : Bool := [4, 5, 6, 7, 10, 11, 12, 13].contains pd
/-- POWER_DOWN_COMPLETE (R121, R122): a domain that powers down, with every domain that requires it off, is cut off; frames still
inside it are dropped and counted as internal drops. Those of a port that are still arriving, which State does not hold yet, are
named in `frames` by their ingress ports. -/
def execPowerDownComplete (pd : Nat) (frames : List Nat) (s : State) : Host.Outcome State Fault Refusal :=
  let s := s.fresh
  atUnit pd 16 s (
    if s.pd pd == 3 && (List.range 16).all (fun m => !(requires m).contains pd || s.pd m == 0) then
      let s := if framesPass pd then s.forEach (frames.filter (· < 83)) (fun p s => s.stat p 0x47 1) else s
      (((s.setPd pd 0).cutDomain pd).portsChanged (portsOfPd pd)).refresh
    else s)

/-- The calendars of PD5's ports that were in force start again at a cycle start of theirs. -/
def State.resumeCalendars (s : State) : State :=
  s.forEach ((pipePorts 5).filter (fun p => s.f (Reg.gateStatus p) 40 2 == 0)) (fun p s =>
    match (s.gate p).oper with
    | some c =>
      let start := c.cycleStart (s.now c.dom + 2000 * ns16)
      (s.setGate p (fun x => { x with oper := none, committed := some ({ c with start := start }, start, c.dom) })).setTime
        (Reg.gatePendStart p 0) start
    | none => s)

/-- TABLE_REFILL_DONE (R47): E8 has filled the tables of pairs 3 to 5 from PD4; calendars that were in force start again. -/
def execTableRefillDone (s : State) : Host.Outcome State Fault Refusal :=
  let s := s.fresh
  .next (if s.on 5 && s.boot.tablesLoaded && s.serves 8 then
      let s := { s with boot := { s.boot with pipeFilled := s.boot.pipeFilled % 8 + 56 } }
      let s := s.resumeCalendars
      (s.portsChanged (pipePorts 5)).refresh
    else s)

/-! ### Clock islands (R51, R52) -/

/-- A hardware fault of an island: MSI-X vector 8, the finding of the health report, and an event whose code and payload the
spec does not give. -/
def State.islandFault (s : State) (kind i : Nat) : State :=
  (((s.mark 8).deviceFault).raise (0x100 + Config.faultEvent kind % 0x3F00) (Config.faultPayload kind i s.drawn)).draw

/-- CROSSING_FIFO_ERROR: an overflow or underflow of a crossing FIFO into island i (R51). -/
def execCrossingFifoError (i : Nat) (s : State) : Host.Outcome State Fault Refusal :=
  let s := s.fresh
  atUnit i 22 s ((s.count (Reg.clkIslXingErr i) 0 32 1).islandFault 1 i)

/-- The engines clocked by an island, E0 by AON, every other by its group's and by the shared firmware memory's. -/
def islandEngines (i : Nat) : List Nat :=
  match i with
  | 0 => [0] | 5 => [1, 2, 3, 4, 5] | 6 => [6, 7, 8, 9, 10, 11] | 7 => [1, 2, 3, 4, 5, 6, 7, 8, 9, 10, 11] | _ => []
/-- The ports whose path crosses an island. -/
def islandPorts (i : Nat) : List Nat :=
  match i with
  | 8 => pipePorts 4 | 9 => pipePorts 5 | 10 => List.range 83
  | _ => if 14 ≤ i && i ≤ 17 then (List.range 80).filter (fun p => portIsland p == i) else []

/-- The TIME island stops (R52, R318, R416): actions are cancelled, a measurement ends with RESTART, waiting steps are lost,
the servo's loops open. -/
def State.stopTime (s : State) : State :=
  let s := (s.cancelWhere true (fun _ => true)).stopTdc 5
  let s := if (s.engine 4).running then s.servoDown else s
  { s with clock := { s.clock with landings := [] }, link := { s.link with readings := [] } }

/-- What lies inside an island's stages is lost (R52): the frames in the half of the buffer that it clocks, the lower half's island
with the desk and its queues, or the copies under way on ports whose path crosses it. -/
def State.islandDrops (s : State) (i : Nat) : State :=
  match i with
  | 10 => s.cutFrames (s.buf.frames.map (·.id))
  | 11 => s.cutUpper.moveK.poolCheck.pfcCheckAll
  | _ => s.internalDrops (islandPorts i)

/-- ISLAND_LOCK_LOSS: an island's PLL loses lock, and its clock stops. AONIO and SBSPI have no PLL (R50). -/
def execIslandLockLoss (i : Nat) (s : State) : Host.Outcome State Fault Refusal :=
  let s := s.fresh
  atUnit i 22 s (
    if !s.islandUp i || i == 1 || i == 2 then s
    else
      let s := if i = 18 then s.stopTime else s
      let s := (s.setf (Reg.clkIslStatus i) 0 2 0).count (Reg.clkIslLockLoss i) 0 32 1
      let es := (islandEngines i).filter (fun e => (s.engine e).running)
      let s := (s.stopEngines es).answerQueued es
      let s := s.islandDrops i
      let s := if 14 ≤ i && i ≤ 17 then s.forEach (islandPorts i) (fun p s => s.linkDown p 1) else s.portsChanged (islandPorts i)
      let s := if i = 4 then { s with boot := { s.boot with linkUp := false } } else s
      (s.islandFault 0 i).refresh)

/-- The TIME island runs again (R52, R304): every domain goes on from the time it held, FREE, with its generation raised and a
discontinuity; references are selected afresh. -/
def State.restartTime (s : State) : State :=
  let s := s.forEach (List.range 10) (fun i s =>
    let s := (s.openLoop i (s.dpllFreq i)).setf (Reg.dpllStatus i) 59 1 0
    ((s.setDpll i (fun x => { x with lockedAt := none, hist := [] })).setLevel i 0).setf (Reg.dpllStatus i) 59 1 0)
  let s := s.forEach (List.range 10) (fun k s => s.deselect k)
  s.forEach (List.range 8) (fun d s =>
    let x := s.dom d
    let gen := (x.gen + 1) % 65536
    let t := s.now d
    (s.setDom d (fun x => { x with gen := gen })).discontinuity d 3 t x.gen t gen)

/-- ISLAND_RESTART: an island whose domain is on runs again once its PLL has held lock for 1 ms; with AON, E0 starts. -/
def execIslandRestart (i : Nat) (s : State) : Host.Outcome State Fault Refusal :=
  let s := s.fresh
  atUnit i 22 s (
    if s.islandUp i || !s.on (islandPd i) then s
    else
      let s := if i = 0 then s.setIslands 0 3 else s.set (Reg.clkIslStatus i) 3
      let s := s.runEngines ((islandEngines i).filter (fun e => (s.engine e).selected && s.engineHost e && s.imageLoaded e))
      let s := if i = 18 then s.restartTime else if i = 11 then s.moveK.poolCheck.pfcCheckAll.refillAll else s
      (s.portsChanged (islandPorts i)).refresh)

end Sys2Proof.Machine
end

