-- ==== Sys2Proof/Machine/Boot.lean ====
section
/-! DEFINITION. Resets, start-up, the boot flash, images and their staging, activation and trials (chapter 03), and engines
that restart (R44). -/
namespace Sys2Proof.Machine

/-! ### Leases and E0 (R87, R97) -/

/-- The leases assigned (R87): every assigned block by a rule. -/
def State.assignLeases (s : State) (owner : Nat → Nat) : State :=
  if s.ctl.leasesAssigned then s
  else ({ s with ctl := { s.ctl with leasesAssigned := true } }).forEach assignedBlocks (fun b s => s.setOwner b (owner b))
/-- E0 runs the boot ROM: the islands of PD0 run (R97). -/
def State.e0Start (s : State) : State :=
  if (s.engine 0).running then s else ((s.setIslands 0 3).runEngines [0]).refresh

/-! ### Resets (R98-R101) -/

/-- Cold reset (R98): every field at its reset value. What lies outside the device's registers stays: the flash with the stored
frequencies, the fuses and per-part values, the levels at the pins, and the commands that wait. -/
def State.coldReset (s : State) (hold pref : Bool) (cause : Nat) : State :=
  let quiet := (if s.attnLow then [Output.attn false] else []) ++ (if s.b Reg.pairState 24 then [Output.fence false] else []) ++
    ((List.range 18).filter (fun i => s.on 14 && s.outState i == 1)).map (fun i => Output.drive i false)
  let s := { State.reset with
    pending := s.pending, drawn := s.drawn, out := quiet
    words := s.words.filter (fun (x : Nat × Word) => x.1 == Reg.devId || x.1 == Reg.devUid)
    boot := { Boot.reset with
      flash := s.boot.flash, flashMib := s.boot.flashMib, fuses := s.boot.fuses, revoked := s.boot.revoked, perstLow := s.boot.perstLow
      checked := s.boot.checked, holdover := s.boot.holdover }
    pair := { PairSide.reset with fenceLow := s.pair.fenceLow } }
  let s := (s.set Reg.devResetCause cause).set Reg.devStraps (bit hold)
  let s := s.setf Reg.pairState 1 1 (bit pref)
  let s := s.set Reg.fwKeyStatus (s.boot.revoked % 16 * 16 + maskOf ((List.range 4).filter (fun k => !(s.boot.fuses.getD k []).isEmpty)))
  if hold then s.assignLeases (fun _ => 2) else s

/-- COLD_RESET: COLD_RST_N pulsed low, with BOOT_HOLD and PAIR_PREF as its rising edge samples them; or, with none, the cold
code taking effect 1 ms after its command (R101). -/
def execColdReset (straps : Option (Bool × Bool)) (s : State) : Host.Outcome State Fault Refusal :=
  .next (match straps with
    | some x => s.coldReset x.1 x.2 1
    | none => match s.boot.resetDue with
      | some (true, t) => if t ≤ s.ticks then s.coldReset (s.b Reg.devStraps 0) (s.b Reg.pairState 1) 2 else s.fresh
      | _ => s.fresh)

/-- Warm reset (R99): an ACTIVE unit first becomes STANDBY and its verdict RESETTING (R439); PD1 to PD13 and PD15 are reset, and
PD14 unless DEV_WARM_KEEP.TIME is set; E0 begins again at the boot header. A cold code that is due is dropped with it (DESIGN
CHOICE, notes/assumptions/14.md). -/
def State.warmReset (s : State) (cause : Nat) : State :=
  let s := if s.pairMode && s.role == 2 then s.takeRole 1 6 else s
  let s := s.setVerdict 3 (s.f Reg.healthReport 32 32)
  let keep := s.b Reg.devWarmKeep 0 && s.on 14
  let s := s.cancelWhere (!keep) (fun a => !keep || !(a.opcode == 0x0301 || a.opcode == 0x0302 || a.opcode == 0x0500 || a.opcode == 0x0A00))
  let s := s.stopEngines [1, 2, 3, 4, 5, 6, 7, 8, 9, 10, 11]
  let off := [15, 10, 11, 12, 13, 5, 3, 7, 8, 9, 4, 6, 2, 1] ++ (if keep then [] else [14])
  let s := s.forEach (off.filter (fun n => s.pd n != 0)) (fun n s => (s.setPd n 0).cutDomain n)
  let kept := s.ctl.deferred.filter (fun d => d.dest.via == Via.sideband || (match d.job with | .snapshot _ => false | _ => true))
  let s := { s with
    engines := s.engines.zipIdx.map (fun (x : Engine × Nat) => if x.2 = 0 then x.1 else { x.1 with selected := false, stalled := false })
    ctl := { s.ctl with
      pcie := { s.ctl.pcie with session := .fresh }, inband := { s.ctl.inband with session := .fresh }
      deferred := kept, outstanding := (kept.filter (fun (d : Deferred) => d.dest.via == Via.pcie)).length
      inbandOut := (kept.filter (fun (d : Deferred) => d.dest.via == Via.inband)).length }
    boot := { s.boot with stage := 0, resetDue := none, opSlot := none, timeSlot := none, memory := [] } }
  let s := ((s.set Reg.devState 0).set Reg.devResetCause cause).portsChanged (List.range 83)
  s.refresh

/-- WARM_RESET: WARM_RST_N pulsed low, or, without the pin, the warm code taking effect 1 ms after its command. -/
def execWarmReset (pin : Bool) (s : State) : Host.Outcome State Fault Refusal :=
  let s := s.fresh
  .next (if pin then s.warmReset 4
    else match s.boot.resetDue with
      | some (false, t) => if t ≤ s.ticks then s.warmReset 8 else s
      | _ => s)

/-- PERST_ASSERT: PERST_N low resets the PCIe controller and the BAR0 logic (R100). -/
def execPerstAssert (s : State) : Host.Outcome State Fault Refusal :=
  let s := s.fresh
  let s := ({ s with boot := { s.boot with perstLow := true } }).set Reg.devResetCause 16
  .next (if s.on 1 then s.cutPcie.refresh else s)
/-- PERST_DEASSERT: link training may restart. -/
def execPerstDeassert (s : State) : Host.Outcome State Fault Refusal :=
  let s := s.fresh
  .next { s with boot := { s.boot with perstLow := false } }
/-- PCIE_LINK_UP: the link trains with PD1 on, its clock running and PERST_N high. -/
def execPcieLinkUp (s : State) : Host.Outcome State Fault Refusal :=
  let s := s.fresh
  .next (if s.on 1 && s.islandUp 4 && !s.boot.perstLow then ({ s with boot := { s.boot with linkUp := true } }).refresh else s)
/-- PCIE_LINK_DOWN: the link goes down without PERST_N. -/
def execPcieLinkDown (s : State) : Host.Outcome State Fault Refusal :=
  let s := s.fresh
  .next ({ s with boot := { s.boot with linkUp := false } }).refresh

/-! ### The cold-boot count (R103) -/

/-- The address of record i of the journal: halves of 2,048 records from 0x1_0000. -/
def journalAt (i : Nat) : Nat := 0x10000 + 8 * i
/-- The records of the journal that hold anything. -/
def journalUsed (m : List Host.Cell) : List Nat :=
  (((m.filter (fun c => 0x10000 ≤ c.1 && c.1 < 0x18000)).map (fun c => (c.1 - 0x10000) / 8))).eraseDups
/-- The valid records with their counts. -/
def journalValid (m : List Host.Cell) : List (Nat × Nat) :=
  ((journalUsed m).map (fun i => (i, Flash.slice m (journalAt i) 8))).filterMap (fun x =>
    if u32 x.2 0 + u32 x.2 4 = 0xFFFFFFFF then some (x.1, u32 x.2 0) else none)
/-- The record with the largest count, if any is valid. -/
def journalBest (m : List Host.Cell) : Option (Nat × Nat) :=
  (journalValid m).foldl (fun b x => match b with | some y => if y.2 < x.2 then some x else some y | none => some x) none
/-- The journal after count + 1 is programmed: in the next erased record of the half, or first in the other half, erased. -/
def journalNext (m : List Host.Cell) : Nat × List Host.Cell :=
  let best := journalBest m
  let n := ((best.map (·.2)).getD 0 + 1) % 2 ^ 32
  let half := ((best.map (·.1)).getD 0) / 2048
  let from_ := match best with | some b => b.1 % 2048 + 1 | none => 0
  let used := journalUsed m
  let rec_ := toLe 4 n ++ toLe 4 (0xFFFFFFFF - n)
  match (List.range (2048 - from_)).find? (fun i => !used.contains (2048 * half + from_ + i)) with
  | some i => (n, Flash.writeAll m (journalAt (2048 * half + from_ + i)) rec_)
  | none => (n, Flash.writeAll (Flash.erase m (journalAt (2048 * (1 - half))) 0x4000) (journalAt (2048 * (1 - half))) rec_)

/-- COLD_BOOT_COUNT: E0 establishes the count of this boot, or fails to read or to program the flash. -/
def execColdBootCount (readable programs : Bool) (s : State) : Host.Outcome State Fault Refusal :=
  let s := s.fresh.e0Start
  .next (if s.boot.countKnown then s
    else if readable && programs then
      let r := journalNext s.boot.flash
      ({ s with boot := { s.boot with flash := r.2, countKnown := true } }).set Reg.fwColdBoots r.1
    else ({ s with boot := { s.boot with countKnown := true } }).set Reg.fwColdBoots (2 ^ 32))

/-! ### Boot headers (R104, R105) -/

/-- A boot header copy. -/
def headerAt (m : List Host.Cell) (c : Nat) : List Byte := Flash.slice m (slotPlace 4 c).1 4096
/-- The check of R105 as FINAL reports it: 1 valid, 3 magic, 4 CRC, 8 another field. Its list of what must be correct leaves the
reserved bytes out, and they are not judged (DESIGN CHOICE, notes/assumptions/15.md). -/
def headerCode (h : List Byte) : Nat :=
  if slice h 0 4 != [0x48, 0x58, 0x42, 0x48] then 3
  else if u32 h 4092 != crc32c (h.take 4092) then 4
  else if u8 h 4 != 1 || u8 h 12 < 25 || 100 < u8 h 12 then 8 else 1
/-- The copy in force: the valid one with the higher sequence number, copy 0 when they are equal. -/
def headerNow (m : List Host.Cell) : Option Nat :=
  let v := fun c => headerCode (headerAt m c) == 1
  if v 0 && v 1 then some (if u32 (headerAt m 0) 8 < u32 (headerAt m 1) 8 then 1 else 0)
  else if v 0 then some 0 else if v 1 then some 1 else none
/-- A list with bytes put at an offset. -/
def putAt (l : List Byte) (off : Nat) (x : List Byte) : List Byte := l.take off ++ x ++ l.drop (off + x.length)
/-- A header with new primary and trial bits, its sequence number raised and its CRC made anew. -/
def headerWith (h : List Byte) (primary trial : Nat) : List Byte :=
  let h := putAt (putAt h 13 (toLe 1 primary ++ toLe 1 trial)) 8 (toLe 4 (u32 h 8 + 1))
  h.take 4092 ++ toLe 4 (crc32c (h.take 4092))
/-- The flash replaced. -/
def State.setFlash (s : State) (m : List Host.Cell) : State := { s with boot := { s.boot with flash := m } }
/-- The flash with the primary slots and trials in the header copy that is not in force: copy c, which holds h, is. -/
def primaryFlash (m : List Host.Cell) (c : Nat) (h : List Byte) (primary trial : Nat) : List Host.Cell :=
  Flash.writeAll (Flash.erase m (slotPlace 4 (1 - c)).1 4096) (slotPlace 4 (1 - c)).1 (headerWith h primary trial)
/-- The copy of the boot header in force and its bytes: the one E0 took at the last reset, with the device's own changes since; a
copy staged meanwhile counts only from the next reset (R113). In BOOT_HOLD and NO_HEADER, where E0 took none, it is the valid copy
in the flash as it stands (DEDUCED, notes/assumptions/16.md). -/
def State.headerInForce (s : State) : Option (Nat × List Byte) :=
  match s.boot.headerCopy with
  | some c => some (c, s.boot.header)
  | none => (headerNow s.boot.flash).map (fun c => (c, headerAt s.boot.flash c))
/-- The primary and trial bits changed: in the other copy of the header (R104), which is then in force, and in FW_PRIMARY. -/
def State.setPrimary (s : State) (primary trial : Nat) : State :=
  match s.headerInForce with
  | none => s
  | some (c, h) =>
    let s := (s.setFlash (primaryFlash s.boot.flash c h primary trial)).set Reg.fwPrimary (trial % 8 * 8 + primary % 8)
    if s.boot.headerCopy.isSome then
      { s with boot := { s.boot with headerCopy := some (1 - c), header := headerWith h primary trial } }
    else s
/-- The primary and trial bits of the header in force. -/
def State.primaryNow (s : State) : Nat × Nat :=
  match s.headerInForce with
  | some (_, h) => (u8 h 13, u8 h 14)
  | none => (0, 0)

/-- BOOT_RESULT (R110). -/
def State.bootBytes (s : State) : List Byte := toLe 8 (s.get Reg.fwBootResult) ++ toLe 8 (s.get Reg.devState)
/-- BOOT_HOLD (4) or NO_HEADER (5): nothing is loaded, the side-band alone is served (R106). -/
def State.holdBoot (s : State) (mode : Nat) : State :=
  let s := { s with boot := { s.boot with stage := 3, headerCopy := none, header := [], cfgSlot := none, cfg := [] } }
  let s := (((s.set Reg.devState mode).set Reg.fwBootResult 0).set Reg.fwPrimary 0).assignLeases (fun _ => 2)
  (s.raiseSb 0x100 0 0 s.bootBytes).refresh

/-- BOOT_HEADER_READ: E0 reads both copies and uses one, or enters BOOT_HOLD or, with no valid copy or in a flash smaller than
256 Mib (R102), NO_HEADER. -/
def execBootHeaderRead (s : State) : Host.Outcome State Fault Refusal :=
  let s := s.fresh.e0Start
  .next (if s.boot.stage != 0 || !s.serves 0 then s
    else if s.b Reg.devStraps 0 then s.holdBoot 4
    else match (if s.boot.flashMib < 256 then none else headerNow s.boot.flash) with
      | none => s.holdBoot 5
      | some c =>
        let s := { s with boot := { s.boot with stage := 1, headerCopy := some c, header := headerAt s.boot.flash c } }
        let x := s.primaryNow
        (s.set Reg.fwBootResult (c * 2 ^ 25)).set Reg.fwPrimary (x.2 % 8 * 8 + x.1 % 8))

/-! ### Slots (R107, R108) -/

/-- The header of a slot. -/
def State.slotHeader (s : State) (kind slot : Nat) : List Byte := Flash.slice s.boot.flash (slotPlace kind slot).1 256
/-- The largest body of a kind. -/
def bodyMax (kind : Nat) : Nat := if kind = 1 then 5242880 else if kind = 2 then 1572864 else 1048320
/-- The engines an image of a kind runs on (R41, R107). -/
def kindEngines (kind : Nat) : List Nat := if kind = 1 then [1, 5, 6, 7, 8, 9, 10, 11] else if kind = 2 then [2, 3, 4] else []
/-- Whether the entry table has entries, inside the body, exactly for the kind's engines. -/
def entriesOk (kind : Nat) (h : List Byte) : Bool :=
  (List.range 12).all (fun e =>
    let x := u32 h (80 + 4 * e)
    if (kindEngines kind).contains e then decide (x < u32 h 20) else x == 0xFFFFFFFF)
/-- The code of R108 after steps 1 to 6, with the keys of a boot header; 1 when they pass. -/
def State.slotCode (s : State) (keys : List Byte) (kind slot : Nat) : Nat :=
  let h := s.slotHeader kind slot
  let n := u32 h 20
  let k := u8 h 24
  let key := slice keys (128 + 96 * k) 96
  let hash := s.boot.fuses.getD k []
  let secured := s.boot.fuses.any (fun x => !x.isEmpty)
  if slice h 0 4 != [0x48, 0x58, 0x49, 0x4D] || u8 h 4 != kind then 3
  else if u8 h 5 != 1 || n == 0 || decide (bodyMax kind < n) || !entriesOk kind h then 8
  else if secured && (decide (4 ≤ k) || !(u8 keys 15).testBit k || hash.isEmpty || sha384 key != hash || s.boot.revoked.testBit k) then 5
  else if secured && !ecdsaOk key (h.take 160) (slice h 160 96) then 5
  else if sha384 (Flash.slice s.boot.flash ((slotPlace kind slot).1 + 256) n) != slice h 32 48 then 4
  else if s.f Reg.devId 32 16 < u16 h 12 || u16 h 14 < s.f Reg.devId 32 16 then 6 else 1
/-- Step 7: each image's level lies in the range the other was tested with. -/
def partners (op time : List Byte) : Bool :=
  decide (u16 op 16 ≤ u16 time 6) && decide (u16 time 6 ≤ u16 op 18) && decide (u16 time 16 ≤ u16 op 6) && decide (u16 op 6 ≤ u16 time 18)

/-- The primary slot if its code is 1, else the other, else none; with the codes of slots A and B (0 not tried). -/
def pick (primary : Nat) (code : Nat → Nat) : Option Nat × (Nat × Nat) :=
  let a := code primary
  let b := if a = 1 then 0 else code (1 - primary)
  (if a = 1 then some primary else if b = 1 then some (1 - primary) else none, if primary = 0 then (a, b) else (b, a))

/-! ### Selection and loading (R97, R109, R110) -/

/-- The domains of PWR_BOOT_ON whose required domains are of it too start to power up. -/
def State.bootPower (s : State) : State :=
  let m := s.f Reg.pwrBootOn 0 16
  s.forEach ((List.range 16).filter (fun n => n != 0 && m.testBit n && (requiresAll n).all m.testBit && s.pd n == 0)) (fun n s => s.setPd n 1)

/-- The FW values taken from the configuration block: the RWS fields at the cold start-up alone, since a warm reset keeps them
(R99), PD0's others once since cold reset (R29). With no block at the cold start-up PWR_BOOT_ON reads 0x405F and PCIe has the IDs
of the boot header (R76, R110). The leases are assigned, and the unit's pair mode begins. -/
def State.loadConfig (s : State) (cfg : List (Nat × Word)) (ids : Nat × Nat × Nat) (found : Bool) : State :=
  let h := s.boot.header
  let s := { s with boot := { s.boot with
    cfg := if found then cfg else [], pcieIds := if found then ids else (u16 h 16, u16 h 18, u16 h 20) } }
  if s.boot.fwLoaded then s
  else
    let first := !s.ctl.leasesAssigned
    let s := if first then (if found then s.loadFw true (fun _ => true) else s.set Reg.pwrBootOn 0x405F) else s
    let s := if found then ({ s with boot := { s.boot with fwLoaded := true } }).loadFw false (fun k => pdOfWord k == 0) else s
    let s := (s.setf Reg.pwrBootOn 0 1 1).setf Reg.cmdSbGrant 4 2 0
    let grant := s.get Reg.cmdSbGrant
    let s := s.assignLeases (fun b => if grant.testBit b then 2 else 1)
    if !first && !found && s.role == 2 then s else if s.f Reg.pairCfg 0 2 = 1 then s.enterPair else s.enterAlone

/-- The configuration block and the images are checked and selected with the keys of a header copy (R109), the mode and
BOOT_RESULT follow, the leases are assigned, and the domains of PWR_BOOT_ON start. A time domain that PD14 kept over a warm reset
stays as it runs, in HOLDOVER while no timing image does, though R112 has a domain of TIMING_ABSENT FREE (DESIGN CHOICE,
notes/assumptions/17.md). -/
def State.selectImages (s : State) (cfg : List (Nat × Word)) (ids : Nat × Nat × Nat) (copy : Nat) : State :=
  let keys := s.boot.header
  let prim := fun (i : Nat) => s.f Reg.fwPrimary i 1
  let c := pick (prim 2) (s.slotCode keys 3)
  let o := pick (prim 0) (s.slotCode keys 1)
  let t := match o.1 with
    | some sl => pick (prim 1) (fun x =>
        let code := s.slotCode keys 2 x
        if code = 1 && !partners (s.slotHeader 1 sl) (s.slotHeader 2 x) then 7 else code)
    | none =>
      let f := fun (x : Nat) => if s.slotCode keys 2 x = 1 then 2 else s.slotCode keys 2 x
      (none, (f 0, f 1))
  let unsecured := s.boot.fuses.all (fun x => x.isEmpty)
  let w := copy * 2 ^ 25 + bit unsecured * 2 ^ 24 + c.2.2 * 2 ^ 20 + c.2.1 * 2 ^ 16 + t.2.2 * 2 ^ 12 + t.2.1 * 2 ^ 8 +
    o.2.2 * 16 + o.2.1
  let mode := if o.1.isNone then 3 else if t.1.isNone then 2 else 1
  let s := ((s.set Reg.fwBootResult w).set Reg.devState mode).holdStandby
  let s := { s with boot := { s.boot with stage := 2, cfgSlot := c.1, opSlot := o.1, timeSlot := t.1 } }
  let mark := fun (k : Nat) (on : Bool) (s : State) =>
    s.forEach (kindEngines k) (fun e s => s.setEngine e (fun g => { g with selected := on }))
  let s := mark 2 t.1.isSome (mark 1 o.1.isSome s)
  let s := if s.b Reg.fwPrimary 5 && c.1 == some (prim 2)
    then { s with boot := { s.boot with trialAt := assocSet s.boot.trialAt 3 s.ticks } } else s
  let cold := !s.ctl.leasesAssigned
  let s := (s.loadConfig cfg ids c.1.isSome).bootPower
  let s := if cold && s.pd 14 == 0 then { s with boot := { s.boot with timeStarted := true } } else s
  (s.raise 0x100 s.bootBytes).refresh

/-- IMAGE_SELECTION: the configuration block and the images are checked and selected, and the mode is fixed. `cfg` is what the
body of the block that is taken holds. -/
def execImageSelection (cfg : ConfigBody) (s : State) : Host.Outcome State Fault Refusal :=
  let s := s.fresh
  .next (match s.boot.headerCopy with
    | none => s
    | some copy => if s.boot.stage != 1 || !s.serves 0 then s else s.selectImages cfg.values cfg.ids copy)

/-- The body of an image loaded into shared firmware memory (R107): the operational image at offset 0, the timing image at
5,242,880; what it does not reach stays as it was. -/
def State.loadBody (s : State) (kind slot : Nat) : State :=
  let off := if kind = 1 then 0 else 5242880
  let body := Flash.slice s.boot.flash ((slotPlace kind slot).1 + 256) (u32 (s.slotHeader kind slot) 20)
  { s with boot := { s.boot with
    memory := assocSet s.boot.memory off (body ++ ((assoc s.boot.memory off).getD []).drop body.length) } }
/-- An image starts from a slot: its body is loaded; FW_OP_RUN or FW_TIME_RUN, its engines, its trial, and the mode that its
presence gives. -/
def State.startImage (s : State) (kind slot : Nat) : State :=
  let h := s.slotHeader kind slot
  let s := (s.loadBody kind slot).set (if kind = 1 then Reg.fwOpRun else Reg.fwTimeRun) (slot * 2 ^ 48 + u16 h 6 * 2 ^ 32 + u32 h 8)
  let s := { s with boot := { s.boot with
    opSlot := (if kind = 1 then some slot else s.boot.opSlot), timeSlot := (if kind = 1 then s.boot.timeSlot else some slot) } }
  let s := s.forEach (kindEngines kind) (fun e s => s.setEngine e (fun g => { g with selected := true }))
  let s := s.runEngines ((kindEngines kind).filter s.engineHost)
  let s := if s.b Reg.fwPrimary (2 + kind) && s.f Reg.fwPrimary (kind - 1) 1 == slot
    then { s with boot := { s.boot with trialAt := assocSet s.boot.trialAt kind s.ticks } } else s
  let s := if s.boot.opSlot.isNone then s else s.set Reg.devState (if s.boot.timeSlot.isSome then 1 else 2)
  s.refresh
/-- The engines of an image stop, and no slot of its kind runs. -/
def State.stopImage (s : State) (kind : Nat) : State :=
  ((s.stopEngines ((kindEngines kind).filter (fun e => (s.engine e).running))).set
    (if kind = 1 then Reg.fwOpRun else Reg.fwTimeRun) (0xFF * 2 ^ 48)).refresh
/-- The slot from which the image of a kind runs, 0xFF for none. -/
def State.runningSlot (s : State) (kind : Nat) : Nat := s.f (if kind = 1 then Reg.fwOpRun else Reg.fwTimeRun) 48 8

/-- IMAGE_LOAD_DONE: a selected image has been loaded into shared firmware memory and checked (R122: by R108 steps 1 to 6 with
the keys of the header in force), and its engines start; one that no longer passes is not started. -/
def execImageLoadDone (kind : Nat) (s : State) : Host.Outcome State Fault Refusal :=
  let s := s.fresh
  .next (if kind = 1 ∨ kind = 2 then
    (match (if kind = 1 then s.boot.opSlot else s.boot.timeSlot) with
      | some slot => if s.boot.stage = 2 && s.on 2 && s.runningSlot kind == 0xFF && s.serves 0 && s.slotCode s.boot.header kind slot == 1
          then s.startImage kind slot else s
      | none => s)
    else s)

/-- A calendar of the configuration block, as a GATE_LOAD payload, starts by R12, or waits as the one in force of a PD5 port. -/
def State.startCalendar (p : List Byte) (s : State) : State :=
  let port := u8 p 0
  let c := s.loadCalendar p
  if pairPd (pairOf port) = 4 then
    (s.stageCalendar port (u8 p 2) (u32 p 8) (timeAt p 12) c).commitGate port (c.cycleStart (s.now (u8 p 2) + 2000 * ns16)) (u8 p 2)
  else s.setGate port (fun x => { x with oper := c.inForce })

/-- HARDWARE_TABLES_LOADED (R97, R210): the tables in the body of the configuration block, entries by block, table and number or
key, form a new epoch, and its calendars, as GATE_LOAD payloads, start by R12. Without a block the tables are empty. -/
def execHardwareTablesLoaded (entries : List (Nat × Nat × Nat × List Byte)) (calendars : List (List Byte)) (s : State) :
    Host.Outcome State Fault Refusal :=
  let s := s.fresh
  .next (if s.on 4 && s.on 6 && !s.boot.tablesLoaded && s.boot.stage == 2 && s.serves 0 then
      let found := s.boot.cfgSlot.isSome
      let changes := if found then entries.map (fun x => (⟨x.1, x.2.1, x.2.2.1, some x.2.2.2⟩ : Staged)) else []
      let num := (s.boot.lastEpoch + 1) % 2 ^ 32
      let s := { s with boot := { s.boot with tablesLoaded := true, lastEpoch := num, pipeFilled := s.boot.pipeFilled / 8 * 8 + 7 } }
      let s := s.newEpoch num s.fwdDom (s.now s.fwdDom) changes
      let s := s.forEach (if found then calendars else []) State.startCalendar
      (s.portsChanged (pipePorts 4)).refresh
    else s)

/-! ### Engine restarts (R44) -/

/-- ENGINE_WATCHDOG_EXPIRY: the engine stops and is restarted by E0. -/
def execEngineWatchdogExpiry (e : Nat) (s : State) : Host.Outcome State Fault Refusal :=
  let s := s.fresh
  atUnit e 12 s (
    if (s.engine e).running then
      ((((s.stopEngines [e]).setEngine e (fun g => { g with restarts := satAdd 32 g.restarts 1 })).mark 7).answerQueued [e]).refresh
    else s)
/-- ENGINE_RESTART: an engine that its watchdog stopped runs again, with its image loaded and its hardware on. -/
def execEngineRestart (e : Nat) (s : State) : Host.Outcome State Fault Refusal :=
  let s := s.fresh
  atUnit e 12 s (
    let g := s.engine e
    if g.selected && !g.running && g.restarts != 0 && s.engineHost e && s.imageLoaded e then
      ((s.runEngines [e]).raise 0x103 (toLe 1 e ++ zeros 3 ++ toLe 4 g.restarts)).refresh
    else s)

/-! ### FW_STAGE (R113) -/

/-- Whether a slot is in use: of the running image, the configuration block in force, or, outside BOOT_HOLD and NO_HEADER, the
boot header. -/
def State.slotInUse (s : State) (kind slot : Nat) : Bool :=
  match kind with
  | 1 => s.runningSlot 1 == slot
  | 2 => s.runningSlot 2 == slot
  | 3 => s.boot.cfgSlot == some slot
  | _ => s.mode != 4 && s.mode != 5 && s.f Reg.fwBootResult 25 1 == slot
/-- Whether an open command is a FW_STAGE. -/
def Deferred.stages (d : Deferred) : Bool := match d.job with | .flash _ _ _ _ _ _ => true | _ => false
/-- Whether an open command is a FW_ACTIVATE. -/
def Deferred.activates (d : Deferred) : Bool := match d.job with | .activate _ _ => true | _ => false
/-- Whether a FW_STAGE executes. -/
def State.staging (s : State) : Bool := s.ctl.deferred.any Deferred.stages

/-- What FW_STAGE does at step 10 of R58. -/
def fwStageRun (c : Ctx) (s : State) : Ran :=
  if s.staging then .error (.busy (Config.retryHint s.drawn)) s.draw
  else .later (.flash (u8 c.p 0) (u8 c.p 1) ((u8 c.p 2).testBit 0) ((u8 c.p 2).testBit 1) (u32 c.p 4) (c.p.drop 12)) s

/-- FW_STAGE: accepted now, its reply follows the flash operation. -/
def fwStageCmd : Cmd := {
  opcode := 0x0C00, cls := 2, chain := true, engine := some 0
  check := fun c s =>
    let kind := u8 c.p 0
    firstErr [errIf (decide (c.p.length < 12)) .range, need (decide (1 ≤ kind) && decide (kind ≤ 4)) 0, need (decide (u8 c.p 1 < 2)) 1,
      need (decide (u8 c.p 2 < 4)) 2, rsv c 3 1, need (u32 c.p 8 == c.p.length - 12) 8,
      need (decide (u32 c.p 4 + u32 c.p 8 ≤ (slotPlace kind (u8 c.p 1)).2)) 4,
      need (!((u8 c.p 2).testBit 0 && u32 c.p 4 != 0)) 4, need (!s.slotInUse kind (u8 c.p 1)) 1]
  size := fun _ _ => 1
  leases := fun _ _ => [0x03]
  run := fwStageRun }
/-- FW_STAGE. -/
def execFwStage (q : Request) (s : State) : Host.Outcome State Fault Refusal := .next (runCmd fwStageCmd q s)

/-- Programming turns bits from 1 to 0 only (R102; notes/assumptions/50.md). -/
def Flash.program (m : List Host.Cell) (a : Nat) : List Byte → List Host.Cell
  | [] => m
  | b :: bs => Flash.program (Flash.write m a (Flash.read m a &&& b)) (a + 1) bs
/-- The code a FINAL reports (R113): of a header copy by R105, of any other slot by steps 1 to 6 of R108 with the keys of the
header copy now in force. -/
def State.finalCode (s : State) (kind slot : Nat) : Nat :=
  if kind = 4 then headerCode (headerAt s.boot.flash slot)
  else s.slotCode ((headerNow s.boot.flash).elim [] (headerAt s.boot.flash)) kind slot

/-- The flash after one staging operation: the slot erased where the operation says so, and the data programmed. -/
def stagedFlash (m : List Host.Cell) (kind slot : Nat) (erase : Bool) (offset : Nat) (data : List Byte) : List Host.Cell :=
  Flash.program (if erase then Flash.erase m (slotPlace kind slot).1 (slotPlace kind slot).2 else m) ((slotPlace kind slot).1 + offset) data
/-- What a FW_STAGE programs: the flash, and a slot it changes has no longer passed a FINAL. -/
def State.staged (s : State) (kind slot : Nat) (erase : Bool) (offset : Nat) (data : List Byte) : State :=
  let s := s.setFlash (stagedFlash s.boot.flash kind slot erase offset data)
  if erase || !data.isEmpty then { s with boot := { s.boot with checked := s.boot.checked.filter (· != (kind, slot)) } } else s
/-- A slot that has passed a FINAL. -/
def State.passSlot (s : State) (kind slot : Nat) : State :=
  if s.boot.checked.contains (kind, slot) then s else { s with boot := { s.boot with checked := s.boot.checked ++ [(kind, slot)] } }
/-- FLASH_OPERATION_DONE: the erase and the programming of the FW_STAGE in execution end, then its check, and it is replied to;
with a failure of the flash it is INTERNAL and nothing is applied. -/
def execFlashOperationDone (ok : Bool) (s : State) : Host.Outcome State Fault Refusal :=
  let s := s.fresh
  .next (match s.ctl.deferred.find? Deferred.stages with
    | none => s
    | some d =>
      match d.job with
      | .flash kind slot erase final offset data =>
        if !s.serves 0 then s
        else if !ok then (s.failDeferred d ⟨.internal, 0xFFFF, 6, 0⟩).deviceFault
        else
          let s := s.staged kind slot erase offset data
          let code := s.finalCode kind slot
          let s := if final && code == 1 then s.passSlot kind slot else s
          s.answerDeferred d .ok (if final then toLe 1 code else [])
      | _ => s)

/-! ### FW_ACTIVATE (R114, R115) -/

/-- Whether an image in a slot would pass step 7 against the image of the other kind that runs. -/
def State.partnerRuns (s : State) (kind slot : Nat) : Bool :=
  let other := 3 - kind
  s.runningSlot other == 0xFF ||
    (if kind = 1 then partners (s.slotHeader 1 slot) (s.slotHeader 2 (s.runningSlot 2))
     else partners (s.slotHeader 1 (s.runningSlot 1)) (s.slotHeader 2 slot))

/-- No trial of a kind is timed any more. -/
def State.endTrial (s : State) (kind : Nat) : State := { s with boot := { s.boot with trialAt := assocDel s.boot.trialAt kind } }

/-- What FW_ACTIVATE does at step 10 of R58. -/
def fwActivateRun (c : Ctx) (s : State) : Ran :=
  let kind := u8 c.p 0
  let x := s.primaryNow
  let s := s.setPrimary (setBits x.1 (kind - 1) 1 (u8 c.p 1)) (setBits x.2 (kind - 1) 1 (u8 c.p 3))
  let s := s.endTrial kind
  if u8 c.p 2 = 1 then .later (.activate kind (u8 c.p 1)) (s.stopImage kind) else .ok [] s

/-- FW_ACTIVATE, permanent or on trial. With no valid boot header copy there is nothing to hold the choice: NOT_READY without
detail (DESIGN CHOICE, notes/assumptions/16.md). -/
def fwActivateCmd : Cmd := {
  opcode := 0x0C01, cls := 2, engine := some 0
  ready := fun c s => firstErr [errIf s.headerInForce.isNone (.plain .notReady), errIf (u8 c.p 2 == 1 && !s.on 2) (.domain 2)]
  check := fun c s => firstErr [lenIs c 4, need (decide (1 ≤ u8 c.p 0) && decide (u8 c.p 0 ≤ 3)) 0, need (decide (u8 c.p 1 < 2)) 1,
    need (decide (u8 c.p 2 < 2)) 2, need (decide (u8 c.p 3 < 2)) 3, need (s.boot.checked.contains (u8 c.p 0, u8 c.p 1)) 1,
    need (!(u8 c.p 2 == 1 && u8 c.p 0 == 3)) 2, need (!(u8 c.p 2 == 1 && !s.partnerRuns (u8 c.p 0) (u8 c.p 1))) 1]
  leases := fun _ _ => [0x03]
  run := fwActivateRun }
/-- FW_ACTIVATE. -/
def execFwActivate (q : Request) (s : State) : Host.Outcome State Fault Refusal := .next (runCmd fwActivateCmd q s)

/-- What FW_ACTIVATE with mode confirm does at step 10 of R58. -/
def fwConfirmRun (c : Ctx) (s : State) : Ran :=
  let x := s.primaryNow
  let s := s.setPrimary x.1 (setBits x.2 (u8 c.p 0 - 1) 1 0)
  .ok [] (s.endTrial (u8 c.p 0))

/-- FW_ACTIVATE with mode confirm: the trial of the kind ends and its slot stays primary. -/
def fwConfirmCmd : Cmd := {
  opcode := 0x0C01, cls := 2, engine := some 0
  check := fun c s => firstErr [lenIs c 4, need (decide (1 ≤ u8 c.p 0) && decide (u8 c.p 0 ≤ 3)) 0, need (decide (u8 c.p 1 < 2)) 1,
    need (decide (u8 c.p 2 < 2)) 2, need (u8 c.p 3 == 2) 3, need (s.boot.checked.contains (u8 c.p 0, u8 c.p 1)) 1,
    need (s.primaryNow.2.testBit (u8 c.p 0 - 1)) 0]
  leases := fun _ _ => [0x03]
  run := fwConfirmRun }
/-- FW_ACTIVATE, confirm. -/
def execFwActivateConfirm (q : Request) (s : State) : Host.Outcome State Fault Refusal := .next (runCmd fwConfirmCmd q s)

/-- IMAGE_ACTIVATION_DONE: the engines of an image activated now report running, and the command is replied to. -/
def execImageActivationDone (s : State) : Host.Outcome State Fault Refusal :=
  let s := s.fresh
  .next (match s.ctl.deferred.find? Deferred.activates with
    | none => s
    | some d =>
      match d.job with
      | .activate kind slot =>
        if s.on 2 && s.serves 0 then (s.startImage kind slot).answerDeferred d .ok [] else s
      | _ => s)

/-- TRIAL_REVERTED: FW_TRIAL_S has passed since the trial image started, with no confirm; the previous slot is primary again,
and the kind runs from it if it is an image (R114). -/
def execTrialReverted (kind : Nat) (s : State) : Host.Outcome State Fault Refusal :=
  let s := s.fresh
  .next (match (if 1 ≤ kind && kind ≤ 3 then assoc s.boot.trialAt kind else none) with
    | none => s
    | some t =>
      let x := s.primaryNow
      if s.serves 0 && x.2.testBit (kind - 1) && decide (t + s.f Reg.fwTrialS 0 32 * 1250000000 ≤ s.ticks) then
        let prev := 1 - bits x.1 (kind - 1) 1
        let s := s.setPrimary (setBits x.1 (kind - 1) 1 prev) (setBits x.2 (kind - 1) 1 0)
        let s := s.endTrial kind
        let s := if kind = 3 || !s.on 2 then s else (s.stopImage kind).startImage kind prev
        s.raise 0x102 (toLe 1 kind ++ toLe 1 (if kind = 3 then s.boot.cfgSlot.getD prev else prev))
      else s)

end Sys2Proof.Machine
end

