-- ==== Sys2Proof/Machine/Ledger.lean ====
section
/-! DEFINITION. The ledger's own rows (R323-R327): anchors, gaps and the doorbell. -/
namespace Sys2Proof.Machine

/-- LEDGER_ANCHOR: the anchors of a ring whose ANCHOR_MS of step-free time has passed (R325). -/
def execLedgerAnchor (r : Nat) (s : State) : Host.Outcome State Fault Refusal :=
  let s := s.fresh
  let due := fun (d : Nat) => match assoc (s.ledgerRing r).anchors d with
    | some t => decide (t + s.f Reg.ledgerCfg 0 10 * 1000000 * ns16 ≤ s.runNow d) | none => true
  atUnit r 4 s (if s.ledgerOn r && s.timeUp && (s.ledgerRing r).lost == 0 then
      s.forEach ((List.range 8).filter (fun d => s.ledgerDom r d && due d)) (fun d s => s.anchor r d)
    else s)

/-- RING_GAP. -/
def execRingGap (r : Nat) (s : State) : Host.Outcome State Fault Refusal :=
  let s := s.fresh
  atUnit r 4 s (s.ringResume r)

/-- FIFO_GAP: the gap record of a port's FIFO leaves behind the stamps ahead of it (R323). -/
def execFifoGap (p : Nat) (s : State) : Host.Outcome State Fault Refusal :=
  let s := s.fresh
  atUnit p 80 s (if s.timeUp then s.fifoGap p else s)

/-- A write of LEDGER_RING_DB (R327): refused counts clear ENABLE and raise RING_ERROR with ring 4 + r. -/
def State.ledgerDoorbell (s : State) (r v : Nat) : State :=
  if 2 ^ s.f (Reg.ledgerRingCtrl r) 0 5 < (s.f (Reg.ledgerRingProd r) 0 32 + 2 ^ 32 - v % 2 ^ 32) % 2 ^ 32 then
    (s.setf (Reg.ledgerRingCtrl r) 31 1 0).ringError (4 + r) 1
  else s.setLedger r (fun x => { x with cons := v % 2 ^ 32 })

end Sys2Proof.Machine
end

