-- ==== Sys2Proof/Machine/Qmon.lean ====
section
/-! DEFINITION. Queue monitoring (R268-R270). -/
namespace Sys2Proof.Machine

/-- QMON_LOSS, at most once in 1 s. -/
def State.qmonLoss (s : State) (n : Nat) : State :=
  if n = 0 then s
  else
    let s := s.count Reg.qmonLost 0 32 n
    let due := match s.qmon.lossTick with | none => true | some t => decide (t + 1250000000 ≤ s.ticks)
    let s := { s with qmon := { s.qmon with lost := s.qmon.lost + n, lossTick := (if due then some s.ticks else s.qmon.lossTick) } }
    if due then s.raise 0x603 (toLe 4 (s.f Reg.qmonLost 0 32)) else s

/-- The free entries of the ring; none while PD1 is off (R49). -/
def State.qmonFree (s : State) : Nat :=
  if s.on 1 then 2 ^ s.f Reg.qmonRingCtrl 0 5 - (s.f Reg.qmonProd 0 32 + 2 ^ 32 - s.qmon.cons) % 2 ^ 32 else 0

/-- One record written. -/
def State.qmonPut (s : State) (r : List Byte) : State :=
  let prod := s.f Reg.qmonProd 0 32
  let addr := s.get Reg.qmonRingBase / 4096 * 4096 + 16 * (prod % 2 ^ s.f Reg.qmonRingCtrl 0 5)
  (s.emit (.dma addr r)).setf Reg.qmonProd 0 32 (prod + 1)

/-- The last sampling instant of the domain, in 2^-16 ns. -/
def State.qmonInstant (s : State) : Nat :=
  let per := max 1 (s.f Reg.qmonPeriod 0 30) * ns16
  s.now (s.f Reg.qmonPeriod 32 3) / per * per

/-- A gap record is owed, and may be written: the ring is enabled and has space (R270). -/
def State.gapOwed (s : State) : Bool := s.b Reg.qmonRingCtrl 31 && s.qmon.lost != 0 && s.qmonFree != 0
/-- The gap record, as soon as there is space (R269, R270): the sample instant, port 0xFF and the records lost; the queue's fields,
which have no meaning in it, are open, bit 7 of byte 5 reserved. -/
def State.qmonGap (s : State) : State :=
  if s.gapOwed then
    let r := toLe 4 (ns32Of s.qmonInstant) ++ [0xFF] ++ toLe 1 (Config.qmonGap s.drawn % 128) ++ toLe 6 (Config.qmonGap (s.drawn + 1)) ++
      toLe 4 (min s.qmon.lost 0xFFFFFFFF)
    let s := s.draw.draw.qmonPut r
    { s with qmon := { s.qmon with lost := 0 } }
  else s

/-- The record of a queue at an instant (R269). -/
def State.qmonRecord (s : State) (t p q : Nat) : List Byte :=
  let x := s.q p q
  let isOpen := match s.openLeft p q with | some 0 => false | _ => true
  toLe 4 (ns32Of t) ++ toLe 1 p ++ toLe 1 (q + 8 * bit isOpen + 16 * bit (s.stopped p q) + 32 * x.state) ++ toLe 3 (s.occ p q) ++
    toLe 3 x.chain.length ++ toLe 4 ((assoc (s.side p).sojourn q).getD 0)

/-- One sample (R268): one record of every selected queue, in order of port and queue; at 40 M records/s no more fit one period than
its length allows, and those beyond, or beyond the ring's space, are lost. -/
def State.qmonRecords (s : State) (t : Nat) : State :=
  let gap := bit s.gapOwed
  let s := s.qmonGap
  let sel := (List.range 83).flatMap (fun p => ((List.range 8).filter (fun q => s.b (Reg.qmonQEn (0x100 + p)) q)).map (fun q => (p, q)))
  let n := min (s.f Reg.qmonPeriod 0 30 * 40 / 1000 - gap) (if s.qmon.lost = 0 then s.qmonFree else 0)
  let recs := (sel.take n).map (fun x => s.qmonRecord t x.1 x.2)
  let s := s.forEach recs (fun r s => s.qmonPut r)
  let s := s.forEach sel (fun x s => s.setSide x.1 (fun y => { y with sojourn := assocDel y.sojourn x.2 }))
  let s := s.qmonLoss (sel.length - n)
  if recs.isEmpty then s else s.signal 6 (s.modUs 6)

/-- QMON_SAMPLE: the ring takes each sampling instant once. -/
def execQmonSample (s : State) : Host.Outcome State Fault Refusal :=
  let s := s.fresh
  let t := s.qmonInstant
  .next (
    if s.b Reg.qmonRingCtrl 31 && s.on 4 && s.timeUp && s.qmon.sampled != some t then
      ({ s with qmon := { s.qmon with sampled := some t } }).qmonRecords t
    else s)

/-- A write of QMON_DB (R270): a count ahead of QMON_PROD, or more than the ring behind it, clears ENABLE and raises
RING_ERROR with ring 18. -/
def State.qmonDoorbell (s : State) (v : Nat) : State :=
  if 2 ^ s.f Reg.qmonRingCtrl 0 5 < (s.f Reg.qmonProd 0 32 + 2 ^ 32 - v % 2 ^ 32) % 2 ^ 32 then
    (s.setf Reg.qmonRingCtrl 31 1 0).ringError 18 1
  else ({ s with qmon := { s.qmon with cons := v % 2 ^ 32 } }).qmonGap

/-- The ring enabled (R78): its counts restart at 0, and a gap record still owed is written. -/
def State.qmonEnable (s : State) : State :=
  ({ s.setf Reg.qmonProd 0 32 0 with qmon := { s.qmon with cons := 0 } }).qmonGap

end Sys2Proof.Machine
end

