-- ==== Sys2Proof/Machine/Reads.lean ====
section
/-! DEFINITION. What a read of a parameter word returns and does (R25-R29): words that show the machine's present state,
write-only and fixed bits, fields that a read clears (RC), and the TIME_NOW_HI latches. -/
namespace Sys2Proof.Machine

/-! ### Places of the parameter space (R24, R26) -/

/-- The block of a shelfmark. -/
def blockOf (k : Nat) : Nat := k / 0x1000000
/-- The instance of a shelfmark; a number above 0x3FF has bits outside the field and is no instance. -/
def instOf (k : Nat) : Nat := k / 0x1000 % 0x1000
/-- The index of a shelfmark; a number above 0x1FF is no index. -/
def indexOf (k : Nat) : Nat := k % 0x1000

/-- Whether a shelfmark is a word of the user page of R446. -/
def userPage (k : Nat) : Bool := k / 0x1000 == 0x303FE && decide (k % 0x1000 ≤ 0x40)
/-- Whether a shelfmark names a word (R26): one of the parameter tables or of the user page. -/
def defined (k : Nat) : Bool := decide (k < 2 ^ 32) && ((findRow k).isSome || userPage k)
/-- Whether a word is one of the MSI-X table or PBA (R76). -/
def msixWord (k : Nat) : Bool := (k / 0x1000 == 0x43FE && decide (k % 0x1000 < 128)) || k == 0x43FF000

/-! ### Bits that an instance fixes -/

/-- The boundary-clock frequency of a port in Hz (R342): the symbol rate over 10 in 8b/10b modes, over 40 in the others. -/
def State.boundaryHz (s : State) (p : Nat) : Nat :=
  match typeRow (s.codeInUse p) with
  | some t => t.rate5 * 10000 / (if t.align = 1 then 10 else 40)
  | none => 0

/-- The bits of an OUT_PULSE word that its output gives no meaning (R382). -/
def pulseFixed (i : Nat) : Nat :=
  if i < 8 then 2 ^ 64 - 1 else if i < 12 then 0xFFFFFFFF00000000 else if i < 16 then 0xFFFFFFFF else 0xFF

/-- The bits that a row of the tables makes writable but this word's description fixes, with what they read. -/
def fixedBits (k : Nat) : Nat × Nat :=
  let i := instOf k
  let x := indexOf k
  match blockOf k with
  | 0x01 => if k = Reg.pwrBootOn then (1, 1) else (0, 0)
  | 0x09 => if x = 0x13 then (0x300, 0x100) else (0, 0)
  | 0x04 => if k = Reg.cmdSbGrant then (0x30, 0) else if i = 3 && 0x40 ≤ x && x % 8 = 1 then (0xF000000, 0) else (0, 0)
  | 0x0C => if x = 0 && 80 ≤ i then (0xFF, 15) else (0, 0)
  | 0x0D => if x = 0 then (0x808000, 0) else (0, 0)
  | 0x18 => if i = 0x3FF then (0, 0) else if 5 ≤ x && x < 8 then (0xF000000000000000, 0)
      else if 0x25 ≤ x && x < 0x28 then (0xFFFFFF, 0) else (0, 0)
  | 0x24 =>
    if x = 0 && i < 8 then (0xFF000000000000, 0)
    else if x = 0 && i < 24 then (0x40000000FFFFFFFF, 0)
    else if x = 0 && i < 32 then (0x40FF0000FFFFFFFF, 2 ^ 62)
    else if x = 2 && 8 ≤ i && i < 32 then (2 ^ 64 - 1, 0) else (0, 0)
  | 0x25 => if 8 ≤ i && x = 0 then (0x0C00000000000000, 0) else if 8 ≤ i && x = 4 then (1, 0) else (0, 0)
  | 0x26 =>
    if x = 0 then (if i < 8 then (0, 0) else if i < 16 then (2 ^ 53, 0) else (0x0F20000000000000, 0))
    else if x = 1 then (if i < 16 then (0, 0) else (2 ^ 64 - 1, 0))
    else if x = 2 then (pulseFixed i, 0)
    else if x = 3 then (if i < 16 then (0x7FFFF, 0) else (0, 0)) else (0, 0)
  | 0x27 => if x = 1 && 8 ≤ i then (2 ^ 64 - 1, 0) else (0, 0)
  | 0x2B => if x = 0 then (2 ^ 35, 2 ^ 35) else (0, 0)
  | 0x34 => if k = Reg.gpioOd then (0xFF0000, 0xFF0000) else if k = Reg.gpioDrive then (0xFF0000, 0) else (0, 0)
  | _ => (0, 0)

/-! ### Words that show the present state -/

/-- The nominal frequency of an island in Hz (R50). -/
def islandHz (i : Nat) : Nat :=
  [1000000000, 100000000, 0, 125000000, 0, 1000000000, 1000000000, 1000000000, 1250000000, 1250000000, 1500000000, 1500000000,
   1600000000, 1600000000, 1328125000, 1328125000, 644531250, 644531250, 1250000000, 19530058, 2500000000, 1250000000].getD i 0

/-- The rising edges of SB_SCK in the last 1 ms (R50). -/
def State.spiCount (s : State) : Nat :=
  ((s.ctl.spiEdges.filter (fun (x : Nat × Nat) => decide (s.ticks < x.1 + 1250000))).map (·.2)).sum

/-- The words of block CLK (R50). -/
def State.clkWord (s : State) (i x w : Nat) : Nat :=
  if x = 0 then islandPd i * 0x10000 + i
  else if x = 1 then (if i = 2 then (if s.spiCount = 0 then 0 else 3) else w)
  else if x = 2 then
    if i = 2 then 1000 * s.spiCount else if !s.islandUp i then 0 else if i = 4 then Config.pcieHz s.ticks else islandHz i
  else w

/-- The learned entries of the FDB. -/
def State.fdbLearned (s : State) : Nat :=
  (s.fwd.learned.filter (fun (x : Learned) => !x.snooped && x.final.isSome)).length

/-- The device-wide words of block BUF (R216-R222). -/
def State.bufWord (s : State) (x w : Nat) : Nat :=
  if x = 1 then bits w 56 2 * 2 ^ 56 + s.sharedFree % 2 ^ 19 * 2 ^ 37 + s.sharedPool % 2 ^ 19 * 2 ^ 18 + s.buf.carrel % 2 ^ 18
  else if x = 2 then
    let tagged := (s.buf.desk.filter (fun (x : Nat × Nat) => x.2 == 2)).length
    s.cellsPresent % 2 ^ 19 * 2 ^ 38 + s.cellsFree % 2 ^ 19 * 2 ^ 19 + tagged % 2 ^ 19
  else if x = 3 then s.lent % 2 ^ 16 else w

/-- The pages of a channel that chains hold, and those it has that are not retired (R236, R242). -/
def State.pagesIn (s : State) (c : Nat) : Nat × Nat :=
  ((s.pagesHeld c).length, s.channelPages c - (s.retiredList c).length)

/-- The words of block STACK. -/
def State.stackWord (s : State) (i x w : Nat) : Nat :=
  if i = 0 then
    if x = 1 then
      let live := [0, 1].filter (fun c => s.channel c == 2)
      let used := (live.map (fun c => (s.pagesIn c).1)).sum
      let all := (live.map (fun c => (s.pagesIn c).2)).sum
      used % 2 ^ 24 * 2 ^ 26 + (all - used) % 2 ^ 24 * 4 + live.length
    else w
  else if i < 3 then (if x = 2 then (s.pagesIn (i - 1)).2 % 2 ^ 24 * 2 ^ 24 + (s.pagesIn (i - 1)).1 % 2 ^ 24 else w)
  else if 0x100 ≤ i && 0x10 ≤ x then
    let q := s.q (i - 0x100) (x - 0x10)
    q.state % 4 * 2 ^ 48 + q.chain.length % 2 ^ 24 * 2 ^ 24 + q.tail % 2 ^ 19
  else w

/-- The entry of a port's calendar in force now, the held one during a hold (R255, R266). -/
def State.entryNow (s : State) (p : Nat) : Nat := match s.entryInForce p with | some x => x.2.1 | none => 0

/-- An entry of a calendar that may be absent. -/
def entryWord (c : Option Calendar) (e : Nat) : Nat := match c with | some x => x.entries.getD e 0 | none => 0

/-- The words of block GATE (R254-R262): an admin calendar is the staged one, or the committed one that waits for S. -/
def State.gateWord (s : State) (i x w : Nat) : Nat :=
  if i < 80 then
    if x = 1 then setBits (setBits w 16 10 (s.entryNow i)) 0 8 (s.gatesNow i) else w
  else if 0x100 ≤ i && i < 0x300 then
    let p := i % 0x100 / 2
    let e := i % 2 * 512 + x
    if i < 0x200 then entryWord (match (s.gate p).admin with | some c => some c | none => (s.gate p).committed.map (·.1)) e
    else entryWord (s.gate p).oper e
  else w

/-- The words of block CAL (R392-R405); CAL_TDC_STATE shows the delay line whose state comes first of STALE, UNCAL, DUE and
CURRENT (notes/assumptions/63.md). -/
def State.calWord (s : State) (i x w : Nat) : Nat :=
  if i = 0x3FF then
    if x = 2 then
      let n := fun st => s.itemCount s.calItems st % 2 ^ 16
      n 0 * 2 ^ 48 + n 3 * 2 ^ 32 + n 2 * 2 ^ 16 + n 1
    else w
  else if i = 0x242 then
    let rank := fun n => [2, 0, 1, 3].getD (s.itemState (itemOf 4 n)) 0
    let k := itemOf 4 (bit (decide (rank 0 < rank 1)))
    bits w (itemTempLo k) 16 * 2 ^ 48 + s.itemState k
  else if 0x100 ≤ i && i < 0x170 then
    let n := if i < 0x140 then i - 0x100 else i - 0x140 + 32
    if x = 7 then s.itemAge (itemOf 0 n) * 2 ^ 32 + s.itemAge (itemOf 1 n)
    else if x = 6 then setBits w 16 4 (itemSensor (itemOf 0 n)) else w
  else w

/-- What a word reads now, before what fixes or hides bits of it; path is the reader's latch: 0 BAR0, 1 host commands,
2 side-band commands. -/
def State.liveWord (s : State) (path k : Nat) : Nat :=
  let w := s.get k
  let i := instOf k
  let x := indexOf k
  match blockOf k with
  | 0x02 => s.clkWord i x w
  | 0x04 => if k = Reg.cmdHostIdleMs then s.idleMs .host else if k = Reg.cmdSbIdleMs then s.idleMs .sideband else w
  | 0x0A => if i < 80 && x = 7 && s.portType i != 0 then setBits w 15 1 (bit (s.staleRx i || s.staleTx i)) else w
  | 0x10 => if k = Reg.catStageCount then s.fwd.staged.length
      else if k = Reg.catEpochState then setBits w 32 32 s.outstandingFrames else w
  | 0x11 => if k = Reg.fdbUsed then s.fdbLearned % 2 ^ 19 * 2 ^ 32 + s.fwd.tables.fdb.length % 2 ^ 19 else w
  | 0x18 => if i = 0x3FF then s.bufWord x w else if 0x10 ≤ x && x < 0x18 then setBits w 0 19 (s.occ i (x - 0x10)) else w
  | 0x19 => s.stackWord i x w
  | 0x1A => if k = Reg.auditStatus then setBits w 1 1 (bit !s.buf.held.isEmpty) else w
  | 0x1C => if x = 0x10 then
      let busy := (List.range 8).filter (fun q => !(s.q i q).copies.isEmpty)
      bit (s.preempting i) * 2 ^ 16 + maskOf (busy.filter (fun q => s.eligible i q)) * 2 ^ 8 + maskOf busy else w
  | 0x1D => s.gateWord i x w
  | 0x20 =>
    if i < 8 then
      if x = 0 then s.now i % (1000000000 * ns16)
      else if x = 1 then (assoc s.clock.latches (8 * path + i)).getD 0
      else if x = 2 then (s.dom i).gen % 2 ^ 16
      else if x = 3 then unsigned 32 (s.dom i).freq else w
    else if k = Reg.timeSchedCount then s.clock.actions.length else w
  | 0x24 => if i < 32 && x = 3 then setBits w 48 16 (s.wtrLeft i)
      else if 8 ≤ i && i < 24 && x = 0 then setBits w 0 32 (s.boundaryHz (s.prefPort i)) else w
  | 0x25 => if x = 8 then setBits w 59 1 (bit (s.hoValid i))
      else if x = 0xB then unsigned 64 (roundDiv (s.dpll i).pending fine16) else w
  | 0x26 => if x = 9 then unsigned 64 (s.outOffset i) else w
  | 0x28 => s.calWord i x w
  | 0x2A => if k = Reg.pairState then s.pairStateWord else w
  | 0x2B => if k = Reg.healthReport then s.healthReportWord else w
  | 0x30 =>
    if userPage k then
      if !s.b Reg.perfCtrl 20 then 0
      else if x = 0x40 then s.get Reg.perfCycles
      else if s.b Reg.perfUserMask x then s.get (Reg.perfCnt x) else 0
    else if k = Reg.perfOvfAll then maskOf ((List.range 64).filter (fun n => s.b (Reg.perfStatus n) 0)) else w
  | 0x34 => if k = Reg.gpioIn then s.gpioIn else if k = Reg.gpioState then s.gpioState else w
  | _ => w

/-- The word as a reader sees it: write-only fields read zero, fixed bits read what they are fixed to. A boundary-clock
frequency, fixed too, is shown by the word itself. -/
def State.shown (s : State) (path k : Nat) : Nat :=
  let wo := match findRow k with | some r => r.mask .wo | none => 0
  let fx := fixedBits k
  let m := if blockOf k = 0x24 && 8 ≤ instOf k && instOf k < 24 then 2 ^ 62 &&& fx.1 else fx.1
  mix (mix (s.liveWord path k) 0 wo) fx.2 m

/-- What a read leaves behind: a latch of the seconds, the extremes of a sensor and the peak of a queue at their present value,
RC fields at zero. -/
def State.afterRead (s : State) (path k : Nat) : State :=
  if blockOf k = 0x20 && instOf k < 8 && indexOf k = 0 then
    { s with clock := { s.clock with
      latches := assocSet s.clock.latches (8 * path + instOf k) (s.now (instOf k) / (1000000000 * ns16) % 2 ^ 48) } }
  else if blockOf k = 0x31 && instOf k < 12 && indexOf k = 1 then
    let t := s.f (Reg.thermValue (instOf k)) 0 16
    s.set k (t * 0x10000 + t)
  else if blockOf k = 0x18 && instOf k < 83 && 0x10 ≤ indexOf k && indexOf k < 0x18 then
    s.setf k 38 19 (s.occ (instOf k) (indexOf k - 0x10))
  else match findRow k with
    | some r => if r.mask .rc = 0 then s else s.set k (mix (s.get k) 0 (r.mask .rc))
    | none => s

/-- One word read: its value, and the state after. -/
def State.readWord (s : State) (path k : Nat) : Nat × State := (s.shown path k, s.afterRead path k)

/-- Words read in order, each after what the ones before it left. -/
def State.readWords (s : State) (path : Nat) : List Nat → List Byte × State
  | [] => ([], s)
  | k :: ks =>
    let a := if defined k then s.readWord path k else (0, s)
    let r := a.2.readWords path ks
    (toLe 8 a.1 ++ r.1, r.2)

/-- The latch of a master's PARAM commands. -/
def latchOf : Master → Nat
  | .host => 1 | .sideband => 2

/-! ### PARAM_READ and PARAM_READ_BLOCK (R71, R74) -/

/-- NOT_READY for the first of a list of words, each with the offset of its shelfmark, whose domain is off (R49, R60). -/
def State.wordsOff (s : State) (l : List (Nat × Nat)) : Option Err :=
  ((l.filter (fun x => defined x.2)).find? (fun x => !s.on (pdOfWord x.2))).map (fun x => ⟨.notReady, x.1, 3, pdOfWord x.2⟩)

/-- The shelfmarks of a list of n-byte entries. -/
def entryMarks (p : List Byte) (n : Nat) : List Nat := (List.range (p.length / n)).map (fun i => u32 p (n * i))

/-- What PARAM_READ does at step 10 of R58. -/
def paramReadRun (c : Ctx) (s : State) : Ran :=
  let r := s.readWords (latchOf c.master) (entryMarks c.p 4)
  .ok r.1 r.2

/-- PARAM_READ. -/
def paramReadCmd : Cmd := {
  opcode := 0x0100, cls := 1
  ready := fun c s => if c.p.length % 4 = 0 then s.wordsOff ((entryMarks c.p 4).zipIdx.map (fun x => (4 * x.2, x.1))) else none
  check := fun c _ =>
    let l := entryMarks c.p 4
    firstErr [errIf (c.p.length % 4 != 0 || l.isEmpty || decide (256 < l.length)) .range,
      ((List.range l.length).find? (fun i => !defined (l.getD i 0))).map (fun i => .at (4 * i))]
  size := fun c _ => 2 * c.p.length
  run := paramReadRun }

/-- The shelfmarks of PARAM_READ_BLOCK. -/
def blockMarks (p : List Byte) : List Nat := (List.range (u16 p 4)).map (fun i => u32 p 0 + i)

/-- What PARAM_READ_BLOCK does at step 10 of R58. -/
def paramReadBlockRun (c : Ctx) (s : State) : Ran :=
  let r := s.readWords (latchOf c.master) (blockMarks c.p)
  .ok r.1 r.2

/-- PARAM_READ_BLOCK: its indices are those of one instance, so the last may not pass 0x1FF. -/
def paramReadBlockCmd : Cmd := {
  opcode := 0x0103, cls := 2
  ready := fun c s => if c.p.length = 8 && defined (u32 c.p 0) then s.wordsOff [(0, u32 c.p 0)] else none
  check := fun c _ =>
    let k := u32 c.p 0
    let n := u16 c.p 4
    firstErr [lenIs c 8, need (defined k) 0,
      need (decide (1 ≤ n) && decide (n ≤ 505) && decide (k % 0x200 + n ≤ 0x200) && defined (k + n - 1)) 4, rsv c 6 2]
  size := fun c _ => 8 * u16 c.p 4
  run := paramReadBlockRun }

/-- PARAM_READ. -/
def execParamRead (q : Request) (s : State) : Host.Outcome State Fault Refusal := .next (runCmd paramReadCmd q s)
/-- PARAM_READ_BLOCK. -/
def execParamReadBlock (q : Request) (s : State) : Host.Outcome State Fault Refusal := .next (runCmd paramReadBlockCmd q s)

/-! ### BAR0 reads (R25, R26, R49, R446) -/

/-- The shelfmark of a BAR0 offset (R25). -/
def bar0Mark (offset : Nat) : Nat := shelf (offset / 0x400000 % 0x40) (offset / 0x1000 % 0x400) (offset / 8 % 0x200)
/-- Whether the host reaches BAR0: PD1 on, its island running and the link up. -/
def State.bar0Up (s : State) : Bool := s.on 1 && s.islandUp 4 && s.boot.linkUp

/-- BAR0_READ: the aligned word that holds the offset; a word that is not defined, or whose domain is off, reads zero. -/
def execBar0Read (offset : Nat) (s : State) : Host.Outcome State Fault Refusal :=
  let s := s.fresh
  let k := bar0Mark offset
  if !s.bar0Up || 2 ^ 28 ≤ offset then .next s
  else if msixWord k then .next (s.emit (.bar0 (s.get k)))
  else if defined k && s.on (pdOfWord k) then
    let r := s.readWord 0 k
    .next (r.2.emit (.bar0 r.1))
  else .next (s.emit (.bar0 0))

end Sys2Proof.Machine
end

