-- ==== Sys2Proof/Machine/WriteChecks.lean ====
section
/-! DEFINITION. The checks of a write to a parameter word (R26, R28, R72, R482): which words and fields a write can change, the
value it would leave, and the ranges that the tables and the rules give each word. -/
namespace Sys2Proof.Machine

/-! ### What a write can change (R27, R28) -/

/-- Bits of a mask that the word's description does not fix. -/
def unfixed (k m : Nat) : Nat := m ^^^ (m &&& (fixedBits k).1)
/-- The bits of a word that take what is written. -/
def writeMask (k : Nat) : Nat :=
  match findRow k with
  | some r => unfixed k (r.mask .rw ||| r.mask .rws ||| r.mask .rwl)
  | none => 0
/-- The bits of a word that a 1 clears. -/
def clearMask (k : Nat) : Nat := match findRow k with | some r => r.mask .w1c | none => 0
/-- The write-only bits of a word. -/
def triggerMask (k : Nat) : Nat := match findRow k with | some r => unfixed k (r.mask .wo) | none => 0
/-- Whether a word contains a writable field. -/
def writable (k : Nat) : Bool := writeMask k ||| clearMask k ||| triggerMask k != 0
/-- Whether PARAM_RMW may name a word (R73). -/
def rmwAllowed (k : Nat) : Bool :=
  match findRow k with | some r => r.mask .rc ||| r.mask .w1c ||| r.mask .wo == 0 | none => false
/-- The words that only BAR0 may write: CMD instances 0 and 3. -/
def bar0Only (k : Nat) : Bool := blockOf k == 0x04 && (instOf k == 0 || instOf k == 3)

/-- The 16 key words of SEC. -/
def keyWord (k : Nat) : Bool := decide (Reg.secKeyW 0 ≤ k) && decide (k < Reg.secKeyW 16)
/-- A lane's margin control word. -/
def marginWord (k : Nat) : Bool := (blockOf k == 0x08 || blockOf k == 0x09) && indexOf k == 0x12

/-- What a word holds after a write of v lands: key words keep what is written, LOCK is only ever set, and MARGIN_START shows
a probe. -/
def State.landing (s : State) (k v : Nat) : Nat :=
  let old := s.get k
  let n := mix (mix old v (writeMask k ||| (if keyWord k then 2 ^ 64 - 1 else 0))) 0 (v &&& clearMask k)
  if k = Reg.secCtrl then setBits n 0 1 (bits old 0 1 ||| bits v 0 1)
  else if marginWord k then setBits n 4 1 (bits old 4 1) else n

/-- Whether every writable field of a word takes its value of v. -/
def fieldsOk (k v : Nat) : Bool :=
  match findRow k with
  | none => false
  | some r => r.fields.all (fun (f : RegField) =>
      let fixed := ((2 ^ f.width - 1) <<< f.lo) &&& (fixedBits k).1 != 0
      f.acc == .ro || f.acc == .rc || fixed || f.ok.isEmpty ||
        f.ok.any (fun (i : Nat × Nat) => decide (i.1 ≤ bits v f.lo f.width) && decide (bits v f.lo f.width ≤ i.2)))

/-! ### Rings that refuse their ENABLE (R78, R201, R270, R327) -/

/-- The ring whose ENABLE a CTRL word n would set with a field out of range, by its number in RING_ERROR (R94). -/
def ringRefused (k n : Nat) : Option Nat :=
  let en := n.testBit 31
  let log := fun (w lo hi : Nat) => decide (lo ≤ bits n 0 w) && decide (bits n 0 w ≤ hi)
  if k = Reg.cmdCmdrCtrl then (if en && !log 4 4 10 then some 0 else none)
  else if k = Reg.cmdRplrCtrl then (if en && !log 4 4 10 then some 1 else none)
  else if k = Reg.cmdEvtrCtrl then (if en && !log 4 4 12 then some 2 else none)
  else if blockOf k = 0x04 && instOf k = 3 && indexOf k % 8 = 1 then
    let r := indexOf k / 8
    if en && !(log 4 4 12 && (r == 8 || decide (bits n 4 20 ≤ 1000)) &&
        (decide (8 ≤ r) || (decide (11 ≤ bits n 24 4) && decide (bits n 24 4 ≤ 14)))) then some (8 + r) else none
  else if k = Reg.qmonRingCtrl then (if en && !(log 5 8 16 && decide (bits n 5 20 ≤ 1000)) then some 18 else none)
  else if blockOf k = 0x21 && instOf k < 4 && indexOf k = 1 then
    (if en && !(log 5 8 16 && decide (bits n 5 20 ≤ 1000)) then some (4 + instOf k) else none)
  else none

/-- MOD_US of a ring's CTRL word, at most 1,000 whether or not the ring is enabled; ring 8 of P80 ignores it. -/
def modOk (k n : Nat) : Bool :=
  if blockOf k = 0x04 then instOf k != 3 || indexOf k % 8 != 1 || indexOf k / 8 == 8 || decide (bits n 4 20 ≤ 1000)
  else indexOf k != 1 || decide (bits n 5 20 ≤ 1000)

/-! ### The ranges that rules give -/

/-- Whether an instance of PTP may have a transport (R330). -/
def transportOk (profile t : Nat) : Bool :=
  match profile with
  | 4 => t == 0 | 7 => t == 0
  | 5 => t == 1 | 6 => t == 1
  | _ => true
/-- Whether a profile allows a clock type (R330). -/
def clockTypeOk (profile t : Nat) : Bool :=
  match profile with
  | 2 => t != 2 | 4 => t == 1 | _ => t != 3
/-- Whether two instances with the same domainNumber would have an enabled port in common (R331): with instance d's
configuration word, and, of its ports, whether each is enabled. -/
def State.ptpConflict (s : State) (d cfg : Nat) (enabled : Nat → Bool) : Bool :=
  bits cfg 62 2 != 0 && (List.range 8).any (fun e => e != d && s.f (Reg.ptpInstCfg (0x3F0 + e)) 62 2 != 0 &&
    s.f (Reg.ptpInstCfg (0x3F0 + e)) 40 8 == bits cfg 40 8 &&
    (List.range 80).any (fun p => enabled p && s.b (Reg.ptpPortCfg (ptpPort e p)) 63))

/-- The words of a PTP instance and of its ports (R329-R332). -/
def State.ptpWordOk (s : State) (i x n : Nat) : Bool :=
  let sg := fun (lo : Nat) => signed 8 (bits n lo 8)
  if 0x3F0 ≤ i then
    x != 0 || (clockTypeOk (bits n 59 3) (bits n 57 2) && !(bits n 62 2 == 2 && bits n 57 2 == 3) &&
      !s.ptpConflict (i - 0x3F0) n (fun p => s.b (Reg.ptpPortCfg (ptpPort (i - 0x3F0) p)) 63))
  else if x = 0 then
    let d := i / 0x80
    let cfg := s.get (Reg.ptpInstCfg (0x3F0 + d))
    transportOk (bits cfg 59 3) (bits n 59 2) &&
      (!n.testBit 55 || (decide (1 ≤ bits n 40 12) && decide (bits n 40 12 ≤ 4094))) &&
      decide (-7 ≤ sg 24) && decide (sg 24 ≤ 4) && decide (-7 ≤ sg 16) && decide (sg 16 ≤ 5) &&
      decide (-3 ≤ sg 8) && decide (sg 8 ≤ 4) && decide (2 ≤ bits n 0 8) &&
      !(n.testBit 63 && s.ptpConflict d cfg (fun p => p == i % 0x80))
  else true

/-- The baud rates of R382. -/
def bauds : List Nat := [9600, 19200, 38400, 57600, 115200, 230400, 460800, 921600]
/-- The words of a timing output (R382). -/
def State.outWordOk (s : State) (i x n : Nat) : Bool :=
  let within := fun (lo hi v : Nat) => decide (lo ≤ v) && decide (v ≤ hi)
  if x = 0 then
    let fr := bits n 0 32
    if i < 8 then within 1000 800000000 fr
    else if i < 12 then decide (bits n 56 4 ≤ 7) && within 1 10000000 fr
    else if i < 16 then decide (bits n 56 4 ≤ 7) && within 8000 24576000 fr
    else bauds.contains fr
  else if x = 1 then decide (n < 2 ^ 63) && decide (n * s.f (Reg.outCfg i) 0 32 ≤ sec16)
  else if x = 2 then
    if i < 8 then true
    else if i < 12 then decide (8 ≤ bits n 0 32) && decide ((bits n 0 32 + 8) * s.f (Reg.outCfg i) 0 32 ≤ 1000000000)
    else if i < 16 then within 2 4096 (bits n 48 16) && within 1 (bits n 48 16 - 1) (bits n 32 16)
    else decide (bits n 56 8 ≤ 1) && decide (bits n 48 8 ≤ 3) && within 1 999 (bits n 16 16) && decide (bits n 8 8 ≤ 1)
  else true

/-- The words of reference selection (R360, R364). -/
def State.refWordOk (s : State) (i x n : Nat) : Bool :=
  if i < 32 then
    if x = 0 then
      if i < 8 then decide (1 ≤ bits n 0 32) && decide (bits n 0 32 ≤ 250000000)
      else decide (24 ≤ i) || decide (bits n 48 8 ≤ 79)
    else true
  else if i < 0x200 then
    let sel := i - 0x100
    if x = 0 then !n.testBit 62 || decide (8 ≤ sel)
    else if x = 1 || x = 2 then (List.range 16).all (fun r => bits n (4 * r) 4 == 0 || s.usable sel (16 * (x - 1) + r)) else true
  else true

/-- Whether a word's rules take the value n it would hold. -/
def State.ruleOk (s : State) (k n : Nat) : Bool :=
  let i := instOf k
  let x := indexOf k
  match blockOf k with
  | 0x01 => k != Reg.pwrBootOn || (List.range 16).all (fun d => !n.testBit d || (requires d).all (fun r => n.testBit r))
  | 0x04 => (ringRefused k n).isNone && modOk k n
  | 0x08 => if x = 1 then bits n 3 2 != 3 && (bits n 3 2 == 0 || !(s.rxTiming (.hl i) || s.txTiming (.hl i)))
      else x != 2 || txeqOk n
  | 0x09 => if x = 1 then bits n 3 2 != 3 && (bits n 3 2 == 0 || !(s.rxTiming (.el i) || s.txTiming (.el i)))
      else x != 2 || txeqOk n
  | 0x0C => x != 0 || bits n 0 8 == s.portType i || s.typeOk i (bits n 0 8)
  | 0x0D => if x = 0 then !(n.testBit 0 && n.testBit 1)
      else x < 0x10 || (decide (1 ≤ bits n 0 18) && decide (bits n 0 18 < bits n 32 18))
  | 0x13 => bits n 0 3 != 3 || bits n 4 4 == 0xA || bits n 4 4 == 0xB
  | 0x18 =>
    if i < 0x3FF && x < 8 then
      decide (bits n 0 19 ≤ bits n 38 19) &&
        (if 5 ≤ x then decide (bits n 38 19 ≤ 32768) else decide (s.f (Reg.stackQCfg (0x100 + i) x) 38 19 ≤ bits n 38 19))
    else true
  | 0x19 => if 0x100 ≤ i && x < 8 then
      decide (16 ≤ bits n 0 19) && decide (bits n 0 19 < bits n 19 19) && decide (bits n 19 19 < bits n 38 19) &&
        decide (bits n 38 19 ≤ s.f (Reg.bufQCfg (i - 0x100) x) 38 19)
    else true
  | 0x1E => (ringRefused k n).isNone && (k != Reg.qmonRingCtrl || modOk k n)
  | 0x21 => (ringRefused k n).isNone && (4 ≤ i || (modOk k n && (x != 4 || (bits n 0 32 ||| 0x1E) == 0x1E)))
  | 0x22 => s.ptpWordOk i x n
  | 0x24 => s.refWordOk i x n
  | 0x25 => x != 0 || (decide (bits n 32 16 ≤ bits n 0 32) && decide (bits n 60 4 ≤ 8) &&
      (decide (i < 8) || bits n 60 4 == 4 || decide (6 ≤ bits n 60 4)))
  | 0x26 => s.outWordOk i x n
  | 0x2A => k != Reg.pairBDest || !n.testBit 63 || (decide (1 ≤ bits n 48 12) && decide (bits n 48 12 ≤ 4094))
  | 0x30 => x != 0 || decide (64 ≤ i) || perfOk (bits n 40 8) (bits n 48 10)
  | 0x31 => x != 2 || decide (signed 16 (bits n 32 16) ≤ signed 16 (bits n 16 16))
  | 0x34 => k != Reg.gpioDir || (s.f Reg.gpioForce 0 32 ||| bits n 0 32) == bits n 0 32
  | _ => true

/-! ### One write checked (R58, R482) -/

/-- Whether a PARAM command, or BAR0, may name a word to write it. -/
def markOk (bar0 : Bool) (k : Nat) : Bool := defined k && !userPage k && (bar0 || !bar0Only k) && writable k
/-- Whether a word takes a value. -/
def State.valueOk (s : State) (k v : Nat) : Bool := fieldsOk k v && s.ruleOk k (s.landing k v)
/-- LOCKED (R27, R65): a write after LOCK that would change SB_AUTH_REQ, or any write of a key word. -/
def State.lockedOut (s : State) (k v : Nat) : Bool :=
  s.b Reg.secCtrl 0 && (keyWord k || (k == Reg.secCtrl && bits v 1 1 != s.f Reg.secCtrl 1 1))
/-- The lease that a write of a word needs; CMD instance 0 needs none (R87). -/
def leaseOf (k : Nat) : List Nat := if blockOf k = 0x04 && instOf k = 0 then [] else [blockOf k]

/-- The refusal that a write of one word would meet, in the order of R58. -/
def State.writeErr (s : State) (bar0 : Bool) (m : Master) (k v : Nat) : Option Err :=
  firstErr [s.wordsOff [(0, k)], errIf (!markOk bar0 k) .range, errIf (!s.valueOk k v) .range,
    s.leaseErr m (leaseOf k), errIf (s.lockedOut k v) (.plain .locked)]

/-- What a refusal leaves behind when it is that of a ring's ENABLE: CFG_ERR of the host's rings, and RING_ERROR (R94). -/
def State.enableRefused (s : State) (k v : Nat) : State :=
  match ringRefused k (s.landing k v) with
  | none => s
  | some r => (if blockOf k = 0x04 then s.setf Reg.cmdHostStatus 1 1 1 else s).ringError r 2

end Sys2Proof.Machine
end

