-- ==== Sys2Proof/Machine/Writes.lean ====
section
/-! DEFINITION. What the write of a parameter word does once it lands: the word takes its new value, and the hardware behind it
follows at once. -/
namespace Sys2Proof.Machine

/-! ### Rings and doorbells (R78, R79, R201) -/

/-- A doorbell of a host ring refused: DB_ERR, the ring's ENABLE cleared, RING_ERROR. -/
def State.doorbellRefused (s : State) (ctrl ring : Nat) : State :=
  ((s.setf Reg.cmdHostStatus 0 1 1).setf ctrl 31 1 0).ringError ring 1

/-- CMD_DB_CMD: the producer count, at most the ring's size ahead of the device. -/
def State.commandDoorbell (s : State) (v : Nat) : State :=
  if s.ringSize Reg.cmdCmdrCtrl 4 < (v + 65536 - s.f Reg.cmdCmdrCons 0 16) % 65536 then s.doorbellRefused Reg.cmdCmdrCtrl 0
  else { s with ctl := { s.ctl with cmdProd := v } }
/-- CMD_DB_RPL: the reply consumer count, not ahead of the device nor more than the ring behind it. -/
def State.replyDoorbell (s : State) (v : Nat) : State :=
  if s.ringSize Reg.cmdRplrCtrl 4 < (s.f Reg.cmdRplrProd 0 16 + 65536 - v) % 65536 then s.doorbellRefused Reg.cmdRplrCtrl 1
  else { s with ctl := { s.ctl with rplCons := v } }
/-- CMD_DB_EVT: the event consumer count; space freed lets EVENTS_LOST be written (R80). -/
def State.eventDoorbell (s : State) (v : Nat) : State :=
  if s.ringSize Reg.cmdEvtrCtrl 4 < (s.f Reg.cmdEvtrProd 0 16 + 65536 - v) % 65536 then s.doorbellRefused Reg.cmdEvtrCtrl 2
  else ({ s with ctl := { s.ctl with evtCons := v } }).flushHostLost
/-- P80_RING_DB: on a receive or transmit ring the host counts ahead of the device, on the completion ring behind it (R201). -/
def State.p80Doorbell (s : State) (r v : Nat) : State :=
  let dev := s.f (Reg.p80RingDev r) 0 16
  let gap := if r = 9 then (dev + 65536 - v) % 65536 else (v + 65536 - dev) % 65536
  if 2 ^ s.f (Reg.p80RingCtrl r) 0 4 < gap then s.doorbellRefused (Reg.p80RingCtrl r) (8 + r)
  else { s with rings := { s.rings with counts := modifyAt s.rings.counts r (fun _ => v) } }

/-- The command, reply or event ring enabled: its counts restart at 0 (R78). -/
def State.commandRingOn (s : State) : State := ({ s with ctl := { s.ctl with cmdProd := 0 } }).setf Reg.cmdCmdrCons 0 16 0
/-- The reply ring enabled. -/
def State.replyRingOn (s : State) : State := ({ s with ctl := { s.ctl with rplCons := 0 } }).setf Reg.cmdRplrProd 0 16 0
/-- The event ring enabled: EVENTS_LOST comes first if any were lost (R80). -/
def State.eventRingOn (s : State) : State :=
  (({ s with ctl := { s.ctl with evtCons := 0 } }).setf Reg.cmdEvtrProd 0 16 0).flushHostLost
/-- A P80 ring enabled. -/
def State.p80RingOn (s : State) (r : Nat) : State :=
  { s.setf (Reg.p80RingDev r) 0 16 0 with rings := { s.rings with counts := modifyAt s.rings.counts r (fun _ => 0) } }

/-! ### What follows a write, block by block -/

/-- Block CMD: a ring that has just been enabled, or a doorbell. -/
def State.afterCmd (s : State) (k v : Nat) (on : Bool) : State :=
  let c := v % 65536
  if k = Reg.cmdDbCmd then s.commandDoorbell c
  else if k = Reg.cmdDbRpl then s.replyDoorbell c
  else if k = Reg.cmdDbEvt then s.eventDoorbell c
  else if instOf k = 3 && indexOf k % 8 = 2 then s.p80Doorbell (indexOf k / 8) c
  else if !on then s
  else if k = Reg.cmdCmdrCtrl then s.commandRingOn
  else if k = Reg.cmdRplrCtrl then s.replyRingOn
  else if k = Reg.cmdEvtrCtrl then s.eventRingOn
  else if instOf k = 3 && indexOf k % 8 = 1 then s.p80RingOn (indexOf k / 8)
  else s

/-- A key word written (R65): word 0 clears its slot's valid bit, word 3 sets it. -/
def State.keyWritten (s : State) (n : Nat) : State :=
  if n % 4 = 0 then s.setf Reg.secKeyValid (n / 4) 1 0
  else if n % 4 = 3 then s.setf Reg.secKeyValid (n / 4) 1 1 else s

/-- A transmitter restarted by command (R140): one that is off does not start. -/
def State.restartTx (s : State) (l : Lane) : State := if s.txState l == 0 then s else s.txStart l

/-- Blocks HLANE and ELANE. -/
def State.afterLane (s : State) (l : Lane) (x v : Nat) : State :=
  if x = 2 then s.txeqWritten l
  else if x = 3 then s.ctleWritten l
  else if x = 6 then
    let s := if v.testBit 1 then s.restartTx l else s
    if v.testBit 0 then s.restartRx l else s
  else if x = 0x12 then (if v.testBit 4 then s.marginStart l else s)
  else s

/-- Block STACK: CH_EN, or an entry of a retirement list (R242, R243). -/
def State.afterStack (s : State) (k old : Nat) : State :=
  if k = Reg.stackCfg then s.chEnCleared old
  else if 0x10 ≤ instOf k && instOf k < 0x20 then s.retiredCheck ((instOf k - 0x10) / 8) else s

/-- The port states of an instance after a write: a port newly enabled in engine mode is LISTENING, one disabled, or of an
instance off or in host mode, reads 0 (notes/assumptions/47.md). -/
def State.ptpFollow (s : State) (d : Nat) : State :=
  let mode := s.f (Reg.ptpInstCfg (0x3F0 + d)) 62 2
  (s.forEach (List.range 80) (fun p s =>
    if mode == 1 && s.ptpOn d p then (if s.ptpState d p == 0 then s.setPtpState d p 4 else s)
    else s.setPtpState d p 0)).showSlave d

/-- Block REFSEL (R362, R378, R380). -/
def State.afterRef (s : State) (i x old : Nat) : State :=
  if i < 32 then (if x ≤ 1 then s.refWritten i else s)
  else if 0x200 ≤ i && x = 0 then
    let p := i - 0x200
    let s := if bits old 62 2 != s.f (Reg.refselPortCfg i) 62 2 then s.forEach (s.portLanes p) (fun l s => s.restartTx l) else s
    if bits old 60 1 = 1 && !s.b (Reg.refselPortCfg i) 60 then
      ({ s with ref := { s.ref with heard := assocDel s.ref.heard p } }).setQl p 0xF 0
    else s
  else s

/-- Block DPLL (R377, R381). -/
def State.afterDpll (s : State) (i x v old : Nat) : State :=
  if x = 4 then (if v.testBit 0 && i < 8 then s.clearUser i else s)
  else if x = 0 && bits old 58 2 != s.f (Reg.dpllCfg i) 58 2 then s.retuneDpll i else s

/-- Block OUT (R385, R386). -/
def State.afterOut (s : State) (i x old : Nat) : State :=
  if x = 0 then
    let s := s.showPending i
    if bits old 54 2 != s.f (Reg.outCfg i) 54 2 then s.outWant i else s
  else if x ≤ 2 then s.showPending i else s

/-- Block PAIR (R419, R421, R428): a change of MODE, or of the port of path B. -/
def State.afterPair (s : State) (k old : Nat) : State :=
  if k != Reg.pairCfg then s
  else if bits old 0 2 != s.f Reg.pairCfg 0 2 then (if s.pairMode then s.enterPair else s.enterAlone)
  else if s.pairMode && bits old 8 8 != s.f Reg.pairCfg 8 8 then
    s.pathB (decide (s.f Reg.pairCfg 8 8 < 80) && s.portReady (s.f Reg.pairCfg 8 8))
  else s

/-- A reset code written (R101): it acts 1 ms (1,250,000 ticks) later. A code already written acts first. -/
def State.resetWritten (s : State) (v : Nat) : State :=
  if s.boot.resetDue.isSome then s
  else { s with boot := { s.boot with resetDue := some (v % 65536 == 0xC0, s.ticks + 1250000) } }

/-- What follows a write of v to a word that held old before. -/
def State.afterWrite (s : State) (k v old : Nat) : State :=
  let i := instOf k
  let x := indexOf k
  let on := !old.testBit 31 && s.b k 31
  match blockOf k with
  | 0x00 => if k = Reg.devReset then s.resetWritten v else s
  | 0x04 => s.afterCmd k v on
  | 0x05 => if keyWord k then s.keyWritten (k - Reg.secKeyW 0) else s
  | 0x08 => s.afterLane (.hl i) x v
  | 0x09 => s.afterLane (.el i) x v
  | 0x0A => if x = 8 then s.linkCtrl i v else s
  | 0x0C => if x = 4 && bits old 0 2 != s.f k 0 2 then s.mergeInit i else s
  | 0x0D => s.pfcCheck i
  | 0x11 => if k = Reg.fdbFlush then s.fdbFlush v else s
  | 0x18 => if k = Reg.bufPoolCfg || (i < 0x3FF && x < 8) then s.poolCheck.moveK else s
  | 0x19 => s.afterStack k old
  | 0x1C => if 8 ≤ x && x < 13 then s.shaperWritten i (x - 8) old else s
  | 0x1E => if k = Reg.qmonDb then s.qmonDoorbell (v % 2 ^ 32) else if k = Reg.qmonRingCtrl && on then s.qmonEnable else s
  | 0x21 => if 4 ≤ i then s else if x = 2 then s.ledgerDoorbell i v else if x = 1 && on then s.ledgerEnable i else s
  | 0x22 => if 0x3F0 ≤ i then (if x = 0 then s.ptpFollow (i - 0x3F0) else s) else if x = 0 then s.ptpFollow (i / 0x80) else s
  | 0x24 => s.afterRef i x old
  | 0x25 => s.afterDpll i x v old
  | 0x26 => s.afterOut i x old
  | 0x27 => if x = 0 then s.restartDiv i else s
  | 0x2A => s.afterPair k old
  | 0x30 => if i < 64 && x = 4 && v.testBit 0 then s.clearOvf i else s
  | 0x34 => if 0x100 ≤ i && x = 1 && v.testBit 63 then s.i2cStart (i - 0x100) else s
  | _ => s

/-- A write that lands. A change of MAC_PORT_TYPE is made by its own operation (R155). -/
def State.writeWord (s : State) (k v : Nat) : State :=
  let n := s.landing k v
  if blockOf k = 0x0C && indexOf k = 0 then
    (if bits n 0 8 = s.portType (instOf k) then s else s.typeWritten (instOf k) (bits n 0 8))
  else (s.set k n).afterWrite k v (s.get k)

/-! ### The two paths of a write (R25, R482) -/

/-- The BAR0 offset of a word (R25). -/
def bar0Offset (k : Nat) : Nat := blockOf k * 0x400000 + instOf k * 0x1000 + indexOf k * 8

/-- At least 1 s since a tick, if there was one. -/
def State.quietSecond (s : State) (last : Option Nat) : Bool :=
  match last with | none => true | some t => decide (t + 1250000000 ≤ s.ticks)

/-- A BAR0 write discarded (R91, R482): counted, and reported at most once in 1 s. -/
def State.bar0Discard (s : State) (offset : Nat) (e : Err) : State :=
  if e.st = .lease then
    let s := s.count Reg.cmdBar0LeaseDrop 0 32 1
    if s.quietSecond s.ctl.lastLeaseDrop then
      ({ s with ctl := { s.ctl with lastLeaseDrop := some s.ticks } }).raise 6 (toLe 4 offset ++ toLe 1 (ownerCode .host))
    else s
  else
    let s := s.count Reg.cmdBar0Refused 0 32 1
    if s.quietSecond s.ctl.lastRefused then
      ({ s with ctl := { s.ctl with lastRefused := some s.ticks } }).raise 9
        (toLe 4 offset ++ toLe 2 e.st.code ++ zeros 2 ++ toLe 4 (s.f Reg.cmdBar0Refused 0 32))
    else s

/-- A BAR0 write to the MSI-X table (R76), of 4 or 8 bytes: a vector's address, or its data and mask. A vector unmasked with
its pending bit set sends its message. The PBA is read-only. -/
def State.msixWrite (s : State) (offset bytes v : Nat) : State :=
  let k := bar0Mark offset
  let old := s.get k
  let n := if bytes = 8 then v else if offset % 8 = 4 then setBits old 32 32 v else setBits old 0 32 v
  if instOf k != 0x3FE || !((bytes == 8 && offset % 8 == 0) || (bytes == 4 && offset % 4 == 0)) then s
  else if k % 2 = 0 then s.set k (n / 4 * 4)
  else
    let s := s.set k (setBits (n % 2 ^ 32) 32 1 (n >>> 32))
    let vec := indexOf k / 2
    if !s.b k 32 && s.b (shelf 4 0x3FF 0) vec then (s.setf (shelf 4 0x3FF 0) vec 1 0).msix vec else s

/-- A BAR0 write: the host's activity; it acts only as a whole aligned word, and only if a PARAM_WRITE would (R25, R482). -/
def State.bar0Write (s : State) (offset bytes v : Nat) : State :=
  if !s.bar0Up || 2 ^ 28 ≤ offset then s
  else
    let s := s.active .host
    let k := bar0Mark offset
    if msixWord k then s.msixWrite offset bytes v
    else if bytes != 8 || offset % 8 != 0 || userPage k then s
    else match s.writeErr true .host k v with
      | none => s.writeWord k v
      | some e => (if e.st = .range && markOk true k then s.enableRefused k v else s).bar0Discard offset e

/-- One entry of a PARAM command of a master: it lands, or its command is refused. -/
def State.paramEntry (s : State) (m : Master) (k v : Nat) : State :=
  match s.writeErr false m k v with
  | none => s.writeWord k v
  | some e => if e.st = .range && markOk false k then s.enableRefused k v else s

/-- A write of v to word k by the path named. -/
def State.writeVia (s : State) (path : WritePath) (k v : Nat) : State :=
  match path with
  | .command m => s.paramEntry m k v
  | .bar0 bytes => s.bar0Write (bar0Offset k) bytes v

end Sys2Proof.Machine
end

