-- ==== Sys2Proof/Machine/WriteCmds.lean ====
section
/-! DEFINITION. PARAM_WRITE and PARAM_RMW (R72, R73), and the rows that are the write of one word. -/
namespace Sys2Proof.Machine

/-! ### Lists of writes -/

/-- One entry of a PARAM_WRITE or PARAM_RMW: where it stands in the payload, its word, the first of its reserved bytes
that is not zero (1 to 4, or 0 for none), and its mask, value and the value's place. -/
structure ParamEntry where
  off : Nat
  k : Nat
  rsv : Nat
  mask : Nat
  value : Nat
  valueOff : Nat
  deriving DecidableEq, Repr

/-- Which of four bytes at an offset is the first that is not zero: 1 to 4, or 0 for none. -/
def firstSet (p : List Byte) (off : Nat) : Nat := (([1, 2, 3, 4] : List Nat).find? (fun i => u8 p (off + i - 1) != 0)).getD 0
/-- The entries of a PARAM_WRITE payload. -/
def writeEntries (p : List Byte) : List ParamEntry :=
  (List.range (p.length / 16)).map (fun i => ⟨16 * i, u32 p (16 * i), firstSet p (16 * i + 4), 2 ^ 64 - 1, u64 p (16 * i + 8), 16 * i + 8⟩)
/-- The entries of a PARAM_RMW payload. -/
def rmwEntries (p : List Byte) : List ParamEntry :=
  (List.range (p.length / 24)).map (fun i =>
    ⟨24 * i, u32 p (24 * i), firstSet p (24 * i + 4), u64 p (24 * i + 8), u64 p (24 * i + 16), 24 * i + 16⟩)

/-- The value that an entry writes: under its mask over what the word reads. -/
def State.entryValue (s : State) (m : Master) (e : ParamEntry) : Nat := mix (s.shown (latchOf m) e.k) e.value e.mask

/-- Step 8 of a list (R72): every entry against the words as the entries before it would leave them. The second result is the
word and value of an entry refused by its value. -/
def State.entriesErr (s : State) (m : Master) (rmw : Bool) : List ParamEntry → Option (Err × Option (Nat × Nat))
  | [] => none
  | e :: es =>
    if !markOk false e.k || (rmw && !rmwAllowed e.k) then some (.at e.off, none)
    else if e.rsv != 0 then some (.at (e.off + 3 + e.rsv), none)
    else
      let v := s.entryValue m e
      if !s.valueOk e.k v then some (.at e.valueOff, some (e.k, v))
      else (s.set e.k (s.landing e.k v)).entriesErr m rmw es
/-- LOCKED for a list, in the same way, with the offset of the entry. -/
def State.entriesLocked (s : State) (m : Master) : List ParamEntry → Option Err
  | [] => none
  | e :: es =>
    let v := s.entryValue m e
    if s.lockedOut e.k v then some ⟨.locked, e.off, 0, 0⟩ else (s.set e.k (s.landing e.k v)).entriesLocked m es
/-- The entries written in order; the old values beside. -/
def State.writeEntriesIn (s : State) (m : Master) (es : List ParamEntry) : List Byte × State :=
  es.foldl (fun (a : List Byte × State) e =>
    (a.1 ++ toLe 8 (a.2.shown (latchOf m) e.k), a.2.writeWord e.k (a.2.entryValue m e))) ([], s)

/-- PARAM_WRITE. -/
def paramWriteCmd : Cmd := {
  opcode := 0x0101, cls := 1
  ready := fun c s => if c.p.length % 16 = 0 then s.wordsOff ((writeEntries c.p).map (fun e => (e.off, e.k))) else none
  check := fun c s => firstErr [errIf (c.p.length % 16 != 0 || c.p.isEmpty || decide (252 * 16 < c.p.length)) .range,
    (s.entriesErr c.master false (writeEntries c.p)).map (·.1)]
  leases := fun c _ => (writeEntries c.p).flatMap (fun e => leaseOf e.k)
  locked := fun c s => s.entriesLocked c.master (writeEntries c.p)
  refused := fun c s e => match s.entriesErr c.master false (writeEntries c.p) with
    | some (x, some (k, v)) => if x = e then s.enableRefused k v else s
    | _ => s
  run := fun c s => .ok [] (s.writeEntriesIn c.master (writeEntries c.p)).2 }

/-- What PARAM_RMW does at step 10 of R58. -/
def paramRmwRun (c : Ctx) (s : State) : Ran :=
  let r := s.writeEntriesIn c.master (rmwEntries c.p)
  .ok r.1 r.2

/-- PARAM_RMW. -/
def paramRmwCmd : Cmd := {
  opcode := 0x0102, cls := 1
  ready := fun c s => if c.p.length % 24 = 0 then s.wordsOff ((rmwEntries c.p).map (fun e => (e.off, e.k))) else none
  check := fun c s => firstErr [errIf (c.p.length % 24 != 0 || c.p.isEmpty || decide (168 * 24 < c.p.length)) .range,
    (s.entriesErr c.master true (rmwEntries c.p)).map (·.1)]
  size := fun c _ => 8 * (c.p.length / 24)
  leases := fun c _ => (rmwEntries c.p).flatMap (fun e => leaseOf e.k)
  locked := fun c s => s.entriesLocked c.master (rmwEntries c.p)
  refused := fun c s e => match s.entriesErr c.master true (rmwEntries c.p) with
    | some (x, some (k, v)) => if x = e then s.enableRefused k v else s
    | _ => s
  run := paramRmwRun }

/-- PARAM_WRITE. -/
def execParamWrite (q : Request) (s : State) : Host.Outcome State Fault Refusal := .next (runCmd paramWriteCmd q s)
/-- PARAM_RMW. -/
def execParamRmw (q : Request) (s : State) : Host.Outcome State Fault Refusal := .next (runCmd paramRmwCmd q s)

/-! ### Rows that write one word -/

/-- REGISTER_WRITE: any word, by shelfmark in a PARAM command or by BAR0 offset. -/
def execRegisterWrite (path : WritePath) (addr : Nat) (value : Word) (s : State) : Host.Outcome State Fault Refusal :=
  .next (match path with
    | .command m => s.fresh.paramEntry m addr value.toNat
    | .bar0 bytes => s.fresh.bar0Write addr bytes value.toNat)

/-- CMD_DB_CMD. -/
def execCmdDbCmd (path : WritePath) (value : Word) (s : State) : Host.Outcome State Fault Refusal :=
  .next (s.fresh.writeVia path Reg.cmdDbCmd value.toNat)
/-- CMD_DB_RPL. -/
def execCmdDbRpl (path : WritePath) (value : Word) (s : State) : Host.Outcome State Fault Refusal :=
  .next (s.fresh.writeVia path Reg.cmdDbRpl value.toNat)
/-- CMD_DB_EVT. -/
def execCmdDbEvt (path : WritePath) (value : Word) (s : State) : Host.Outcome State Fault Refusal :=
  .next (s.fresh.writeVia path Reg.cmdDbEvt value.toNat)

/-- Whether the part has a ring. -/
def ringExists : RingId → Bool
  | .p80 r => decide (r < 10) | .ledger r => decide (r < 4) | _ => true
/-- The CTRL word of a ring. -/
def ringCtrl : RingId → Nat
  | .command => Reg.cmdCmdrCtrl | .reply => Reg.cmdRplrCtrl | .event => Reg.cmdEvtrCtrl | .p80 r => Reg.p80RingCtrl r
  | .qmon => Reg.qmonRingCtrl | .ledger r => Reg.ledgerRingCtrl r
/-- RING_ENABLE: a write of a ring's CTRL word. -/
def execRingEnable (path : WritePath) (ring : RingId) (value : Word) (s : State) : Host.Outcome State Fault Refusal :=
  .next (if ringExists ring then s.fresh.writeVia path (ringCtrl ring) value.toNat else s.fresh)

/-- DEV_RESET, cold code. -/
def execDevResetCold (path : WritePath) (s : State) : Host.Outcome State Fault Refusal :=
  .next (s.fresh.writeVia path Reg.devReset 0xC0)
/-- DEV_RESET, warm code. -/
def execDevResetWarm (path : WritePath) (s : State) : Host.Outcome State Fault Refusal :=
  .next (s.fresh.writeVia path Reg.devReset 0xA0)

/-- SEC_KEY_WRITE: key word 0 to 15 (slot 0-3, word 0-3). -/
def execSecKeyWrite (path : WritePath) (word : Nat) (value : Word) (s : State) : Host.Outcome State Fault Refusal :=
  atUnit word 16 s.fresh (s.fresh.writeVia path (Reg.secKeyW word) value.toNat)
/-- SEC_LOCK: LOCK written as 1, SB_AUTH_REQ as it stands. -/
def execSecLock (path : WritePath) (s : State) : Host.Outcome State Fault Refusal :=
  .next (s.fresh.writeVia path Reg.secCtrl (setBits (s.get Reg.secCtrl) 0 1 1))

/-- HLANE_RESTART, TX. -/
def execHlaneRestartTx (path : WritePath) (lane : Lane) (s : State) : Host.Outcome State Fault Refusal :=
  .next (if laneExists lane then s.fresh.writeVia path (laneKey lane 6) 2 else s.fresh)
/-- HLANE_RESTART, RX. -/
def execHlaneRestartRx (path : WritePath) (lane : Lane) (s : State) : Host.Outcome State Fault Refusal :=
  .next (if laneExists lane then s.fresh.writeVia path (laneKey lane 6) 1 else s.fresh)
/-- MARGIN_START, with MARGIN_TARGET. -/
def execMarginStart (path : WritePath) (lane : Lane) (target : Nat) (s : State) : Host.Outcome State Fault Refusal :=
  .next (if laneExists lane then s.fresh.writeVia path (laneKey lane 0x12) (target % 16 + 16) else s.fresh)

/-- MAC_PORT_TYPE written. -/
def execMacPortTypeWrite (path : WritePath) (p : Nat) (value : Word) (s : State) : Host.Outcome State Fault Refusal :=
  atUnit p 83 s.fresh (s.fresh.writeVia path (Reg.macPortType p) value.toNat)
/-- FDB_FLUSH written. -/
def execFdbFlush (path : WritePath) (value : Word) (s : State) : Host.Outcome State Fault Refusal :=
  .next (s.fresh.writeVia path Reg.fdbFlush value.toNat)
/-- P80_RING_DB of ring r. -/
def execP80RingDb (path : WritePath) (r : Nat) (value : Word) (s : State) : Host.Outcome State Fault Refusal :=
  atUnit r 10 s.fresh (s.fresh.writeVia path (Reg.p80RingDb r) value.toNat)
/-- BUF_POOL_CFG written. -/
def execCarrelPoolWrite (path : WritePath) (value : Word) (s : State) : Host.Outcome State Fault Refusal :=
  .next (s.fresh.writeVia path Reg.bufPoolCfg value.toNat)
/-- STACK_RETIRED entry of channel c written. -/
def execStackRetiredWrite (path : WritePath) (c entry : Nat) (value : Word) (s : State) : Host.Outcome State Fault Refusal :=
  atUnit (if c < 2 then entry else 4096) 4096 s.fresh (s.fresh.writeVia path (retiredKey c entry) value.toNat)
/-- STACK_CFG written. -/
def execStackChEnClear (path : WritePath) (value : Word) (s : State) : Host.Outcome State Fault Refusal :=
  .next (s.fresh.writeVia path Reg.stackCfg value.toNat)
/-- QMON_DB. -/
def execQmonDb (path : WritePath) (value : Word) (s : State) : Host.Outcome State Fault Refusal :=
  .next (s.fresh.writeVia path Reg.qmonDb value.toNat)
/-- LEDGER_RING_DB of ring r. -/
def execLedgerRingDb (path : WritePath) (r : Nat) (value : Word) (s : State) : Host.Outcome State Fault Refusal :=
  atUnit r 4 s.fresh (s.fresh.writeVia path (Reg.ledgerRingDb r) value.toNat)
/-- PCS_LINK_CTRL, REMEASURE: the bits of value, with bit 1 set. -/
def execPcsLinkRemeasure (path : WritePath) (p : Nat) (value : Word) (s : State) : Host.Outcome State Fault Refusal :=
  atUnit p 80 s.fresh (s.fresh.writeVia path (Reg.pcsLinkCtrl p) (setBits value.toNat 1 1 1))
/-- PCS_LINK_CTRL, ACCEPT: the bits of value, with bit 0 set. -/
def execPcsLinkAccept (path : WritePath) (p : Nat) (value : Word) (s : State) : Host.Outcome State Fault Refusal :=
  atUnit p 80 s.fresh (s.fresh.writeVia path (Reg.pcsLinkCtrl p) (setBits value.toNat 0 1 1))
/-- DPLL_CTRL, CLEAR_OFFSET, of domain d: the bits of value, with bit 0 set. -/
def execClearOffset (path : WritePath) (d : Nat) (value : Word) (s : State) : Host.Outcome State Fault Refusal :=
  atUnit d 8 s.fresh (s.fresh.writeVia path (Reg.dpllCtrl d) (setBits value.toNat 0 1 1))
/-- REFSEL_PORT_CFG of port p written. -/
def execTxPlaneWrite (path : WritePath) (p : Nat) (value : Word) (s : State) : Host.Outcome State Fault Refusal :=
  atUnit p 80 s.fresh (s.fresh.writeVia path (Reg.refselPortCfg (0x200 + p)) value.toNat)
/-- PAIR_CFG written. -/
def execPairModeSet (path : WritePath) (value : Word) (s : State) : Host.Outcome State Fault Refusal :=
  .next (s.fresh.writeVia path Reg.pairCfg value.toNat)
/-- PERF_STATUS of counter n written. -/
def execPerfOvfClear (path : WritePath) (n : Nat) (value : Word) (s : State) : Host.Outcome State Fault Refusal :=
  atUnit n 64 s.fresh (s.fresh.writeVia path (Reg.perfStatus n) value.toNat)
/-- I2C_XFER of controller k written, GO set. -/
def execI2cGo (path : WritePath) (k : Nat) (value : Word) (s : State) : Host.Outcome State Fault Refusal :=
  atUnit k 4 s.fresh (s.fresh.writeVia path (Reg.i2cXfer (0x100 + k)) (setBits value.toNat 63 1 1))

end Sys2Proof.Machine
end

