-- ==== Sys2Proof/Machine/Transport.lean ====
section
/-! DEFINITION. The transports (R78-R86): requests as packets, the command ring, in-band control frames, the side-band SPI and
its queues, chain and lockout timers, silence, and the mailbox's reply deadline. -/
namespace Sys2Proof.Machine

/-! ### Opcodes (R68) -/

/-- The command of an opcode; of an opcode with several operations, the one its payload names. -/
def cmdOf (op : Nat) (p : List Byte) : Option Cmd :=
  match op with
  | 0x0000 => some nopCmd
  | 0x0001 => some sessionOpenCmd
  | 0x0002 => some sessionCloseCmd
  | 0x0003 => some identityGetCmd
  | 0x0100 => some paramReadCmd
  | 0x0101 => some paramWriteCmd
  | 0x0102 => some paramRmwCmd
  | 0x0103 => some paramReadBlockCmd
  | 0x0200 => some (tableStageCmd (if u8 p 2 = 1 then 1 else if u8 p 2 = 2 then 2 else 0))
  | 0x0201 => some tableCommitCmd
  | 0x0202 => some epochStatusCmd
  | 0x0300 => some timeGetCmd
  | 0x0301 => some timeStepCmd
  | 0x0302 => some timeAdjFreqCmd
  | 0x0303 => some (if u8 p 0 = 1 then timeScheduleCancelCmd else timeScheduleListCmd)
  | 0x0400 => some refForceCmd
  | 0x0401 => some refReleaseCmd
  | 0x0402 => some refClearWtrCmd
  | 0x0500 => some outRealignCmd
  | 0x0501 => some outOwnCmd
  | 0x0502 => some (if u8 p 8 = 1 then outForceReleaseCmd else outForceCmd)
  | 0x0600 => some (gateLoadCmd ((u8 p 1).testBit 1))
  | 0x0601 => some gateSwitchCmd
  | 0x0700 => some pairTakeCmd
  | 0x0701 => some pairYieldCmd
  | 0x0702 => some pairStatusCmd
  | 0x0800 => some pwrSetCmd
  | 0x0801 => some pwrPlanCmd
  | 0x0900 => some calRunCmd
  | 0x0901 => some calStatusCmd
  | 0x0A00 => some (if u8 p 0 = 3 then tdcAbortCmd else tdcArmCmd)
  | 0x0A01 => some tdcResultCmd
  | 0x0B00 => some statSnapshotCmd
  | 0x0C00 => some fwStageCmd
  | 0x0C01 => some (if u8 p 3 = 2 then fwConfirmCmd else fwActivateCmd)
  | 0x0D00 => some (watchSetCmd (if u8 p 0 = 1 then 1 else if u8 p 0 = 2 then 2 else 0))
  | 0x0D01 => some (if u8 p 0 = 1 then proofAbortCmd else proofStartCmd)
  | 0x0E00 => some perfSelectCmd
  | 0x0E01 => some perfReadCmd
  | 0x0F00 => some leaseTakeCmd
  | 0x0F01 => some leaseSeizeCmd
  | 0x0F02 => some leaseDropCmd
  | _ => none

/-! ### Packets (R16, R54, R58) -/

/-- Whether bytes begin with the marker. -/
def hasMarker (b : List Byte) : Bool := u16 b 0 == 0xA57C && decide (2 ≤ b.length)
/-- The request that a packet spells, with where its reply goes: its opcode beside. -/
def requestOf (q : Request) (b : List Byte) : Request :=
  { q with version := u8 b 2, flags := u8 b 3, tag := u16 b 6, status := u16 b 10, seq := u32 b 12, payload := slice b 16 (u16 b 8) }
/-- A request of a transport before its packet is read. -/
def blankRequest (v : Via) : Request := ⟨v, 0, 0, 0, 0, 0, [], 0, 0, 0, 0, none⟩

/-- A wrong marker (R58): counted, and on the PCIe rings answered by a ring entry alone. -/
def State.markerWrong (s : State) (q : Request) (b : List Byte) : State :=
  match q.via with
  | .sideband =>
    let s := s.count Reg.cmdSbFramingErr 0 32 1
    { s with ctl := { s.ctl with sbFraming := true } }
  | .inband => s.count Reg.cmdInbandDrop 0 32 1
  | .pcie => (s.count Reg.cmdPcieMarkerErr 0 32 1).replyPcie (replyToOf (requestOf q b) (u16 b 4) none) Status.crc.code []

/-- Steps 1 to 5 of R58 for the bytes of a packet. The lengths of R16: LENGTH, then TRUNCATED, then CRC. -/
def State.receivePacket (s : State) (q : Request) (b : List Byte) : State × Option (ReplyTo × List Byte) :=
  let r := requestOf q b
  let op := u16 b 4
  let t := replyToOf r op none
  if !hasMarker b then (s.markerWrong q b, none)
  else if s.e0Down q.via then s.accept op r
  else if decide (4076 < u16 b 8) then (s.fail t false (.plain .length), none)
  else if b.length < 20 + u16 b 8 then (s.fail t false (.plain .truncated), none)
  else if toLe 4 (crc32c (b.take (16 + u16 b 8))) != slice b (16 + u16 b 8) 4 then (s.fail t false (.plain .crc), none)
  else s.accept op r

/-- Steps 6 to 10 of an accepted request. -/
def State.runAccepted (s : State) (x : ReplyTo × List Byte) : State := afterAccept (cmdOf x.1.opcode) .replies x.1 x.2 s

/-- Whether an accepted request is of class 0, and so overtakes others (R9). -/
def isUrgent (x : ReplyTo × List Byte) : Bool := urgentIn (cmdOf x.1.opcode x.2) x.1

/-! ### The command ring (R77-R79) -/

/-- The reply ring entries free. -/
def State.replyFree (s : State) : Nat :=
  if s.bar0Up && s.b Reg.cmdRplrCtrl 31 then
    s.ringSize Reg.cmdRplrCtrl 4 - (s.f Reg.cmdRplrProd 0 16 + 65536 - s.ctl.rplCons) % 65536
  else 0
/-- The fetched entries checked in ring order: those answered at once, and the rest. -/
def State.acceptEntries (s : State) (size : Nat) : List RingEntry → State × List (ReplyTo × List Byte)
  | [] => (s, [])
  | e :: es =>
    let cons := s.f Reg.cmdCmdrCons 0 16
    let s := s.setf Reg.cmdCmdrCons 0 16 (cons + 1)
    let a := s.receivePacket { blankRequest .pcie with buf := e.buf, slot := cons % size } (e.packet.take e.len)
    let r := a.1.acceptEntries size es
    (r.1, a.2.toList ++ r.2)

/-- COMMAND_FETCH: the entries are what DMA reads from the consumer count on. Class 0 runs first, the others in ring order. -/
def execCommandFetch (entries : List RingEntry) (s : State) : Host.Outcome State Fault Refusal :=
  let s := s.fresh
  let waiting := (s.ctl.cmdProd + 65536 - s.f Reg.cmdCmdrCons 0 16) % 65536
  let room := s.replyFree - s.ctl.outstanding - bit s.ctl.pcie.session.chain.isSome
  if s.bar0Up && s.b Reg.cmdCmdrCtrl 31 then
    let a := s.acceptEntries (s.ringSize Reg.cmdCmdrCtrl 4) (entries.take (min waiting room))
    .next (((a.2.filter isUrgent) ++ (a.2.filter (fun x => !isUrgent x))).foldl State.runAccepted a.1)
  else .next s

/-! ### In-band control (R83, R84) -/

/-- A control request: E1 serves it, and no more than 16 may be outstanding. -/
def State.inband (s : State) (p : Nat) (d : List Byte) : State :=
  let tagged := be16 d 12 != 0x88B5
  let b := d.drop (if tagged then 18 else 14)
  let q := { blankRequest .inband with port := p, src := be48 d 6, vlan := if tagged then some (be32 d 12) else none }
  if !s.inbandPort p || !s.serves 1 then s.count Reg.cmdInbandDrop 0 32 1
  else if hasMarker b && decide (16 ≤ s.ctl.inbandOut) then
    let t := replyToOf (requestOf q b) (u16 b 4) none
    s.fail { t with flags := t.flags % 4 } false (.busy 1000)
  else
    let a := s.receivePacket q b
    match a.2 with | none => a.1 | some x => a.1.runAccepted x

/-- INBAND_CONTROL_FRAME. -/
def execInbandControlFrame (port : Nat) (frame : List Byte) (s : State) : Host.Outcome State Fault Refusal :=
  let s := s.fresh
  atUnit port 80 s (s.arrive port frame (fun d s => s.isInband d) (fun d s => s.inband port d))

/-! ### The side-band SPI (R85, R86) -/

/-- A transaction of n bytes on SB_SCK: eight rising edges a byte; those older than 1 ms are forgotten (R50). -/
def State.spiBytes (s : State) (n : Nat) : State :=
  { s with ctl := { s.ctl with
    spiEdges := s.ctl.spiEdges.filter (fun (x : Nat × Nat) => decide (s.ticks < x.1 + 1250000)) ++ [(s.ticks, 8 * n)] } }
/-- The request slots in use. -/
def State.sbSlots (s : State) : Nat := s.ctl.sbReq.length + s.ctl.sbAccepted.length
/-- Requests that wait unchecked go through steps 1 to 5, in order, while a reply slot is free for an answer. -/
def State.sbCheck : Nat → State → State
  | 0, s => s
  | n + 1, s =>
    match s.ctl.sbReq with
    | [] => s
    | b :: rest =>
      if s.sbRoom then
        let a := ({ s with ctl := { s.ctl with sbReq := rest } }).receivePacket (blankRequest .sideband) b
        State.sbCheck n { a.1 with ctl := { a.1.ctl with sbAccepted := a.1.ctl.sbAccepted ++ a.2.toList } }
      else s

/-- REQ_WRITE: a request queued in a free slot, or answered BUSY once a reply slot is free (R86). -/
def execReqWrite (packet : List Byte) (s : State) : Host.Outcome State Fault Refusal :=
  let s := s.fresh.spiBytes (1 + packet.length)
  let q := blankRequest .sideband
  .next (
    if !hasMarker packet then s.markerWrong q packet
    else if 8 ≤ s.sbSlots then
      let t := replyToOf (requestOf q packet) (u16 packet 4) none
      s.fail { t with flags := t.flags % 4 } false (.plain .busy)
    else ({ s with ctl := { s.ctl with sbReq := s.ctl.sbReq ++ [packet] } }).sbCheck 8)

/-- SIDEBAND_COMMAND_START: the first class 0 request accepted, otherwise the first, starts if its reply has a slot. -/
def execSidebandCommandStart (s : State) : Host.Outcome State Fault Refusal :=
  let s := s.fresh.sbCheck 8
  match (s.ctl.sbAccepted.find? isUrgent).orElse (fun _ => s.ctl.sbAccepted.head?) with
  | none => .next s
  | some x =>
    if s.slotFree (cmdOf x.1.opcode (s.joined x.1 x.2)) x.1 then
      .next (({ s with ctl := { s.ctl with sbAccepted := s.ctl.sbAccepted.erase x } }).runAccepted x)
    else .next s

/-- The 8 bytes of STATUS_READ. -/
def State.sbStatus (s : State) : List Byte :=
  let r := s.ctl.sbReplies
  let e := s.ctl.sbEvents
  toLe 1 (bit (!r.isEmpty) + 2 * bit (!e.isEmpty) + 4 * bit (decide (8 ≤ s.sbSlots)) + 8 * bit s.ctl.sbFraming) ++
    toLe 1 (8 - s.sbSlots) ++ toLe 2 (r.headD []).length ++ toLe 2 (e.headD []).length ++ zeros 2
/-- STATUS_READ. -/
def execStatusRead (s : State) : Host.Outcome State Fault Refusal :=
  let s := s.fresh.spiBytes 10
  let t := s.emit (.spi s.sbStatus)
  .next { t with ctl := { t.ctl with sbFraming := false } }

/-- ATTN_N after something held has been read (R86). -/
def State.attnAfter (s : State) : State := if s.attnLow then s else s.emit (.attn false)
/-- REPLY_READ with so many bytes clocked after the dummy byte: the oldest reply, gone once all of it has been clocked. -/
def execReplyRead (clocked : Nat) (s : State) : Host.Outcome State Fault Refusal :=
  let s := s.fresh.spiBytes (2 + clocked)
  match s.ctl.sbReplies with
  | [] => .next (s.emit (.spi (zeros clocked)))
  | b :: rest =>
    let s := s.emit (.spi ((b ++ zeros clocked).take clocked))
    .next (if b.length ≤ clocked then (({ s with ctl := { s.ctl with sbReplies := rest } }).attnAfter).sbPromote 8 else s)
/-- EVENT_READ, in the same way; EVENTS_LOST follows as soon as there is room (R86). -/
def execEventRead (clocked : Nat) (s : State) : Host.Outcome State Fault Refusal :=
  let s := s.fresh.spiBytes (2 + clocked)
  match s.ctl.sbEvents with
  | [] => .next (s.emit (.spi (zeros clocked)))
  | b :: rest =>
    let s := s.emit (.spi ((b ++ zeros clocked).take clocked))
    .next (if b.length ≤ clocked then ({ s with ctl := { s.ctl with sbEvents := rest } }).flushSbLost.attnAfter else s)
/-- SPI_INVALID_COMMAND: any command byte but those of R85. -/
def execSpiInvalidCommand (b : Nat) (s : State) : Host.Outcome State Fault Refusal :=
  let s := s.fresh.spiBytes 1
  let t := s.count Reg.cmdSbFramingErr 0 32 1
  .next (if 1 ≤ b && b ≤ 4 then s else { t with ctl := { t.ctl with sbFraming := true } })

/-! ### Timers (R44, R65, R67, R89) -/

/-- CHAIN_TIMEOUT: more than 100 ms (125,000,000 ticks) since a chain's last packet. -/
def execChainTimeout (via : Via) (s : State) : Host.Outcome State Fault Refusal :=
  let s := s.fresh
  .next (match (s.transport via).session.chain with
    | none => s
    | some ch =>
      if ch.last + 125000000 < s.ticks && (via != .sideband || s.sbRoom) then s.endChain via (.plain .truncated) else s)

/-- AUTH_LOCKOUT_END: 1 s after a lockout began, the count starts again from zero. -/
def execAuthLockoutEnd (via : Via) (s : State) : Host.Outcome State Fault Refusal :=
  let s := s.fresh
  .next (match (s.transport via).lockout with
    | none => s
    | some t => if t + 1250000000 ≤ s.ticks then s.setTransport via (fun x => { x with lockout := none, authRun := 0 }) else s)

/-- HOST_SILENT: once for each period of silence. -/
def execHostSilent (s : State) : Host.Outcome State Fault Refusal :=
  let s := s.fresh
  .next (if s.f Reg.cmdHostSilenceMs 0 16 < s.idleMs .host && !s.ctl.hostSilentSent then
      ({ s with ctl := { s.ctl with hostSilentSent := true } }).raiseSb 7 0 0 (toLe 4 (s.idleMs .host))
    else s)
/-- SB_SILENT. -/
def execSbSilent (s : State) : Host.Outcome State Fault Refusal :=
  let s := s.fresh
  .next (if s.f Reg.cmdSbSilenceMs 0 16 < s.idleMs .sideband && !s.ctl.sbSilentSent then
      ({ s with ctl := { s.ctl with sbSilentSent := true } }).raiseHost 8 0 0 (toLe 4 (s.idleMs .sideband))
    else s)

/-- MAILBOX_REPLY_DEADLINE: a request whose engine has not replied at 80 % of its bound: INTERNAL, and the engine stalls. -/
def execMailboxReplyDeadline (q : Request) (opcode : Nat) (completed : Bool) (s : State) : Host.Outcome State Fault Refusal :=
  let s := s.fresh
  let t := replyToOf q opcode none
  let body := if q.flags.testBit 6 then q.payload.drop 32 else q.payload
  .next (if s.slotFree (cmdOf opcode (s.joined t body)) t then serve (cmdOf opcode) (.silent completed) opcode q s else s)

end Sys2Proof.Machine
end

