-- ==== Sys2Proof/Machine/Dispatch.lean ====
section
/-! DEFINITION. One arm per constructor of Instr: each calls the meaning its rule of the spec gives it. -/
namespace Sys2Proof.Machine

/-- The effect of a command or event on everything but the queue. -/
def exec (i : Instr) (s : State) : Host.Outcome State Fault Refusal :=
  match i with
  | .nop q => Sys2Proof.Machine.execNop q s
  | .sessionOpen q => Sys2Proof.Machine.execSessionOpen q s
  | .sessionClose q => Sys2Proof.Machine.execSessionClose q s
  | .identityGet q => Sys2Proof.Machine.execIdentityGet q s
  | .paramRead q => Sys2Proof.Machine.execParamRead q s
  | .paramWrite q => Sys2Proof.Machine.execParamWrite q s
  | .paramRmw q => Sys2Proof.Machine.execParamRmw q s
  | .paramReadBlock q => Sys2Proof.Machine.execParamReadBlock q s
  | .tableStageWrite q => Sys2Proof.Machine.execTableStageWrite q s
  | .tableStageClear q => Sys2Proof.Machine.execTableStageClear q s
  | .tableStageDiscard q => Sys2Proof.Machine.execTableStageDiscard q s
  | .tableCommit q => Sys2Proof.Machine.execTableCommit q s
  | .epochStatus q => Sys2Proof.Machine.execEpochStatus q s
  | .timeGet q => Sys2Proof.Machine.execTimeGet q s
  | .timeStep q => Sys2Proof.Machine.execTimeStep q s
  | .timeAdjFreq q => Sys2Proof.Machine.execTimeAdjFreq q s
  | .timeScheduleList q => Sys2Proof.Machine.execTimeScheduleList q s
  | .timeScheduleCancel q => Sys2Proof.Machine.execTimeScheduleCancel q s
  | .refForce q => Sys2Proof.Machine.execRefForce q s
  | .refRelease q => Sys2Proof.Machine.execRefRelease q s
  | .refClearWtr q => Sys2Proof.Machine.execRefClearWtr q s
  | .outRealign q => Sys2Proof.Machine.execOutRealign q s
  | .outOwn q => Sys2Proof.Machine.execOutOwn q s
  | .outForce q => Sys2Proof.Machine.execOutForce q s
  | .outForceRelease q => Sys2Proof.Machine.execOutForceRelease q s
  | .gateLoad q => Sys2Proof.Machine.execGateLoad q s
  | .gateLoadCheckOnly q => Sys2Proof.Machine.execGateLoadCheckOnly q s
  | .gateSwitch q => Sys2Proof.Machine.execGateSwitch q s
  | .pairTake q => Sys2Proof.Machine.execPairTake q s
  | .pairYield q => Sys2Proof.Machine.execPairYield q s
  | .pairStatus q => Sys2Proof.Machine.execPairStatus q s
  | .pwrSet q => Sys2Proof.Machine.execPwrSet q s
  | .pwrPlan q => Sys2Proof.Machine.execPwrPlan q s
  | .calRun q => Sys2Proof.Machine.execCalRun q s
  | .calStatus q => Sys2Proof.Machine.execCalStatus q s
  | .tdcArm q => Sys2Proof.Machine.execTdcArm q s
  | .tdcAbort q => Sys2Proof.Machine.execTdcAbort q s
  | .tdcResult q => Sys2Proof.Machine.execTdcResult q s
  | .statSnapshot q => Sys2Proof.Machine.execStatSnapshot q s
  | .fwStage q => Sys2Proof.Machine.execFwStage q s
  | .fwActivate q => Sys2Proof.Machine.execFwActivate q s
  | .fwActivateConfirm q => Sys2Proof.Machine.execFwActivateConfirm q s
  | .watchSetWrite q => Sys2Proof.Machine.execWatchSetWrite q s
  | .watchSetClear q => Sys2Proof.Machine.execWatchSetClear q s
  | .watchSetRelease q => Sys2Proof.Machine.execWatchSetRelease q s
  | .proofRunStart q => Sys2Proof.Machine.execProofRunStart q s
  | .proofRunAbort q => Sys2Proof.Machine.execProofRunAbort q s
  | .perfSelect q => Sys2Proof.Machine.execPerfSelect q s
  | .perfRead q => Sys2Proof.Machine.execPerfRead q s
  | .leaseTake q => Sys2Proof.Machine.execLeaseTake q s
  | .leaseSeize q => Sys2Proof.Machine.execLeaseSeize q s
  | .leaseDrop q => Sys2Proof.Machine.execLeaseDrop q s
  | .registerWrite path addr value => Sys2Proof.Machine.execRegisterWrite path addr value s
  | .cmdDbCmd path value => Sys2Proof.Machine.execCmdDbCmd path value s
  | .commandFetch entries => Sys2Proof.Machine.execCommandFetch entries s
  | .cmdDbRpl path value => Sys2Proof.Machine.execCmdDbRpl path value s
  | .cmdDbEvt path value => Sys2Proof.Machine.execCmdDbEvt path value s
  | .ringEnable path ring value => Sys2Proof.Machine.execRingEnable path ring value s
  | .inbandControlFrame port frame => Sys2Proof.Machine.execInbandControlFrame port frame s
  | .reqWrite packet => Sys2Proof.Machine.execReqWrite packet s
  | .statusRead => Sys2Proof.Machine.execStatusRead s
  | .replyRead clocked => Sys2Proof.Machine.execReplyRead clocked s
  | .eventRead clocked => Sys2Proof.Machine.execEventRead clocked s
  | .spiInvalidCommand b => Sys2Proof.Machine.execSpiInvalidCommand b s
  | .sidebandCommandStart => Sys2Proof.Machine.execSidebandCommandStart s
  | .chainTimeout via => Sys2Proof.Machine.execChainTimeout via s
  | .authLockoutEnd via => Sys2Proof.Machine.execAuthLockoutEnd via s
  | .hostSilent => Sys2Proof.Machine.execHostSilent s
  | .sbSilent => Sys2Proof.Machine.execSbSilent s
  | .engineWatchdogExpiry e => Sys2Proof.Machine.execEngineWatchdogExpiry e s
  | .mailboxReplyDeadline q opcode completed => Sys2Proof.Machine.execMailboxReplyDeadline q opcode completed s
  | .engineRestart e => Sys2Proof.Machine.execEngineRestart e s
  | .coldReset straps => Sys2Proof.Machine.execColdReset straps s
  | .warmReset pin => Sys2Proof.Machine.execWarmReset pin s
  | .devResetCold path => Sys2Proof.Machine.execDevResetCold path s
  | .devResetWarm path => Sys2Proof.Machine.execDevResetWarm path s
  | .perstAssert => Sys2Proof.Machine.execPerstAssert s
  | .perstDeassert => Sys2Proof.Machine.execPerstDeassert s
  | .pcieLinkUp => Sys2Proof.Machine.execPcieLinkUp s
  | .coldBootCount readable programs => Sys2Proof.Machine.execColdBootCount readable programs s
  | .bootHeaderRead => Sys2Proof.Machine.execBootHeaderRead s
  | .imageSelection cfg => Sys2Proof.Machine.execImageSelection cfg s
  | .imageLoadDone kind => Sys2Proof.Machine.execImageLoadDone kind s
  | .hardwareTablesLoaded entries calendars => Sys2Proof.Machine.execHardwareTablesLoaded entries calendars s
  | .tableRefillDone => Sys2Proof.Machine.execTableRefillDone s
  | .powerUpComplete pd => Sys2Proof.Machine.execPowerUpComplete pd s
  | .powerDownComplete pd frames => Sys2Proof.Machine.execPowerDownComplete pd frames s
  | .flashOperationDone ok => Sys2Proof.Machine.execFlashOperationDone ok s
  | .imageActivationDone => Sys2Proof.Machine.execImageActivationDone s
  | .trialReverted kind => Sys2Proof.Machine.execTrialReverted kind s
  | .secKeyWrite path word value => Sys2Proof.Machine.execSecKeyWrite path word value s
  | .secLock path => Sys2Proof.Machine.execSecLock path s
  | .islandLockLoss n => Sys2Proof.Machine.execIslandLockLoss n s
  | .islandRestart n => Sys2Proof.Machine.execIslandRestart n s
  | .crossingFifoError n => Sys2Proof.Machine.execCrossingFifoError n s
  | .bufMemFault mem corrected frame cells => Sys2Proof.Machine.execBufMemFault mem corrected frame cells s
  | .replicaRealign => Sys2Proof.Machine.execReplicaRealign s
  | .laneSignalDetect lane => Sys2Proof.Machine.execLaneSignalDetect lane s
  | .laneClockStable lane found => Sys2Proof.Machine.execLaneClockStable lane found s
  | .laneLock p reports => Sys2Proof.Machine.execLaneLock p reports s
  | .laneLockLost lane cause => Sys2Proof.Machine.execLaneLockLost lane cause s
  | .deskewRetry p => Sys2Proof.Machine.execDeskewRetry p s
  | .laneReceiveSleep p => Sys2Proof.Machine.execLaneReceiveSleep p s
  | .laneWake p => Sys2Proof.Machine.execLaneWake p s
  | .ctleAdaptStep lane up => Sys2Proof.Machine.execCtleAdaptStep lane up s
  | .eyeRefresh lane heights widths snr => Sys2Proof.Machine.execEyeRefresh lane heights widths snr s
  | .hlaneRestartTx path lane => Sys2Proof.Machine.execHlaneRestartTx path lane s
  | .hlaneRestartRx path lane => Sys2Proof.Machine.execHlaneRestartRx path lane s
  | .marginStart path lane target => Sys2Proof.Machine.execMarginStart path lane target s
  | .marginDone lane margins => Sys2Proof.Machine.execMarginDone lane margins s
  | .timingMarkEvaluation p => Sys2Proof.Machine.execTimingMarkEvaluation p s
  | .macPortTypeWrite path p value => Sys2Proof.Machine.execMacPortTypeWrite path p value s
  | .portLinkUp p cause => Sys2Proof.Machine.execPortLinkUp p cause s
  | .portLinkDown p cause => Sys2Proof.Machine.execPortLinkDown p cause s
  | .frameReceive p frame pcs under => Sys2Proof.Machine.execFrameReceive p frame pcs under s
  | .fdbLearn => Sys2Proof.Machine.execFdbLearn s
  | .fdbAgeOut => Sys2Proof.Machine.execFdbAgeOut s
  | .fdbFlush path value => Sys2Proof.Machine.execFdbFlush path value s
  | .hostFrameSubmit entry frame => Sys2Proof.Machine.execHostFrameSubmit entry frame s
  | .p80RingDb path r value => Sys2Proof.Machine.execP80RingDb path r value s
  | .egressFrameStart p buf => Sys2Proof.Machine.execEgressFrameStart p buf s
  | .copyDeparture p => Sys2Proof.Machine.execCopyDeparture p s
  | .pfcXoffRefresh p pri => Sys2Proof.Machine.execPfcXoffRefresh p pri s
  | .pauseFrameReceive p quanta => Sys2Proof.Machine.execPauseFrameReceive p quanta s
  | .pfcFrameReceive p enable quanta => Sys2Proof.Machine.execPfcFrameReceive p enable quanta s
  | .pauseQuantaExpiry p queues => Sys2Proof.Machine.execPauseQuantaExpiry p queues s
  | .pauseWatchdogTrip p queues => Sys2Proof.Machine.execPauseWatchdogTrip p queues s
  | .pauseIgnoreEnd p queues => Sys2Proof.Machine.execPauseIgnoreEnd p queues s
  | .lpiEntry p advertised => Sys2Proof.Machine.execLpiEntry p advertised s
  | .mergeVerifyTimer p answered => Sys2Proof.Machine.execMergeVerifyTimer p answered s
  | .speedStepEvaluate p rxDown txDown rxUp txUp => Sys2Proof.Machine.execSpeedStepEvaluate p rxDown txDown rxUp txUp s
  | .stepTlvReceive p code number loadOk => Sys2Proof.Machine.execStepTlvReceive p code number loadOk s
  | .stepRetune p => Sys2Proof.Machine.execStepRetune p s
  | .stepProposalTimeout p => Sys2Proof.Machine.execStepProposalTimeout p s
  | .scheduledSnapshot h => Sys2Proof.Machine.execScheduledSnapshot h s
  | .statSnapshotDone => Sys2Proof.Machine.execStatSnapshotDone s
  | .epochCommitted => Sys2Proof.Machine.execEpochCommitted s
  | .epochRetired => Sys2Proof.Machine.execEpochRetired s
  | .epochDrainSlow => Sys2Proof.Machine.execEpochDrainSlow s
  | .mirrorResume m => Sys2Proof.Machine.execMirrorResume m s
  | .carrelPoolWrite path value => Sys2Proof.Machine.execCarrelPoolWrite path value s
  | .pagePackTimer p q => Sys2Proof.Machine.execPagePackTimer p q s
  | .pageWriteDone p q page failed => Sys2Proof.Machine.execPageWriteDone p q page failed s
  | .pageReadDone p q corrected bad => Sys2Proof.Machine.execPageReadDone p q corrected bad s
  | .stackChainAbandoned => Sys2Proof.Machine.execStackChainAbandoned s
  | .ddrTrainingDone c step readEye writeEye vref => Sys2Proof.Machine.execDdrTrainingDone c step readEye writeEye vref s
  | .dqsDriftTrack c => Sys2Proof.Machine.execDqsDriftTrack c s
  | .stackRetiredWrite path c entry value => Sys2Proof.Machine.execStackRetiredWrite path c entry value s
  | .stackChEnClear path value => Sys2Proof.Machine.execStackChEnClear path value s
  | .auditPass crosslinks strayed => Sys2Proof.Machine.execAuditPass crosslinks strayed s
  | .qmonSample => Sys2Proof.Machine.execQmonSample s
  | .qmonDb path value => Sys2Proof.Machine.execQmonDb path value s
  | .gateActive p => Sys2Proof.Machine.execGateActive p s
  | .gateRestart p => Sys2Proof.Machine.execGateRestart p s
  | .scheduledGateSwitch h => Sys2Proof.Machine.execScheduledGateSwitch h s
  | .frerResetTimer r => Sys2Proof.Machine.execFrerResetTimer r s
  | .latentTest r => Sys2Proof.Machine.execLatentTest r s
  | .latentBaseReset r => Sys2Proof.Machine.execLatentBaseReset r s
  | .watchEvaluate => Sys2Proof.Machine.execWatchEvaluate s
  | .scheduledProofStart h => Sys2Proof.Machine.execScheduledProofStart h s
  | .probeSend => Sys2Proof.Machine.execProbeSend s
  | .probeReflect p frame => Sys2Proof.Machine.execProbeReflect p frame s
  | .echoReceive p frame => Sys2Proof.Machine.execEchoReceive p frame s
  | .slotEnd => Sys2Proof.Machine.execSlotEnd s
  | .scheduledStep h => Sys2Proof.Machine.execScheduledStep h s
  | .scheduledFreqChange h => Sys2Proof.Machine.execScheduledFreqChange h s
  | .scheduledRealign h => Sys2Proof.Machine.execScheduledRealign h s
  | .scheduledTdcStart h => Sys2Proof.Machine.execScheduledTdcStart h s
  | .ledgerAnchor r => Sys2Proof.Machine.execLedgerAnchor r s
  | .ledgerRingDb path r value => Sys2Proof.Machine.execLedgerRingDb path r value s
  | .ringGap r => Sys2Proof.Machine.execRingGap r s
  | .fifoGap p => Sys2Proof.Machine.execFifoGap p s
  | .evinEdge n => Sys2Proof.Machine.execEvinEdge n s
  | .tdcEdge input fine => Sys2Proof.Machine.execTdcEdge input fine s
  | .tdcIntervalSample => Sys2Proof.Machine.execTdcIntervalSample s
  | .tdcTimeout => Sys2Proof.Machine.execTdcTimeout s
  | .ptpMessageReceive p frame f => Sys2Proof.Machine.execPtpMessageReceive p frame f s
  | .ptpMessageSend d p dst body f => Sys2Proof.Machine.execPtpMessageSend d p dst body f s
  | .syncReceiptTimeout d => Sys2Proof.Machine.execSyncReceiptTimeout d s
  | .announceReceiptTimeout d p f => Sys2Proof.Machine.execAnnounceReceiptTimeout d p f s
  | .ddmtdReading d phase rate departure => Sys2Proof.Machine.execDdmtdReading d phase rate departure s
  | .linkMeasurementComplete p => Sys2Proof.Machine.execLinkMeasurementComplete p s
  | .pcsLinkRemeasure path p value => Sys2Proof.Machine.execPcsLinkRemeasure path p value s
  | .pcsLinkAccept path p value => Sys2Proof.Machine.execPcsLinkAccept path p value s
  | .refEvaluate edges freqs loops => Sys2Proof.Machine.execRefEvaluate edges freqs loops s
  | .refFailure r lost => Sys2Proof.Machine.execRefFailure r lost s
  | .refMonitorPass r => Sys2Proof.Machine.execRefMonitorPass r s
  | .wtrExpiry r => Sys2Proof.Machine.execWtrExpiry r s
  | .disagreeClear sel r => Sys2Proof.Machine.execDisagreeClear sel r s
  | .switchMeasurementEnd sel phi => Sys2Proof.Machine.execSwitchMeasurementEnd sel phi s
  | .dpllLock n => Sys2Proof.Machine.execDpllLock n s
  | .dpllUnlock n phi => Sys2Proof.Machine.execDpllUnlock n phi s
  | .holdoverEstimateWrite n => Sys2Proof.Machine.execHoldoverEstimateWrite n s
  | .holdoverStore d => Sys2Proof.Machine.execHoldoverStore d s
  | .clearOffset path d value => Sys2Proof.Machine.execClearOffset path d value s
  | .txPlaneWrite path p value => Sys2Proof.Machine.execTxPlaneWrite path p value s
  | .esmcInfoSend p => Sys2Proof.Machine.execEsmcInfoSend p s
  | .esmcReceive p frame => Sys2Proof.Machine.execEsmcReceive p frame s
  | .esmcTimeout p => Sys2Proof.Machine.execEsmcTimeout p s
  | .outputDriveChange n => Sys2Proof.Machine.execOutputDriveChange n s
  | .outRealigned n => Sys2Proof.Machine.execOutRealigned n s
  | .todMessageStart n => Sys2Proof.Machine.execTodMessageStart n s
  | .sensorSample => Sys2Proof.Machine.execSensorSample s
  | .calStepStart g => Sys2Proof.Machine.execCalStepStart g s
  | .calStepComplete which values => Sys2Proof.Machine.execCalStepComplete which values s
  | .calDeadline cls item => Sys2Proof.Machine.execCalDeadline cls item s
  | .forcedWindow p => Sys2Proof.Machine.execForcedWindow p s
  | .bellflowerSend => Sys2Proof.Machine.execBellflowerSend s
  | .bellflowerReceive path bytes => Sys2Proof.Machine.execBellflowerReceive path bytes s
  | .pathSilent path => Sys2Proof.Machine.execPathSilent path s
  | .pairInitTimeout => Sys2Proof.Machine.execPairInitTimeout s
  | .takeover => Sys2Proof.Machine.execTakeover s
  | .fenceSettle => Sys2Proof.Machine.execFenceSettle s
  | .fenceInFall => Sys2Proof.Machine.execFenceInFall s
  | .fenceInRise => Sys2Proof.Machine.execFenceInRise s
  | .takeReqTimeout => Sys2Proof.Machine.execTakeReqTimeout s
  | .pairWtrExpiry => Sys2Proof.Machine.execPairWtrExpiry s
  | .pairModeSet path value => Sys2Proof.Machine.execPairModeSet path value s
  | .healthReport => Sys2Proof.Machine.execHealthReport s
  | .scrubPass bad => Sys2Proof.Machine.execScrubPass bad s
  | .cellTest failing => Sys2Proof.Machine.execCellTest failing s
  | .crossCheck => Sys2Proof.Machine.execCrossCheck s
  | .fenceLoopTest readback => Sys2Proof.Machine.execFenceLoopTest readback s
  | .perfOverflow n address after => Sys2Proof.Machine.execPerfOverflow n address after s
  | .perfOvfClear path n value => Sys2Proof.Machine.execPerfOvfClear path n value s
  | .thermConversion values => Sys2Proof.Machine.execThermConversion values s
  | .i2cGo path k value => Sys2Proof.Machine.execI2cGo path k value s
  | .i2cDone k ack value => Sys2Proof.Machine.execI2cDone k ack value s
  | .i2cBusStuck k => Sys2Proof.Machine.execI2cBusStuck k s
  | .bar0Read offset => Sys2Proof.Machine.execBar0Read offset s
  | .headAgeExpiry p q => Sys2Proof.Machine.execHeadAgeExpiry p q s
  | .pcieLinkDown => Sys2Proof.Machine.execPcieLinkDown s
  | .lpiTransmitExit p => Sys2Proof.Machine.execLpiTransmitExit p s
  | .msixModerationTimer v => Sys2Proof.Machine.execMsixModerationTimer v s
  | .igmpMldSnooping fid mac dest => Sys2Proof.Machine.execIgmpMldSnooping fid mac dest s

end Sys2Proof.Machine
end

