-- ==== Sys2Proof/Machine/Tick.lean ====
section
/-! DEFINITION. What time alone does: one tick of the TIME-island clock, 0.8 ns (R303, notes/assumptions/1.md). -/
namespace Sys2Proof.Machine

/-- The domains after one tick: 0.8 ns times the domain's rate, 1 + frequency * 2^-40 (R22, R303). -/
def Domain.tick (x : Domain) : Domain := { x with run := (x.run : Int) + 4 * (2 ^ 40 + x.freq) |>.toNat }

/-- What the TIME island does in a tick: its domains advance, and slews of domains and outputs move on (R303, R369, R388). -/
def State.timeTick (s : State) : State :=
  let s := { s with clock := { s.clock with domains := s.clock.domains.map Domain.tick } }
  (s.forEach (List.range 8) (fun d s => s.slewTick d)).forEach (List.range 16) (fun i s => s.outTick i)

/-- Time has passed by one tick; contacts taken over from a partner take their own levels again (R430), and bus keepers hold what the
contact balls had (R476). -/
def State.aged (s : State) : State :=
  { s with ticks := s.ticks + 1, pair := { s.pair with adopted := none, keeper := s.contactLevels } }

/-- The mirror sessions in force look at their queues (R198). -/
def State.mirrorTick (s : State) : State := s.forEach (s.fwd.tables.mirr.map (·.1)) (fun m s => s.mirrorCheck m)

/-- One tick: time passes, the TIME island advances while it runs, at most 50 M times in a second a record leaves the port stamp
FIFOs for the ledger (R322), mirror sessions fall back (R198), the performance counters run, and a merged READY_CHANGE falls due
(R116). -/
def State.tick (s : State) : State :=
  let s := s.fresh.aged
  let s := if s.timeUp then s.timeTick else s
  let s := if s.timeUp && s.ticks % 25 == 0 then s.drainOne else s
  s.mirrorTick.perfTick.flushReady

end Sys2Proof.Machine
end

