-- ==== Sys2Proof/WellFormed.lean ====
section
/-! DEFINITION. When a command of the table is well formed: the bounds its operands have by the fields that carry them and by
the units the part has. An ill-formed command still has a meaning, or names a unit that does not exist and faults; no sender
can send one. -/
namespace Sys2Proof

/-- A Mivik request as a packet can carry it (R54): a 16-bit tag, a 32-bit sequence number, bytes of version and flags, a
payload of at most 4,076 bytes (R55). -/
def Request.ok (q : Request) : Bool :=
  decide (q.version < 256) && decide (q.flags < 256) && decide (q.tag < 65536) && decide (q.status < 65536) && decide (q.seq < 2 ^ 32) &&
    decide (q.payload.length ≤ 4076) && decide (q.buf < 2 ^ 64) && decide (q.slot < 65536) && decide (q.port < 83) &&
    decide (q.src < 2 ^ 48) && q.vlan.all (fun v => decide (v < 2 ^ 32))

/-- A command ring entry as its 32 bytes can spell it (R77), with the packet that DMA reads at its address. -/
def RingEntry.ok (e : RingEntry) : Bool := decide (e.buf < 2 ^ 64) && decide (e.len < 65536)

/-- A lane the part has: 32 high lanes and 48 edge lanes (R126). -/
def Lane.ok : Lane → Bool
  | .hl n => decide (n < 32)
  | .el n => decide (n < 48)

/-- A path of a write: a PARAM command, or a BAR0 access of 1 to 8 bytes (R25). -/
def WritePath.ok : WritePath → Bool
  | .command _ => true
  | .bar0 bytes => decide (1 ≤ bytes) && decide (bytes ≤ 8)
/-- An address on a path: a 32-bit shelfmark, or an offset in the 256 MiB of BAR0 (R24, R25). -/
def WritePath.addrOk : WritePath → Nat → Bool
  | .command _, addr => decide (addr < 2 ^ 32)
  | .bar0 _, addr => decide (addr < 2 ^ 28)

/-- A ring the part has: ten of P80, four of the ledger (R201, R322). -/
def RingId.ok : RingId → Bool
  | .p80 r => decide (r < 10)
  | .ledger r => decide (r < 4)
  | .command => true
  | .reply => true
  | .event => true
  | .qmon => true

/-- A phase detector the part has: of each lane, and of the four PCS islands (R346). -/
def Detector.ok : Detector → Bool
  | .rx l => l.ok
  | .tx l => l.ok
  | .island i => decide (i < 4)

/-- The background calibration items of a class: 4 of class 2, 18 of class 3, 2 of class 4, 10 of class 5 (R392). -/
def backgroundCount (cls : Nat) : Nat := if cls = 2 then 4 else if cls = 3 then 18 else if cls = 4 then 2 else if cls = 5 then 10 else 0
/-- A gap of a port the part has, or a background item. -/
def CalGap.ok : CalGap → Bool
  | .entry p => decide (p < 80)
  | .txIdle p => decide (p < 80)
  | .rxIdle p => decide (p < 80)
  | .sleep p _ => decide (p < 80)
  | .channel cls i => decide (i < backgroundCount cls)
/-- A step of a port the part has, or of a background item. -/
def CalStep.ok : CalStep → Bool
  | .lane p _ => decide (p < 80)
  | .item cls i => decide (i < backgroundCount cls)

/-- A well-formed command of the table. -/
def Instr.ok : Instr → Bool
  | .nop q => q.ok
  | .sessionOpen q => q.ok
  | .sessionClose q => q.ok
  | .identityGet q => q.ok
  | .paramRead q => q.ok
  | .paramWrite q => q.ok
  | .paramRmw q => q.ok
  | .paramReadBlock q => q.ok
  | .tableStageWrite q => q.ok
  | .tableStageClear q => q.ok
  | .tableStageDiscard q => q.ok
  | .tableCommit q => q.ok
  | .epochStatus q => q.ok
  | .timeGet q => q.ok
  | .timeStep q => q.ok
  | .timeAdjFreq q => q.ok
  | .timeScheduleList q => q.ok
  | .timeScheduleCancel q => q.ok
  | .refForce q => q.ok
  | .refRelease q => q.ok
  | .refClearWtr q => q.ok
  | .outRealign q => q.ok
  | .outOwn q => q.ok
  | .outForce q => q.ok
  | .outForceRelease q => q.ok
  | .gateLoad q => q.ok
  | .gateLoadCheckOnly q => q.ok
  | .gateSwitch q => q.ok
  | .pairTake q => q.ok
  | .pairYield q => q.ok
  | .pairStatus q => q.ok
  | .pwrSet q => q.ok
  | .pwrPlan q => q.ok
  | .calRun q => q.ok
  | .calStatus q => q.ok
  | .tdcArm q => q.ok
  | .tdcAbort q => q.ok
  | .tdcResult q => q.ok
  | .statSnapshot q => q.ok
  | .fwStage q => q.ok
  | .fwActivate q => q.ok
  | .fwActivateConfirm q => q.ok
  | .watchSetWrite q => q.ok
  | .watchSetClear q => q.ok
  | .watchSetRelease q => q.ok
  | .proofRunStart q => q.ok
  | .proofRunAbort q => q.ok
  | .perfSelect q => q.ok
  | .perfRead q => q.ok
  | .leaseTake q => q.ok
  | .leaseSeize q => q.ok
  | .leaseDrop q => q.ok
  | .registerWrite path addr _ => path.ok && path.addrOk addr
  | .cmdDbCmd path _ => path.ok
  | .commandFetch entries => entries.all RingEntry.ok
  | .cmdDbRpl path _ => path.ok
  | .cmdDbEvt path _ => path.ok
  | .ringEnable path ring _ => path.ok && ring.ok
  | .inbandControlFrame port _ => decide (port < 80)
  | .reqWrite _ => true
  | .statusRead => true
  | .replyRead _ => true
  | .eventRead _ => true
  | .spiInvalidCommand b => !(decide (1 ≤ b) && decide (b ≤ 4)) && decide (b < 256)
  | .sidebandCommandStart => true
  | .chainTimeout _ => true
  | .authLockoutEnd _ => true
  | .hostSilent => true
  | .sbSilent => true
  | .engineWatchdogExpiry e => decide (e < 12)
  | .mailboxReplyDeadline q opcode _ => q.ok && decide (opcode < 65536)
  | .engineRestart e => decide (e < 12)
  | .coldReset _ => true
  | .warmReset _ => true
  | .devResetCold path => path.ok
  | .devResetWarm path => path.ok
  | .perstAssert => true
  | .perstDeassert => true
  | .pcieLinkUp => true
  | .coldBootCount _ _ => true
  | .bootHeaderRead => true
  | .imageSelection cfg => decide (cfg.ids.1 < 65536) && decide (cfg.ids.2.1 < 65536) && decide (cfg.ids.2.2 < 65536)
  | .imageLoadDone kind => (kind == 1 || kind == 2)
  | .hardwareTablesLoaded _ _ => true
  | .tableRefillDone => true
  | .powerUpComplete pd => decide (pd < 16)
  | .powerDownComplete pd frames => decide (pd < 16) && frames.all (· < 83)
  | .flashOperationDone _ => true
  | .imageActivationDone => true
  | .trialReverted kind => decide (1 ≤ kind) && decide (kind ≤ 3)
  | .secKeyWrite path word _ => path.ok && decide (word < 16)
  | .secLock path => path.ok
  | .islandLockLoss n => decide (n < 22)
  | .islandRestart n => decide (n < 22)
  | .crossingFifoError n => decide (n < 22)
  | .bufMemFault mem _ _ _ => decide (mem < 3)
  | .replicaRealign => true
  | .laneSignalDetect lane => lane.ok
  | .laneClockStable lane _ => lane.ok
  | .laneLock p _ => decide (p < 80)
  | .laneLockLost lane _ => lane.ok
  | .deskewRetry p => decide (p < 80)
  | .laneReceiveSleep p => decide (p < 80)
  | .laneWake p => decide (p < 80)
  | .ctleAdaptStep lane _ => lane.ok
  | .eyeRefresh lane _ _ _ => lane.ok
  | .hlaneRestartTx path lane => path.ok && lane.ok
  | .hlaneRestartRx path lane => path.ok && lane.ok
  | .marginStart path lane _ => path.ok && lane.ok
  | .marginDone lane _ => lane.ok
  | .timingMarkEvaluation p => decide (p < 80)
  | .macPortTypeWrite path p _ => path.ok && decide (p < 83)
  | .portLinkUp p _ => decide (p < 80)
  | .portLinkDown p _ => decide (p < 80)
  | .frameReceive p _ _ _ => decide (p < 83)
  | .fdbLearn => true
  | .fdbAgeOut => true
  | .fdbFlush path _ => path.ok
  | .hostFrameSubmit _ _ => true
  | .p80RingDb path r _ => path.ok && decide (r < 10)
  | .egressFrameStart p _ => decide (p < 83)
  | .copyDeparture p => decide (p < 83)
  | .pfcXoffRefresh p _ => decide (p < 80)
  | .pauseFrameReceive p _ => decide (p < 80)
  | .pfcFrameReceive p _ _ => decide (p < 80)
  | .pauseQuantaExpiry p _ => decide (p < 80)
  | .pauseWatchdogTrip p _ => decide (p < 80)
  | .pauseIgnoreEnd p _ => decide (p < 80)
  | .lpiEntry p _ => decide (p < 80)
  | .mergeVerifyTimer p _ => decide (p < 80)
  | .speedStepEvaluate p _ _ _ _ => decide (p < 80)
  | .stepTlvReceive p _ _ _ => decide (p < 80)
  | .stepRetune p => decide (p < 80)
  | .stepProposalTimeout p => decide (p < 80)
  | .scheduledSnapshot _ => true
  | .statSnapshotDone => true
  | .epochCommitted => true
  | .epochRetired => true
  | .epochDrainSlow => true
  | .mirrorResume m => decide (m < 8)
  | .carrelPoolWrite path _ => path.ok
  | .pagePackTimer p q => decide (p < 83) && decide (q < 8)
  | .pageWriteDone p q _ _ => decide (p < 83) && decide (q < 8)
  | .pageReadDone p q _ _ => decide (p < 83) && decide (q < 8)
  | .stackChainAbandoned => true
  | .ddrTrainingDone c _ _ _ _ => decide (c < 2)
  | .dqsDriftTrack c => decide (c < 2)
  | .stackRetiredWrite path c entry _ => path.ok && decide (c < 2) && decide (entry < 4096)
  | .stackChEnClear path _ => path.ok
  | .auditPass crosslinks strayed => (crosslinks ++ strayed).all (· < 262144)
  | .qmonSample => true
  | .qmonDb path _ => path.ok
  | .gateActive p => decide (p < 80)
  | .gateRestart p => decide (p < 80)
  | .scheduledGateSwitch _ => true
  | .frerResetTimer r => decide (r < 8192)
  | .latentTest r => decide (r < 8192)
  | .latentBaseReset r => decide (r < 8192)
  | .watchEvaluate => true
  | .scheduledProofStart _ => true
  | .probeSend => true
  | .probeReflect p _ => decide (p < 80)
  | .echoReceive p _ => decide (p < 80)
  | .slotEnd => true
  | .scheduledStep _ => true
  | .scheduledFreqChange _ => true
  | .scheduledRealign _ => true
  | .scheduledTdcStart _ => true
  | .ledgerAnchor r => decide (r < 4)
  | .ledgerRingDb path r _ => path.ok && decide (r < 4)
  | .ringGap r => decide (r < 4)
  | .fifoGap p => decide (p < 80)
  | .evinEdge n => decide (n < 8)
  | .tdcEdge input _ => decide (input < 30)
  | .tdcIntervalSample => true
  | .tdcTimeout => true
  | .ptpMessageReceive p _ _ => decide (p < 80)
  | .ptpMessageSend d p _ _ _ => decide (d < 8) && decide (p < 80)
  | .syncReceiptTimeout d => decide (d < 8)
  | .announceReceiptTimeout d p _ => decide (d < 8) && decide (p < 80)
  | .ddmtdReading d _ _ _ => d.ok
  | .linkMeasurementComplete p => decide (p < 80)
  | .pcsLinkRemeasure path p _ => path.ok && decide (p < 80)
  | .pcsLinkAccept path p _ => path.ok && decide (p < 80)
  | .refEvaluate _ _ _ => true
  | .refFailure r _ => decide (r < 32)
  | .refMonitorPass r => decide (r < 32)
  | .wtrExpiry r => decide (r < 32)
  | .disagreeClear sel r => decide (sel < 10) && decide (r < 32)
  | .switchMeasurementEnd sel _ => decide (sel < 10)
  | .dpllLock n => decide (n < 10)
  | .dpllUnlock n _ => decide (n < 10)
  | .holdoverEstimateWrite n => decide (n < 10)
  | .holdoverStore d => decide (d < 8)
  | .clearOffset path d _ => path.ok && decide (d < 8)
  | .txPlaneWrite path p _ => path.ok && decide (p < 80)
  | .esmcInfoSend p => decide (p < 80)
  | .esmcReceive p _ => decide (p < 80)
  | .esmcTimeout p => decide (p < 80)
  | .outputDriveChange n => decide (n < 18)
  | .outRealigned n => decide (n < 18)
  | .todMessageStart n => decide (n < 2)
  | .sensorSample => true
  | .calStepStart g => g.ok
  | .calStepComplete which _ => which.ok
  | .calDeadline _ _ => true
  | .forcedWindow p => decide (p < 80)
  | .bellflowerSend => true
  | .bellflowerReceive path _ => decide (path < 2)
  | .pathSilent path => decide (path < 2)
  | .pairInitTimeout => true
  | .takeover => true
  | .fenceSettle => true
  | .fenceInFall => true
  | .fenceInRise => true
  | .takeReqTimeout => true
  | .pairWtrExpiry => true
  | .pairModeSet path _ => path.ok
  | .healthReport => true
  | .scrubPass _ => true
  | .cellTest _ => true
  | .crossCheck => true
  | .fenceLoopTest _ => true
  | .perfOverflow n _ _ => decide (n < 64)
  | .perfOvfClear path n _ => path.ok && decide (n < 64)
  | .thermConversion _ => true
  | .i2cGo path k _ => path.ok && decide (k < 4)
  | .i2cDone k _ _ => decide (k < 4)
  | .i2cBusStuck k => decide (k < 4)
  | .bar0Read offset => decide (offset < 2 ^ 28)
  | .headAgeExpiry p q => decide (p < 83) && decide (q < 8)
  | .pcieLinkDown => true
  | .lpiTransmitExit p => decide (p < 80)
  | .msixModerationTimer v => decide (v < 64)
  | .igmpMldSnooping _ _ _ => true

end Sys2Proof
end

