-- ==== Sys2Proof/Safety.lean ====
section
/-! DEFINITION. What counts as a safe state and a safe run, in the terms the claims use. -/
namespace Sys2Proof.Safety
open Sys2Proof.Machine

/-- Every waiting command is well formed: its operands lie in the ranges of its row of the table. -/
def queueOk (s : State) : Bool := s.pending.all Instr.ok

/-- The invariant of the block: parameter words and flash in their canonical forms, the units of each kind in their fixed number
(twelve engines, R41; eight domains, R303; four ledger rings, R322; eighteen outputs, R382; eight PTP instances, the PTP
registers; ten selectors and DPLLs, R360), at most 64 events held for the side-band (R86), and at most 16 replies kept in a
session (R61). -/
structure Inv (s : State) : Prop where
  words : Words.wf s.words
  flash : Flash.wf s.boot.flash
  engines : s.engines.length = 12
  domains : s.clock.domains.length = 8
  ledger : s.ledger.length = 4
  outputs : s.outs.length = 18
  instances : s.ptp.insts.length = 8
  selectors : s.ref.sels.length = 10
  dplls : s.ref.dplls.length = 10
  events : s.ctl.sbEvents.length ≤ 64
  keptPcie : s.ctl.pcie.session.kept.length ≤ 16
  keptInband : s.ctl.inband.session.kept.length ≤ 16
  keptSideband : s.ctl.sideband.session.kept.length ≤ 16

/-- What step 10 of a command works on once a request has passed steps 3 to 6 and 9 of R58: the context and the state then. An
unchained request has its own payload; the last packet of a chain has the payload of the whole chain, which ends with it (R66);
a class 0 request leaves a chain in progress alone (R67). None where the chain was too long or lost its lease (R66, R92). -/
def lastPacket (c : Cmd) (t : ReplyTo) (body : List Byte) (u : State) : Option (Ctx × State) :=
  match (u.transport t.via).session.chain with
  | none => some (⟨t, body⟩, u)
  | some ch =>
    if c.cls = 0 then some (⟨t, body⟩, u)
    else if ch.tooLong || decide (chainLimit < ch.data.length + body.length) || ch.lost then none
    else some (⟨t, ch.data ++ body⟩, u.setSession t.via (fun ses => { ses with chain := none }))

/-- The first error of steps 7 to 9 of R58: readiness, payload checks, the room of the reply, leases, the lock. -/
def refusal (c : Cmd) (x : Ctx) (u : State) : Option Err :=
  firstErr [c.notReady x u, c.check x u, errIf (!u.replyFits x.dest (c.size x u)) (.plain .length),
    u.leaseErr x.master (c.leases x u), c.locked x u]

/-- A request of command c that arrives at s, starts at once (R86), passes steps 3 to 6 of R58 with the class its row gives and
is not an inner packet of a chain (R66): the context and the state its steps 7 to 10 work on. A request that interrupts a chain
ends it first (R67). -/
def arrived (c : Cmd) (q : Request) (s : State) : Option (Ctx × State) :=
  if !s.fresh.slotFree (some c) (replyToOf q c.opcode none) then none
  else match s.fresh.accept c.opcode q with
    | (_, none) => none
    | (u, some (t, body)) =>
      if t.flags % 4 != c.cls || t.flags.testBit 5 then none
      else lastPacket c t body (if u.interrupts (some c) t then u.endChain t.via (.plain .truncated) else u)

/-- A request that reaches step 10 of R58: it arrives and no step refuses it. -/
def served (c : Cmd) (q : Request) (s : State) : Option (Ctx × State) :=
  match arrived c q s with
  | some (x, u) => if (refusal c x u).isNone then some (x, u) else none
  | none => none

/-- Whether a write of v to word k by a path reaches the word and no step of R58 or R482 refuses it: one entry of a host or
side-band PARAM command, or a BAR0 write of a whole aligned word that is neither MSI-X's nor the user page's (R25, R76, R446). -/
def lands (path : WritePath) (k v : Nat) (s : State) : Bool :=
  match path with
  | .command m => (s.fresh.writeErr false m k v).isNone
  | .bar0 bytes => s.bar0Up && decide (bar0Offset k < 2 ^ 28) && bar0Mark (bar0Offset k) == k && bytes == 8 &&
      bar0Offset k % 8 == 0 && !msixWord k && !userPage k && ((s.fresh.active .host).writeErr true .host k v).isNone

/-- The state in which a write by a path takes effect: a BAR0 write counts as the host's activity (R89). -/
def pathState (path : WritePath) (s : State) : State :=
  match path with
  | .command _ => s.fresh
  | .bar0 _ => s.fresh.active .host

/-- That state with the word changed as the write leaves it, before the hardware behind the word follows. -/
def landed (path : WritePath) (k v : Nat) (s : State) : State := (pathState path s).set k ((pathState path s).landing k v)

/-- A frame that arrives whole and without error on an external port that receives (R157, R180): its bytes before the FCS,
and the state with it counted as received. -/
def taken (p : Nat) (frame : List Byte) (s : State) : Option (List Byte × State) :=
  if s.hears p then
    let u := s.epochDue.calRxEnd p
    if u.rxErr p frame.length ⟨false, false, false, 0, 0, 0, 0, 0, false⟩ frame != 0 then none
    else some (frame.take (frame.length - 4), u.countGood p (frame.take (frame.length - 4)) frame.length)
  else none

/-- A step that stops the machine: a fault or a refusal. -/
def stops (s : State) : Prop := ∀ t, step s ≠ .next t

/-- A run of n steps that never stops. -/
def runsFor (n : Nat) (s : State) : Prop := ∃ t, Sys2Proof.core.run n s = .next t

/-- The commands of the table with what each does at the steps of R58: each row that carries a request. -/
def commandRows : List (Cmd × (Request → Instr)) :=
  [(nopCmd, .nop), (sessionOpenCmd, .sessionOpen), (sessionCloseCmd, .sessionClose), (identityGetCmd, .identityGet)] ++
  [(paramReadCmd, .paramRead), (paramWriteCmd, .paramWrite), (paramRmwCmd, .paramRmw), (paramReadBlockCmd, .paramReadBlock)] ++
  [(tableCommitCmd, .tableCommit), (epochStatusCmd, .epochStatus), (timeGetCmd, .timeGet), (timeStepCmd, .timeStep)] ++
  [(timeAdjFreqCmd, .timeAdjFreq), (timeScheduleListCmd, .timeScheduleList), (timeScheduleCancelCmd, .timeScheduleCancel), (refForceCmd, .refForce)] ++
  [(refReleaseCmd, .refRelease), (refClearWtrCmd, .refClearWtr), (outRealignCmd, .outRealign), (outOwnCmd, .outOwn)] ++
  [(outForceCmd, .outForce), (outForceReleaseCmd, .outForceRelease), (gateSwitchCmd, .gateSwitch), (pairTakeCmd, .pairTake)] ++
  [(pairYieldCmd, .pairYield), (pairStatusCmd, .pairStatus), (pwrSetCmd, .pwrSet), (pwrPlanCmd, .pwrPlan)] ++
  [(calRunCmd, .calRun), (calStatusCmd, .calStatus), (tdcArmCmd, .tdcArm), (tdcAbortCmd, .tdcAbort)] ++
  [(tdcResultCmd, .tdcResult), (statSnapshotCmd, .statSnapshot), (fwStageCmd, .fwStage), (fwActivateCmd, .fwActivate)] ++
  [(fwConfirmCmd, .fwActivateConfirm), (proofStartCmd, .proofRunStart), (proofAbortCmd, .proofRunAbort), (perfSelectCmd, .perfSelect)] ++
  [(perfReadCmd, .perfRead), (leaseTakeCmd, .leaseTake), (leaseSeizeCmd, .leaseSeize), (leaseDropCmd, .leaseDrop)] ++
  [(tableStageCmd 0, .tableStageWrite), (tableStageCmd 1, .tableStageClear), (tableStageCmd 2, .tableStageDiscard)] ++
  [(gateLoadCmd false, .gateLoad), (gateLoadCmd true, .gateLoadCheckOnly)] ++
  [(watchSetCmd 0, .watchSetWrite), (watchSetCmd 1, .watchSetClear), (watchSetCmd 2, .watchSetRelease)]

/-- The blocks whose words are plain storage: no operation of the hardware hangs on their being written. -/
def plainBlocks : List Nat :=
  [0x01, 0x02, 0x03, 0x10, 0x12, 0x13, 0x14, 0x15, 0x1A, 0x1D, 0x20, 0x28, 0x2B, 0x2C, 0x2D, 0x31]
/-- The words that a discarded BAR0 write may change: its counters, the host status bit and what raising an event writes. -/
def discardWords : List Nat :=
  [Reg.cmdBar0LeaseDrop, Reg.cmdBar0Refused, Reg.cmdHostStatus, Reg.cmdEvtrProd, Reg.cmdEvtLost, Reg.cmdSbEvtLost, shelf 4 0x3FF 0]
/-- A ring just enabled: both its counts are 0 (R78, R80, R201, R270, R327), and a record ring writes the gap record it owes, or,
of the ledger, its anchors (R325, R326). -/
def ringRestarted (ring : RingId) (w : State) : State :=
  match ring with
  | .command => ({ w with ctl := { w.ctl with cmdProd := 0 } } : State).setf Reg.cmdCmdrCons 0 16 0
  | .reply => ({ w with ctl := { w.ctl with rplCons := 0 } } : State).setf Reg.cmdRplrProd 0 16 0
  | .event => (({ w with ctl := { w.ctl with evtCons := 0 } } : State).setf Reg.cmdEvtrProd 0 16 0).flushHostLost
  | .p80 r => { w.setf (Reg.p80RingDev r) 0 16 0 with rings := { w.rings with counts := modifyAt w.rings.counts r (fun _ => 0) } }
  | .qmon => ({ w.setf Reg.qmonProd 0 32 0 with qmon := { w.qmon with cons := 0 } }).qmonGap
  | .ledger r =>
    let v := (w.setf (Reg.ledgerRingProd r) 0 32 0).setLedger r (fun l => { l with cons := 0, anchors := [], disc := [] })
    if (v.ledgerRing r).lost = 0 then v.anchorAll r else v.ringResume r

end Sys2Proof.Safety
end

