-- ==== Sys2Proof/Certificates/Slice0/Obligations.lean ====
section
/-! DEFINITION. The statements about this block, each listed in OBLIGATIONS.json. `served`, `arrived` and `lands` of Safety.lean say
when a request or a write reaches the effect of its row; what a state after it holds is said by the named operations of Machine. -/
open Sys2Proof Sys2Proof.Machine Sys2Proof.Safety

/-- A step takes the front command (log entry 1). -/
def Obligations.StepRunsFrontCommand : Prop := ∀ (c : Instr) (rest : List Instr) (s : State),
  step { s with pending := c :: rest } = exec c { s with pending := rest }

/-- The idle step, a DESIGN CHOICE of log entry 1. -/
def Obligations.IdleStepIsOneTick : Prop := ∀ s : State, s.pending = [] →
  step s = .next s.tick ∧ s.fresh.aged.ticks = s.ticks + 1 ∧ s.tick.pending = []

/-- The reset state. Where the Reset column says FW or gives nothing, the zero is the model's (log entry 3). -/
def Obligations.ResetHoldsSpecValues : Prop :=
  (∀ k, State.reset.get k = (resetWord k).toNat) ∧ (∀ n < 16, State.reset.pd n = if n = 0 then 2 else 0) ∧
  (∀ e < 12, (State.reset.engine e).selected = decide (e = 0) ∧ (State.reset.engine e).running = false) ∧
  State.reset.ctl.leasesAssigned = false ∧ State.reset.pending = [] ∧ (∀ d < 8, State.reset.now d = 0 ∧ (State.reset.dom d).gen = 0) ∧
  State.reset.f Reg.pwrBootOn 0 16 = (resetWord Reg.pwrBootOn).toNat % 65536

/-- The invariant at reset. -/
def Obligations.InvariantHoldsAtReset : Prop := Inv State.reset

/-- The invariant, over every state and every command. -/
def Obligations.EveryStepKeepsInvariant : Prop := ∀ s t : State, Inv s → step s = .next t → Inv t ∧ t.pending = s.pending.tail

/-- No command stops the block, whatever its operands. -/
def Obligations.EveryCommandCompletes : Prop := ∀ (c : Instr) (s : State), ∃ t, exec c s = .next t

/-- Runs of the block. -/
def Obligations.RunsNeverStop : Prop := ∀ (n : Nat) (s : State), Inv s →
  ∃ t : State, Sys2Proof.core.run n s = .next t ∧ Inv t ∧ t.pending = s.pending.drop n

/-- Refusals, for each row that carries a request. -/
def Obligations.RefusedRequestOnlyAnswers : Prop := ∀ r ∈ commandRows, ∀ (q : Request) (s u : State) (x : Ctx) (e : Err),
  arrived r.1 q s = some (x, u) → refusal r.1 x u = some e →
  exec (r.2 q) s = .next ((r.1.refused x u e).fail x.dest true e) ∧
  (r.1.opcode ∉ [0x0101, 0x0102] → r.1.refused x u e = u)

/-- NOP, SESSION_OPEN, SESSION_CLOSE and IDENTITY_GET: what each leaves and replies (R62, R70). -/
def Obligations.SessionCommandsAnswer : Prop := ∀ (q : Request) (s u : State) (x : Ctx),
  (served nopCmd q s = some (x, u) → exec (.nop q) s = .next (u.deliver x.dest true .ok [])) ∧
  (∀ num, num = u.f Reg.fwColdBoots 0 32 * 2 ^ 32 + (u.ctl.sessionOpens + 1) % 2 ^ 32 →
    served sessionOpenCmd q s = some (x, u) → u.boot.countKnown = true →
    exec (.sessionOpen q) s = .next ((((({ u with ctl := { u.ctl with sessionOpens := u.ctl.sessionOpens + 1 } }).endSession x.dest.via).setSession
      x.dest.via (fun _ => ⟨num, if u8 x.p 0 = 0xFF then none else some (u8 x.p 0), some x.dest.seq, [], none⟩)).set
      Reg.secSessionNum num).deliver x.dest true .ok (toLe 8 num))) ∧
  (served sessionCloseCmd q s = some (x, u) →
    exec (.sessionClose q) s = .next (((u.endSession x.dest.via).setSession x.dest.via (fun _ => ⟨0, none, none, [], none⟩)).deliver x.dest true .ok [])) ∧
  (served identityGetCmd q s = some (x, u) →
    exec (.identityGet q) s = .next (u.deliver x.dest true .ok (toLe 4 0x4480 ++ toLe 2 (u.f Reg.devId 32 16) ++ zeros 2 ++
      toLe 8 (u.get Reg.devUid) ++ toLe 2 (u.imageLevel Reg.fwOpRun [1, 5, 6, 7, 8, 9, 10, 11]) ++
      toLe 2 (u.imageLevel Reg.fwTimeRun [2, 3, 4]) ++ toLe 2 Config.bootRom ++ toLe 1 (viaNumber x.dest.via) ++ [0])))

/-- The parameter commands (R71 to R74), over the words of their payloads. -/
def Obligations.ParamCommandsReadAndWrite : Prop := ∀ (q : Request) (s u : State) (x : Ctx),
  (served paramReadCmd q s = some (x, u) → ∀ r, r = (entryMarks x.p 4).foldl (fun (a : List Byte × State) k =>
      (a.1 ++ toLe 8 (a.2.shown (latchOf x.master) k), a.2.afterRead (latchOf x.master) k)) ([], u) →
    exec (.paramRead q) s = .next (r.2.deliver x.dest true .ok r.1)) ∧
  (served paramReadBlockCmd q s = some (x, u) → ∀ r, r = (blockMarks x.p).foldl (fun (a : List Byte × State) k =>
      if defined k then (a.1 ++ toLe 8 (a.2.shown (latchOf x.master) k), a.2.afterRead (latchOf x.master) k)
      else (a.1 ++ zeros 8, a.2)) ([], u) →
    exec (.paramReadBlock q) s = .next (r.2.deliver x.dest true .ok r.1)) ∧
  (served paramWriteCmd q s = some (x, u) →
    exec (.paramWrite q) s = .next (((writeEntries x.p).foldl (fun (t : State) e =>
      t.writeWord e.k (mix (t.shown (latchOf x.master) e.k) e.value (2 ^ 64 - 1))) u).deliver x.dest true .ok [])) ∧
  (served paramRmwCmd q s = some (x, u) → ∀ r, r = (rmwEntries x.p).foldl (fun (a : List Byte × State) e =>
      (a.1 ++ toLe 8 (a.2.shown (latchOf x.master) e.k),
        a.2.writeWord e.k (mix (a.2.shown (latchOf x.master) e.k) e.value e.mask))) ([], u) →
    exec (.paramRmw q) s = .next (r.2.deliver x.dest true .ok r.1))

/-- The table commands (R203 to R206, R209). -/
def Obligations.TableCommandsStageAndCommit : Prop := ∀ (q : Request) (s u : State) (x : Ctx),
  (served (tableStageCmd 0) q s = some (x, u) → exec (.tableStageWrite q) s = .next (({ u with fwd := { u.fwd with
    staged := (stageChanges x 0).foldl stagePut u.fwd.staged } } : State).deliver x.dest true .ok [])) ∧
  (served (tableStageCmd 1) q s = some (x, u) → exec (.tableStageClear q) s = .next (({ u with fwd := { u.fwd with
    staged := (stageChanges x 1).foldl stagePut u.fwd.staged } } : State).deliver x.dest true .ok [])) ∧
  (served (tableStageCmd 2) q s = some (x, u) → exec (.tableStageDiscard q) s = .next (({ u with fwd := { u.fwd with
    staged := u.fwd.staged.filter (fun c => !(c.block == u8 x.p 0 && c.table == u8 x.p 1)) } } : State).deliver x.dest true .ok [])) ∧
  (served tableCommitCmd q s = some (x, u) → ∀ bs dom num, bs = u.commitBlocks (u64 x.p 0) → dom = u8 x.p 9 →
    num = u.f Reg.catEpochCurrent 0 32 + 1 → u.fwd.other = none → (bs.contains 0x1D → u.gateBusy u.adminPorts = none) →
    ((u8 x.p 8).testBit 0 = false → ∀ t, t = u.now dom + u.f Reg.catEpochCfg 0 17 * ns16 →
      exec (.tableCommit q) s = .next ((u.freeze bs dom t).deliver x.dest true .ok (toLe 4 num ++ timeBytes t))) ∧
    ((u8 x.p 8).testBit 0 = true → u.due dom (timeAt x.p 12) = .late →
      exec (.tableCommit q) s = .next (((u.freeze bs dom (u.now dom)).epochDue).deliver x.dest true .late
        (toLe 4 num ++ timeBytes (u.now dom)))) ∧
    ((u8 x.p 8).testBit 0 = true → u.due dom (timeAt x.p 12) = .scheduled → u.actionsFull = false →
      exec (.tableCommit q) s = .next (((u.freeze bs dom (timeAt x.p 12)).schedule 0x0201 x.dest.tag (ownerCode x.master) dom
        (timeAt x.p 12) x.p).deliver x.dest true .ok (toLe 4 num ++ timeBytes (timeAt x.p 12))))) ∧
  (served epochStatusCmd q s = some (x, u) → exec (.epochStatus q) s = .next (u.deliver x.dest true .ok
    (toLe 4 (u.f Reg.catEpochCurrent 0 32) ++ timeBytes u.fwd.epochT ++ toLe 1 (u.fwd.other.elim 0 (·.state)) ++
      toLe 1 (u.fwd.other.elim u.fwd.epochDom (·.dom)) ++ zeros 2 ++ toLe 4 (u.fwd.other.elim 0 (·.num)) ++
      timeBytes (u.fwd.other.elim 0 (·.t)) ++ toLe 4 u.outstandingFrames ++ toLe 4 u.fwd.staged.length)))

/-- The time commands (R306, R312, R313, R315 to R317). -/
def Obligations.TimeCommandsStepAndSchedule : Prop := ∀ (q : Request) (s u : State) (x : Ctx) (d t : Nat) (l : Landing) (r : List Byte),
  d = u8 x.p 0 → t = timeAt x.p 4 → l = stepOf x.p → r = l.stepReply (u.landingTime d).1 (u.landingTime d).2 →
  (served timeGetCmd q s = some (x, u) → exec (.timeGet q) s = .next (u.deliver x.dest true .ok
    ((bitsSet d 8).flatMap (fun i => toLe 1 i ++ toLe 1 (u.tdLevel i) ++ toLe 2 (u.dom i).gen ++ timeBytes (u.now i) ++
      toLe 4 (unsigned 32 (u.dom i).freq) ++ zeros 4)))) ∧
  (served timeStepCmd q s = some (x, u) →
    ((u8 x.p 1).testBit 0 = false → l.real = true → exec (.timeStep q) s =
      .next (({ u with clock := { u.clock with landings := u.clock.landings ++ [l] } } : State).deliver x.dest true .ok r)) ∧
    ((u8 x.p 1).testBit 0 = false → l.real = false → exec (.timeStep q) s =
      .next (u.deliver x.dest true .ok (l.stepReply (u.now d) (u.dom d).gen))) ∧
    ((u8 x.p 1).testBit 0 = true → u.due d t = .late → l.real = true → exec (.timeStep q) s =
      .next (({ u with clock := { u.clock with landings := u.clock.landings ++ [l] } } : State).deliver x.dest true .late r)) ∧
    ((u8 x.p 1).testBit 0 = true → u.due d t = .late → l.real = false → exec (.timeStep q) s =
      .next (u.deliver x.dest true .late (l.stepReply (u.now d) (u.dom d).gen))) ∧
    ((u8 x.p 1).testBit 0 = true → u.due d t = .scheduled → u.actionsFull = false → exec (.timeStep q) s =
      .next ((u.schedule 0x0301 x.dest.tag (ownerCode x.master) d t x.p).deliver x.dest true .ok (l.stepReply t (u.dom d).gen)))) ∧
  (served timeAdjFreqCmd q s = some (x, u) →
    ((u8 x.p 1).testBit 0 = false → u.steered d = false → exec (.timeAdjFreq q) s =
      .next ((u.adjFreq d (adjOf x.p)).deliver x.dest true .ok [])) ∧
    ((u8 x.p 1).testBit 0 = true → u.due d t = .late → u.steered d = false → exec (.timeAdjFreq q) s =
      .next ((u.adjFreq d (adjOf x.p)).deliver x.dest true .late (timeBytes (u.now d)))) ∧
    ((u8 x.p 1).testBit 0 = true → u.due d t = .scheduled → u.actionsFull = false → exec (.timeAdjFreq q) s =
      .next ((u.schedule 0x0302 x.dest.tag (ownerCode x.master) d t x.p).deliver x.dest true .ok []))) ∧
  (served timeScheduleListCmd q s = some (x, u) → exec (.timeScheduleList q) s = .next (u.deliver x.dest true .ok
    (toLe 2 u.clock.actions.length ++ zeros 6 ++ u.actionsByHandle.flatMap (fun a => toLe 2 a.handle ++ toLe 2 a.opcode ++
      toLe 2 a.tag ++ toLe 1 a.master ++ toLe 1 a.dom ++ timeBytes a.t ++ zeros 4)))) ∧
  (∀ a, served timeScheduleCancelCmd q s = some (x, u) → u.action (u16 x.p 2) = some a → u.now a.dom + 2000 * ns16 ≤ a.t →
    exec (.timeScheduleCancel q) s = .next (((u.dropAction a.handle).undo a 3).deliver x.dest true .ok []))

/-- The reference commands of R372 and the output commands of R386 to R388. -/
def Obligations.ReferenceAndOutputCommandsAct : Prop := ∀ (q : Request) (s u : State) (x : Ctx),
  (served refForceCmd q s = some (x, u) → ∀ sel r w v, sel = u8 x.p 0 → r = u8 x.p 1 → w = u.recordForce sel r → v = w.followForce sel r →
    exec (.refForce q) s = .next (v.deliver x.dest true .ok (v.selReply sel)) ∧ w.forcedRef sel = r ∧
    (w.refQualified r = true → w.selState sel = 1 → w.selected sel ≠ r → v = w.startSwitch sel r) ∧
    (w.refQualified r = true → w.selState sel = 0 → (w.sel sel).holdUntil ≤ w.ticks → v = w.startSwitch sel r) ∧
    (w.refQualified r = false → w.selState sel = 2 → v = w.abandon sel) ∧
    (w.refQualified r = false → w.selState sel = 1 → v = w.deselect sel) ∧
    (w.refQualified r = true → w.selState sel = 1 → w.selected sel = r → v = w)) ∧
  (served refReleaseCmd q s = some (x, u) → ∀ v, v = u.setf (Reg.refselSelStatus (0x100 + u8 x.p 0)) 40 8 0xFF →
    exec (.refRelease q) s = .next (v.deliver x.dest true .ok (v.selReply (u8 x.p 0))) ∧ v.forcedRef (u8 x.p 0) = 0xFF) ∧
  (served refClearWtrCmd q s = some (x, u) → ∀ l, l = (bitsSet (u32 x.p 0) 32).filter (fun r => u.refState r == 3) →
    exec (.refClearWtr q) s = .next ((u.forEach l (fun r t => t.setRef r 4 0)).deliver x.dest true .ok (toLe 4 (maskOf l)))) ∧
  (served outOwnCmd q s = some (x, u) → ∀ v, v = u.forEach (bitsSet (outMask x.p 0) 18) (fun i t => t.outOwn i (u8 x.p 3)) →
    exec (.outOwn q) s = .next (v.deliver x.dest true .ok (toLe 3 (maskOf ((List.range 18).filter (fun i => v.outDesired i == 1)))))) ∧
  (served outRealignCmd q s = some (x, u) → ∀ d t, d = u8 x.p 0 → t = timeAt x.p 8 →
    ((u8 x.p 1).testBit 0 = false →
      exec (.outRealign q) s = .next ((u.fireRealign x.p).deliver x.dest true .ok (u.realignReply x.p))) ∧
    ((u8 x.p 1).testBit 0 = true → u.due d t = .late → exec (.outRealign q) s =
      .next ((u.fireRealign x.p).deliver x.dest true .late (u.realignReply x.p ++ timeBytes (u.now d)))) ∧
    ((u8 x.p 1).testBit 0 = true → u.due d t = .scheduled → u.actionsFull = false → exec (.outRealign q) s =
      .next ((u.schedule 0x0500 x.dest.tag (ownerCode x.master) d t x.p).deliver x.dest true .ok (u.realignReply x.p))))

/-- The gate commands (R259 to R261, R263 to R265). -/
def Obligations.GateCommandsLoadAndSwitch : Prop := ∀ (q : Request) (s u : State) (x : Ctx) (w : List Byte),
  w = (u.loadCalendar x.p).waits.flatMap (toLe 8) →
  (served (gateLoadCmd false) q s = some (x, u) → exec (.gateLoad q) s = .next ((u.stageCalendar (u8 x.p 0) (u8 x.p 2) (u32 x.p 8)
    (timeAt x.p 12) (u.loadCalendar x.p)).deliver x.dest true .ok
    (toLe 1 0 ++ toLe 1 (u.loadCheck x.p).2.1 ++ toLe 2 (u.loadCheck x.p).2.2 ++ zeros 4 ++ w))) ∧
  (served (gateLoadCmd true) q s = some (x, u) → ∀ r, r = u.loadCheck x.p →
    (r.1 = 0 ∨ r.1 = 6 → exec (.gateLoadCheckOnly q) s = .next (u.deliver x.dest true .ok
      (toLe 1 r.1 ++ toLe 1 r.2.1 ++ toLe 2 r.2.2 ++ zeros 4 ++ w))) ∧
    (r.1 ≠ 0 → r.1 ≠ 6 → exec (.gateLoadCheckOnly q) s = .next (u.draw.draw.draw.deliver x.dest true .ok
      (toLe 1 r.1 ++ toLe 1 r.2.1 ++ toLe 2 r.2.2 ++ zeros 4 ++
        (List.range 3).flatMap (fun i => toLe 8 (Config.openWait (u.drawn + i))))))) ∧
  (served gateSwitchCmd q s = some (x, u) → u.gateBusy (switchPorts x.p) = none → ∀ d t, d = u8 x.p 11 → t = timeAt x.p 12 →
    ((u8 x.p 10).testBit 0 = false → exec (.gateSwitch q) s =
      .next ((u.fireSwitch x.p (u.now d)).deliver x.dest true .ok (u.switchReply x.p (u.now d)))) ∧
    ((u8 x.p 10).testBit 0 = true → u.due d t = .late → exec (.gateSwitch q) s =
      .next ((u.fireSwitch x.p (u.now d)).deliver x.dest true .late (u.switchReply x.p (u.now d) ++ timeBytes (u.now d)))) ∧
    ((u8 x.p 10).testBit 0 = true → u.due d t = .scheduled → u.actionsFull = false → exec (.gateSwitch q) s =
      .next ((u.schedule 0x0601 x.dest.tag (ownerCode x.master) d t x.p).deliver x.dest true .ok (u.switchReply x.p t))))

/-- The pair commands of R436 to R438 and the power commands of R120, R121 and R123. -/
def Obligations.PairAndPowerCommandsAct : Prop := ∀ (q : Request) (s u : State) (x : Ctx),
  (served pairTakeCmd q s = some (x, u) → u.role ≠ 3 → ∀ reply : State → Nat → List Byte,
    reply = (fun t n => toLe 1 t.role ++ toLe 1 n ++ zeros 2) →
    (u.role = 2 → exec (.pairTake q) s = .next (u.deliver x.dest true .ok (reply u 0))) ∧
    (u.role ≠ 2 → u.partnerActive = true → u8 x.p 0 = 1 → ∀ v, v = u.beginTake true 4 4 →
      exec (.pairTake q) s = .next (v.deliver x.dest true .ok (reply v 2))) ∧
    (u.role ≠ 2 → u.partnerActive = true → u8 x.p 0 ≠ 1 →
      ∀ v, v = u.setPair (fun y => { y with takeReq := some (y.takeReq.getD u.ticks) }) →
      exec (.pairTake q) s = .next (v.deliver x.dest true .ok (reply v 1))) ∧
    (u.role ≠ 2 → u.partnerActive = false → u.verdict = 0 ∨ u8 x.p 0 = 1 → ∀ v, v = u.beginTake u.bothSilent 4 4 →
      exec (.pairTake q) s = .next (v.deliver x.dest true .ok (reply v (if u.bothSilent then 2 else 3))))) ∧
  (served pairYieldCmd q s = some (x, u) → u.partnerIn 1 = true → u.partnerVerdict = 0 →
    exec (.pairYield q) s = .next ((u.setPair (fun y => { y with offer := some (u32 x.p 0) })).deliver x.dest true .ok [])) ∧
  (served pairStatusCmd q s = some (x, u) → exec (.pairStatus q) s = .next (u.deliver x.dest true .ok
    (toLe 8 u.pairStateWord ++ toLe 8 u.healthReportWord ++ toLe 8 (u.get Reg.healthPartner) ++ toLe 8 (u.get Reg.pairPartnerUid)))) ∧
  (served pwrSetCmd q s = some (x, u) → u.setBusy x.p = none →
    ∀ v, v = ((u.forEach (u.setUps x.p) (fun n t => t.setPd n 1)).forEach ((u.setDowns x.p).filter (· != 1))
      (fun n t => t.beginOff n)).deliver x.dest true .ok (toLe 2 (maskOf (u.setAdded x.p)) ++ toLe 2 (u.setTarget x.p)) →
    ((setOff x.p).contains 1 = true → v.pd 1 = 2 → exec (.pwrSet q) s = .next (v.beginOff 1)) ∧
    ((setOff x.p).contains 1 = false ∨ v.pd 1 ≠ 2 → exec (.pwrSet q) s = .next v)) ∧
  (served pwrPlanCmd q s = some (x, u) → ∀ es v, es = (List.range (u16 x.p 0)).map (planEntry x.p) →
    v = u.forEach (List.range 80) (fun p t => t.set (Reg.pwrPlanP p) (match es.find? (fun e => u8 e 0 == p) with
      | some e => u16 e 4 * 2 ^ 32 + u8 e 2 * 2 ^ 16 + u8 e 1 | none => 0)) →
    exec (.pwrPlan q) s = .next ((v.forEach ((List.range 80).filter (fun p => v.portType p != 0)) (fun p t => t.planApply p)).deliver
      x.dest true .ok []))

/-- The calibration commands of R404 and R405 and the measurement commands of R414, R416 and R417. -/
def Obligations.CalibrationAndTdcCommandsAct : Prop := ∀ (q : Request) (s u : State) (x : Ctx),
  (served calRunCmd q s = some (x, u) → u.cal.runs.length < 8 → ∀ items due v,
    items = (u.scopeItems (u8 x.p 0) (u8 x.p 1)).getD [] → due = items.filter (fun k => u.itemState k == 1) →
    v = u.forEach due (fun k t => t.makeDue k) →
    exec (.calRun q) s = .next ((State.settleRuns { v with cal := { v.cal with lastRun := v.cal.lastRun + 1, runs := v.cal.runs ++
        [⟨v.cal.lastRun + 1, items.filter (fun k => v.itemState k != 3), 0, (items.filter (fun k => u.itemState k == 3)).length⟩] } }
        0xFFFF false).deliver x.dest true .ok (toLe 4 (v.cal.lastRun + 1) ++ toLe 2 due.length))) ∧
  (served calStatusCmd q s = some (x, u) → ∀ l n, l = (u.scopeItems (u8 x.p 0) (u8 x.p 1)).getD [] →
    n = (fun st => (l.filter (fun k => u.itemState k == st)).length) →
    exec (.calStatus q) s = .next (u.deliver x.dest true .ok (toLe 2 (n 1) ++ toLe 2 (n 2) ++ toLe 2 (n 3) ++ toLe 2 (n 0) ++
      toLe 4 ((l.map u.itemAge).foldl max 0)))) ∧
  (served tdcArmCmd q s = some (x, u) → u.tdcPhase ≠ 1 → u.tdcPhase ≠ 2 → ∀ d t v w, d = u8 x.p 3 → t = timeAt x.p 20 →
    v = (u.armTdc x.p (u.now d)).startTdc → w = (u.armTdc x.p t).schedule 0x0A00 x.dest.tag (ownerCode x.master) d t x.p →
    ((u8 x.p 10).testBit 0 = false →
      exec (.tdcArm q) s = .next (v.deliver x.dest true .ok (toLe 4 v.tdc.number ++ timeBytes (v.now d)))) ∧
    ((u8 x.p 10).testBit 0 = true → u.due d t = .late →
      exec (.tdcArm q) s = .next (v.deliver x.dest true .late (toLe 4 v.tdc.number ++ timeBytes (v.now d)))) ∧
    ((u8 x.p 10).testBit 0 = true → u.due d t = .scheduled → u.actionsFull = false →
      exec (.tdcArm q) s = .next (w.deliver x.dest true .ok (toLe 4 w.tdc.number ++ timeBytes t)))) ∧
  (served tdcAbortCmd q s = some (x, u) →
    exec (.tdcAbort q) s = .next ((u.endTdc 3).deliver x.dest true .ok (toLe 4 u.tdc.number ++ timeBytes u.tdc.began))) ∧
  (served tdcResultCmd q s = some (x, u) → ∀ r stats, r = u.tdc →
    stats = (if r.count = 0 then zeros 56 else toLe 8 (unsigned 64 r.mean) ++ toLe 8 r.sdev ++ toLe 8 (unsigned 64 r.min) ++
      toLe 8 (unsigned 64 r.max) ++ timeBytes r.first ++ timeBytes r.last) →
    exec (.tdcResult q) s = .next (u.deliver x.dest true .ok (toLe 1 (u.f Reg.tdcState 0 4) ++ toLe 1 (u.f Reg.tdcState 4 4) ++
      toLe 1 (u.f Reg.tdcState 8 2) ++ toLe 1 r.mode ++ toLe 4 r.number ++ toLe 4 r.count ++ toLe 4 r.missed ++ stats ++
      toLe 4 (if r.mode = 1 then r.unpaired else 0))))

/-- The lease commands (R87 to R93): their replies, and the holder of every block after each. -/
def Obligations.LeaseCommandsMoveBlocks : Prop := ∀ (q : Request) (s u : State) (x : Ctx) (me : Nat), me = ownerCode x.master →
  (served leaseTakeCmd q s = some (x, u) → (∀ b ∈ x.blocks, u.owner b = 0 ∨ u.owner b = me) →
    ∃ v z : State, exec (.leaseTake q) s = .next (z.deliver x.dest true .ok z.ownerBytes) ∧
      z = v.leaseChange x.master (x.blocks.filter (fun b => u.owner b == 0)) me 0 ∧
      (∀ b < 64, v.owner b = if b ∈ x.blocks then me else u.owner b) ∧ (∀ b < 64, z.owner b = v.owner b)) ∧
  (served leaseSeizeCmd q s = some (x, u) → (∀ b ∈ x.blocks, u.maySeize x.master b = true) →
    ∀ lost moved, lost = x.blocks.filter (fun b => u.owner b == ownerCode (otherMaster x.master)) →
    moved = x.blocks.filter (fun b => u.owner b != me) →
    ∃ v w z : State, exec (.leaseSeize q) s = .next (z.deliver x.dest true .ok
        (z.ownerBytes ++ toLe 2 (lost.map u.stagedAreas).sum ++ toLe 2 (z.actionsOn moved))) ∧
      (∀ b < 64, v.owner b = if b ∈ x.blocks then me else u.owner b) ∧
      v.fwd.staged = u.fwd.staged.filter (fun y => !lost.contains y.block) ∧
      w = (match otherMaster x.master with
        | .host => (v.loseChain .pcie lost).loseChain .inband lost
        | .sideband => v.loseChain .sideband lost) ∧
      z = (if lost.contains 3 then w.stopStage (otherMaster x.master) x.master else w).leaseChange x.master moved me 2) ∧
  (served leaseDropCmd q s = some (x, u) → (∀ b ∈ x.blocks, u.owner b = me) →
    ∃ v z : State, exec (.leaseDrop q) s = .next (z.deliver x.dest true .ok
        (z.ownerBytes ++ toLe 2 (x.blocks.map u.stagedAreas).sum ++ toLe 2 (z.actionsOn x.blocks))) ∧
      z = v.leaseChange x.master x.blocks 0 1 ∧ (∀ b < 64, v.owner b = if b ∈ x.blocks then 0 else u.owner b) ∧
      v.fwd.staged = u.fwd.staged.filter (fun y => !x.blocks.contains y.block) ∧ (∀ b < 64, z.owner b = v.owner b))

/-- OUT_FORCE and its release (R469), pin by pin. -/
def Obligations.OutForceSetsPins : Prop := ∀ (q : Request) (s u : State) (x : Ctx),
  (served outForceCmd q s = some (x, u) →
    ∃ v : State, exec (.outForce q) s = .next (v.deliver x.dest true .ok (toLe 4 (v.get Reg.gpioForce))) ∧
      (∀ n < 32, v.b Reg.gpioForce n = ((u32 x.p 0).testBit n || u.b Reg.gpioForce n)) ∧
      (∀ n < 32, v.b Reg.gpioForce (32 + n) =
        if (u32 x.p 0).testBit n then (u32 x.p 4).testBit n else u.b Reg.gpioForce (32 + n)) ∧
      (∀ k, k ≠ Reg.gpioForce → v.get k = u.get k) ∧ { v with words := u.words } = u) ∧
  (served outForceReleaseCmd q s = some (x, u) →
    ∃ v : State, exec (.outForceRelease q) s = .next (v.deliver x.dest true .ok (toLe 4 (v.get Reg.gpioForce))) ∧
      (∀ n < 32, v.b Reg.gpioForce n = (!(u32 x.p 0).testBit n && u.b Reg.gpioForce n)) ∧
      (∀ n < 32, v.b Reg.gpioForce (32 + n) = (!(u32 x.p 0).testBit n && u.b Reg.gpioForce (32 + n))) ∧
      (∀ k, k ≠ Reg.gpioForce → v.get k = u.get k) ∧ { v with words := u.words } = u)

/-- The commands whose replies may come later (R113 to R115, R179). -/
def Obligations.FlashAndSnapshotCommandsAct : Prop := ∀ (q : Request) (s u : State) (x : Ctx),
  (served statSnapshotCmd q s = some (x, u) → u.snapBusy = none → ∀ d t v w, d = u8 x.p 0 → t = timeAt x.p 4 →
    v = (u.snapTake d (u.now d) false).snapCapture → w = u.snapTake d t true →
    ((u8 x.p 1).testBit 0 = true → exec (.statSnapshot q) s = .next (v.putOff x.dest (.snapshot false))) ∧
    ((u8 x.p 1).testBit 0 = false → u.due d t = .late → exec (.statSnapshot q) s = .next (v.putOff x.dest (.snapshot true))) ∧
    ((u8 x.p 1).testBit 0 = false → u.due d t = .scheduled → u.actionsFull = false →
      exec (.statSnapshot q) s = .next ((w.schedule 0x0B00 x.dest.tag (ownerCode x.master) d t x.p).deliver x.dest true .ok
        (w.snapBytes w.snap.bank)))) ∧
  (served fwStageCmd q s = some (x, u) → u.staging = false → exec (.fwStage q) s = .next (u.putOff x.dest
    (.flash (u8 x.p 0) (u8 x.p 1) ((u8 x.p 2).testBit 0) ((u8 x.p 2).testBit 1) (u32 x.p 4) (x.p.drop 12)))) ∧
  (served fwActivateCmd q s = some (x, u) → ∀ kind v w, kind = u8 x.p 0 →
    v = u.setPrimary (setBits u.primaryNow.1 (kind - 1) 1 (u8 x.p 1)) (setBits u.primaryNow.2 (kind - 1) 1 (u8 x.p 3)) →
    w = v.endTrial kind →
    (u8 x.p 2 ≠ 1 → exec (.fwActivate q) s = .next (w.deliver x.dest true .ok [])) ∧
    (u8 x.p 2 = 1 → exec (.fwActivate q) s = .next ((w.stopImage kind).putOff x.dest (.activate kind (u8 x.p 1))))) ∧
  (served fwConfirmCmd q s = some (x, u) → ∀ kind v w, kind = u8 x.p 0 →
    v = u.setPrimary u.primaryNow.1 (setBits u.primaryNow.2 (kind - 1) 1 0) →
    w = v.endTrial kind →
    exec (.fwActivateConfirm q) s = .next (w.deliver x.dest true .ok []))

/-- The watch, proof and performance commands (R292, R299, R443, R444). -/
def Obligations.WatchProofAndPerfCommandsAct : Prop := ∀ (q : Request) (s u : State) (x : Ctx),
  (∀ op c, (op = 0 ∧ c = Instr.watchSetWrite q) ∨ (op = 1 ∧ c = .watchSetClear q) ∨ (op = 2 ∧ c = .watchSetRelease q) →
    served (watchSetCmd op) q s = some (x, u) → exec c s = .next (((u.forEach (List.range (u16 x.p 4)) (fun i t =>
      t.watchSetOne op (u16 x.p 2 + i) (slice x.p (8 + 48 * i) 48))).watchCounted).deliver x.dest true .ok [])) ∧
  (served proofStartCmd q s = some (x, u) → u.proof = 0 → ∀ d t v w, d = u8 x.p 2 → t = timeAt x.p 4 →
    v = u.setf Reg.proofState 32 32 (u.proofRun + 1) → w = v.setf Reg.proofState 0 8 1 →
    ((u8 x.p 1).testBit 0 = false → exec (.proofRunStart q) s = .next ((v.proofGo d (v.now d) (maskSlots x.p)).deliver x.dest true .ok
      (toLe 4 v.proofRun ++ timeBytes (v.now d)))) ∧
    ((u8 x.p 1).testBit 0 = true → u.due d t = .late → exec (.proofRunStart q) s =
      .next ((v.proofGo d (v.now d) (maskSlots x.p)).deliver x.dest true .late (toLe 4 v.proofRun ++ timeBytes (v.now d)))) ∧
    ((u8 x.p 1).testBit 0 = true → u.due d t = .scheduled → u.actionsFull = false → exec (.proofRunStart q) s =
      .next ((w.schedule 0x0D01 x.dest.tag (ownerCode x.master) d t x.p).deliver x.dest true .ok (toLe 4 w.proofRun ++ timeBytes t)))) ∧
  (served proofAbortCmd q s = some (x, u) → ∀ v, v = u.setf (slotKey u.proofSlot 8) 56 8 6 →
    exec (.proofRunAbort q) s = .next ((State.proofEnd { v with red := { v.red with proofSlots := [] } } true).deliver x.dest true .ok [])) ∧
  (served perfSelectCmd q s = some (x, u) → ∀ n sel v, n = u8 x.p 0 → sel = u64 x.p 8 →
    v = (u.set (Reg.perfSel n) (bits sel 62 2 * 2 ^ 62 + bits sel 40 20 * 2 ^ 40)).set (Reg.perfThresh n) (u64 x.p 16) →
    exec (.perfSelect q) s = .next ((if (u8 x.p 1).testBit 0 then (v.set (Reg.perfCnt n) 0).clearOvf n else v).deliver x.dest true .ok [])) ∧
  (served perfReadCmd q s = some (x, u) → exec (.perfRead q) s = .next (u.deliver x.dest true .ok
    (toLe 8 (u.get Reg.perfCycles) ++ (bitsSet (u64 x.p 0) 64).flatMap (fun n => toLe 8 (u.get (Reg.perfCnt n))))))

/-- A register write (R27, R28, R72, R482). -/
def Obligations.RegisterWriteChangesOneWord : Prop := ∀ (path : WritePath) (addr k : Nat) (value : Word) (s : State),
  (addr = match path with | .command _ => k | .bar0 _ => bar0Offset k) →
  (lands path k value.toNat s = true → ∃ t : State, exec (.registerWrite path addr value) s = .next t ∧
    (plainBlocks.contains (blockOf k) = true → t = landed path k value.toNat s ∧
      (∀ i < 64, (t.get k).testBit i =
        if value.toNat.testBit i && (clearMask k).testBit i then false
        else if (writeMask k).testBit i then value.toNat.testBit i else (s.get k).testBit i) ∧
      (∀ j, j ≠ k → t.get j = s.get j) ∧ { t with words := s.words } = pathState path s)) ∧
  (∀ m e, path = .command m → s.fresh.writeErr false m k value.toNat = some e → ringRefused k (s.landing k value.toNat) = none →
    exec (.registerWrite path addr value) s = .next s.fresh) ∧
  (∀ e, path = .bar0 8 → s.bar0Up = true → bar0Offset k < 2 ^ 28 → bar0Mark (bar0Offset k) = k → bar0Offset k % 8 = 0 →
    msixWord k = false → userPage k = false → (s.fresh.active .host).writeErr true .host k value.toNat = some e →
    ringRefused k (s.landing k value.toNat) = none →
    ∃ t : State, exec (.registerWrite path addr value) s = .next t ∧ (∀ j, j ∉ discardWords → t.get j = s.get j) ∧
      (e.st = .lease → t.f Reg.cmdBar0LeaseDrop 0 32 = min (s.f Reg.cmdBar0LeaseDrop 0 32 + 1) (2 ^ 32 - 1)) ∧
      (e.st ≠ .lease → t.f Reg.cmdBar0Refused 0 32 = min (s.f Reg.cmdBar0Refused 0 32 + 1) (2 ^ 32 - 1)))

/-- Doorbells and ring control words (R78 to R80, R94, R201, R270, R327). -/
def Obligations.DoorbellAndRingWritesAct : Prop := ∀ (path : WritePath) (value : Word) (s : State) (v c d : Nat) (w : State),
  v = value.toNat → c = v % 65536 → d = v % 2 ^ 32 → ∀ refuse : Nat → Nat → Host.Outcome State Fault Refusal,
  refuse = (fun ctrl ring => .next (((w.setf Reg.cmdHostStatus 0 1 1).setf ctrl 31 1 0).raise 4 (toLe 1 ring ++ toLe 1 1))) →
  (lands path Reg.cmdDbCmd v s = true → w = landed path Reg.cmdDbCmd v s →
    exec (.cmdDbCmd path value) s = if (c + 65536 - w.f Reg.cmdCmdrCons 0 16) % 65536 ≤ w.ringSize Reg.cmdCmdrCtrl 4
      then .next { w with ctl := { w.ctl with cmdProd := c } } else refuse Reg.cmdCmdrCtrl 0) ∧
  (lands path Reg.cmdDbRpl v s = true → w = landed path Reg.cmdDbRpl v s →
    exec (.cmdDbRpl path value) s = if (w.f Reg.cmdRplrProd 0 16 + 65536 - c) % 65536 ≤ w.ringSize Reg.cmdRplrCtrl 4
      then .next { w with ctl := { w.ctl with rplCons := c } } else refuse Reg.cmdRplrCtrl 1) ∧
  (lands path Reg.cmdDbEvt v s = true → w = landed path Reg.cmdDbEvt v s →
    exec (.cmdDbEvt path value) s = if (w.f Reg.cmdEvtrProd 0 16 + 65536 - c) % 65536 ≤ w.ringSize Reg.cmdEvtrCtrl 4
      then .next (State.flushHostLost { w with ctl := { w.ctl with evtCons := c } }) else refuse Reg.cmdEvtrCtrl 2) ∧
  (∀ r < 10, lands path (Reg.p80RingDb r) v s = true → w = landed path (Reg.p80RingDb r) v s →
    exec (.p80RingDb path r value) s =
      if (if r = 9 then w.f (Reg.p80RingDev r) 0 16 + 65536 - c else c + 65536 - w.f (Reg.p80RingDev r) 0 16) % 65536 ≤
        2 ^ w.f (Reg.p80RingCtrl r) 0 4
      then .next { w with rings := { w.rings with counts := modifyAt w.rings.counts r (fun _ => c) } }
      else refuse (Reg.p80RingCtrl r) (8 + r)) ∧
  (lands path Reg.qmonDb v s = true → w = landed path Reg.qmonDb v s →
    exec (.qmonDb path value) s = if (w.f Reg.qmonProd 0 32 + 2 ^ 32 - d) % 2 ^ 32 ≤ 2 ^ w.f Reg.qmonRingCtrl 0 5
      then .next (State.qmonGap { w with qmon := { w.qmon with cons := d } })
      else .next ((w.setf Reg.qmonRingCtrl 31 1 0).raise 4 (toLe 1 18 ++ toLe 1 1))) ∧
  (∀ r < 4, lands path (Reg.ledgerRingDb r) v s = true → w = landed path (Reg.ledgerRingDb r) v s →
    exec (.ledgerRingDb path r value) s =
      if (w.f (Reg.ledgerRingProd r) 0 32 + 2 ^ 32 - d) % 2 ^ 32 ≤ 2 ^ w.f (Reg.ledgerRingCtrl r) 0 5
      then .next (w.setLedger r (fun x => { x with cons := d }))
      else .next ((w.setf (Reg.ledgerRingCtrl r) 31 1 0).raise 4 (toLe 1 (4 + r) ++ toLe 1 1))) ∧
  (∀ ring, ringExists ring = true → lands path (ringCtrl ring) v s = true → w = landed path (ringCtrl ring) v s →
    exec (.ringEnable path ring value) s =
      if (s.get (ringCtrl ring)).testBit 31 = false ∧ w.b (ringCtrl ring) 31 = true then
        .next (ringRestarted ring w)
      else .next w)

/-- The single-word writes with an effect of their own, outside the rings, lanes and planes. -/
def Obligations.SystemWritesAct : Prop := ∀ (path : WritePath) (value : Word) (s : State) (v : Nat), v = value.toNat →
  (∀ cold code c, (cold = true ∧ code = 0xC0 ∧ c = Instr.devResetCold path) ∨ (cold = false ∧ code = 0xA0 ∧ c = .devResetWarm path) →
    lands path Reg.devReset code s = true → ∀ w, w = landed path Reg.devReset code s →
    exec c s = .next (if w.boot.resetDue.isSome then w
      else { w with boot := { w.boot with resetDue := some (cold, w.ticks + 1250000) } })) ∧
  (∀ n < 16, lands path (Reg.secKeyW n) v s = true → ∀ w, w = landed path (Reg.secKeyW n) v s →
    exec (.secKeyWrite path n value) s = .next (if n % 4 = 0 then w.setf Reg.secKeyValid (n / 4) 1 0
      else if n % 4 = 3 then w.setf Reg.secKeyValid (n / 4) 1 1 else w) ∧ w.get (Reg.secKeyW n) = v) ∧
  (∀ x w, x = setBits (s.get Reg.secCtrl) 0 1 1 → lands path Reg.secCtrl x s = true → w = landed path Reg.secCtrl x s →
    exec (.secLock path) s = .next w ∧ w.b Reg.secCtrl 0 = true ∧ w.f Reg.secCtrl 1 1 = s.f Reg.secCtrl 1 1) ∧
  (lands path Reg.bufPoolCfg v s = true →
    exec (.carrelPoolWrite path value) s = .next (landed path Reg.bufPoolCfg v s).poolCheck.moveK) ∧
  (∀ c < 2, ∀ entry < 4096, lands path (retiredKey c entry) v s = true → ∀ w n, w = landed path (retiredKey c entry) v s →
    n = (w.retiredList c).length →
    exec (.stackRetiredWrite path c entry value) s = .next (if 4096 ≤ n ∧ w.f (Reg.stackChStatus (1 + c)) 0 4 = 2
      then (w.set (Reg.stackChRetiredN (1 + c)) n).channelLeave c 3 4 else w.set (Reg.stackChRetiredN (1 + c)) n)) ∧
  (lands path Reg.stackCfg v s = true → exec (.stackChEnClear path value) s =
    .next ((landed path Reg.stackCfg v s).forEach [0, 1] (fun c t =>
      if s.b Reg.stackCfg c && !t.b Reg.stackCfg c && t.channel c == 2 then t.channelLeave c 3 6 else t))) ∧
  (lands path Reg.fdbFlush v s = true → exec (.fdbFlush path value) s = .next ((landed path Reg.fdbFlush v s).fdbFlush v)) ∧
  (lands path Reg.pairCfg v s = true → ∀ w, w = landed path Reg.pairCfg v s → s.f Reg.pairCfg 0 2 ≠ w.f Reg.pairCfg 0 2 →
    exec (.pairModeSet path value) s = .next (if w.pairMode then w.enterPair else w.enterAlone)) ∧
  (∀ n < 64, lands path (Reg.perfStatus n) v s = true → ∀ w, w = landed path (Reg.perfStatus n) v s →
    exec (.perfOvfClear path n value) s = .next (if v.testBit 0 then w.clearOvf n else w)) ∧
  (∀ k < 4, ∀ x w, x = setBits v 63 1 1 → lands path (Reg.i2cXfer (0x100 + k)) x s = true → w = landed path (Reg.i2cXfer (0x100 + k)) x s →
    exec (.i2cGo path k value) s = .next (if w.i2cBusy k || w.f (Reg.i2cCfg (0x100 + k)) 0 2 == 0 then w
      else (({ w with boot := { w.boot with i2cReads := w.boot.i2cReads.filter (· != k) ++
          (if w.f (Reg.i2cXfer (0x100 + k)) 62 1 = 1 then [k] else []) } }).setf (Reg.i2cStatus (0x100 + k)) 8 1 1).emit (.i2c k (w.b (Reg.i2cXfer (0x100 + k)) 62)
        (w.f (Reg.i2cXfer (0x100 + k)) 48 7) (w.f (Reg.i2cXfer (0x100 + k)) 40 8) (w.f (Reg.i2cXfer (0x100 + k)) 0 8))))

/-- The single-word writes that act on lanes, ports, links and planes. -/
def Obligations.LaneAndPlaneWritesAct : Prop := ∀ (path : WritePath) (value : Word) (s : State) (v : Nat), v = value.toNat →
  (∀ l, laneExists l = true → lands path (laneKey l 6) 2 s = true → ∀ w, w = landed path (laneKey l 6) 2 s →
    exec (.hlaneRestartTx path l) s = .next (if w.txState l = 0 then w else w.txStart l)) ∧
  (∀ l, laneExists l = true → lands path (laneKey l 6) 1 s = true → ∀ w, w = landed path (laneKey l 6) 1 s →
    exec (.hlaneRestartRx path l) s = .next (if w.rxState l = 4 then w.lockLost l 5 2
      else if w.rxState l = 3 ∨ w.rxState l = 6 then w.setf (laneKey l 5) 0 4 2 else w)) ∧
  (∀ l target, laneExists l = true → lands path (laneKey l 0x12) (target % 16 + 16) s = true →
    ∀ w, w = landed path (laneKey l 0x12) (target % 16 + 16) s →
    exec (.marginStart path l target) s = .next (if w.f (laneKey l 0x13) 0 8 = 1 then w
      else if w.rxState l = 4 then
        ((w.set (laneKey l 0x13) 0).setf (laneKey l 0x13) 0 10 (1 + w.probeEye l * 256)).setf (laneKey l 0x12) 4 1 1
      else (w.set (laneKey l 0x13) (if laneKind l = 0 then 0 else 256)).marginEnd l 4)) ∧
  (∀ p < 83, lands path (Reg.macPortType p) v s = true → ∀ b n, b = pathState path s → n = bits (b.landing (Reg.macPortType p) v) 0 8 →
    exec (.macPortTypeWrite path p value) s = .next (if n = b.portType p then b else b.typeWritten p n)) ∧
  (∀ p < 80, ∀ x w, x = setBits v 1 1 1 → lands path (Reg.pcsLinkCtrl p) x s = true → w = landed path (Reg.pcsLinkCtrl p) x s →
    exec (.pcsLinkRemeasure path p value) s = .next ((w.linkInvalid p 3).linkProgress p 3)) ∧
  (∀ p < 80, ∀ x w, x = setBits v 0 1 1 → lands path (Reg.pcsLinkCtrl p) x s = true → w = landed path (Reg.pcsLinkCtrl p) x s →
    exec (.pcsLinkAccept path p value) s = .next (if v.testBit 1 then (w.linkInvalid p 3).linkProgress p 3
      else if w.linkState p = 2 then w.linkValid p 6 (assoc w.link.suspect p) else w)) ∧
  (∀ d < 8, ∀ x w, x = setBits v 0 1 1 → lands path (Reg.dpllCtrl d) x s = true → w = landed path (Reg.dpllCtrl d) x s →
    exec (.clearOffset path d value) s = .next (w.clearUser d)) ∧
  (∀ p < 80, ∀ k w, k = Reg.refselPortCfg (0x200 + p) → lands path k v s = true → w = landed path k v s →
    ∀ u, u = (if s.f k 62 2 = w.f k 62 2 then w else w.forEach (w.portLanes p) (fun l t => if t.txState l = 0 then t else t.txStart l)) →
    exec (.txPlaneWrite path p value) s = .next (if s.b k 60 = true ∧ u.b k 60 = false
      then ({ u with ref := { u.ref with heard := assocDel u.ref.heard p } } : State).setQl p 0xF 0 else u))

/-- The transports of packets: the command ring, in-band control and the side-band SPI. -/
def Obligations.PacketTransportsServe : Prop := ∀ s u : State,
  (∀ entries, s.bar0Up = true → s.b Reg.cmdCmdrCtrl 31 = true → ∀ waiting room l,
    waiting = (s.ctl.cmdProd + 65536 - s.f Reg.cmdCmdrCons 0 16) % 65536 →
    room = s.replyFree - s.ctl.outstanding - bit s.ctl.pcie.session.chain.isSome →
    s.fresh.acceptEntries (s.ringSize Reg.cmdCmdrCtrl 4) (entries.take (min waiting room)) = (u, l) →
    exec (.commandFetch entries) s = .next ((l.filter isUrgent ++ l.filter (fun x => !isUrgent x)).foldl State.runAccepted u)) ∧
  (∀ p < 80, ∀ frame d b q w, taken p frame s.fresh = some (d, w) →
    (w.isInband d = false → exec (.inbandControlFrame p frame) s = .next (w.good p d frame.length)) ∧
    (w.isInband d = true → u = w.mirrorTaken p d frame.length →
    b = d.drop (if be16 d 12 = 0x88B5 then 14 else 18) →
    q = { blankRequest .inband with port := p, src := be48 d 6, vlan := if be16 d 12 = 0x88B5 then none else some (be32 d 12) } →
    (u.inbandPort p = false ∨ u.serves 1 = false →
      exec (.inbandControlFrame p frame) s = .next (u.count Reg.cmdInbandDrop 0 32 1)) ∧
    (u.inbandPort p = true → u.serves 1 = true → hasMarker b = true → 16 ≤ u.ctl.inbandOut →
      ∀ t, t = replyToOf (requestOf q b) (u16 b 4) none →
      exec (.inbandControlFrame p frame) s = .next (u.fail { t with flags := t.flags % 4 } false (.busy 1000))) ∧
    (u.inbandPort p = true → u.serves 1 = true → u.ctl.inbandOut < 16 → ∀ v o, u.receivePacket q b = (v, o) →
      exec (.inbandControlFrame p frame) s = .next (match o with | none => v | some x => v.runAccepted x)))) ∧
  (∀ packet, u = s.fresh.spiBytes (1 + packet.length) →
    (hasMarker packet = false → ∀ t, t = u.count Reg.cmdSbFramingErr 0 32 1 →
      exec (.reqWrite packet) s = .next { t with ctl := { t.ctl with sbFraming := true } }) ∧
    (hasMarker packet = true → 8 ≤ s.ctl.sbReq.length + s.ctl.sbAccepted.length →
      ∀ t, t = replyToOf (requestOf (blankRequest .sideband) packet) (u16 packet 4) none →
      exec (.reqWrite packet) s = .next (u.fail { t with flags := t.flags % 4 } false (.plain .busy))) ∧
    (hasMarker packet = true → s.ctl.sbReq.length + s.ctl.sbAccepted.length < 8 →
      exec (.reqWrite packet) s = .next (State.sbCheck 8 { u with ctl := { u.ctl with sbReq := s.ctl.sbReq ++ [packet] } }))) ∧
  (u = s.fresh.spiBytes 10 → exec .statusRead s = .next { u with
    ctl := { u.ctl with sbFraming := false }
    out := [.spi (toLe 1 (bit (!s.ctl.sbReplies.isEmpty) + 2 * bit (!s.ctl.sbEvents.isEmpty) +
      4 * bit (decide (8 ≤ s.ctl.sbReq.length + s.ctl.sbAccepted.length)) + 8 * bit s.ctl.sbFraming) ++
      toLe 1 (8 - (s.ctl.sbReq.length + s.ctl.sbAccepted.length)) ++ toLe 2 (s.ctl.sbReplies.headD []).length ++
      toLe 2 (s.ctl.sbEvents.headD []).length ++ zeros 2)] }) ∧
  (∀ n, u = s.fresh.spiBytes (2 + n) →
    (s.ctl.sbReplies = [] → exec (.replyRead n) s = .next { u with out := [.spi (zeros n)] }) ∧
    (∀ b rest, s.ctl.sbReplies = b :: rest → n < b.length → exec (.replyRead n) s = .next { u with out := [.spi (b.take n)] }) ∧
    (∀ b rest, s.ctl.sbReplies = b :: rest → b.length ≤ n → exec (.replyRead n) s =
      .next (State.sbPromote 8 (State.attnAfter { u with out := [.spi (b ++ zeros (n - b.length))], ctl := { u.ctl with sbReplies := rest } }))) ∧
    (s.ctl.sbEvents = [] → exec (.eventRead n) s = .next { u with out := [.spi (zeros n)] }) ∧
    (∀ b rest, s.ctl.sbEvents = b :: rest → n < b.length → exec (.eventRead n) s = .next { u with out := [.spi (b.take n)] }) ∧
    (∀ b rest, s.ctl.sbEvents = b :: rest → b.length ≤ n → exec (.eventRead n) s = .next (State.attnAfter (State.flushSbLost
      { u with out := [.spi (b ++ zeros (n - b.length))], ctl := { u.ctl with sbEvents := rest } })))) ∧
  (∀ b, u = s.fresh.spiBytes 1 → b = 0 ∨ 4 < b → ∀ t, t = u.count Reg.cmdSbFramingErr 0 32 1 →
    exec (.spiInvalidCommand b) s = .next { t with ctl := { t.ctl with sbFraming := true } }) ∧
  (∀ x, u = s.fresh.sbCheck 8 → (u.ctl.sbAccepted.find? isUrgent = some x ∨
      (u.ctl.sbAccepted.find? isUrgent = none ∧ u.ctl.sbAccepted.head? = some x)) →
    u.slotFree (cmdOf x.1.opcode (u.joined x.1 x.2)) x.1 = true →
    exec .sidebandCommandStart s =
      .next (State.runAccepted { u with ctl := { u.ctl with sbAccepted := u.ctl.sbAccepted.erase x } } x))

/-- Timers of the sessions, masters, engines and vectors, and BAR0 reads. -/
def Obligations.TimersAndEnginesAct : Prop := ∀ s : State,
  (∀ via ch, (s.transport via).session.chain = some ch → ch.last + 125000000 < s.ticks → (via = .sideband → s.sbRoom = true) →
    exec (.chainTimeout via) s =
      .next ((s.fresh.setSession via (fun ses => { ses with chain := none })).fail ch.dest true (.plain .truncated))) ∧
  (∀ via t, (s.transport via).lockout = some t → t + 1250000000 ≤ s.ticks →
    exec (.authLockoutEnd via) s = .next (s.fresh.setTransport via (fun x => { x with lockout := none, authRun := 0 }))) ∧
  (s.f Reg.cmdHostSilenceMs 0 16 < s.idleMs .host → s.ctl.hostSilentSent = false →
    exec .hostSilent s = .next (State.raiseSb { s with out := [], ctl := { s.ctl with hostSilentSent := true } } 7 0 0
      (toLe 4 (s.idleMs .host)))) ∧
  (s.f Reg.cmdSbSilenceMs 0 16 < s.idleMs .sideband → s.ctl.sbSilentSent = false →
    exec .sbSilent s = .next (State.raiseHost { s with out := [], ctl := { s.ctl with sbSilentSent := true } } 8 0 0
      (toLe 4 (s.idleMs .sideband)))) ∧
  (∀ e < 12, (s.engine e).running = true → exec (.engineWatchdogExpiry e) s =
    .next ((((s.fresh.stopEngines [e]).setEngine e (fun g => { g with restarts := min (g.restarts + 1) (2 ^ 32 - 1) })).mark 7).answerQueued [e]).refresh) ∧
  (∀ e < 12, ∀ g, g = s.engine e → g.selected = true → g.running = false → g.restarts ≠ 0 → s.engineHost e = true → s.imageLoaded e = true →
    exec (.engineRestart e) s = .next (((s.fresh.runEngines [e]).raise 0x103
      (toLe 1 e ++ zeros 3 ++ toLe 4 g.restarts)).refresh)) ∧
  (∀ (c : Cmd) (q : Request) (u v : State) (x : Ctx) (completed : Bool) (e : Nat), arrived c q s = some (x, u) → refusal c x u = none →
    (∀ y t body, s.fresh.accept c.opcode q = (y, some (t, body)) → cmdOf c.opcode (y.joined t body) = some c) →
    cmdOf c.opcode (s.fresh.joined (replyToOf q c.opcode none) (if q.flags.testBit 6 then q.payload.drop 32 else q.payload)) = some c →
    e = c.serving x v → u = v →
    exec (.mailboxReplyDeadline q c.opcode completed) s = .next ((((((if completed then
        (match c.run x v with | .reply _ _ t => c.after x t | .later _ t => t | .error _ _ => v) else v).fail x.dest true
      ⟨.internal, 0xFFFF, 6, bit completed⟩).deviceFault).setEngine e (fun g => { g with stalled := true })).answerQueued [e]).refresh)) ∧
  (∀ offset k, k = bar0Mark offset →
    (s.bar0Up = false ∨ 2 ^ 28 ≤ offset → exec (.bar0Read offset) s = .next s.fresh) ∧
    (s.bar0Up = true → offset < 2 ^ 28 → msixWord k = true → exec (.bar0Read offset) s = .next { s with out := [.bar0 (s.get k)] }) ∧
    (s.bar0Up = true → offset < 2 ^ 28 → msixWord k = false → defined k = true → s.on (pdOfWord k) = true →
      exec (.bar0Read offset) s = .next ((s.fresh.afterRead 0 k).emit (.bar0 (s.fresh.shown 0 k)))) ∧
    (s.bar0Up = true → offset < 2 ^ 28 → msixWord k = false → defined k = false ∨ s.on (pdOfWord k) = false →
      exec (.bar0Read offset) s = .next { s with out := [.bar0 0] })) ∧
  (∀ v < 64, v ∈ s.ctl.held → (∀ t, assoc s.ctl.lastSignal v = some t → t + s.modUs v * 1250 ≤ s.ticks) →
    ∀ t, t = s.fresh.msix v → exec (.msixModerationTimer v) s = .next { t with ctl := { t.ctl with
      lastSignal := assocSet t.ctl.lastSignal v t.ticks, held := t.ctl.held.filter (· != v) } })

/-- The resets. -/
def Obligations.ResetsAct : Prop := ∀ s : State,
  (∀ hold pref, exec (.coldReset (some (hold, pref))) s = .next (s.coldReset hold pref 1)) ∧
  (∀ t, s.boot.resetDue = some (true, t) → t ≤ s.ticks →
    exec (.coldReset none) s = .next (s.coldReset (s.b Reg.devStraps 0) (s.b Reg.pairState 1) 2)) ∧
  (∀ pref cause, ∃ t, t = s.coldReset false pref cause ∧ (cause = 1 → exec (.coldReset (some (false, pref))) s = .next t) ∧
    t.pending = s.pending ∧ t.ticks = 0 ∧ t.engines = Engine.resetAll ∧ t.ctl = Ctl.reset ∧ t.boot.stage = 0 ∧
    t.boot.flash = s.boot.flash ∧ t.boot.fuses = s.boot.fuses ∧ t.buf = BufferSide.reset ∧ t.fwd = Forwarding.reset ∧ t.gates = [] ∧
    t.get Reg.devResetCause = cause % 2 ^ 64 ∧ (∀ n < 16, t.pd n = if n = 0 then 2 else 0) ∧
    ∀ k, k ∉ [Reg.devId, Reg.devUid, Reg.devResetCause, Reg.devStraps, Reg.pairState, Reg.fwKeyStatus] →
      t.get k = (resetWord k).toNat) ∧
  exec (.warmReset true) s = .next (s.fresh.warmReset 4) ∧
  (∀ t, s.boot.resetDue = some (false, t) → t ≤ s.ticks → exec (.warmReset false) s = .next (s.fresh.warmReset 8)) ∧
  (∀ pin, s.boot.resetDue = none → exec (.coldReset none) s = .next s.fresh ∧
    exec (.warmReset pin) s = .next (if pin then s.fresh.warmReset 4 else s.fresh))

/-- The steps of start-up. E0 starts with the first of them if it does not run (`e0Start`). -/
def Obligations.StartUpStepsAct : Prop := ∀ s u : State, u = s.fresh.e0Start →
  (u.boot.countKnown = false →
    (∀ n m, journalNext u.boot.flash = (n, m) → exec (.coldBootCount true true) s =
      .next (State.set { u with boot := { u.boot with flash := m, countKnown := true } } Reg.fwColdBoots n)) ∧
    (∀ r p, (r && p) = false → exec (.coldBootCount r p) s =
      .next (State.set { u with boot := { u.boot with countKnown := true } } Reg.fwColdBoots (2 ^ 32)))) ∧
  (u.boot.stage = 0 → u.serves 0 = true →
    (u.b Reg.devStraps 0 = true → exec .bootHeaderRead s = .next (u.holdBoot 4)) ∧
    (u.b Reg.devStraps 0 = false → (u.boot.flashMib < 256 ∨ headerNow u.boot.flash = none) → exec .bootHeaderRead s = .next (u.holdBoot 5)) ∧
    (u.b Reg.devStraps 0 = false → 256 ≤ u.boot.flashMib → ∀ c, headerNow u.boot.flash = some c → ∀ x, x = headerAt u.boot.flash c →
      exec .bootHeaderRead s = .next ((State.set { u with boot := { u.boot with stage := 1, headerCopy := some c, header := x } }
        Reg.fwBootResult (c * 2 ^ 25)).set Reg.fwPrimary (u8 x 14 % 8 * 8 + u8 x 13 % 8)))) ∧
  (∀ cfg copy, s.boot.headerCopy = some copy → s.boot.stage = 1 → s.serves 0 = true →
    exec (.imageSelection cfg) s = .next (s.fresh.selectImages cfg.values cfg.ids copy)) ∧
  (∀ kind slot, kind = 1 ∨ kind = 2 → (if kind = 1 then s.boot.opSlot else s.boot.timeSlot) = some slot → s.boot.stage = 2 →
    s.on 2 = true → s.runningSlot kind = 0xFF → s.serves 0 = true → s.slotCode s.boot.header kind slot = 1 →
    exec (.imageLoadDone kind) s = .next (s.fresh.startImage kind slot)) ∧
  (∀ entries calendars, (s.on 4 && s.on 6 && !s.boot.tablesLoaded && s.boot.stage == 2 && s.serves 0) = true →
    ∀ num changes v, num = (s.boot.lastEpoch + 1) % 2 ^ 32 →
    changes = (if s.boot.cfgSlot.isSome then entries.map (fun x => (⟨x.1, x.2.1, x.2.2.1, some x.2.2.2⟩ : Staged)) else []) →
    v = State.newEpoch { s with
      out := [], boot := { s.boot with tablesLoaded := true, lastEpoch := num, pipeFilled := s.boot.pipeFilled / 8 * 8 + 7 } }
      num s.fwdDom (s.now s.fwdDom) changes →
    exec (.hardwareTablesLoaded entries calendars) s =
      .next ((v.forEach (if s.boot.cfgSlot.isSome then calendars else []) State.startCalendar).portsChanged (pipePorts 4)).refresh) ∧
  ((s.on 5 && s.boot.tablesLoaded && s.serves 8) = true → exec .tableRefillDone s =
    .next ((State.resumeCalendars { s with out := [], boot := { s.boot with pipeFilled := s.boot.pipeFilled % 8 + 56 } }).portsChanged
      (pipePorts 5)).refresh)

/-- Ends of power transitions, flash operations and trials. -/
def Obligations.PowerAndFlashEventsAct : Prop := ∀ s u : State, u = s.fresh →
  (∀ n < 16, s.pd n = 1 → (requires n).all s.on = true →
    exec (.powerUpComplete n) s = .next (((u.setPd n 2).startDomain n).portsChanged (portsOfPd n)).refresh) ∧
  (∀ n < 16, ∀ frames v, s.pd n = 3 → (∀ m < 16, n ∈ requires m → s.pd m = 0) →
    v = (if framesPass n then u.forEach (frames.filter (· < 83)) (fun p s => s.stat p 0x47 1) else u) →
    exec (.powerDownComplete n frames) s = .next (((v.setPd n 0).cutDomain n).portsChanged (portsOfPd n)).refresh) ∧
  (∀ d kind slot erase final offset data, s.ctl.deferred.find? Deferred.stages = some d →
    d.job = .flash kind slot erase final offset data → s.serves 0 = true →
    exec (.flashOperationDone false) s = .next (u.failDeferred d ⟨.internal, 0xFFFF, 6, 0⟩).deviceFault ∧
    (∀ v code, v = u.staged kind slot erase offset data → code = v.finalCode kind slot →
      (final = false → exec (.flashOperationDone true) s = .next (v.answerDeferred d .ok [])) ∧
      (final = true → code ≠ 1 → exec (.flashOperationDone true) s = .next (v.answerDeferred d .ok (toLe 1 code))) ∧
      (final = true → code = 1 →
        exec (.flashOperationDone true) s = .next ((v.passSlot kind slot).answerDeferred d .ok (toLe 1 1))))) ∧
  (∀ d kind slot, s.ctl.deferred.find? Deferred.activates = some d → d.job = .activate kind slot → s.on 2 = true → s.serves 0 = true →
    exec .imageActivationDone s = .next ((u.startImage kind slot).answerDeferred d .ok [])) ∧
  (∀ kind t, 1 ≤ kind → kind ≤ 3 → assoc s.boot.trialAt kind = some t → s.serves 0 = true →
    s.primaryNow.2.testBit (kind - 1) = true → t + s.f Reg.fwTrialS 0 32 * 1250000000 ≤ s.ticks → ∀ prev v,
    prev = 1 - bits s.primaryNow.1 (kind - 1) 1 →
    v = (u.setPrimary (setBits s.primaryNow.1 (kind - 1) 1 prev) (setBits s.primaryNow.2 (kind - 1) 1 0)).endTrial kind →
    (kind = 3 → exec (.trialReverted kind) s = .next (v.raise 0x102 (toLe 1 3 ++ toLe 1 (v.boot.cfgSlot.getD prev)))) ∧
    (kind ≠ 3 → v.on 2 = true → exec (.trialReverted kind) s =
      .next (((v.stopImage kind).startImage kind prev).raise 0x102 (toLe 1 kind ++ toLe 1 prev))) ∧
    (kind ≠ 3 → v.on 2 = false → exec (.trialReverted kind) s = .next (v.raise 0x102 (toLe 1 kind ++ toLe 1 prev))))

/-- Faults of islands and memories, and the landing of immediate steps. -/
def Obligations.IslandAndMemoryFaultsAct : Prop := ∀ s u : State, u = s.fresh →
  (∀ i < 22, s.islandUp i = true → i ≠ 1 → i ≠ 2 → ∀ v w es,
    v = (State.setf (if i = 18 then u.stopTime else u) (Reg.clkIslStatus i) 0 2 0).count (Reg.clkIslLockLoss i) 0 32 1 →
    es = (islandEngines i).filter (fun e => (v.engine e).running) → w = ((v.stopEngines es).answerQueued es).islandDrops i →
    (14 ≤ i → i ≤ 17 → exec (.islandLockLoss i) s = .next ((w.forEach (islandPorts i) (fun p s => s.linkDown p 1)).islandFault 0 i).refresh) ∧
    (i = 4 → ∀ x, x = w.portsChanged (islandPorts i) →
      exec (.islandLockLoss i) s = .next (State.islandFault { x with boot := { x.boot with linkUp := false } } 0 4).refresh) ∧
    (i ≠ 4 → i < 14 ∨ 17 < i → exec (.islandLockLoss i) s = .next ((w.portsChanged (islandPorts i)).islandFault 0 i).refresh)) ∧
  (∀ i < 22, s.islandUp i = false → s.on (islandPd i) = true → ∀ v w,
    v = (if i = 0 then u.setIslands 0 3 else u.set (Reg.clkIslStatus i) 3) →
    w = v.runEngines ((islandEngines i).filter (fun e => (v.engine e).selected && v.engineHost e && v.imageLoaded e)) →
    exec (.islandRestart i) s = .next ((State.portsChanged (if i = 18 then w.restartTime else
      if i = 11 then w.moveK.poolCheck.pfcCheckAll.refillAll else w) (islandPorts i))).refresh) ∧
  (∀ i < 22, exec (.crossingFifoError i) s = .next ((u.count (Reg.clkIslXingErr i) 0 32 1).islandFault 1 i)) ∧
  (∀ mem < 3, ∀ frame cells, exec (.bufMemFault mem true frame cells) s = .next (u.count Reg.bufMemErr 0 32 1) ∧
    (∀ v w, v = (u.count Reg.bufMemErr 32 32 1).raise 0x507 (toLe 1 mem ++ toLe 1 ((frame.bind s.frame).elim 0xFF (·.port))) →
      w = v.faultCells mem frame cells →
      exec (.bufMemFault mem false frame cells) s = .next (frame.elim w (fun id => w.dropFrame id)))) ∧
  (s.timeUp = true → s.ticks % 1024 = 0 → exec .replicaRealign s =
    .next (State.forEach { s with out := [], clock := { s.clock with landings := [] } } s.clock.landings (fun l s => s.land l)))

/-- The receive states of lanes. `laneKey l 5` is the lane's state word, whose bits 3:0 are RX_STATE and bit 11 SIGNAL. -/
def Obligations.LaneStatesMove : Prop := ∀ s u : State, u = s.fresh →
  (∀ l, laneExists l = true →
    (s.rxState l = 1 → exec (.laneSignalDetect l) s = .next ((u.setf (laneKey l 5) 0 4 2).setf (laneKey l 5) 11 1 1)) ∧
    (s.rxState l ≠ 1 → exec (.laneSignalDetect l) s = .next (u.setf (laneKey l 5) 11 1 1)) ∧
    (∀ found, s.rxState l = 2 → ∀ top, top = (if laneKind l = 0 then 15 else 11) →
      (s.f (laneKey l 3) 8 2 = 0 → exec (.laneClockStable l found) s =
        .next ((u.setf (laneKey l 5) 0 4 3).setf (laneKey l 4) 0 4 (min (s.f (laneKey l 3) 0 4) top))) ∧
      (s.f (laneKey l 3) 8 2 ≠ 0 → exec (.laneClockStable l found) s =
        .next ((u.setf (laneKey l 5) 0 4 3).setf (laneKey l 4) 0 4 (min found top)))) ∧
    (∀ hs, s.rxState l = 4 →
      exec (.laneLockLost l .signal) s = .next ((u.setf (laneKey l 5) 11 1 0).lockLost l 0 1) ∧
      (s.alignmentLost l hs = true → exec (.laneLockLost l (.alignment hs)) s = .next (u.lockLost l 1 3)) ∧
      (s.alignmentLost l hs = false → exec (.laneLockLost l (.alignment hs)) s = .next u) ∧
      exec (.laneLockLost l .clock) s = .next (u.lockLost l 2 2)) ∧
    (∀ c, s.lossHolds l c = true → s.rxState l = 6 → exec (.laneLockLost l c) s = .next (u.wakeFailed l))) ∧
  (∀ p < 80, ∀ reports single rs, s.portLanes p ≠ [] → (∀ l ∈ s.portLanes p, s.rxState l = 3 ∨ s.rxState l = 6) →
    single = ((s.portLanes p).length == 1) → rs = (s.portLanes p).zip (reports ++ List.replicate 4 (⟨0, 0, 0, 0⟩ : LaneReport)) →
    (single = true ∨ ∀ x ∈ rs, x.2.deskew ≤ deskewMax x.1) → ∀ v w x, v = u.forEach rs (fun x s => s.laneReport x.1 single x.2) →
    w = v.forEach (s.portLanes p) (fun l s => (s.setLaneReady l true).ctleLocked l) →
    x = ((w.linkInvalid p 0).linkRxDelay p).forEach (s.portLanes p) (fun l s => s.laneLockEvent l) →
    exec (.laneLock p reports) s = .next (((x.linkProgress p 0).advertise p).portRefresh p)) ∧
  (∀ p < 80, 1 < (s.portLanes p).length → (∀ l ∈ s.portLanes p, s.rxState l = 3) →
    exec (.deskewRetry p) s = .next (u.count (laneKey (lowestLane p) 0x0B) 32 32 1)) ∧
  (∀ p < 80, ∀ l c, l = lowestLane p → c = s.codeInUse p → s.rxState l = 4 →
    (c ∈ [1, 3, 4, 5] → s.b (Reg.pwrPlanP p) 1 = true → s.rxTiming l = false → ∀ v w,
      v = ((u.setf (laneKey l 5) 0 4 5).marginAbort l).setf (Reg.macLinkStatus p) 12 1 1 →
      w = v.setSide p (fun x => { x with sleptRx := s.ticks }) →
      exec (.laneReceiveSleep p) s = .next (((w.set (laneKey l 0x10) 0).set (laneKey l 0x11) 0).stat p 0x4A 1)) ∧
    (c ∉ [1, 3, 4, 5] ∨ s.b (Reg.pwrPlanP p) 1 = false ∨ s.rxTiming l = true →
      exec (.laneReceiveSleep p) s = .next ((u.setf (laneKey l 5) 11 1 0).lockLost l 0 1))) ∧
  (∀ p < 80, ∀ l v, l = lowestLane p → s.rxState l = 5 →
    v = ((u.setf (laneKey l 5) 0 4 6).count (laneKey l 0x0C) 32 32 1).setf (Reg.macLinkStatus p) 12 1 0 →
    exec (.laneWake p) s = .next { v with cal := { v.cal with running := assocDel v.cal.running (2 * p) } })

/-- Measurements of lanes, timing marks and port links. -/
def Obligations.LaneMeasuresAndPortLinksAct : Prop := ∀ s u : State, u = s.fresh →
  (∀ l, laneExists l = true →
    (s.rxState l = 4 → s.f (laneKey l 3) 8 2 = 2 → s.rxTiming l = false → ∀ c, c = s.f (laneKey l 4) 0 4 →
      exec (.ctleAdaptStep l true) s = .next (u.setf (laneKey l 4) 0 4 (min (c + 1) (if laneKind l = 0 then 15 else 11))) ∧
      exec (.ctleAdaptStep l false) s = .next (u.setf (laneKey l 4) 0 4 (c - 1))) ∧
    (∀ heights widths snr, s.rxState l = 4 → ∀ h w : Nat → Nat,
      (∀ i, h i = if s.f (laneKey l 0) 4 4 = 1 ∨ i = 1 then min (heights.getD i 0) 255 else 0) →
      (∀ i, w i = if s.f (laneKey l 0) 4 4 = 1 ∨ i = 1 then min (widths.getD i 0) 255 else 0) →
      exec (.eyeRefresh l heights widths snr) s = .next ((u.set (laneKey l 0x10) (w 0 + w 1 * 2 ^ 8 + w 2 * 2 ^ 16 + h 0 * 2 ^ 24 +
        h 1 * 2 ^ 32 + h 2 * 2 ^ 40)).set (laneKey l 0x11) (min snr 65535))) ∧
    (∀ heights widths snr, s.rxState l ≠ 4 →
      exec (.eyeRefresh l heights widths snr) s = .next ((u.set (laneKey l 0x10) 0).set (laneKey l 0x11) 0)) ∧
    (∀ margins, ∀ m : Nat → Nat, (∀ i, m i = min (margins.getD i 0) 255) → ∀ w, w = m 3 + m 2 * 2 ^ 8 + m 1 * 2 ^ 16 + m 0 * 2 ^ 24 →
      (s.f (laneKey l 0x13) 0 8 = 1 → exec (.marginDone l margins) s = .next ((u.setf (laneKey l 0x13) 16 32 w).marginEnd l 2)) ∧
      (s.f (laneKey l 0x13) 0 8 ≠ 1 → s.rxState l = 4 → s.selfTest 2 = true → ∀ x,
        x = ((u.marginStart l).setf (laneKey l 0x13) 16 32 w).marginEnd l 2 → exec (.marginDone l margins) s =
          .next (x.tested (decide (x.f Reg.healthCfg 16 8 ≤ m 0) && decide (x.f Reg.healthCfg 16 8 ≤ m 1)))))) ∧
  (∀ p < 80, ∀ rx tx, s.timingMarks p = (rx, tx) → ∀ v,
    v = u.forEach (s.portLanes p) (fun l s => s.markLane l (bit rx + 2 * bit tx)) →
    (v.portType p = 0 ∨ (rx = false ∧ tx = false) → exec (.timingMarkEvaluation p) s = .next v) ∧
    (v.portType p ≠ 0 → rx = true ∨ tx = true → ∀ w, w = (if tx then v.txWake p else v) →
      exec (.timingMarkEvaluation p) s = .next ((if rx then w.rxWake p else w).restoreSpeed p 3))) ∧
  (∀ p < 80, ∀ cause, s.portType p ≠ 0 → (∀ l ∈ s.portLanes p, s.rxState l = 4) → s.b (Reg.macLinkStatus p) 8 = false →
    s.on (portPd p) = true → s.islandUp (portIsland p) = true → ∀ v w,
    v = u.setf (Reg.macLinkStatus p) 8 1 1 →
    w = (if v.f (Reg.macStepStatus p) 4 4 = 3 then (v.setf (Reg.macStepStatus p) 4 4 (bit (v.codeInUse p != v.portType p))).setSide p
      (fun x => { x with stepEnd := some v.ticks }) else v) →
    exec (.portLinkUp p cause) s =
      .next (((w.raise 0x300 (toLe 1 p ++ [1] ++ toLe 1 (min cause 4) ++ toLe 1 (w.codeInUse p))).mergeInit p).portRefresh p)) ∧
  (∀ p < 80, ∀ cause, exec (.portLinkDown p cause) s = .next (u.linkDown p (min cause 4)))

/-- Reception, learning, ageing, snooping and host frames. -/
def Obligations.FramesReceivedAndLearned : Prop := ∀ s u : State, u = s.fresh →
  (∀ p < 83, ∀ frame pcs under v, v = u.pcsCount p pcs →
    (v.hears p = false → exec (.frameReceive p frame pcs under) s = .next v) ∧
    (v.hears p = true → ∀ x w, x = ({ pcs with assembly := pcs.assembly && v.b (Reg.macMergeCfg p) 0 } : PcsReport) →
      w = (if pcs.verify && v.b (Reg.macMergeCfg p) 0 then v.emit (.mpacket p true) else v).epochDue.calRxEnd p →
      (w.rxErr p frame.length x frame ≠ 0 →
        exec (.frameReceive p frame pcs under) s = .next (w.errored p (w.rxErr p frame.length x frame) frame under)) ∧
      (w.rxErr p frame.length x frame = 0 → ∀ d, d = frame.take (frame.length - 4) →
        exec (.frameReceive p frame pcs under) s = .next ((w.countGood p d frame.length).good p d frame.length)))) ∧
  (s.fwd.learnQueue = [] → exec .fdbLearn s = .next u) ∧
  (∀ key port t rest v, s.fwd.learnQueue = (key, port, t) :: rest → v = { s with out := [], fwd := { s.fwd with learnQueue := rest } } →
    ((assoc v.fwd.tables.fdb key).isSome = true → exec .fdbLearn s = .next v) ∧
    (assoc v.fwd.tables.fdb key = none →
      (∀ x, v.fwd.learned.find? (fun x => x.key == key) = some x → ∀ y, y = ({ x with renewed := max x.renewed t } : Learned) →
        (x.final = some (0, port) → exec .fdbLearn s = .next (v.setLearned y)) ∧
        (x.final ≠ some (0, port) → exec .fdbLearn s =
          .next (v.setLearned (y.change (t + learnDelay) (v.runNow v.fwdDom) (some (0, port)))))) ∧
      (v.fwd.learned.find? (fun x => x.key == key) = none →
        exec .fdbLearn s = .next (v.addLearned ⟨key, [(t + learnDelay, some (0, port))], t, false⟩)))) ∧
  (∀ v now aged, v = u.learnDue (s.runNow s.fwdDom + learnDelay) s.fwd.learnQueue.length → now = v.runNow v.fwdDom →
    aged = v.fwd.learned.map (fun (x : Learned) => if !x.snooped && decide (v.ageDue x ≤ now) && x.final.isSome
      then x.change (v.ageDue x + learnDelay) now none else x) →
    exec .fdbAgeOut s = .next { v with fwd := { v.fwd with
      learned := aged.filter (fun x => x.final.isSome || x.changes.any (fun c => decide (now < c.1))) } }) ∧
  (∀ fid mac dest, s.serves 10 = true ∨ s.serves 11 = true → mac.testBit 40 = true → ∀ key now,
    key = fdbKey (fid % 4096) (mac % 2 ^ 48) → now = s.runNow s.fwdDom →
    (∀ x, s.fwd.learned.find? (fun x => x.key == key) = some x → exec (.igmpMldSnooping fid mac dest) s =
      .next (u.setLearned (Learned.change { x with snooped := true, renewed := now } (now + learnDelay) now dest))) ∧
    (s.fwd.learned.find? (fun x => x.key == key) = none →
      (∀ d, dest = some d → exec (.igmpMldSnooping fid mac dest) s = .next (u.addLearned ⟨key, [(now + learnDelay, some d)], now, true⟩)) ∧
      (dest = none → exec (.igmpMldSnooping fid mac dest) s = .next u))) ∧
  (∀ entry frame, (s.on 1 && s.b (Reg.p80RingCtrl 8) 31) = true → s.f (Reg.p80RingDev 8) 0 16 ≠ s.rings.counts.getD 8 0 →
    s.rings.nextIn ≤ 60 * s.ticks → ∀ (a : State) v port n fl,
    a = { s with out := [], rings := { s.rings with nextIn := nextFree 80 s.rings.nextIn s.ticks (max 60 (u16 entry 8) + 4) } } →
    v = (State.setf a (Reg.p80RingDev 8) 0 16 (s.f (Reg.p80RingDev 8) 0 16 + 1)).epochDue →
    port = u8 entry 10 → n = u16 entry 8 → fl = u8 entry 11 →
    (n < 14 ∨ 15996 < n ∨ (port < 80 ∧ v.f (Reg.macMaxFrame port) 0 14 - 4 < n) →
      exec (.hostFrameSubmit entry frame) s = .next ((v.stat 80 0x2E 1).complete (u32 entry 12) 1)) ∧
    (14 ≤ n → n ≤ 15996 → (port < 80 → n ≤ v.f (Reg.macMaxFrame port) 0 14 - 4) →
      (port ≠ 127 → 80 ≤ port ∨ v.portReady port = false → exec (.hostFrameSubmit entry frame) s = .next (v.complete (u32 entry 12) 2)) ∧
      (∀ d w r x ts, d = frame.take n ++ zeros (60 - (frame.take n).length) → w = v.countGood 80 d (d.length + 4) →
        r = hostCsum (w.parsed 80 d) d (fl.testBit 3) (fl.testBit 4) → x = (if r.2 then w.stat 80 0x2F 1 else w) →
        ts = (if fl.testBit 5 then some (u32 entry 12) else none) →
        (port = 127 → exec (.hostFrameSubmit entry frame) s = .next (x.submitLookup (bits fl 3 2) (u32 entry 12) ts r.1)) ∧
        (port < 80 → v.portReady port = true →
          exec (.hostFrameSubmit entry frame) s = .next (x.submitTo port (fl % 8) (bits fl 3 2) (u32 entry 12) ts r.1)))))

/-- The transmitter of a port, internal ports included. A cut at n sends n bytes of the frame's present fragment. -/
def Obligations.EgressSendsAndReleases : Prop := ∀ s : State, ∀ p < 83,
  (∀ buf v, v = s.fresh.epochDue.egressReady p → ∀ t w,
    ((v.side p).sending = none ∧ w = v) ∨ ((v.side p).sending = some t ∧ ∃ n, v.cutPoint p t = some n ∧ ∀ x y,
      x = v.stat p 0x2B 1 → y = (if t.fragments = 0 then x.stat p 0x2A 1 else x) →
      w = y.setSide p (fun z => { z with sending := none, preempted := some { t with fragments := t.fragments + 1, sent := t.sent + n } })) →
    (∀ q, w.strict p = some q → exec (.egressFrameStart p buf) s = .next (w.start p q buf)) ∧
    (w.strict p = none → ∀ r, (w.side p).preempted = some r →
      ((w.portSends p && w.gateFits p r.queue (r.left + w.overhead p)) = true → exec (.egressFrameStart p buf) s =
        .next (w.setSide p (fun y => { y with sending := some { r with began := w.ticks }, preempted := none }))) ∧
      ((w.portSends p && w.gateFits p r.queue (r.left + w.overhead p)) = false → exec (.egressFrameStart p buf) s = .next w)) ∧
    (w.strict p = none → (w.side p).preempted = none →
      (∀ x q, w.choose p = (x, some q) → exec (.egressFrameStart p buf) s = .next (x.start p q buf)) ∧
      (∀ x, w.choose p = (x, none) → exec (.egressFrameStart p buf) s = .next x))) ∧
  (∀ buf v t, v = s.fresh.epochDue.egressReady p → (v.side p).sending = some t → v.cutPoint p t = none →
    exec (.egressFrameStart p buf) s = .next v) ∧
  ((s.side p).sending = none → exec (.copyDeparture p) s = .next s.fresh) ∧
  (∀ t, (s.side p).sending = some t → ∀ v w, v = (if 0 < t.fragments then s.fresh.stat p 0x2B 1 else s.fresh) →
    w = ((v.setSide p (fun x => { x with sending := none })).busy p).released p t.queue →
    ((w.strict p).isNone = true → exec (.copyDeparture p) s = .next (w.endVisit p)) ∧
    ((w.strict p).isNone = false → exec (.copyDeparture p) s = .next w)) ∧
  (∀ q, (q < 5 → exec (.headAgeExpiry p q) s = .next ((s.fresh.cleanHead p q (s.q p q).copies.length).released p q)) ∧
    (5 ≤ q → exec (.headAgeExpiry p q) s = .next s.fresh))

/-- Flow control, low-power idle and merge verification. Bits 6:0 of PAUSE_STATUS are the queues stopped, bits 14:8 the
priorities sent as stopped, bit 16 PAUSE, bit 17 the watchdog. -/
def Obligations.FlowControlAndLpiAct : Prop := ∀ s u : State, u = s.fresh → ∀ p < 80,
  (∀ pri l, l = (bitsSet pri 7).filter (fun k => s.b (Reg.pauseStatus p) (8 + k) &&
      (match assoc (s.side p).xoffAt k with
        | some t => decide (t + s.quantaTicks p (s.f (Reg.pfcQuanta p) 0 16) / 2 ≤ s.ticks) | none => true) &&
      decide (s.f (Reg.pfcWmP p k) 0 18 < s.pfcCells p k)) →
    (l = [] → exec (.pfcXoffRefresh p pri) s = .next u) ∧ (l ≠ [] → exec (.pfcXoffRefresh p pri) s = .next (u.sendPfc p l []))) ∧
  (s.receives p = true → (∀ quanta, exec (.pauseFrameReceive p quanta) s = .next ((u.controlCounted p).pauseReceived p quanta)) ∧
    ∀ enable quanta, exec (.pfcFrameReceive p enable quanta) s = .next ((u.controlCounted p).pfcReceived p enable quanta)) ∧
  (∀ m, exec (.pauseQuantaExpiry p m) s = .next (u.forEach (s.stopsOf p m (fun t => decide (t.2 ≤ s.ticks)))
    (fun k s => s.setf (Reg.pauseStatus p) (if k = 8 then 16 else k) 1 0))) ∧
  (∀ m l, l = s.stopsOf p m (fun t => decide (t.1 + s.f (Reg.pauseWd p) 0 16 * 1250000 < s.ticks)) → l ≠ [] →
    exec (.pauseWatchdogTrip p m) s = .next ((u.forEach l (fun k s => s.setf (Reg.pauseStatus p) (if k = 8 then 16 else k) 1 0)).watchdogTrip p
      (maskOf l) (if m = 0xFF then 0xFF else maskOf l))) ∧
  (∀ m old due k left, old = (s.side p).ignoring →
    due = (fun (k : Nat) => match assoc (s.side p).ignores k with
      | some t => decide (t + s.f (Reg.pauseWd p) 16 16 * 1250000 ≤ s.ticks) | none => true) →
    k = maskOf ((if m = 0xFF then [8] else bitsSet m 7).filter (fun k => old.testBit k && due k)) → k ≠ 0 → left = maskOf ((bitsSet old 9).filter (fun i => !k.testBit i)) →
    exec (.pauseIgnoreEnd p m) s = .next (((u.setSide p (fun x => { x with ignoring := left })).setf (Reg.pauseStatus p) 17 1 (bit (left != 0))).raise 0x301
      (toLe 1 p ++ [1] ++ toLe 1 (if k = 0x100 then 0xFF else k)))) ∧
  (∀ l, l = lowestLane p → lpiType (s.codeInUse p) = true → s.b (Reg.pwrPlanP p) 0 = true → s.txTiming l = false → s.portReady p = true →
    s.portIdle p = true → (s.side p).lastBusy + s.f (Reg.macLpiIdleUs p) 0 20 * 1250 ≤ s.ticks → s.txState l = 2 →
    ∀ v, v = u.setSide p (fun x => { x with sleptTx := s.ticks }) → exec (.lpiEntry p true) s =
      .next ((((v.setf (laneKey l 5) 4 4 3).count (laneKey l 0x0C) 0 32 1).setf (Reg.macLinkStatus p) 11 1 1).stat p 0x49 1)) ∧
  (exec (.lpiEntry p false) s = .next u) ∧
  (s.portIdle p = false → exec (.lpiTransmitExit p) s = .next (u.txWake p)) ∧
  (s.portIdle p = true → exec (.lpiTransmitExit p) s = .next u) ∧
  (∀ st n, st = s.f (Reg.macMergeStatus p) 0 4 → n = (s.side p).mergeTries → s.b (Reg.macLinkStatus p) 8 = true →
    (∀ a, st = 1 → exec (.mergeVerifyTimer p a) s =
      .next (((u.setSide p (fun x => { x with mergeTries := 1, mergeAt := s.ticks })).mergeSet p 2).emit (.mpacket p false))) ∧
    (st = 2 → exec (.mergeVerifyTimer p true) s = .next (u.mergeSet p 3)) ∧
    (st = 2 → (s.side p).mergeAt + s.f (Reg.macMergeCfg p) 16 8 * 1250000 ≤ s.ticks → s.f (Reg.macMergeCfg p) 24 4 ≤ n → exec (.mergeVerifyTimer p false) s = .next (u.mergeSet p 4)) ∧
    (st = 2 → (s.side p).mergeAt + s.f (Reg.macMergeCfg p) 16 8 * 1250000 ≤ s.ticks → n < s.f (Reg.macMergeCfg p) 24 4 →
      exec (.mergeVerifyTimer p false) s =
        .next ((u.setSide p (fun x => { x with mergeTries := n + 1, mergeAt := s.ticks })).emit (.mpacket p false))))

/-- Speed steps of single-lane edge ports. -/
def Obligations.SpeedStepsAct : Prop := ∀ s u : State, u = s.fresh → ∀ p < 80, ∀ cur st x, cur = s.codeInUse p →
  st = s.f (Reg.macStepStatus p) 4 4 → x = s.side p →
  (∀ rxDown txDown rxUp txUp deep busy quiet cfg, cfg = Reg.macStepCfg p →
    (s.maySteps p && s.dwelt p && decide (st < 2) && x.stepCode == 0xFF && s.portReady p) = true →
    deep = (List.range 8).any (fun q => decide (s.f cfg 32 16 ≤ s.occ p q)) → busy = (decide (s.f cfg 24 8 < rxUp) || decide (s.f cfg 24 8 < txUp)) →
    quiet = (decide (s.lowestSpeed p < speedOf cur) && decide (rxDown < s.f cfg 16 8) && decide (txDown < s.f cfg 16 8)) →
    (speedOf cur < speedOf (s.portType p) → busy = true →
      exec (.speedStepEvaluate p rxDown txDown rxUp txUp) s = .next (u.propose p (s.portType p) 1)) ∧
    (speedOf cur < speedOf (s.portType p) → busy = false → deep = true →
      exec (.speedStepEvaluate p rxDown txDown rxUp txUp) s = .next (u.propose p (s.portType p) 2)) ∧
    (speedOf (s.portType p) ≤ speedOf cur ∨ (deep = false ∧ busy = false) → quiet = true → (∀ t, x.stepRefused = some t → t + s.f cfg 0 16 * 1250000000 ≤ s.ticks) →
      exec (.speedStepEvaluate p rxDown txDown rxUp txUp) s = .next (u.propose p (speedOf cur - 1) 0)) ∧
    (speedOf (s.portType p) ≤ speedOf cur ∨ (deep = false ∧ busy = false) → quiet = false → exec (.speedStepEvaluate p rxDown txDown rxUp txUp) s = .next u)) ∧
  (∀ code number loadOk, s.f Reg.macStepTlv 0 32 ≠ 0 →
    (st = 2 → number % 256 = s.f (Reg.macStepStatus p) 8 8 →
      (code = 0xFF → ∀ v w, v = u.withdrawStep p →
        w = (if speedOf x.stepCode < speedOf cur then v.setSide p (fun y => { y with stepRefused := some v.ticks }) else v) →
        exec (.stepTlvReceive p code number loadOk) s = .next (w.raise 0x302 (toLe 1 p ++ toLe 1 cur ++ toLe 1 x.stepCode ++ [5]))) ∧
      (code ≠ 0xFF → code = x.stepCode →
        exec (.stepTlvReceive p code number loadOk) s = .next (u.setSide p (fun y => { y with stepHeard := true, stepAt := s.ticks })))) ∧
    (st < 2 → code ≠ 0xFF → ∀ down v, down = decide (speedOf code < speedOf cur) → v = u.setf (Reg.macStepStatus p) 8 8 number →
      (s.agreesStep p code loadOk = true → exec (.stepTlvReceive p code number loadOk) s =
        .next ((v.setSide p (fun y =>
          { y with stepCode := code, stepSent := true, stepHeard := true, stepCause := bit (!down), stepAt := s.ticks })).deviceSend p 7
          (v.stepFrame p code number))) ∧
      (s.agreesStep p code loadOk = false →
        exec (.stepTlvReceive p code number loadOk) s = .next (v.deviceSend p 7 (v.stepFrame p 0xFF number))))) ∧
  (x.stepSent = true → x.stepHeard = true → x.stepCode ≠ 0xFF → x.stepAt + 62500000 ≤ s.ticks → ∀ code,
    code = (if speedOf x.stepCode = speedOf (s.portType p) then s.portType p else x.stepCode) →
    exec (.stepRetune p) s = .next (u.retune p code x.stepCause)) ∧
  (st = 2 → x.stepHeard = false → x.stepAt + 3750000000 ≤ s.ticks → exec (.stepProposalTimeout p) s = .next (u.withdrawStep p))

/-- Actions at their time. `dueAction h op` is the action of handle h and opcode op once it is due. -/
def Obligations.ScheduledActionsExecute : Prop := ∀ s u : State, u = s.fresh → ∀ h : Nat,
  (∀ op a, s.dueAction h op = some a ↔ s.action h = some a ∧ a.opcode = op ∧ a.t ≤ s.now a.dom ∧ s.timeUp = true ∧
    ∀ b ∈ s.clock.actions, b.dom = a.dom → b.before a = false) ∧
  (∀ a v, v = u.dropAction h →
    (s.dueAction h 0x0601 = some a → (s.switchReady a.data = true → exec (.scheduledGateSwitch h) s = .next (v.fireSwitch a.data a.t)) ∧
      (s.switchReady a.data = false → exec (.scheduledGateSwitch h) s = .next (v.outcome a 0x102 (s.outcomeTime a.dom)))) ∧
    (s.dueAction h 0x0B00 = some a → (s.on 4 = true → exec (.scheduledSnapshot h) s = .next (v.fireSnapshot a.t)) ∧
      (s.on 4 = false → exec (.scheduledSnapshot h) s = .next (v.outcome a 0x102 (s.outcomeTime a.dom)))) ∧
    (s.dueAction h 0x0D01 = some a → (s.proofUp = true → exec (.scheduledProofStart h) s = .next (v.proofGo a.dom a.t (maskSlots a.data))) ∧
      (s.proofUp = false → exec (.scheduledProofStart h) s = .next (v.proofCancel.outcome a 0x102 (s.outcomeTime a.dom)))) ∧
    (s.dueAction h 0x0500 = some a → exec (.scheduledRealign h) s = .next (v.fireRealign a.data)) ∧
    (s.dueAction h 0x0A00 = some a → exec (.scheduledTdcStart h) s = .next v.startTdc) ∧
    (s.dueAction h 0x0301 = some a → ∀ l, l = stepOf a.data →
      (l.real = true → exec (.scheduledStep h) s =
        .next (v.landAt a.dom 0 a.t (l.result a.t) ((a.t * fine16 : Int) - (v.dom a.dom).shift).toNat)) ∧
      (l.real = false → exec (.scheduledStep h) s = .next v)) ∧
    (s.dueAction h 0x0302 = some a →
      (v.steered a.dom = true → exec (.scheduledFreqChange h) s = .next (v.outcome a 0x205 (v.now a.dom))) ∧
      (v.steered a.dom = false → exec (.scheduledFreqChange h) s = .next (v.adjFreq a.dom (adjOf a.data))))) ∧
  ((s.dueAction h 0x0601 = none → exec (.scheduledGateSwitch h) s = .next u) ∧ (s.dueAction h 0x0B00 = none → exec (.scheduledSnapshot h) s = .next u) ∧
    (s.dueAction h 0x0D01 = none → exec (.scheduledProofStart h) s = .next u) ∧ (s.dueAction h 0x0500 = none → exec (.scheduledRealign h) s = .next u) ∧
    (s.dueAction h 0x0A00 = none → exec (.scheduledTdcStart h) s = .next u) ∧ (s.dueAction h 0x0301 = none → exec (.scheduledStep h) s = .next u) ∧
    (s.dueAction h 0x0302 = none → exec (.scheduledFreqChange h) s = .next u))

/-- Epochs, statistics snapshots and mirror sessions. -/
def Obligations.EpochsSnapshotsMirrorsAct : Prop := ∀ s u : State, u = s.fresh →
  (∀ o, s.fwd.other = some o →
    (o.state = 1 → o.t ≤ s.now o.dom → ∀ v w, v = u.newEpoch o.num o.dom o.t o.changes →
      w = ((v.clock.actions.filter (fun a => a.opcode == 0x0201)).foldl (fun s a => s.dropAction a.handle)
        { v with fwd := { v.fwd with other := some ⟨2, s.f Reg.catEpochCurrent 0 32, o.dom, s.fwd.epochT, [], [], v.ticks, false⟩ } }) →
      exec .epochCommitted s = .next (w.setf Reg.catEpochState 0 2 2)) ∧
    (o.state = 1 → s.now o.dom < o.t → exec .epochCommitted s = .next u) ∧
    (o.state = 2 → s.framesOf o.num = 0 → exec .epochRetired s =
      .next ((State.setf { s with out := [], fwd := { s.fwd with other := none } } Reg.catEpochState 0 2 0).raise 0x401 (toLe 4 o.num))) ∧
    (o.state = 2 → s.framesOf o.num ≠ 0 → exec .epochRetired s = .next u) ∧
    (o.state = 2 → o.slow = false → o.since + s.f Reg.catEpochCfg 32 16 * 1250000 < s.ticks →
      exec .epochDrainSlow s = .next (State.raise { s with out := [], fwd := { s.fwd with other := some { o with slow := true } } } 0x402
        (toLe 4 o.num ++ toLe 4 (s.framesOf o.num)))) ∧
    (o.slow = true → exec .epochDrainSlow s = .next u)) ∧
  (∀ l b v, s.snap.captured = some l → b = s.snap.bank →
    v = u.fillBank b l →
    (v.snap.scheduled = true → exec .statSnapshotDone s = .next (v.raise 0x303 (v.snapBytes b))) ∧
    (v.snap.scheduled = false → exec .statSnapshotDone s = .next (v.forEach v.snapsOpen (fun d s => s.answerSnapshot b d)))) ∧
  (s.snap.captured = none → exec .statSnapshotDone s = .next u) ∧
  (∀ m < 8, ∀ e, assoc s.fwd.tables.mirr m = some e → s.f (Reg.mirrStatus m) 0 2 = 2 →
    ((u8 e 0).testBit 1 = false → s.occ (u8 e 1) (u8 e 2) < u16 e 12 → (s.mirror m).high + u16 e 14 * 1250000 ≤ s.ticks →
      exec (.mirrorResume m) s = .next (u.mirrorMode m 1 2)) ∧
    (u16 e 12 ≤ s.occ (u8 e 1) (u8 e 2) → exec (.mirrorResume m) s = .next u))

/-- The stacks, the audit and the queue monitor. Bits 3:0 of a channel's STACK_CH_STATUS are its state and bits 15:8 the cause. -/
def Obligations.StacksAuditAndMonitoringAct : Prop := ∀ s u : State, u = s.fresh →
  (∀ p < 83, ∀ q, (u.q p q).state = 1 → u.maySpill p q = true → u.packDue p q = true →
    exec (.pagePackTimer p q) s = .next (u.packPage p q)) ∧
  (∀ p < 83, ∀ q page c, u.spillUp = true → (u.q p q).writing ≠ [] → u.nextChannel = some c → u.pageFree c page = true → ∀ v,
    v = State.occurs { u with buf := { u.buf with lastChannel := c } } 0x0D c 1 →
    exec (.pageWriteDone p q page false) s = .next (v.pageWritten p q c page) ∧
    exec (.pageWriteDone p q page true) s = .next (v.retirePage c page 1 0)) ∧
  (∀ p < 83, ∀ q corrected g rest, (u.q p q).chain = g :: rest → u.spillUp = true → u.channelUp g.ch = true → (u.q p q).reads ≠ 0 → ∀ v l,
    v = (u.count (Reg.stackChEcc (1 + g.ch)) 0 32 corrected).occurs 0x0C g.ch 1 → l = serialsIn [g] →
    exec (.pageReadDone p q corrected false) s = .next ((v.pageRead p q g rest).released p q) ∧
    (∀ w n, w = (v.setQ p q { u.q p q with chain := rest, reads := (u.q p q).reads - 1 }).dropSerials p q l →
      n = ((u.q p q).copies.filter (fun c => l.contains c.serial)).length →
      exec (.pageReadDone p q corrected true) s = .next (((w.retirePage g.ch g.num 2 n).uncorrectable g.ch).released p q))) ∧
  (∀ k n x rest, u.buf.abandoned = (k, n, x) :: rest → exec .stackChainAbandoned s =
    .next (State.raise { u with buf := { u.buf with abandoned := rest } } 0x503 (toLe 1 (k / 8) ++ toLe 1 (k % 8) ++ zeros 2 ++ toLe 4 n))) ∧
  (∀ c < 2, ∀ step rd wr vref, u.on (8 + c) = true → u.islandUp (12 + c) = true → u.channel c = 1 → ∀ org v put,
    org = u.f (Reg.stackChOrg (1 + c)) 0 8 →
    v = u.set (Reg.stackChTrain (1 + c)) (min rd 255 * 2 ^ 24 + min wr 255 * 2 ^ 16 + min vref 255 * 2 ^ 8 + min step 6) →
    put = (fun (st cause : Nat) => (v.setf (Reg.stackChStatus (1 + c)) 0 4 st).setf (Reg.stackChStatus (1 + c)) 8 8 cause) →
    (step ≠ 0 → exec (.ddrTrainingDone c step rd wr vref) s = .next (put 3 1).refresh) ∧
    (step = 0 → v.channel (1 - c) = 2 → assoc v.buf.trainedOrg (1 - c) ≠ some org →
      exec (.ddrTrainingDone c step rd wr vref) s = .next (put 3 2).refresh) ∧
    (step = 0 → v.channel (1 - c) ≠ 2 ∨ assoc v.buf.trainedOrg (1 - c) = some org → ∀ w, w = put 2 0 →
      exec (.ddrTrainingDone c step rd wr vref) s =
        .next (State.retiredCheck { w with buf := { w.buf with trainedOrg := assocSet w.buf.trainedOrg c org } } c).refresh)) ∧
  (∀ c, exec (.dqsDriftTrack c) s = .next u) ∧
  (u.b Reg.auditCfg 0 = true → u.spillUp = true → (∀ t, u.buf.auditTick = some t → t + u.f Reg.auditCfg 12 20 * 1250 ≤ u.ticks) →
    ∀ crosslinks strayed z v w x, z = u.upset crosslinks strayed → v = { z with buf := { z.buf with auditTick := some z.ticks } } →
    w = State.forEach v ((v.buf.desk.filter (fun x => x.2 == 2 && !(State.auditMarks v).contains x.1)).map (·.1)) (fun c s => s.auditLeak c) →
    x = w.forEach (w.buf.crossed.filter (fun c => (State.auditMarks v).contains c)) (fun c s => s.auditCross c) →
    exec (.auditPass crosslinks strayed) s = .next ((x.forEach x.auditMismatches (fun _ s => (s.count Reg.auditCountErr 0 32 1).finding 3 0 0)).wrap
      Reg.auditStatus 32 32 1)) ∧
  (u.b Reg.qmonRingCtrl 31 = true → u.on 4 = true → u.timeUp = true → u.qmon.sampled ≠ some u.qmonInstant →
    exec .qmonSample s = .next (State.qmonRecords { u with qmon := { u.qmon with sampled := some u.qmonInstant } } u.qmonInstant))

/-- Calendars, recovery functions and stream watch. Bits 41:40 of GATE_STATUS say whether a calendar is in force; `rcvyKey r 7` is the
word of a recovery function's take_any flag (bit 16) and latent errors (bits 63:48). -/
def Obligations.GatesRecoveryAndWatchAct : Prop := ∀ s u : State, u = s.fresh →
  (∀ p < 80, ∀ k start dom, (u.gate p).committed = some (k, start, dom) → start ≤ u.now dom → ∀ old c v w x y,
    old = (u.gate p).oper → c = k.inForce →
    v = (u.setGate p (fun x => { x with oper := c, committed := none, hold := none })).setf (Reg.gateStatus p) 40 2 (bit c.isSome) →
    w = (v.set (Reg.gateOperInfo p) (match c with | some c => c.dom * 2 ^ 32 + c.entries.length | none => 0)).setTime (Reg.gateOperBase p 0)
      (match c with | some c => c.base | none => 0) →
    x = ((w.setTime (Reg.gateOperStart p 0) start).setTime (Reg.gatePendStart p 0) 0).set (Reg.gateCycleNs p)
      (match c with | some c => c.cycle | none => 0) →
    y = x.forEach [0, 1, 2] (fun i s => (s.set (Reg.gateOperWaitQ p i) (match c with | some c => c.waits.getD i 0 | none => 0)).set
      (Reg.gateJunctionWaitQ p i) (s.junction p old c start (5 + i))) →
    exec (.gateActive p) s = .next (y.raise 0x600 (toLe 1 p ++ toLe 1 dom ++
      toLe 2 (match c with | some c => c.entries.length | none => 0) ++ timeBytes start))) ∧
  (∀ p < 80, ∀ k c resume, (u.gate p).hold = some (k, resume) → (u.gate p).oper = some c → resume ≤ u.now c.dom →
    exec (.gateRestart p) s = .next ((u.setGate p (fun x => { x with hold := none })).setf (Reg.gateStatus p) 40 2 1)) ∧
  (∀ r < 8192, ∀ e, u.rcvy r = some e →
    (∀ t v, assoc u.red.lastPass r = some t → u16 e 4 ≤ (u.ticks - t) / msTicks →
      v = { u with red := { u.red with lastPass := assocDel u.red.lastPass r } } →
      exec (.frerResetTimer r) s = .next ((State.setf v (rcvyKey r 7) 16 1 1).rcvyCount r 6 1)) ∧
    (u.serves 5 = true → (u8 e 0).testBit 3 = true →
      ((u.latentSince r).2 + u16 e 24 * msTicks ≤ u.ticks → ∀ d v, d = u.latentValue r e - (assoc u.red.latentBase r).getD 0 →
        v = u.latentMade r false →
        (d ≤ (u16 e 22 : Int) → exec (.latentTest r) s = .next v) ∧
        ((u16 e 22 : Int) < d → exec (.latentTest r) s =
          .next (((v.count (rcvyKey r 7) 48 16 1).raise 0x700 (toLe 2 r ++ zeros 2 ++ toLe 4 d.toNat)).latentRecord r e))) ∧
      ((u.latentSince r).1 + u32 e 28 * msTicks ≤ u.ticks →
        exec (.latentBaseReset r) s = .next ((u.latentRecord r e).latentMade r true)))) ∧
  (u.watchUp = true → u.serves 5 = true → (∀ t, u.red.evaluated = some t → t + msTicks ≤ u.ticks) → ∀ v,
    v = { u with red := { u.red with evaluated := some u.ticks } } →
    exec .watchEvaluate s = .next ((State.forEach v (v.red.watches.map (·.1)) (fun e s => s.watchOne e)).watchCounted))

/-- Evening primrose. `slotKey n 0` and `slotKey n 2` hold a slot's queue and its interval in us; `slotKey n 8` its verdict and counts. -/
def Obligations.ProofRunsAct : Prop := ∀ s u : State, u = s.fresh →
  (∀ n i, n = u.proofSlot → i = u.red.probesSent → u.proof = 2 → u.proofUp = true → i < u.slotProbes n →
    u.red.slotStart + i * u.f (slotKey n 2) 18 20 * 1250 ≤ u.ticks → ∀ q f v, q = u.f (slotKey n 0) 44 3 →
    f = { u.ownFrame 82 q (u.probeFrame n i) with action := n } →
    v = State.setf { u with red := { u.red with probesSent := i + 1 } } (slotKey n 8) 32 16 (i + 1) →
    (v.portReady 82 = true → exec .probeSend s =
      .next (((v.storeFrame f).enqueue 82 q (cellsOf f.len) { Copy.of f f.len (decide (q < 5)) with kind := 5 }).1.collect)) ∧
    (v.portReady 82 = false → exec .probeSend s = .next (v.wrap (Reg.mcastDropLink 82) 0 64 1))) ∧
  (∀ p < 80, ∀ frame d w, Safety.taken p frame u = some (d, w) → ∀ v, v = w.mirrorTaken p d frame.length →
    (w.isProbe d = false → exec (.probeReflect p frame) s = .next (w.good p d frame.length) ∧
      exec (.echoReceive p frame) s = .next (w.good p d frame.length)) ∧
    (w.isProbe d = true → u8 d (probeOff d + 3) = 1 → exec (.probeReflect p frame) s = .next (v.reflect p d)) ∧
    (w.isProbe d = true → ∀ y, y = d.drop (probeOff d) → u8 y 2 = 1 → u8 y 3 = 2 → v.proof = 2 → v.proofUp = true → u32 y 4 = v.proofRun →
      u8 y 8 = v.proofSlot → u8 y 9 < 8 → v.ticks < v.red.slotStart + v.slotTicks v.proofSlot →
      exec (.echoReceive p frame) s = .next (v.echoTaken p y))) ∧
  (∀ n, n = u.proofSlot → u.proof = 2 → u.red.probesSent = u.slotProbes n → u.red.slotStart + u.slotTicks n ≤ u.ticks →
    exec .slotEnd s = .next ((u.setf (slotKey n 8) 56 8 (u.slotVerdict n)).nextSlot u.red.proofSlots))

/-- The timestamp ledger. `State.runNow d` is the running time of a domain that its steps do not move. -/
def Obligations.LedgerFollowsItsRules : Prop := ∀ s u : State, u = s.fresh →
  (∀ r < 4, u.ledgerOn r = true → u.timeUp = true → (u.ledgerRing r).lost = 0 → ∀ due : Nat → Bool,
    (∀ d t, assoc (u.ledgerRing r).anchors d = some t → due d = decide (t + u.f Reg.ledgerCfg 0 10 * 1000000 * ns16 ≤ u.runNow d)) →
    (∀ d, assoc (u.ledgerRing r).anchors d = none → due d = true) →
    exec (.ledgerAnchor r) s =
      .next (u.forEach ((List.range 8).filter (fun d => u.ledgerDom r d && due d)) (fun d s => s.anchor r d))) ∧
  (∀ r < 4, u.ledgerOn r = true → u.timeUp = true → u.on 1 = true → (u.ledgerRing r).lost ≠ 0 → 16 ≤ u.ledgerFree r → ∀ v,
    v = u.ledgerPut r (min (u.ledgerRing r).lost 0xFFFFFFFF * 2 ^ 32 + 0xFF * 256 + 17) 0 →
    exec (.ringGap r) s = .next ((v.setLedger r (fun x => { x with lost := 0, gapNext := true })).anchorAll r)) ∧
  (∀ p < 80, ∀ g v, u.timeUp = true → (u.fifo p).gap = some g → (u.fifo p).held = [] → v = u.setFifo p { u.fifo p with gap := none } →
    (g.first.toEngine = true → exec (.fifoGap p) s = .next v) ∧
    (g.first.toEngine = false → v.ringFor g.first.kind g.first.stamp.dom = none →
      exec (.fifoGap p) s = .next (v.count Reg.ledgerNoRing 0 32 1)) ∧
    (g.first.toEngine = false → ∀ r w, v.ringFor g.first.kind g.first.stamp.dom = some r → w = v.ringResume r →
      (w.ledgerRoom r 1 = false → exec (.fifoGap p) s = .next (w.ringLost r 1)) ∧
      (w.ledgerRoom r 1 = true → exec (.fifoGap p) s = .next (w.ledgerPut r
        (g.count % 2 ^ 32 * 2 ^ 32 + p * 256 + g.first.stamp.dom * 32 + 16)
        (g.first.seq % 65536 * 2 ^ 48 + g.lastSeq % 65536 * 2 ^ 32 + g.first.tag % 2 ^ 32))))) ∧
  (∀ n < 8, u.timeUp = true → u.b Reg.ledgerEvinEn n = true → ∀ fired l v, u.divide n u.tdc.evDivs = (fired, l) →
    v = u.setTdc (fun x => { x with evDivs := l }) →
    (fired = false → exec (.evinEdge n) s = .next v) ∧
    (fired = true → ∀ count w x, count = (assoc v.tdc.evCount n).getD 0 + 1 →
      w = v.setTdc (fun x => { x with evCount := assocSet x.evCount n count }) →
      x = (if w.armed n then w else w.count (Reg.tdcInCnt n) 32 32 1) →
      ((∃ t, assoc x.tdc.evLast n = some t ∧ x.ticks < t + 1250) →
        exec (.evinEdge n) s = .next (x.count (Reg.tdcInLedgerSkip n) 0 32 1)) ∧
      ((∀ t, assoc x.tdc.evLast n = some t → t + 1250 ≤ x.ticks) → ∀ y d z, y = x.setTdc (fun t => { t with evLast := assocSet t.evLast n x.ticks }) →
        d = y.f Reg.ledgerCfg 16 3 →
        z = (⟨d, ((y.runNow d : Int) - y.inDelay n).toNat, ((y.now d : Int) - y.inDelay n).toNat, (y.dom d).gen⟩ : Stamp) →
        exec (.evinEdge n) s = .next (y.record ⟨4, z, y.tdLevel d, n, 0, 0, y.tdcStale, count, false⟩))))

/-- Edge measurements. `State.tdcPhase` is 2 while a measurement runs; `State.captured` makes the samples of R413. -/
def Obligations.TdcMeasures : Prop := ∀ s u : State, u = s.fresh → u.timeUp = true →
  (∀ i < 30, ∀ fine fired l v w, u.armed i = true → u.inputLive i = true → u.divide i u.tdc.divs = (fired, l) →
    v = u.setTdc (fun x => { x with divs := l }) → w = v.count (Reg.tdcInCnt i) 32 32 1 →
    (fired = false → exec (.tdcEdge i fine) s = .next v) ∧
    (fired = true → ∀ z run t, z = ((fine % 512 * 128 : Nat) : Int) - w.inDelay i →
      run = ((w.runNow w.tdc.dom / 128 * 128 : Nat) + z).toNat → t = ((w.now w.tdc.dom / 128 * 128 : Nat) + z).toNat →
      (w.tdcPhase ≠ 2 ∨ run < w.tdc.start → exec (.tdcEdge i fine) s = .next w) ∧
      (w.tdcPhase = 2 → w.tdc.start ≤ run → w.tdc.lines.getD w.tdc.next 0 ≤ w.ticks → exec (.tdcEdge i fine) s =
        .next ((w.setTdc (fun x => { x with lines := modifyAt x.lines x.next (fun _ => w.ticks + 20), next := 1 - x.next })).captured i run t)) ∧
      (w.tdcPhase = 2 → w.tdc.start ≤ run → w.ticks < w.tdc.lines.getD w.tdc.next 0 → exec (.tdcEdge i fine) s =
        .next (((w.count (Reg.tdcInCnt i) 0 32 1).setTdc (fun x => { x with missed := x.missed + 1 })).setf Reg.tdcState 9 1 1)))) ∧
  (∀ b rest, u.tdc.edgesB = b :: rest → u.tdcPhase = 2 → u.tdc.mode = 1 → b.1 + u.tdc.grid ≤ u.runNow u.tdc.dom →
    (∀ a, u.tdc.partner b.1 = some a → exec .tdcIntervalSample s =
      .next (((u.setTdc (fun x => { x with edgesB := rest, edgesA := x.edgesA.filter (· != a) })).dropOldA).sample ((b.1 : Int) - a.1) b.2)) ∧
    (u.tdc.partner b.1 = none → exec .tdcIntervalSample s =
      .next (u.setTdc (fun x => { x with edgesB := rest, unpaired := x.unpaired + 1 })).dropOldA)) ∧
  (u.tdcPhase = 2 → u.tdc.lastTick + u.tdc.timeout * 1250000000 ≤ u.ticks → exec .tdcTimeout s = .next (u.endTdc 2))

/-- PTP instances. `State.ptpTaken` is the instance that takes a message, `State.handle k` the rate of the engine of instances 4k to 4k + 3. -/
def Obligations.PtpPortsAct : Prop := ∀ s u : State, u = s.fresh →
  (∀ p < 80, ∀ frame b w f, Safety.taken p frame u = some (b, w) →
    (w.ptpTaken (w.parsed p b) b p = none → exec (.ptpMessageReceive p frame f) s = .next (w.good p b frame.length)) ∧
    ((w.ptpTaken (w.parsed p b) b p).isSome = true → ∀ v d, v = w.mirrorTaken p b frame.length →
      v.ptpTaken (v.parsed p b) b p = some d → v.instRuns d = true → ∀ room x, v.handle (d / 4) = (room, x) →
      (room = false → exec (.ptpMessageReceive p frame f) s =
        .next ((x.count (Reg.ptpInstCnt (0x3F0 + d)) 0 16 1).overload (d / 4) 1)) ∧
      (room = true → f.malformed = true → exec (.ptpMessageReceive p frame f) s =
        .next ((x.count (Reg.ptpPortCnt (ptpPort d p)) 32 32 1).ptpDiscard d p)) ∧
      (room = true → f.malformed = false → ∀ y o, y = x.count (Reg.ptpPortCnt (ptpPort d p)) 32 32 1 → o = (v.parsed p b).ptpOff →
        (u8 b o % 16 = 11 → exec (.ptpMessageReceive p frame f) s = .next ((y.announceHeard d p (slice b (o + 20) 10)).ptpFindings d p f)) ∧
        (u8 b o % 16 ≠ 11 → exec (.ptpMessageReceive p frame f) s = .next (y.ptpFindings d p f))))) ∧
  (∀ d < 8, ∀ p < 80, ∀ dst body f room x y, u.instRuns d = true → u.ptpOn d p = true → u.handle (d / 4) = (room, x) →
    y = (if room then x else x.overload (d / 4) 0).count (Reg.ptpPortCnt (ptpPort d p)) 0 32 1 → ∀ z, z = y.ptpFindings d p f →
    exec (.ptpMessageSend d p dst body f) s = .next (z.ptpSend d p (y.ptpFrame d p dst body))) ∧
  (∀ d < 8, ∀ p < 80, p = u.slavePort d → u.instRuns d = true →
    (∀ t, (u.inst d).last = some t → t + u.syncTimeout d p < u.ticks) → (∀ t, (u.inst d).timedOut = some t → t + u.syncTimeout d p < u.ticks) →
    ∀ v, v = u.setInst d (fun x => { x with timedOut := some u.ticks }) →
    exec (.syncReceiptTimeout d) s = .next ((v.count (Reg.ptpPortErr (ptpPort d p)) 32 16 1).refDown (24 + d))) ∧
  (∀ d < 8, ∀ p f, u.instRuns d = true → u.ptpOn d p = true →
    (∀ t, assoc u.ptp.announced (ptpPort d p) = some t → t + u.announceTimeout d p ≤ u.ticks) → ∀ v,
    v = { u with ptp := { u.ptp with announced := assocSet u.ptp.announced (ptpPort d p) u.ticks, foreign := assocDel u.ptp.foreign (ptpPort d p) } } →
    exec (.announceReceiptTimeout d p f) s = .next ((v.count (Reg.ptpPortErr (ptpPort d p)) 48 16 1).ptpFindings d p f))

/-- Phase detectors and link states. `State.linkDelay` is the port's measured path delay where an engine-mode instance serves it. -/
def Obligations.PhaseDetectorsAndLinksAct : Prop := ∀ s u : State, u = s.fresh →
  (∀ d phase rate departure, u.detectorUp d = true → ∀ v, v = u.publish d phase rate →
    (u.readings d = 0 ∨ departure.natAbs * 1000 ≤ u.f Reg.timeDdmtdCfg 16 16 * 65536 →
      exec (.ddmtdReading d phase rate departure) s = .next (v.setReadings d (min (u.readings d + 1) 65535))) ∧
    (u.readings d ≠ 0 → u.f Reg.timeDdmtdCfg 16 16 * 65536 < departure.natAbs * 1000 →
      exec (.ddmtdReading d phase rate departure) s = .next (v.glitch d departure))) ∧
  (∀ p < 80, ∀ delay diff : Nat, ∀ o, o = u.linkDelay p → u.linkState p = 1 → u.linkSettled p = true → u.staleRx p = false → u.staleTx p = false →
    (∀ i, u.engineInstance p = some i → min 255 (2 ^ u.f (Reg.ptpServoCfg (0x3F0 + i)) 36 4) ≤ u.f (Reg.pcsLinkState p) 16 8) →
    (o = none → delay = 0 ∧ diff = 0) →
    (∀ d, o = some d → delay = d ∧ diff = (signed 64 d - signed 64 (u.get (Reg.pcsLinkLast p))).natAbs) →
    (p ∉ u.link.valid ∨ diff * 1000 ≤ u.f (Reg.pcsLinkCfg p) 0 32 * 65536 →
      exec (.linkMeasurementComplete p) s = .next (u.linkValid p 5 o)) ∧
    (p ∈ u.link.valid → u.f (Reg.pcsLinkCfg p) 0 32 * 65536 < diff * 1000 → ∀ v w, v = u.setf (Reg.pcsLinkState p) 14 1 1 →
      w = { v with link := { v.link with suspect := assocSet v.link.suspect p delay } } →
      (v.b (Reg.pcsLinkCfg p) 32 = true → exec (.linkMeasurementComplete p) s = .next (v.linkValid p 5 o)) ∧
      (v.b (Reg.pcsLinkCfg p) 32 = false → exec (.linkMeasurementComplete p) s = .next (w.linkSet p 2 5 delay))))

/-- References and their selectors. `State.selects` says that E4 serves and TIME runs; `State.refUp` and `State.refDown` judge a reference
against the transitions of R362. -/
def Obligations.ReferencesAreSelected : Prop := ∀ s u : State, u = s.fresh →
  (u.selects = true → u.rested 18 1250000 = true → ∀ edges freqs loops a b c d, a = { u.mark 18 with ref := { (u.mark 18).ref with edges := edges } } →
    b = (State.forEach a (freqs.filter (fun (x : Nat × Int) => decide (x.1 < 32))) (fun x s =>
      s.setf (Reg.refselRefStatus x.1) 0 32 (unsigned 32 x.2))).forEach (List.range 10) (fun i s => s.takeBack i) →
    c = State.forEach b (loops.filter (fun x => decide (x.dpll < 10))) (fun x s => s.loopReading x.dpll x.freq x.phase) →
    d = (State.forEach c (List.range 32) (fun r s => s.refDown r)).forEach (List.range 32) (fun r s => s.refUp r) →
    exec (.refEvaluate edges freqs loops) s = .next (State.applyChanges d).showRefs.esmcEvents) ∧
  (∀ r < 32, u.timeUp = true → ∀ v, v = { u with ref := { u.ref with edges := setBits u.ref.edges r 1 0 } } →
    (r < 8 → exec (.refFailure r true) s = .next (v.refDown r)) ∧
    (8 ≤ r → exec (.refFailure r true) s = .next (u.refDown r)) ∧
    exec (.refFailure r false) s = .next (u.refDown r)) ∧
  (∀ r < 32, u.selects = true → (u.refState r = 2 → exec (.refMonitorPass r) s = .next (u.refUp r)) ∧
    (u.refState r = 3 → exec (.wtrExpiry r) s = .next (u.refUp r))) ∧
  (∀ sel < 10, ∀ r since, u.selects = true → (u.sel sel).marks.find? (fun m => m.1 == r) = some (r, since) →
    ((∃ t, since = some t ∧ t + u.f (Reg.refselSelCfg (0x100 + sel)) 16 16 * 1250000000 ≤ u.ticks) ∨ u.markHolds sel r = false →
      exec (.disagreeClear sel r) s = .next (u.unmark sel r))) ∧
  (∀ sel < 10, ∀ phi, u.selects = true → u.selState sel = 2 → (u.sel sel).since + u.f (Reg.dpllSwitchCfg sel) 48 16 * 1250000 ≤ u.ticks →
    u.refQualified (u.target sel) = true → ∀ r v w, r = u.target sel →
    v = (u.setSelStatus sel r 0xFF 1).count (Reg.refselSelCnt (0x100 + sel)) 32 32 1 →
    w = (v.close sel r phi).refSwitch sel (u.selected sel) r 1 (v.corrected r phi) →
    exec (.switchMeasurementEnd sel phi) s = .next (w.react sel w.ref.view))

/-- The loops. Level 1 is ACQUIRING and 2 LOCKED; `histArea a b h` is the sum of the frequency over the ticks from a to b. -/
def Obligations.LoopsLockAndHold : Prop := ∀ s u : State, u = s.fresh →
  (∀ i < 10, ∀ t, u.selects = true → u.level i = 1 → (u.dpll i).live = true → (u.dpll i).pending = 0 → (u.dpll i).calmAt = some t →
    t + u.f (Reg.dpllCfg i) 48 8 * 1250000000 ≤ u.ticks → exec (.dpllLock i) s = .next (u.setLevel i 2)) ∧
  (∀ i < 10, ∀ phi v e, u.timeUp = true → u.level i = 2 → (u.dpll i).live = true → v = u.loopReading i (u.dpll i).base phi →
    e = signed 64 (v.get (Reg.dpllPhaseErr i)) + (u.dpll i).pending / (fine16 : Int) →
    (v.f (Reg.dpllCfg i) 0 32 * 65536 < e.natAbs * 1000 → exec (.dpllUnlock i phi) s = .next (v.setLevel i 1)) ∧
    (e.natAbs * 1000 ≤ v.f (Reg.dpllCfg i) 0 32 * 65536 → exec (.dpllUnlock i phi) s = .next v)) ∧
  (∀ i < 10, u.timeUp = true → u.level i = 2 → (∀ t, (u.dpll i).wroteAt = some t → t + 1250000000 ≤ u.ticks) →
    ∀ v a b h f, v = u.setDpll i (fun x => { x with wroteAt := some u.ticks }) → b = v.ticks - v.f (Reg.dpllHoCfg i) 32 16 * 1250000 →
    h = (v.dpll i).hist → a = max (b - v.f (Reg.dpllHoCfg i) 48 16 * 1250000000) ((h.head?.map (·.1)).getD b) →
    (a < b → f = roundDiv (histArea a b h) (b - a)) → (b ≤ a → f = v.dpllFreq i) →
    exec (.holdoverEstimateWrite i) s = .next ((v.setf (Reg.dpllHoFreq i) 0 32 (unsigned 32 f)).showValid i)) ∧
  (∀ d < 8, u.selects = true → u.tdLevel d = 2 → (∀ t, assoc u.boot.storedTick d = some t → t + 750000000000 ≤ u.ticks) →
    exec (.holdoverStore d) s = .next { u with boot := { u.boot with
      holdover := assocSet u.boot.holdover d (u.hoFreq d, u.f Reg.fwColdBoots 0 32), storedTick := assocSet u.boot.storedTick d u.ticks } })

/-- Bits 61 and 60 of REFSEL_PORT_CFG are ESMC_TX and ESMC_RX; `State.setQl` shows a level and reports its change. -/
def Obligations.EsmcKeepsLevels : Prop := ∀ s u : State, u = s.fresh →
  (∀ p < 80, u.selects = true → u.b (Reg.refselPortCfg (0x200 + p)) 61 = true → u.portReady p = true →
    (∀ t, assoc u.ref.esmcSent p = some t → t + 1250000000 ≤ u.ticks) → ∀ v w,
    v = { u with ref := { u.ref with esmcSent := assocSet u.ref.esmcSent p u.ticks } } →
    w = v.setf (Reg.refselPortStatus (0x200 + p)) 4 4 (v.qlSent p) →
    exec (.esmcInfoSend p) s = .next (w.deviceSend p 7 (v.esmcFrame false (v.qlSent p)))) ∧
  (∀ p < 80, ∀ frame d w, Safety.taken p frame u = some (d, w) →
    (esmcValid d = false → exec (.esmcReceive p frame) s = .next (w.good p d frame.length)) ∧
    (esmcValid d = true → ∀ v, v = w.mirrorTaken p d frame.length →
      (v.selects = true → v.b (Reg.refselPortCfg (0x200 + p)) 60 = true → ∀ y,
        y = { v with ref := { v.ref with heard := assocSet v.ref.heard p v.ticks } } →
        exec (.esmcReceive p frame) s = .next (State.setQl y p (u8 d 27 % 16) 0)) ∧
      (v.selects = false ∨ v.b (Reg.refselPortCfg (0x200 + p)) 60 = false → exec (.esmcReceive p frame) s = .next v))) ∧
  (∀ p < 80, ∀ t, assoc u.ref.heard p = some t → u.selects = true → t + 6250000000 ≤ u.ticks → ∀ v,
    v = { u with ref := { u.ref with heard := assocDel u.ref.heard p } } →
    exec (.esmcTimeout p) s = .next ((State.setf v (Reg.refselPortStatus (0x200 + p)) 0 4 0xF).raise 0xA05
      (toLe 1 p ++ toLe 1 0xF ++ toLe 1 (State.f v (Reg.refselPortStatus (0x200 + p)) 0 4) ++ toLe 1 1)))

/-- Outputs. State 1 of an output is driven; `State.outDesired` is the state that its owner, role and squelch give. -/
def Obligations.OutputsFollowTheirSources : Prop := ∀ s u : State, u = s.fresh → u.timeUp = true →
  (∀ i < 18, u.islandUp 20 = true →
    (u.outDesired i = 1 → u.outState i ≠ 1 → (∀ t, (u.outp i).startAt = some t → t ≤ u.runNow (u.outSource i)) →
      exec (.outputDriveChange i) s =
        .next ((((u.setOutState i 1).setOutp i (fun x => { x with startAt := none })).keepLine i false).emit (.drive i true))) ∧
    (u.outDesired i ≠ 1 → u.outState i = 1 →
      exec (.outputDriveChange i) s = .next (((u.setOutState i (u.outDesired i)).keepLine i false).emit (.drive i false)))) ∧
  (∀ i < 18,
    ((u.outp i).slew = some 0 →
      exec (.outRealigned i) s = .next (((u.setf (Reg.outStatus i) 58 1 0).setOutp i (fun x => { x with slew := none })).realigned i 1)) ∧
    ((u.outp i).slew = none → ∀ t, (u.outp i).doneAt = some t → t ≤ u.runNow (u.outSource i % 8) →
      exec (.outRealigned i) s = .next ((u.setOutp i (fun x => { x with doneAt := none })).realigned i 0))) ∧
  (∀ n < 2, ∀ i j pulse d sec v, i = 16 + n → j = u.linkedPps i → d = u.outSource j → pulse = gridAt 1 (u.outp j).phase (u.outTime j + 1) → sec = pulse / sec16 →
    u.islandUp 20 = true → u.outState i = 1 → u.outState j = 1 → u.outGrid j = true → u.outFreq j = 1 →
    pulse - u.outTime j ≤ bits (u.outp i).pulse 16 16 * 1000000 * ns16 → (u.outp i).described ≠ some pulse →
    v = (u.setOutp j (fun x => { x with described := some pulse, first := false })).setOutp i (fun x => { x with described := some pulse }) →
    (bits (u.outp i).pulse 56 8 = 0 → ∀ body, body = toLe 1 16 ++ [1] ++
        toLe 1 (u.tdLevel d + (u.todUtc i d).2 * 4 + bit (u.outp j).first * 32) ++ toLe 6 sec ++
        toLe 2 (unsigned 16 (u.todUtc i d).1) ++ toLe 1 d ++ toLe 1 (u.clockClass d) ++ zeros 2 →
      exec (.todMessageStart n) s = .next (v.emit (.tod n ([0x7E] ++ body ++ toLe 2 (crc16 body))))) ∧
    (bits (u.outp i).pulse 56 8 ≠ 0 → (u.todUtc i d).2 / 4 % 2 = 1 → exec (.todMessageStart n) s =
      .next (v.emit (.tod n (zda (bits (u.outp i).pulse 32 16) (((sec : Int) - (u.todUtc i d).1).toNat))))) ∧
    (bits (u.outp i).pulse 56 8 ≠ 0 → (u.todUtc i d).2 / 4 % 2 ≠ 1 → exec (.todMessageStart n) s =
      .next (v.count (Reg.outStatus i) 0 32 1)))

/-- Calibration. An item's state is 1 current, 2 due, 3 stale; `State.startStep p tx forced` starts a step of a direction of a port. -/
def Obligations.CalibrationStepsAct : Prop := ∀ s u : State, u = s.fresh →
  (u.calRuns = true → u.rested 17 12500000 = true → ∀ v, v = u.mark 17 → exec .sensorSample s = .next (v.forEach (v.calItems.filter (fun k =>
    bits (v.get (Reg.thermValue (itemSensor k))) 16 1 == 1 && v.itemState k == 1 && decide (v.f Reg.calCfg 8 13 <
      (signed 16 (v.get (Reg.thermValue (itemSensor k))) - signed 16 (v.f (itemPlace k).1 (itemTempLo k) 16)).natAbs))) (fun k s => s.makeDue k))) ∧
  (∀ p < 80, (∀ run, u.mayStep p true = true → u.txIdle p = true → u.calEntryOffers p = true →
      (∀ x, u.entryInForce p = some x → run = u.runNow x.1.dom) → (u.entryInForce p = none → run = 0) →
      exec (.calStepStart (.entry p)) s = .next ((u.startStep p true false).setSide p (fun x => { x with gapEntry := some run }))) ∧
    (u.mayStep p true = true → u.txGap p = true →
      exec (.calStepStart (.txIdle p)) s = .next ((u.startStep p true false).setSide p (fun x => { x with gapTx := some u.ticks }))) ∧
    (u.mayStep p false = true → u.rxGap p = true →
      exec (.calStepStart (.rxIdle p)) s = .next ((u.startStep p false false).setSide p (fun x => { x with gapRx := some u.ticks }))) ∧
    (∀ tx, u.mayStep p tx = true → u.sleepGap p tx = true → exec (.calStepStart (.sleep p tx)) s = .next (u.startStep p tx false)) ∧
    (∀ tx values k, k = 2 * p + bit tx → u.timeUp = true → u.stepOver k = true → (u.calStep k).isSome = true →
      (tx = false ∨ u.calStep k ≠ some false ∨ u.mayStart p = false → ∀ v, v = (u.calDrop k).count (Reg.calPortSteps p) (if tx then 32 else 0) 32 1 →
        exec (.calStepComplete (.lane p tx) values) s =
          .next (v.forEach ((v.laneItems p tx).zip (values ++ List.replicate 4 (0, 0))) (fun x s => s.itemStep x.1 x.2 []))) ∧
      (tx = true → u.calStep k = some false → u.mayStart p = true → exec (.calStepComplete (.lane p tx) values) s = .next (u.calYield p))) ∧
    (u.mayStep p true = true → u.b (Reg.calPortCfg p) 16 = true → (u.side p).sending = none →
      (∃ k ∈ u.laneItems p true, staleState (u.itemState k) = true ∨ (u.itemState k = 2 ∧
        ∃ t, assoc u.cal.deadlines k = some t ∧ t ≤ u.ticks + u.f Reg.calForceCfg 32 16 * 1250000)) →
      (∀ t, assoc u.cal.forced p = some t → t + u.f Reg.calForceCfg 0 32 * 1250 ≤ u.ticks) → ∀ v,
      v = (u.startStep p true true).count (Reg.calPortCnt p) 16 16 1 →
      exec (.forcedWindow p) s = .next { v with cal := { v.cal with forced := assocSet v.cal.forced p v.ticks } })) ∧
  (∀ cls i k, k = itemOf cls i →
    (2 ≤ cls → k ∈ backgroundItems → u.calRuns = true → u.wants k = true → k ∉ u.cal.background → exec (.calStepStart (.channel cls i)) s =
      .next { u with cal := { u.cal with background := u.cal.background ++ [k], began := assocSet u.cal.began (1024 + k) u.ticks } }) ∧
    (∀ values, k ∈ u.cal.background → u.timeUp = true → u.stepOver (1024 + k) = true → ∀ v,
      v = { u with cal := { u.cal with background := u.cal.background.filter (· != k) } } →
      exec (.calStepComplete (.item cls i) values) s = .next (State.itemStep v k (values.headD (0, 0)) values)) ∧
    (∀ t, u.timeUp = true → k ∈ u.calItems → u.itemState k = 2 → assoc u.cal.deadlines k = some t → t ≤ u.ticks →
      exec (.calDeadline cls i) s = .next ((u.setItem k 3).settleRuns k true)))

/-- The pair. Role 0 is INIT, 1 STANDBY; path state 1 is SILENT and 2 UP; `State.mayTake` joins the conditions of a takeover. -/
def Obligations.PairWatchesItsPartner : Prop := ∀ s u : State, u = s.fresh → u.pairMode = true →
  (u.mode ≠ 3 → (∀ t, u.pair.sentAt = some t → t + u.f Reg.pairCfg 32 16 * 1250 ≤ u.ticks) →
    exec .bellflowerSend s = .next (u.setPair (fun x => { x with sentAt := some u.ticks })).sendBellflower) ∧
  (∀ bytes, exec (.bellflowerReceive 0 bytes) s =
    .next (u.hear 0 (bytes.length == 52 && bytes.drop 48 == toLe 4 (crc32c (bytes.take 48))) (bytes.take 48))) ∧
  (∀ bytes p, p = u.f Reg.pairCfg 8 8 → p < 80 → u.pathState 1 ≠ 0 →
    (crc32 (bytes.take (bytes.length - 4)) = leNat (bytes.drop (bytes.length - 4)) → ∀ d w, Safety.taken p bytes u = some (d, w) →
      (w.isBellflower p d = true → exec (.bellflowerReceive 1 bytes) s =
        .next ((w.mirrorTaken p d bytes.length).hear 1 true (d.drop (probeOff d)))) ∧
      (w.isBellflower p d = false → exec (.bellflowerReceive 1 bytes) s = .next (w.good p d bytes.length))) ∧
    (crc32 (bytes.take (bytes.length - 4)) ≠ leNat (bytes.drop (bytes.length - 4)) → exec (.bellflowerReceive 1 bytes) s =
      .next ((u.arrive p bytes (fun _ _ => true) (fun _ s => s)).count Reg.pairRxErr 16 16 1))) ∧
  (∀ path < 2, u.pathState path = 2 → u.pathLive path = false → ∀ v, v = (u.setf Reg.pairState (20 + 2 * path) 2 1).raise 0xD01 (toLe 1 path ++ [0]) →
    (v.partnerActive = true → exec (.pathSilent path) s = .next (v.count Reg.pairCnt (if path = 0 then 16 else 0) 16 1).wtrCheck.checkBlocked) ∧
    (v.partnerActive = false → exec (.pathSilent path) s = .next v.wtrCheck.checkBlocked)) ∧
  (u.role = 0 → u.pair.settle = none → u.pair.initSince + u.f Reg.pairTimers 32 16 * (if u.preferred then 1 else 2) * 1250000 ≤ u.ticks →
    (u.mayTake = true → u.bothSilent = true → exec .pairInitTimeout s =
      .next ((u.fenceOut true).setPair (fun x => { x with settle := some (u.ticks, 0) }))) ∧
    (u.mayTake = true → u.bothSilent = false → exec .pairInitTimeout s = .next (u.takeOver 0)) ∧
    (u.mayTake = false → exec .pairInitTimeout s = .next (u.takeRole 1 0).checkBlocked)) ∧
  (u.role = 1 →
    (u.mayTake = true → u.bothSilent = true → exec .takeover s =
      .next ((u.fenceOut true).setPair (fun x => { x with settle := some (u.ticks, 1) }))) ∧
    (u.mayTake = true → u.bothSilent = false → exec .takeover s = .next (u.takeOver 2)) ∧
    (u.mayTake = false → exec .takeover s = .next u.checkBlocked))

/-- The fence and the pair's timers. Role 3 is FENCED; bit 25 of PAIR_STATE shows PAIR_FENCE_IN_N. -/
def Obligations.FenceAndPairTimersAct : Prop := ∀ s u : State, u = s.fresh →
  (∀ t cause, u.pair.settle = some (t, cause) → u.pairMode = true → t + u.f Reg.pairTimers 16 16 * 1250 ≤ u.ticks →
    exec .fenceSettle s = .next (u.takeOver cause)) ∧
  (∀ v w, v = u.setPair (fun x => { x with fenceLow := true }) → w = (v.setf Reg.pairState 25 1 1).takeRole 3 5 →
    (v.pairMode = true → exec .fenceInFall s =
      .next (w.forEach ((List.range 18).filter (fun i => w.f (Reg.outCfg i) 60 2 == 3 && w.outState i == 1)) (fun i s =>
        ((s.setOutState i 0).keepLine i (s.outLevel i)).emit (.drive i false))).checkBlocked) ∧
    (v.pairMode = false → exec .fenceInFall s = .next v)) ∧
  (∀ v w, v = u.setPair (fun x => { x with fenceLow := false }) → w = v.setf Reg.pairState 25 1 0 →
    (v.pairMode = true → w.role = 3 → exec .fenceInRise s = .next (w.takeRole 1 5)) ∧
    (v.pairMode = true → w.role ≠ 3 → exec .fenceInRise s = .next w) ∧
    (v.pairMode = false → exec .fenceInRise s = .next v)) ∧
  (∀ t, u.pair.takeReq = some t → t + u.threePeriods ≤ u.ticks → ∀ v, v = u.setPair (fun x => { x with takeReq := none }) →
    exec .takeReqTimeout s = .next (v.raise 0xD02 (toLe 1 2 ++ zeros 3 ++ toLe 4 (v.f Reg.healthReport 32 32)))) ∧
  (∀ t v, v = u.wtrCheck → v.pair.wtrSince = some t → t + v.f Reg.pairCfg 16 16 * 1250000000 ≤ v.ticks → v.pair.takeReq = none →
    exec .pairWtrExpiry s = .next (v.setPair (fun x => { x with takeReq := some v.ticks, wtrSince := some v.ticks })))

/-- Health. `State.selfTest i` says that self-test i may run and `State.tested` counts its result. -/
def Obligations.HealthTestsAct : Prop := ∀ s u : State, u = s.fresh →
  (u.serves 6 = true → (∀ t, u.health.reported = some t → t + u.f Reg.healthCfg 0 10 * 1250000 ≤ u.ticks) → ∀ a b v w, a = u.health →
    b = u.set Reg.healthAudit (a.leaks % 65536 * 2 ^ 32 + a.crosslinks % 65536 * 2 ^ 16 + a.countErrors % 65536) →
    v = { b with health := { b.health with reported := some b.ticks, leaks := 0, crosslinks := 0, countErrors := 0 } } →
    w = ((State.set v Reg.healthProofSummary (State.get v Reg.proofSummary)).set (Reg.healthProofLast 0)
      ((State.set v Reg.healthProofSummary (State.get v Reg.proofSummary)).get (Reg.proofSummary + 1))).set (Reg.healthProofLast 1)
      ((State.set v Reg.healthProofSummary (State.get v Reg.proofSummary)).get (Reg.proofSummary + 2)) →
    exec .healthReport s = .next (w.setVerdict (bit (w.findings &&& (w.f Reg.healthCfg 32 32 ||| 8) != 0)) w.findings).wtrCheck.checkBlocked) ∧
  (∀ bad, u.selfTest 0 = true → u.rested 21 12500000000 = true → ∀ v, v = u.mark 21 →
    exec (.scrubPass bad) s = .next (State.tested { v with health := { v.health with memory := v.health.memory || bad } } (!bad))) ∧
  (∀ failing bad v, u.selfTest 1 = true → 1600 ≤ u.cellsPresent → 16 ≤ u.cellsFree →
    bad = (failing.filter (fun c => decide (c < u.cellsPresent) && !u.offLists.contains c)).eraseDups.take 16 →
    v = { u with buf := { u.buf with testHeld := u.buf.testHeld ++ bad } } →
    exec (.cellTest failing) s = .next (State.tested { v with health := { v.health with memory := v.health.memory || !bad.isEmpty } } bad.isEmpty)) ∧
  (u.selfTest 3 = true → u.timeUp = true → u.rested 19 1250000000 = true → ∀ v bad, v = u.mark 19 →
    (bad = true ↔ ∃ i < 10, ∃ j < 10, v.level i = 2 ∧ v.level j = 2 ∧ i ≠ j ∧ v.selected i = v.selected j ∧
      v.f Reg.healthCfg 24 8 * 2 ^ 40 < (v.dpllFreq i - v.dpllFreq j).natAbs * 1000000000) →
    exec .crossCheck s = .next ((if bad then v.mark 2 else v).tested (!bad))) ∧
  (∀ readback bad, u.selfTest 4 = true → u.rested 20 1250000000 = true → ∀ v, v = u.mark 20 → bad = (readback != v.b Reg.pairState 24) →
    exec (.fenceLoopTest readback) s = .next (State.tested { v with health := { v.health with fenceLoop := bad } } (!bad)))

/-- Performance monitor, thermal sensors and two-wire buses. -/
def Obligations.CountersSensorsAndBusesAct : Prop := ∀ s u : State, u = s.fresh →
  (∀ n < 64, ∀ address after w v, u.perf.wrapped.find? (fun x => x.1 == n) = some w →
    v = { u with perf := { u.perf with wrapped := u.perf.wrapped.erase w } } →
    (State.b v (Reg.perfStatus n) 0 = true → exec (.perfOverflow n address after) s = .next (State.count v (Reg.perfStatus n) 16 16 1)) ∧
    (State.b v (Reg.perfStatus n) 0 = false → ∀ ctx,
      (0x40 ≤ State.f v (Reg.perfSel n) 40 8 → ctx = 2 ^ 63 + 2 ^ 62 + State.f v (Reg.perfSel n) 48 4 * 2 ^ 48 + address % 2 ^ 48) →
      (State.f v (Reg.perfSel n) 40 8 < 0x40 → ctx = 2 ^ 63 + (w.2 + min after 16) % 2 ^ 48) →
      exec (.perfOverflow n address after) s =
        .next (((State.set v (Reg.perfSample n) ctx).setf (Reg.perfStatus n) 0 1 1).signal 7 (State.modUs v 7)))) ∧
  (∀ values, u.rested 16 1250000 = true →
    exec (.thermConversion values) s = .next ((u.mark 16).forEach ((List.range 12).zip values) (fun x s => s.convert x.1 x.2))) ∧
  (∀ k < 4, u.i2cBusy k = true →
    (∀ value, k ∈ u.boot.i2cReads → exec (.i2cDone k true value) s = .next ((u.setf (Reg.i2cStatus (0x100 + k)) 0 8 value).i2cEnd k 0)) ∧
    (∀ value, k ∉ u.boot.i2cReads → exec (.i2cDone k true value) s = .next (u.i2cEnd k 0)) ∧
    (∀ value, exec (.i2cDone k false value) s = .next (u.i2cEnd k 1)) ∧
    exec (.i2cBusStuck k) s = .next (u.i2cEnd k 2))

/-- R438. The first two words are as they read: with the remaining hold and the report's age in them. -/
def Obligations.PairStatusReportsFourWords : Prop := ∀ (q : Request) (s u : State) (x : Ctx),
  (served pairStatusCmd q s = some (x, u) → ∀ p, p = toLe 8 u.pairStateWord ++ toLe 8 u.healthReportWord ++
    toLe 8 (u.get Reg.healthPartner) ++ toLe 8 (u.get Reg.pairPartnerUid) →
    p.length = 32 ∧ exec (.pairStatus q) s = .next (u.deliver x.dest true .ok p)) ∧
  (arrived pairStatusCmd q s = some (x, u) → x.p.length ≠ 0 → (refusal pairStatusCmd x u).isSome = true)

/-- R223. Index 0x58 + q of a port's bank of live counters is STAT_Q_DROP_ADMIT_q; performance event 7 counts the same drops. -/
def Obligations.RefusedCopyIsCounted : Prop := ∀ (s : State) (p q n : Nat) (c : Copy) (k e : Nat), p < 83 → q < 8 →
  2 ≤ s.pd 4 →
  s.admits p q n c.lent = false → k = shelf 0x0E (0x100 + p) (0x58 + q) → e = 1024 * 7 + (8 * p + q) →
  (s.enqueue p q n c).2 = false ∧ (s.enqueue p q n c).1.get k = (s.get k + 1) % 2 ^ 64 ∧
  (∀ j, j ≠ k → (s.enqueue p q n c).1.get j = s.get j) ∧
  assoc (s.enqueue p q n c).1.perf.occ e = some ((assoc s.perf.occ e).getD 0 + 1) ∧
  (∀ j, j ≠ e → assoc (s.enqueue p q n c).1.perf.occ j = assoc s.perf.occ j) ∧
  { (s.enqueue p q n c).1 with words := s.words, perf := { (s.enqueue p q n c).1.perf with occ := s.perf.occ } } = s

/-- PERST_N and the PCIe link. -/
def Obligations.PerstAndPcieLinkAct : Prop := ∀ s : State,
  (∀ u, u = ({ s with out := [], boot := { s.boot with perstLow := true } } : State).set Reg.devResetCause 16 →
    (s.on 1 = true → exec .perstAssert s = .next u.cutPcie.refresh) ∧ (s.on 1 = false → exec .perstAssert s = .next u)) ∧
  exec .perstDeassert s = .next { s with out := [], boot := { s.boot with perstLow := false } } ∧
  ((s.on 1 && s.islandUp 4 && !s.boot.perstLow) = true →
    exec .pcieLinkUp s = .next (State.refresh { s with out := [], boot := { s.boot with linkUp := true } })) ∧
  ((s.on 1 && s.islandUp 4 && !s.boot.perstLow) = false → exec .pcieLinkUp s = .next { s with out := [] }) ∧
  exec .pcieLinkDown s = .next (State.refresh { s with out := [], boot := { s.boot with linkUp := false } })

/-- R312. `bitsSet m 8` lists the bits of m below 8; `State.now` is a domain's time at the instant of the state. -/
def Obligations.TimeGetReportsDomains : Prop := timeGetCmd.cls = 1 ∧ ∀ (q : Request) (s u : State) (x : Ctx) (l : List Nat),
  l = bitsSet (u8 x.p 0) 8 →
  (l.Pairwise (· < ·) ∧ ∀ d, d ∈ l ↔ d < 8 ∧ (u8 x.p 0).testBit d = true) ∧
  (served timeGetCmd q s = some (x, u) → x.p.length = 1 ∧ ∀ p, p = l.flatMap (fun d => toLe 1 d ++ toLe 1 (u.tdLevel d) ++
      toLe 2 (u.dom d).gen ++ (toLe 2 (u.now d) ++ toLe 4 (nsOf (u.now d)) ++ toLe 6 (secOf (u.now d))) ++
      toLe 4 (unsigned 32 (u.dom d).freq) ++ zeros 4) →
    p.length = 24 * l.length ∧ exec (.timeGet q) s = .next (u.deliver x.dest true .ok p)) ∧
  (arrived timeGetCmd q s = some (x, u) → timeGetCmd.notReady x u = none →
    (x.p.length ≠ 1 → exec (.timeGet q) s = .next (u.fail x.dest true .range)) ∧
    (x.p.length = 1 → u8 x.p 0 = 0 → exec (.timeGet q) s = .next (u.fail x.dest true (.at 0))))

/-- Bits 6 and 5 of a lane's CFG are TX_PRECODE and RX_PRECODE. -/
def Obligations.PrecodingLosesNothing : Prop := ∀ (s : State) (l : Lane) (bs : List Bool), s.pam4 l = true → bs.length % 2 = 0 →
  (∀ v ∈ s.txSymbols l bs, v < 4 ∧ pam4Level v ∈ [-3, -1, 1, 3]) ∧
  (s.b (laneKey l 1) 6 = false → s.b (laneKey l 1) 5 = false → s.rxBits l (s.txSymbols l bs) = bs) ∧
  (s.b (laneKey l 1) 6 = true → s.b (laneKey l 1) 5 = true → s.rxBits l (s.txSymbols l bs) = bs.drop 2)
end

