-- ==== Sys2Proof/Laws/State.lean ====
section
/-! SUPPORT. What the basic updates of the state leave in each of its fields. -/
namespace Sys2Proof.Machine

/-! ### State.set -/

@[simp] theorem State.set_pending (s : State) (k v : Nat) : (s.set k v).pending = s.pending := rfl
@[simp] theorem State.set_ticks (s : State) (k v : Nat) : (s.set k v).ticks = s.ticks := rfl
@[simp] theorem State.set_drawn (s : State) (k v : Nat) : (s.set k v).drawn = s.drawn := rfl
@[simp] theorem State.set_out (s : State) (k v : Nat) : (s.set k v).out = s.out := rfl
theorem State.set_words (s : State) (k v : Nat) : (s.set k v).words = Words.set s.words k (BitVec.ofNat 64 v) := rfl
@[simp] theorem State.set_ctl (s : State) (k v : Nat) : (s.set k v).ctl = s.ctl := rfl
@[simp] theorem State.set_engines (s : State) (k v : Nat) : (s.set k v).engines = s.engines := rfl
@[simp] theorem State.set_boot (s : State) (k v : Nat) : (s.set k v).boot = s.boot := rfl
@[simp] theorem State.set_txeq (s : State) (k v : Nat) : (s.set k v).txeq = s.txeq := rfl
@[simp] theorem State.set_clock (s : State) (k v : Nat) : (s.set k v).clock = s.clock := rfl
@[simp] theorem State.set_ledger (s : State) (k v : Nat) : (s.set k v).ledger = s.ledger := rfl
@[simp] theorem State.set_fifos (s : State) (k v : Nat) : (s.set k v).fifos = s.fifos := rfl
@[simp] theorem State.set_ports (s : State) (k v : Nat) : (s.set k v).ports = s.ports := rfl
@[simp] theorem State.set_fwd (s : State) (k v : Nat) : (s.set k v).fwd = s.fwd := rfl
@[simp] theorem State.set_rings (s : State) (k v : Nat) : (s.set k v).rings = s.rings := rfl
@[simp] theorem State.set_buf (s : State) (k v : Nat) : (s.set k v).buf = s.buf := rfl
@[simp] theorem State.set_gates (s : State) (k v : Nat) : (s.set k v).gates = s.gates := rfl
@[simp] theorem State.set_qmon (s : State) (k v : Nat) : (s.set k v).qmon = s.qmon := rfl
@[simp] theorem State.set_red (s : State) (k v : Nat) : (s.set k v).red = s.red := rfl
@[simp] theorem State.set_cal (s : State) (k v : Nat) : (s.set k v).cal = s.cal := rfl
@[simp] theorem State.set_snap (s : State) (k v : Nat) : (s.set k v).snap = s.snap := rfl
@[simp] theorem State.set_link (s : State) (k v : Nat) : (s.set k v).link = s.link := rfl
@[simp] theorem State.set_ref (s : State) (k v : Nat) : (s.set k v).ref = s.ref := rfl
@[simp] theorem State.set_outs (s : State) (k v : Nat) : (s.set k v).outs = s.outs := rfl
@[simp] theorem State.set_ptp (s : State) (k v : Nat) : (s.set k v).ptp = s.ptp := rfl
@[simp] theorem State.set_tdc (s : State) (k v : Nat) : (s.set k v).tdc = s.tdc := rfl
@[simp] theorem State.set_perf (s : State) (k v : Nat) : (s.set k v).perf = s.perf := rfl
@[simp] theorem State.set_pair (s : State) (k v : Nat) : (s.set k v).pair = s.pair := rfl
@[simp] theorem State.set_health (s : State) (k v : Nat) : (s.set k v).health = s.health := rfl

/-! ### State.setf -/

@[simp] theorem State.setf_pending (s : State) (k lo n x : Nat) : (s.setf k lo n x).pending = s.pending := State.set_pending s _ _
@[simp] theorem State.setf_ticks (s : State) (k lo n x : Nat) : (s.setf k lo n x).ticks = s.ticks := State.set_ticks s _ _
@[simp] theorem State.setf_drawn (s : State) (k lo n x : Nat) : (s.setf k lo n x).drawn = s.drawn := State.set_drawn s _ _
@[simp] theorem State.setf_out (s : State) (k lo n x : Nat) : (s.setf k lo n x).out = s.out := State.set_out s _ _
@[simp] theorem State.setf_ctl (s : State) (k lo n x : Nat) : (s.setf k lo n x).ctl = s.ctl := State.set_ctl s _ _
@[simp] theorem State.setf_engines (s : State) (k lo n x : Nat) : (s.setf k lo n x).engines = s.engines := State.set_engines s _ _
@[simp] theorem State.setf_boot (s : State) (k lo n x : Nat) : (s.setf k lo n x).boot = s.boot := State.set_boot s _ _
@[simp] theorem State.setf_txeq (s : State) (k lo n x : Nat) : (s.setf k lo n x).txeq = s.txeq := State.set_txeq s _ _
@[simp] theorem State.setf_clock (s : State) (k lo n x : Nat) : (s.setf k lo n x).clock = s.clock := State.set_clock s _ _
@[simp] theorem State.setf_ledger (s : State) (k lo n x : Nat) : (s.setf k lo n x).ledger = s.ledger := State.set_ledger s _ _
@[simp] theorem State.setf_fifos (s : State) (k lo n x : Nat) : (s.setf k lo n x).fifos = s.fifos := State.set_fifos s _ _
@[simp] theorem State.setf_ports (s : State) (k lo n x : Nat) : (s.setf k lo n x).ports = s.ports := State.set_ports s _ _
@[simp] theorem State.setf_fwd (s : State) (k lo n x : Nat) : (s.setf k lo n x).fwd = s.fwd := State.set_fwd s _ _
@[simp] theorem State.setf_rings (s : State) (k lo n x : Nat) : (s.setf k lo n x).rings = s.rings := State.set_rings s _ _
@[simp] theorem State.setf_buf (s : State) (k lo n x : Nat) : (s.setf k lo n x).buf = s.buf := State.set_buf s _ _
@[simp] theorem State.setf_gates (s : State) (k lo n x : Nat) : (s.setf k lo n x).gates = s.gates := State.set_gates s _ _
@[simp] theorem State.setf_qmon (s : State) (k lo n x : Nat) : (s.setf k lo n x).qmon = s.qmon := State.set_qmon s _ _
@[simp] theorem State.setf_red (s : State) (k lo n x : Nat) : (s.setf k lo n x).red = s.red := State.set_red s _ _
@[simp] theorem State.setf_cal (s : State) (k lo n x : Nat) : (s.setf k lo n x).cal = s.cal := State.set_cal s _ _
@[simp] theorem State.setf_snap (s : State) (k lo n x : Nat) : (s.setf k lo n x).snap = s.snap := State.set_snap s _ _
@[simp] theorem State.setf_link (s : State) (k lo n x : Nat) : (s.setf k lo n x).link = s.link := State.set_link s _ _
@[simp] theorem State.setf_ref (s : State) (k lo n x : Nat) : (s.setf k lo n x).ref = s.ref := State.set_ref s _ _
@[simp] theorem State.setf_outs (s : State) (k lo n x : Nat) : (s.setf k lo n x).outs = s.outs := State.set_outs s _ _
@[simp] theorem State.setf_ptp (s : State) (k lo n x : Nat) : (s.setf k lo n x).ptp = s.ptp := State.set_ptp s _ _
@[simp] theorem State.setf_tdc (s : State) (k lo n x : Nat) : (s.setf k lo n x).tdc = s.tdc := State.set_tdc s _ _
@[simp] theorem State.setf_perf (s : State) (k lo n x : Nat) : (s.setf k lo n x).perf = s.perf := State.set_perf s _ _
@[simp] theorem State.setf_pair (s : State) (k lo n x : Nat) : (s.setf k lo n x).pair = s.pair := State.set_pair s _ _
@[simp] theorem State.setf_health (s : State) (k lo n x : Nat) : (s.setf k lo n x).health = s.health := State.set_health s _ _

/-! ### State.count -/

@[simp] theorem State.count_pending (s : State) (k lo n d : Nat) : (s.count k lo n d).pending = s.pending := State.set_pending s _ _
@[simp] theorem State.count_ticks (s : State) (k lo n d : Nat) : (s.count k lo n d).ticks = s.ticks := State.set_ticks s _ _
@[simp] theorem State.count_drawn (s : State) (k lo n d : Nat) : (s.count k lo n d).drawn = s.drawn := State.set_drawn s _ _
@[simp] theorem State.count_out (s : State) (k lo n d : Nat) : (s.count k lo n d).out = s.out := State.set_out s _ _
@[simp] theorem State.count_ctl (s : State) (k lo n d : Nat) : (s.count k lo n d).ctl = s.ctl := State.set_ctl s _ _
@[simp] theorem State.count_engines (s : State) (k lo n d : Nat) : (s.count k lo n d).engines = s.engines := State.set_engines s _ _
@[simp] theorem State.count_boot (s : State) (k lo n d : Nat) : (s.count k lo n d).boot = s.boot := State.set_boot s _ _
@[simp] theorem State.count_txeq (s : State) (k lo n d : Nat) : (s.count k lo n d).txeq = s.txeq := State.set_txeq s _ _
@[simp] theorem State.count_clock (s : State) (k lo n d : Nat) : (s.count k lo n d).clock = s.clock := State.set_clock s _ _
@[simp] theorem State.count_ledger (s : State) (k lo n d : Nat) : (s.count k lo n d).ledger = s.ledger := State.set_ledger s _ _
@[simp] theorem State.count_fifos (s : State) (k lo n d : Nat) : (s.count k lo n d).fifos = s.fifos := State.set_fifos s _ _
@[simp] theorem State.count_ports (s : State) (k lo n d : Nat) : (s.count k lo n d).ports = s.ports := State.set_ports s _ _
@[simp] theorem State.count_fwd (s : State) (k lo n d : Nat) : (s.count k lo n d).fwd = s.fwd := State.set_fwd s _ _
@[simp] theorem State.count_rings (s : State) (k lo n d : Nat) : (s.count k lo n d).rings = s.rings := State.set_rings s _ _
@[simp] theorem State.count_buf (s : State) (k lo n d : Nat) : (s.count k lo n d).buf = s.buf := State.set_buf s _ _
@[simp] theorem State.count_gates (s : State) (k lo n d : Nat) : (s.count k lo n d).gates = s.gates := State.set_gates s _ _
@[simp] theorem State.count_qmon (s : State) (k lo n d : Nat) : (s.count k lo n d).qmon = s.qmon := State.set_qmon s _ _
@[simp] theorem State.count_red (s : State) (k lo n d : Nat) : (s.count k lo n d).red = s.red := State.set_red s _ _
@[simp] theorem State.count_cal (s : State) (k lo n d : Nat) : (s.count k lo n d).cal = s.cal := State.set_cal s _ _
@[simp] theorem State.count_snap (s : State) (k lo n d : Nat) : (s.count k lo n d).snap = s.snap := State.set_snap s _ _
@[simp] theorem State.count_link (s : State) (k lo n d : Nat) : (s.count k lo n d).link = s.link := State.set_link s _ _
@[simp] theorem State.count_ref (s : State) (k lo n d : Nat) : (s.count k lo n d).ref = s.ref := State.set_ref s _ _
@[simp] theorem State.count_outs (s : State) (k lo n d : Nat) : (s.count k lo n d).outs = s.outs := State.set_outs s _ _
@[simp] theorem State.count_ptp (s : State) (k lo n d : Nat) : (s.count k lo n d).ptp = s.ptp := State.set_ptp s _ _
@[simp] theorem State.count_tdc (s : State) (k lo n d : Nat) : (s.count k lo n d).tdc = s.tdc := State.set_tdc s _ _
@[simp] theorem State.count_perf (s : State) (k lo n d : Nat) : (s.count k lo n d).perf = s.perf := State.set_perf s _ _
@[simp] theorem State.count_pair (s : State) (k lo n d : Nat) : (s.count k lo n d).pair = s.pair := State.set_pair s _ _
@[simp] theorem State.count_health (s : State) (k lo n d : Nat) : (s.count k lo n d).health = s.health := State.set_health s _ _

/-! ### State.wrap -/

@[simp] theorem State.wrap_pending (s : State) (k lo n d : Nat) : (s.wrap k lo n d).pending = s.pending := State.set_pending s _ _
@[simp] theorem State.wrap_ticks (s : State) (k lo n d : Nat) : (s.wrap k lo n d).ticks = s.ticks := State.set_ticks s _ _
@[simp] theorem State.wrap_drawn (s : State) (k lo n d : Nat) : (s.wrap k lo n d).drawn = s.drawn := State.set_drawn s _ _
@[simp] theorem State.wrap_out (s : State) (k lo n d : Nat) : (s.wrap k lo n d).out = s.out := State.set_out s _ _
@[simp] theorem State.wrap_ctl (s : State) (k lo n d : Nat) : (s.wrap k lo n d).ctl = s.ctl := State.set_ctl s _ _
@[simp] theorem State.wrap_engines (s : State) (k lo n d : Nat) : (s.wrap k lo n d).engines = s.engines := State.set_engines s _ _
@[simp] theorem State.wrap_boot (s : State) (k lo n d : Nat) : (s.wrap k lo n d).boot = s.boot := State.set_boot s _ _
@[simp] theorem State.wrap_txeq (s : State) (k lo n d : Nat) : (s.wrap k lo n d).txeq = s.txeq := State.set_txeq s _ _
@[simp] theorem State.wrap_clock (s : State) (k lo n d : Nat) : (s.wrap k lo n d).clock = s.clock := State.set_clock s _ _
@[simp] theorem State.wrap_ledger (s : State) (k lo n d : Nat) : (s.wrap k lo n d).ledger = s.ledger := State.set_ledger s _ _
@[simp] theorem State.wrap_fifos (s : State) (k lo n d : Nat) : (s.wrap k lo n d).fifos = s.fifos := State.set_fifos s _ _
@[simp] theorem State.wrap_ports (s : State) (k lo n d : Nat) : (s.wrap k lo n d).ports = s.ports := State.set_ports s _ _
@[simp] theorem State.wrap_fwd (s : State) (k lo n d : Nat) : (s.wrap k lo n d).fwd = s.fwd := State.set_fwd s _ _
@[simp] theorem State.wrap_rings (s : State) (k lo n d : Nat) : (s.wrap k lo n d).rings = s.rings := State.set_rings s _ _
@[simp] theorem State.wrap_buf (s : State) (k lo n d : Nat) : (s.wrap k lo n d).buf = s.buf := State.set_buf s _ _
@[simp] theorem State.wrap_gates (s : State) (k lo n d : Nat) : (s.wrap k lo n d).gates = s.gates := State.set_gates s _ _
@[simp] theorem State.wrap_qmon (s : State) (k lo n d : Nat) : (s.wrap k lo n d).qmon = s.qmon := State.set_qmon s _ _
@[simp] theorem State.wrap_red (s : State) (k lo n d : Nat) : (s.wrap k lo n d).red = s.red := State.set_red s _ _
@[simp] theorem State.wrap_cal (s : State) (k lo n d : Nat) : (s.wrap k lo n d).cal = s.cal := State.set_cal s _ _
@[simp] theorem State.wrap_snap (s : State) (k lo n d : Nat) : (s.wrap k lo n d).snap = s.snap := State.set_snap s _ _
@[simp] theorem State.wrap_link (s : State) (k lo n d : Nat) : (s.wrap k lo n d).link = s.link := State.set_link s _ _
@[simp] theorem State.wrap_ref (s : State) (k lo n d : Nat) : (s.wrap k lo n d).ref = s.ref := State.set_ref s _ _
@[simp] theorem State.wrap_outs (s : State) (k lo n d : Nat) : (s.wrap k lo n d).outs = s.outs := State.set_outs s _ _
@[simp] theorem State.wrap_ptp (s : State) (k lo n d : Nat) : (s.wrap k lo n d).ptp = s.ptp := State.set_ptp s _ _
@[simp] theorem State.wrap_tdc (s : State) (k lo n d : Nat) : (s.wrap k lo n d).tdc = s.tdc := State.set_tdc s _ _
@[simp] theorem State.wrap_perf (s : State) (k lo n d : Nat) : (s.wrap k lo n d).perf = s.perf := State.set_perf s _ _
@[simp] theorem State.wrap_pair (s : State) (k lo n d : Nat) : (s.wrap k lo n d).pair = s.pair := State.set_pair s _ _
@[simp] theorem State.wrap_health (s : State) (k lo n d : Nat) : (s.wrap k lo n d).health = s.health := State.set_health s _ _

/-! ### State.fresh -/

@[simp] theorem State.fresh_pending (s : State) : (s.fresh).pending = s.pending := rfl
@[simp] theorem State.fresh_ticks (s : State) : (s.fresh).ticks = s.ticks := rfl
@[simp] theorem State.fresh_drawn (s : State) : (s.fresh).drawn = s.drawn := rfl
@[simp] theorem State.fresh_out (s : State) : (s.fresh).out = [] := rfl
@[simp] theorem State.fresh_words (s : State) : (s.fresh).words = s.words := rfl
@[simp] theorem State.fresh_ctl (s : State) : (s.fresh).ctl = s.ctl := rfl
@[simp] theorem State.fresh_engines (s : State) : (s.fresh).engines = s.engines := rfl
@[simp] theorem State.fresh_boot (s : State) : (s.fresh).boot = s.boot := rfl
@[simp] theorem State.fresh_txeq (s : State) : (s.fresh).txeq = s.txeq := rfl
@[simp] theorem State.fresh_clock (s : State) : (s.fresh).clock = s.clock := rfl
@[simp] theorem State.fresh_ledger (s : State) : (s.fresh).ledger = s.ledger := rfl
@[simp] theorem State.fresh_fifos (s : State) : (s.fresh).fifos = s.fifos := rfl
@[simp] theorem State.fresh_ports (s : State) : (s.fresh).ports = s.ports := rfl
@[simp] theorem State.fresh_fwd (s : State) : (s.fresh).fwd = s.fwd := rfl
@[simp] theorem State.fresh_rings (s : State) : (s.fresh).rings = s.rings := rfl
@[simp] theorem State.fresh_buf (s : State) : (s.fresh).buf = s.buf := rfl
@[simp] theorem State.fresh_gates (s : State) : (s.fresh).gates = s.gates := rfl
@[simp] theorem State.fresh_qmon (s : State) : (s.fresh).qmon = s.qmon := rfl
@[simp] theorem State.fresh_red (s : State) : (s.fresh).red = s.red := rfl
@[simp] theorem State.fresh_cal (s : State) : (s.fresh).cal = s.cal := rfl
@[simp] theorem State.fresh_snap (s : State) : (s.fresh).snap = s.snap := rfl
@[simp] theorem State.fresh_link (s : State) : (s.fresh).link = s.link := rfl
@[simp] theorem State.fresh_ref (s : State) : (s.fresh).ref = s.ref := rfl
@[simp] theorem State.fresh_outs (s : State) : (s.fresh).outs = s.outs := rfl
@[simp] theorem State.fresh_ptp (s : State) : (s.fresh).ptp = s.ptp := rfl
@[simp] theorem State.fresh_tdc (s : State) : (s.fresh).tdc = s.tdc := rfl
@[simp] theorem State.fresh_perf (s : State) : (s.fresh).perf = s.perf := rfl
@[simp] theorem State.fresh_pair (s : State) : (s.fresh).pair = s.pair := rfl
@[simp] theorem State.fresh_health (s : State) : (s.fresh).health = s.health := rfl

/-! ### State.emit -/

@[simp] theorem State.emit_pending (s : State) (o : Output) : (s.emit o).pending = s.pending := rfl
@[simp] theorem State.emit_ticks (s : State) (o : Output) : (s.emit o).ticks = s.ticks := rfl
@[simp] theorem State.emit_drawn (s : State) (o : Output) : (s.emit o).drawn = s.drawn := rfl
@[simp] theorem State.emit_out (s : State) (o : Output) : (s.emit o).out = s.out ++ [o] := rfl
@[simp] theorem State.emit_words (s : State) (o : Output) : (s.emit o).words = s.words := rfl
@[simp] theorem State.emit_ctl (s : State) (o : Output) : (s.emit o).ctl = s.ctl := rfl
@[simp] theorem State.emit_engines (s : State) (o : Output) : (s.emit o).engines = s.engines := rfl
@[simp] theorem State.emit_boot (s : State) (o : Output) : (s.emit o).boot = s.boot := rfl
@[simp] theorem State.emit_txeq (s : State) (o : Output) : (s.emit o).txeq = s.txeq := rfl
@[simp] theorem State.emit_clock (s : State) (o : Output) : (s.emit o).clock = s.clock := rfl
@[simp] theorem State.emit_ledger (s : State) (o : Output) : (s.emit o).ledger = s.ledger := rfl
@[simp] theorem State.emit_fifos (s : State) (o : Output) : (s.emit o).fifos = s.fifos := rfl
@[simp] theorem State.emit_ports (s : State) (o : Output) : (s.emit o).ports = s.ports := rfl
@[simp] theorem State.emit_fwd (s : State) (o : Output) : (s.emit o).fwd = s.fwd := rfl
@[simp] theorem State.emit_rings (s : State) (o : Output) : (s.emit o).rings = s.rings := rfl
@[simp] theorem State.emit_buf (s : State) (o : Output) : (s.emit o).buf = s.buf := rfl
@[simp] theorem State.emit_gates (s : State) (o : Output) : (s.emit o).gates = s.gates := rfl
@[simp] theorem State.emit_qmon (s : State) (o : Output) : (s.emit o).qmon = s.qmon := rfl
@[simp] theorem State.emit_red (s : State) (o : Output) : (s.emit o).red = s.red := rfl
@[simp] theorem State.emit_cal (s : State) (o : Output) : (s.emit o).cal = s.cal := rfl
@[simp] theorem State.emit_snap (s : State) (o : Output) : (s.emit o).snap = s.snap := rfl
@[simp] theorem State.emit_link (s : State) (o : Output) : (s.emit o).link = s.link := rfl
@[simp] theorem State.emit_ref (s : State) (o : Output) : (s.emit o).ref = s.ref := rfl
@[simp] theorem State.emit_outs (s : State) (o : Output) : (s.emit o).outs = s.outs := rfl
@[simp] theorem State.emit_ptp (s : State) (o : Output) : (s.emit o).ptp = s.ptp := rfl
@[simp] theorem State.emit_tdc (s : State) (o : Output) : (s.emit o).tdc = s.tdc := rfl
@[simp] theorem State.emit_perf (s : State) (o : Output) : (s.emit o).perf = s.perf := rfl
@[simp] theorem State.emit_pair (s : State) (o : Output) : (s.emit o).pair = s.pair := rfl
@[simp] theorem State.emit_health (s : State) (o : Output) : (s.emit o).health = s.health := rfl

/-! ### State.draw -/

@[simp] theorem State.draw_pending (s : State) : (s.draw).pending = s.pending := rfl
@[simp] theorem State.draw_ticks (s : State) : (s.draw).ticks = s.ticks := rfl
@[simp] theorem State.draw_drawn (s : State) : (s.draw).drawn = s.drawn + 1 := rfl
@[simp] theorem State.draw_out (s : State) : (s.draw).out = s.out := rfl
@[simp] theorem State.draw_words (s : State) : (s.draw).words = s.words := rfl
@[simp] theorem State.draw_ctl (s : State) : (s.draw).ctl = s.ctl := rfl
@[simp] theorem State.draw_engines (s : State) : (s.draw).engines = s.engines := rfl
@[simp] theorem State.draw_boot (s : State) : (s.draw).boot = s.boot := rfl
@[simp] theorem State.draw_txeq (s : State) : (s.draw).txeq = s.txeq := rfl
@[simp] theorem State.draw_clock (s : State) : (s.draw).clock = s.clock := rfl
@[simp] theorem State.draw_ledger (s : State) : (s.draw).ledger = s.ledger := rfl
@[simp] theorem State.draw_fifos (s : State) : (s.draw).fifos = s.fifos := rfl
@[simp] theorem State.draw_ports (s : State) : (s.draw).ports = s.ports := rfl
@[simp] theorem State.draw_fwd (s : State) : (s.draw).fwd = s.fwd := rfl
@[simp] theorem State.draw_rings (s : State) : (s.draw).rings = s.rings := rfl
@[simp] theorem State.draw_buf (s : State) : (s.draw).buf = s.buf := rfl
@[simp] theorem State.draw_gates (s : State) : (s.draw).gates = s.gates := rfl
@[simp] theorem State.draw_qmon (s : State) : (s.draw).qmon = s.qmon := rfl
@[simp] theorem State.draw_red (s : State) : (s.draw).red = s.red := rfl
@[simp] theorem State.draw_cal (s : State) : (s.draw).cal = s.cal := rfl
@[simp] theorem State.draw_snap (s : State) : (s.draw).snap = s.snap := rfl
@[simp] theorem State.draw_link (s : State) : (s.draw).link = s.link := rfl
@[simp] theorem State.draw_ref (s : State) : (s.draw).ref = s.ref := rfl
@[simp] theorem State.draw_outs (s : State) : (s.draw).outs = s.outs := rfl
@[simp] theorem State.draw_ptp (s : State) : (s.draw).ptp = s.ptp := rfl
@[simp] theorem State.draw_tdc (s : State) : (s.draw).tdc = s.tdc := rfl
@[simp] theorem State.draw_perf (s : State) : (s.draw).perf = s.perf := rfl
@[simp] theorem State.draw_pair (s : State) : (s.draw).pair = s.pair := rfl
@[simp] theorem State.draw_health (s : State) : (s.draw).health = s.health := rfl

/-! ### State.setEngine -/

@[simp] theorem State.setEngine_pending (s : State) (e : Nat) (f : Engine → Engine) : (s.setEngine e f).pending = s.pending := rfl
@[simp] theorem State.setEngine_ticks (s : State) (e : Nat) (f : Engine → Engine) : (s.setEngine e f).ticks = s.ticks := rfl
@[simp] theorem State.setEngine_drawn (s : State) (e : Nat) (f : Engine → Engine) : (s.setEngine e f).drawn = s.drawn := rfl
@[simp] theorem State.setEngine_out (s : State) (e : Nat) (f : Engine → Engine) : (s.setEngine e f).out = s.out := rfl
@[simp] theorem State.setEngine_words (s : State) (e : Nat) (f : Engine → Engine) : (s.setEngine e f).words = s.words := rfl
@[simp] theorem State.setEngine_ctl (s : State) (e : Nat) (f : Engine → Engine) : (s.setEngine e f).ctl = s.ctl := rfl
@[simp] theorem State.setEngine_engines (s : State) (e : Nat) (f : Engine → Engine) : (s.setEngine e f).engines = modifyAt s.engines e f := rfl
@[simp] theorem State.setEngine_boot (s : State) (e : Nat) (f : Engine → Engine) : (s.setEngine e f).boot = s.boot := rfl
@[simp] theorem State.setEngine_txeq (s : State) (e : Nat) (f : Engine → Engine) : (s.setEngine e f).txeq = s.txeq := rfl
@[simp] theorem State.setEngine_clock (s : State) (e : Nat) (f : Engine → Engine) : (s.setEngine e f).clock = s.clock := rfl
@[simp] theorem State.setEngine_ledger (s : State) (e : Nat) (f : Engine → Engine) : (s.setEngine e f).ledger = s.ledger := rfl
@[simp] theorem State.setEngine_fifos (s : State) (e : Nat) (f : Engine → Engine) : (s.setEngine e f).fifos = s.fifos := rfl
@[simp] theorem State.setEngine_ports (s : State) (e : Nat) (f : Engine → Engine) : (s.setEngine e f).ports = s.ports := rfl
@[simp] theorem State.setEngine_fwd (s : State) (e : Nat) (f : Engine → Engine) : (s.setEngine e f).fwd = s.fwd := rfl
@[simp] theorem State.setEngine_rings (s : State) (e : Nat) (f : Engine → Engine) : (s.setEngine e f).rings = s.rings := rfl
@[simp] theorem State.setEngine_buf (s : State) (e : Nat) (f : Engine → Engine) : (s.setEngine e f).buf = s.buf := rfl
@[simp] theorem State.setEngine_gates (s : State) (e : Nat) (f : Engine → Engine) : (s.setEngine e f).gates = s.gates := rfl
@[simp] theorem State.setEngine_qmon (s : State) (e : Nat) (f : Engine → Engine) : (s.setEngine e f).qmon = s.qmon := rfl
@[simp] theorem State.setEngine_red (s : State) (e : Nat) (f : Engine → Engine) : (s.setEngine e f).red = s.red := rfl
@[simp] theorem State.setEngine_cal (s : State) (e : Nat) (f : Engine → Engine) : (s.setEngine e f).cal = s.cal := rfl
@[simp] theorem State.setEngine_snap (s : State) (e : Nat) (f : Engine → Engine) : (s.setEngine e f).snap = s.snap := rfl
@[simp] theorem State.setEngine_link (s : State) (e : Nat) (f : Engine → Engine) : (s.setEngine e f).link = s.link := rfl
@[simp] theorem State.setEngine_ref (s : State) (e : Nat) (f : Engine → Engine) : (s.setEngine e f).ref = s.ref := rfl
@[simp] theorem State.setEngine_outs (s : State) (e : Nat) (f : Engine → Engine) : (s.setEngine e f).outs = s.outs := rfl
@[simp] theorem State.setEngine_ptp (s : State) (e : Nat) (f : Engine → Engine) : (s.setEngine e f).ptp = s.ptp := rfl
@[simp] theorem State.setEngine_tdc (s : State) (e : Nat) (f : Engine → Engine) : (s.setEngine e f).tdc = s.tdc := rfl
@[simp] theorem State.setEngine_perf (s : State) (e : Nat) (f : Engine → Engine) : (s.setEngine e f).perf = s.perf := rfl
@[simp] theorem State.setEngine_pair (s : State) (e : Nat) (f : Engine → Engine) : (s.setEngine e f).pair = s.pair := rfl
@[simp] theorem State.setEngine_health (s : State) (e : Nat) (f : Engine → Engine) : (s.setEngine e f).health = s.health := rfl

/-! ### State.mark -/

@[simp] theorem State.mark_pending (s : State) (n : Nat) : (s.mark n).pending = s.pending := rfl
@[simp] theorem State.mark_ticks (s : State) (n : Nat) : (s.mark n).ticks = s.ticks := rfl
@[simp] theorem State.mark_drawn (s : State) (n : Nat) : (s.mark n).drawn = s.drawn := rfl
@[simp] theorem State.mark_out (s : State) (n : Nat) : (s.mark n).out = s.out := rfl
@[simp] theorem State.mark_words (s : State) (n : Nat) : (s.mark n).words = s.words := rfl
@[simp] theorem State.mark_ctl (s : State) (n : Nat) : (s.mark n).ctl = s.ctl := rfl
@[simp] theorem State.mark_engines (s : State) (n : Nat) : (s.mark n).engines = s.engines := rfl
@[simp] theorem State.mark_boot (s : State) (n : Nat) : (s.mark n).boot = s.boot := rfl
@[simp] theorem State.mark_txeq (s : State) (n : Nat) : (s.mark n).txeq = s.txeq := rfl
@[simp] theorem State.mark_clock (s : State) (n : Nat) : (s.mark n).clock = s.clock := rfl
@[simp] theorem State.mark_ledger (s : State) (n : Nat) : (s.mark n).ledger = s.ledger := rfl
@[simp] theorem State.mark_fifos (s : State) (n : Nat) : (s.mark n).fifos = s.fifos := rfl
@[simp] theorem State.mark_ports (s : State) (n : Nat) : (s.mark n).ports = s.ports := rfl
@[simp] theorem State.mark_fwd (s : State) (n : Nat) : (s.mark n).fwd = s.fwd := rfl
@[simp] theorem State.mark_rings (s : State) (n : Nat) : (s.mark n).rings = s.rings := rfl
@[simp] theorem State.mark_buf (s : State) (n : Nat) : (s.mark n).buf = s.buf := rfl
@[simp] theorem State.mark_gates (s : State) (n : Nat) : (s.mark n).gates = s.gates := rfl
@[simp] theorem State.mark_qmon (s : State) (n : Nat) : (s.mark n).qmon = s.qmon := rfl
@[simp] theorem State.mark_red (s : State) (n : Nat) : (s.mark n).red = s.red := rfl
@[simp] theorem State.mark_cal (s : State) (n : Nat) : (s.mark n).cal = s.cal := rfl
@[simp] theorem State.mark_snap (s : State) (n : Nat) : (s.mark n).snap = s.snap := rfl
@[simp] theorem State.mark_link (s : State) (n : Nat) : (s.mark n).link = s.link := rfl
@[simp] theorem State.mark_ref (s : State) (n : Nat) : (s.mark n).ref = s.ref := rfl
@[simp] theorem State.mark_outs (s : State) (n : Nat) : (s.mark n).outs = s.outs := rfl
@[simp] theorem State.mark_ptp (s : State) (n : Nat) : (s.mark n).ptp = s.ptp := rfl
@[simp] theorem State.mark_tdc (s : State) (n : Nat) : (s.mark n).tdc = s.tdc := rfl
@[simp] theorem State.mark_perf (s : State) (n : Nat) : (s.mark n).perf = s.perf := rfl
@[simp] theorem State.mark_pair (s : State) (n : Nat) : (s.mark n).pair = s.pair := rfl
@[simp] theorem State.mark_health (s : State) (n : Nat) : (s.mark n).health = { s.health with marks := assocSet s.health.marks n s.ticks } := rfl

/-! ### State.occurs -/

@[simp] theorem State.occurs_pending (s : State) (code inst n : Nat) : (s.occurs code inst n).pending = s.pending := rfl
@[simp] theorem State.occurs_ticks (s : State) (code inst n : Nat) : (s.occurs code inst n).ticks = s.ticks := rfl
@[simp] theorem State.occurs_drawn (s : State) (code inst n : Nat) : (s.occurs code inst n).drawn = s.drawn := rfl
@[simp] theorem State.occurs_out (s : State) (code inst n : Nat) : (s.occurs code inst n).out = s.out := rfl
@[simp] theorem State.occurs_words (s : State) (code inst n : Nat) : (s.occurs code inst n).words = s.words := rfl
@[simp] theorem State.occurs_ctl (s : State) (code inst n : Nat) : (s.occurs code inst n).ctl = s.ctl := rfl
@[simp] theorem State.occurs_engines (s : State) (code inst n : Nat) : (s.occurs code inst n).engines = s.engines := rfl
@[simp] theorem State.occurs_boot (s : State) (code inst n : Nat) : (s.occurs code inst n).boot = s.boot := rfl
@[simp] theorem State.occurs_txeq (s : State) (code inst n : Nat) : (s.occurs code inst n).txeq = s.txeq := rfl
@[simp] theorem State.occurs_clock (s : State) (code inst n : Nat) : (s.occurs code inst n).clock = s.clock := rfl
@[simp] theorem State.occurs_ledger (s : State) (code inst n : Nat) : (s.occurs code inst n).ledger = s.ledger := rfl
@[simp] theorem State.occurs_fifos (s : State) (code inst n : Nat) : (s.occurs code inst n).fifos = s.fifos := rfl
@[simp] theorem State.occurs_ports (s : State) (code inst n : Nat) : (s.occurs code inst n).ports = s.ports := rfl
@[simp] theorem State.occurs_fwd (s : State) (code inst n : Nat) : (s.occurs code inst n).fwd = s.fwd := rfl
@[simp] theorem State.occurs_rings (s : State) (code inst n : Nat) : (s.occurs code inst n).rings = s.rings := rfl
@[simp] theorem State.occurs_buf (s : State) (code inst n : Nat) : (s.occurs code inst n).buf = s.buf := rfl
@[simp] theorem State.occurs_gates (s : State) (code inst n : Nat) : (s.occurs code inst n).gates = s.gates := rfl
@[simp] theorem State.occurs_qmon (s : State) (code inst n : Nat) : (s.occurs code inst n).qmon = s.qmon := rfl
@[simp] theorem State.occurs_red (s : State) (code inst n : Nat) : (s.occurs code inst n).red = s.red := rfl
@[simp] theorem State.occurs_cal (s : State) (code inst n : Nat) : (s.occurs code inst n).cal = s.cal := rfl
@[simp] theorem State.occurs_snap (s : State) (code inst n : Nat) : (s.occurs code inst n).snap = s.snap := rfl
@[simp] theorem State.occurs_link (s : State) (code inst n : Nat) : (s.occurs code inst n).link = s.link := rfl
@[simp] theorem State.occurs_ref (s : State) (code inst n : Nat) : (s.occurs code inst n).ref = s.ref := rfl
@[simp] theorem State.occurs_outs (s : State) (code inst n : Nat) : (s.occurs code inst n).outs = s.outs := rfl
@[simp] theorem State.occurs_ptp (s : State) (code inst n : Nat) : (s.occurs code inst n).ptp = s.ptp := rfl
@[simp] theorem State.occurs_tdc (s : State) (code inst n : Nat) : (s.occurs code inst n).tdc = s.tdc := rfl
@[simp] theorem State.occurs_pair (s : State) (code inst n : Nat) : (s.occurs code inst n).pair = s.pair := rfl
@[simp] theorem State.occurs_health (s : State) (code inst n : Nat) : (s.occurs code inst n).health = s.health := rfl

/-! ### State.tested -/

@[simp] theorem State.tested_pending (s : State) (ok : Bool) : (s.tested ok).pending = s.pending := State.count_pending s _ _ _ _
@[simp] theorem State.tested_ticks (s : State) (ok : Bool) : (s.tested ok).ticks = s.ticks := State.count_ticks s _ _ _ _
@[simp] theorem State.tested_drawn (s : State) (ok : Bool) : (s.tested ok).drawn = s.drawn := State.count_drawn s _ _ _ _
@[simp] theorem State.tested_out (s : State) (ok : Bool) : (s.tested ok).out = s.out := State.count_out s _ _ _ _
@[simp] theorem State.tested_ctl (s : State) (ok : Bool) : (s.tested ok).ctl = s.ctl := State.count_ctl s _ _ _ _
@[simp] theorem State.tested_engines (s : State) (ok : Bool) : (s.tested ok).engines = s.engines := State.count_engines s _ _ _ _
@[simp] theorem State.tested_boot (s : State) (ok : Bool) : (s.tested ok).boot = s.boot := State.count_boot s _ _ _ _
@[simp] theorem State.tested_txeq (s : State) (ok : Bool) : (s.tested ok).txeq = s.txeq := State.count_txeq s _ _ _ _
@[simp] theorem State.tested_clock (s : State) (ok : Bool) : (s.tested ok).clock = s.clock := State.count_clock s _ _ _ _
@[simp] theorem State.tested_ledger (s : State) (ok : Bool) : (s.tested ok).ledger = s.ledger := State.count_ledger s _ _ _ _
@[simp] theorem State.tested_fifos (s : State) (ok : Bool) : (s.tested ok).fifos = s.fifos := State.count_fifos s _ _ _ _
@[simp] theorem State.tested_ports (s : State) (ok : Bool) : (s.tested ok).ports = s.ports := State.count_ports s _ _ _ _
@[simp] theorem State.tested_fwd (s : State) (ok : Bool) : (s.tested ok).fwd = s.fwd := State.count_fwd s _ _ _ _
@[simp] theorem State.tested_rings (s : State) (ok : Bool) : (s.tested ok).rings = s.rings := State.count_rings s _ _ _ _
@[simp] theorem State.tested_buf (s : State) (ok : Bool) : (s.tested ok).buf = s.buf := State.count_buf s _ _ _ _
@[simp] theorem State.tested_gates (s : State) (ok : Bool) : (s.tested ok).gates = s.gates := State.count_gates s _ _ _ _
@[simp] theorem State.tested_qmon (s : State) (ok : Bool) : (s.tested ok).qmon = s.qmon := State.count_qmon s _ _ _ _
@[simp] theorem State.tested_red (s : State) (ok : Bool) : (s.tested ok).red = s.red := State.count_red s _ _ _ _
@[simp] theorem State.tested_cal (s : State) (ok : Bool) : (s.tested ok).cal = s.cal := State.count_cal s _ _ _ _
@[simp] theorem State.tested_snap (s : State) (ok : Bool) : (s.tested ok).snap = s.snap := State.count_snap s _ _ _ _
@[simp] theorem State.tested_link (s : State) (ok : Bool) : (s.tested ok).link = s.link := State.count_link s _ _ _ _
@[simp] theorem State.tested_ref (s : State) (ok : Bool) : (s.tested ok).ref = s.ref := State.count_ref s _ _ _ _
@[simp] theorem State.tested_outs (s : State) (ok : Bool) : (s.tested ok).outs = s.outs := State.count_outs s _ _ _ _
@[simp] theorem State.tested_ptp (s : State) (ok : Bool) : (s.tested ok).ptp = s.ptp := State.count_ptp s _ _ _ _
@[simp] theorem State.tested_tdc (s : State) (ok : Bool) : (s.tested ok).tdc = s.tdc := State.count_tdc s _ _ _ _
@[simp] theorem State.tested_perf (s : State) (ok : Bool) : (s.tested ok).perf = s.perf := State.count_perf s _ _ _ _
@[simp] theorem State.tested_pair (s : State) (ok : Bool) : (s.tested ok).pair = s.pair := State.count_pair s _ _ _ _
@[simp] theorem State.tested_health (s : State) (ok : Bool) : (s.tested ok).health = s.health := State.count_health s _ _ _ _

end Sys2Proof.Machine
end

