-- ==== Sys2Proof/Laws/Words.lean ====
section
/-! SUPPORT. The word store and the flash: what a write leaves at its own place and at every other, and that every operation
keeps the canonical form. -/
namespace Sys2Proof.Machine

/-! ### Bit fields -/

theorem bits_lt (v lo n : Nat) : bits v lo n < 2 ^ n := Nat.mod_lt _ (Nat.two_pow_pos n)

/-- A field reads back the low bits of what was put into it. -/
theorem bits_setBits_same (v lo n x : Nat) : bits (setBits v lo n x) lo n = x % 2 ^ n := by
  unfold bits setBits
  have h1 : v % 2 ^ lo < 2 ^ lo := Nat.mod_lt _ (Nat.two_pow_pos lo)
  have e : v % 2 ^ lo + x % 2 ^ n * 2 ^ lo + (v >>> (lo + n)) * 2 ^ (lo + n)
      = v % 2 ^ lo + 2 ^ lo * (x % 2 ^ n + 2 ^ n * (v >>> (lo + n))) := by
    rw [Nat.pow_add]; ring
  rw [e, Nat.shiftRight_eq_div_pow, Nat.add_mul_div_left _ _ (Nat.two_pow_pos lo), Nat.div_eq_of_lt h1, Nat.zero_add,
    Nat.add_mul_mod_self_left, Nat.mod_mod]

/-- The bits of a word after one of its fields is replaced. -/
theorem testBit_setBits (v lo n x i : Nat) :
    (setBits v lo n x).testBit i = if i < lo then v.testBit i else if i < lo + n then x.testBit (i - lo) else v.testBit i := by
  unfold setBits
  have h1 : v % 2 ^ lo < 2 ^ lo := Nat.mod_lt _ (Nat.two_pow_pos lo)
  have h2 : x % 2 ^ n < 2 ^ n := Nat.mod_lt _ (Nat.two_pow_pos n)
  have e : v % 2 ^ lo + x % 2 ^ n * 2 ^ lo + (v >>> (lo + n)) * 2 ^ (lo + n)
      = 2 ^ lo * (2 ^ n * (v >>> (lo + n)) + x % 2 ^ n) + v % 2 ^ lo := by
    rw [Nat.pow_add]; ring
  rw [e, Nat.testBit_two_pow_mul_add _ h1]
  split
  · rw [Nat.testBit_mod_two_pow]; simp [*]
  · rw [Nat.testBit_two_pow_mul_add _ h2]
    by_cases h : i < lo + n
    · have : i - lo < n := by omega
      simp [h, this, Nat.testBit_mod_two_pow]
    · have h3 : ¬ i - lo < n := by omega
      simp only [h, h3, if_false, Nat.testBit_shiftRight]
      congr 1; omega

/-- A field that does not meet the one replaced keeps its value. -/
theorem bits_setBits_other (v lo n x lo' n' : Nat) (h : lo' + n' ≤ lo ∨ lo + n ≤ lo') :
    bits (setBits v lo n x) lo' n' = bits v lo' n' := by
  unfold bits
  apply Nat.eq_of_testBit_eq
  intro i
  simp only [Nat.testBit_mod_two_pow, Nat.testBit_shiftRight, testBit_setBits]
  by_cases hi : i < n'
  · simp only [hi, decide_true, Bool.true_and]
    split
    · rfl
    · split
      · omega
      · rfl
  · simp [hi]

theorem setBits_lt (v lo n x m : Nat) (hv : v < 2 ^ m) (h : lo + n ≤ m) : setBits v lo n x < 2 ^ m := by
  apply Nat.lt_pow_two_of_testBit
  intro i hi
  rw [testBit_setBits]
  have : ¬ i < lo := by omega
  have h2 : ¬ i < lo + n := by omega
  simp only [this, h2, if_false]
  exact Nat.testBit_lt_two_pow (lt_of_lt_of_le hv (Nat.pow_le_pow_right (by norm_num) hi))

/-! ### The word store -/

theorem Words.find_insert_self (k : Nat) (v : Word) (ws : List (Nat × Word)) (h : ∀ p ∈ ws, p.1 ≠ k) :
    Words.find (Words.insert k v ws) k = some v := by
  induction ws with
  | nil => simp [Words.insert, Words.find]
  | cons p ps ih =>
    simp only [Words.insert]
    split
    · simp [Words.find]
    · have hp := h p (by simp)
      have ih' := ih (fun q hq => h q (by simp [hq]))
      simp only [Words.find, List.find?_cons] at ih' ⊢
      have : (p.1 == k) = false := by simpa using hp
      simpa [this] using ih'

theorem Words.find_insert_other (k j : Nat) (v : Word) (ws : List (Nat × Word)) (h : j ≠ k) :
    Words.find (Words.insert k v ws) j = Words.find ws j := by
  induction ws with
  | nil => simp [Words.insert, Words.find, Ne.symm h]
  | cons p ps ih =>
    simp only [Words.insert]
    split
    · simp [Words.find, Ne.symm h]
    · simp only [Words.find, List.find?_cons] at ih ⊢
      split
      · rfl
      · exact ih

theorem Words.find_filter_other (k j : Nat) (ws : List (Nat × Word)) (h : j ≠ k) :
    Words.find (ws.filter (fun p => !(p.1 == k))) j = Words.find ws j := by
  induction ws with
  | nil => rfl
  | cons p ps ih =>
    simp only [Words.find, List.find?_cons, List.filter_cons] at ih ⊢
    by_cases hp : p.1 = k
    · have : (p.1 == j) = false := by simp [hp, Ne.symm h]
      rw [this]
      simp only [hp, beq_self_eq_true, Bool.not_true, Bool.false_eq_true, if_false]
      exact ih
    · have hb : (p.1 == k) = false := by simpa using hp
      simp only [hb, Bool.not_false, if_true, List.find?_cons]
      split <;> simp_all

theorem Words.find_filter_self (k : Nat) (ws : List (Nat × Word)) :
    Words.find (ws.filter (fun p => !(p.1 == k))) k = none := by
  induction ws with
  | nil => rfl
  | cons p ps ih =>
    simp only [Words.find, List.filter_cons] at ih ⊢
    split
    · simp_all
    · exact ih

/-- A word reads back what was written to it. -/
theorem Words.get_set_self (ws : List (Nat × Word)) (k : Nat) (v : Word) : Words.get (Words.set ws k v) k = v := by
  unfold Words.get Words.set
  split
  · simp [Words.find_filter_self, *]
  · rw [Words.find_insert_self]
    · rfl
    · intro p hp; simpa using (List.mem_filter.1 hp).2

/-- A write leaves every other word as it was. -/
theorem Words.get_set_other (ws : List (Nat × Word)) (k j : Nat) (v : Word) (h : j ≠ k) :
    Words.get (Words.set ws k v) j = Words.get ws j := by
  unfold Words.get Words.set
  split
  · rw [Words.find_filter_other k j ws h]
  · rw [Words.find_insert_other k j v _ h, Words.find_filter_other k j ws h]

theorem Words.insert_pairwise (k : Nat) (v : Word) (ws : List (Nat × Word)) (h : ws.Pairwise (fun a b => a.1 < b.1))
    (hk : ∀ p ∈ ws, p.1 ≠ k) : (Words.insert k v ws).Pairwise (fun a b => a.1 < b.1) := by
  induction ws with
  | nil => simp [Words.insert]
  | cons p ps ih =>
    rw [List.pairwise_cons] at h
    simp only [Words.insert]
    split
    · rename_i hlt
      rw [List.pairwise_cons]
      refine ⟨?_, List.pairwise_cons.2 h⟩
      intro q hq
      rcases List.mem_cons.1 hq with rfl | hq
      · exact hlt
      · exact lt_trans hlt (h.1 q hq)
    · rename_i hlt
      have hne := hk p (by simp)
      rw [List.pairwise_cons]
      refine ⟨?_, ih h.2 (fun q hq => hk q (by simp [hq]))⟩
      intro q hq
      have hmem : q = (k, v) ∨ q ∈ ps := by
        clear ih h hlt hne hk
        induction ps with
        | nil => simpa [Words.insert] using hq
        | cons r rs ih2 =>
          simp only [Words.insert] at hq
          split at hq
          · simpa using hq
          · rcases List.mem_cons.1 hq with rfl | hq
            · simp
            · rcases ih2 hq with h | h <;> simp [h]
      rcases hmem with rfl | hq
      · show p.1 < k
        omega
      · exact h.1 q hq

theorem Words.mem_insert (k : Nat) (v : Word) (ws : List (Nat × Word)) (q : Nat × Word) (h : q ∈ Words.insert k v ws) :
    q = (k, v) ∨ q ∈ ws := by
  induction ws with
  | nil => simpa [Words.insert] using h
  | cons r rs ih =>
    simp only [Words.insert] at h
    split at h
    · simpa using h
    · rcases List.mem_cons.1 h with rfl | h
      · simp
      · rcases ih h with h | h <;> simp [h]

/-- A write keeps the canonical form of the word store. -/
theorem Words.set_wf (ws : List (Nat × Word)) (k : Nat) (v : Word) (h : Words.wf ws) : Words.wf (Words.set ws k v) := by
  have hf : (ws.filter (fun p => !(p.1 == k))).Pairwise (fun a b => a.1 < b.1) := h.1.sublist List.filter_sublist
  unfold Words.set
  dsimp only
  split
  · exact ⟨hf, fun p hp => h.2 p (List.mem_filter.1 hp).1⟩
  · rename_i hv
    refine ⟨Words.insert_pairwise k v _ hf (fun p hp => by simpa using (List.mem_filter.1 hp).2), ?_⟩
    intro p hp
    rcases Words.mem_insert k v _ p hp with rfl | hp
    · exact hv
    · exact h.2 p (List.mem_filter.1 hp).1

/-- Words dropped to their reset values keep the canonical form. -/
theorem Words.filter_wf (ws : List (Nat × Word)) (f : Nat × Word → Bool) (h : Words.wf ws) : Words.wf (ws.filter f) :=
  ⟨h.1.sublist List.filter_sublist, fun p hp => h.2 p (List.mem_filter.1 hp).1⟩

/-! ### The flash -/

theorem assocSet_mem {α : Type} (m : List (Nat × α)) (a : Nat) (v : α) (q : Nat × α) (h : q ∈ assocSet m a v) :
    q = (a, v) ∨ q ∈ m := by
  induction m with
  | nil => simpa [assocSet] using h
  | cons r rs ih =>
    simp only [assocSet] at h
    split at h
    · simpa using h
    · split at h
      · rcases List.mem_cons.1 h with h | h <;> simp [h]
      · rcases List.mem_cons.1 h with rfl | h
        · simp
        · rcases ih h with h | h <;> simp [h]

theorem assocSet_pairwise {α : Type} (m : List (Nat × α)) (a : Nat) (v : α) (h : m.Pairwise (fun x y => x.1 < y.1)) :
    (assocSet m a v).Pairwise (fun x y => x.1 < y.1) := by
  induction m with
  | nil => simp [assocSet]
  | cons p ps ih =>
    have h' := List.pairwise_cons.1 h
    simp only [assocSet]
    split
    · rename_i hlt
      refine List.pairwise_cons.2 ⟨?_, h⟩
      intro q hq
      rcases List.mem_cons.1 hq with rfl | hq
      · exact hlt
      · exact lt_trans hlt (h'.1 q hq)
    · split
      · rename_i he
        refine List.pairwise_cons.2 ⟨fun q hq => ?_, h'.2⟩
        rw [show ((a, v) : Nat × α).1 = p.1 from he]
        exact h'.1 q hq
      · refine List.pairwise_cons.2 ⟨?_, ih h'.2⟩
        intro q hq
        rcases assocSet_mem ps a v q hq with rfl | hq
        · show p.1 < a
          omega
        · exact h'.1 q hq

theorem assoc_assocSet_self {α : Type} (m : List (Nat × α)) (a : Nat) (v : α) : assoc (assocSet m a v) a = some v := by
  induction m with
  | nil => simp [assocSet, assoc]
  | cons p ps ih =>
    simp only [assocSet]
    split
    · simp [assoc]
    · split
      · simp [assoc]
      · have : (p.1 == a) = false := by
          rename_i h1 h2; simpa using fun h => h2 h.symm
        simp only [assoc, List.find?_cons, this] at ih ⊢
        exact ih

theorem assoc_assocSet_other {α : Type} (m : List (Nat × α)) (a b : Nat) (v : α) (h : b ≠ a) :
    assoc (assocSet m a v) b = assoc m b := by
  induction m with
  | nil => simp [assocSet, assoc, Ne.symm h]
  | cons p ps ih =>
    simp only [assocSet]
    split
    · simp [assoc, Ne.symm h]
    · split
      · rename_i he
        have : (p.1 == b) = false := by rw [← he]; simpa using Ne.symm h
        simp [assoc, Ne.symm h, this]
      · simp only [assoc, List.find?_cons] at ih ⊢
        split
        · rfl
        · exact ih

theorem assoc_assocDel_self {α : Type} (m : List (Nat × α)) (a : Nat) : assoc (assocDel m a) a = none := by
  induction m with
  | nil => rfl
  | cons p ps ih =>
    simp only [assocDel, assoc, List.filter_cons] at ih ⊢
    split
    · simp_all
    · exact ih

theorem assoc_assocDel_other {α : Type} (m : List (Nat × α)) (a b : Nat) (h : b ≠ a) :
    assoc (assocDel m a) b = assoc m b := by
  induction m with
  | nil => rfl
  | cons p ps ih =>
    simp only [assocDel, assoc, List.filter_cons, List.find?_cons] at ih ⊢
    by_cases hp : p.1 = a
    · have : (p.1 == b) = false := by rw [hp]; simpa using Ne.symm h
      rw [this]
      simp only [hp, beq_self_eq_true, Bool.not_true, Bool.false_eq_true, if_false]
      exact ih
    · have hb : (p.1 == a) = false := by simpa using hp
      simp only [hb, Bool.not_false, if_true, List.find?_cons]
      split <;> simp_all

/-- A key that a list does not hold is looked up in vain. -/
theorem assoc_unlisted {α : Type} (m : List (Nat × α)) (a : Nat) (h : ∀ c ∈ m, c.1 ≠ a) : assoc m a = none := by
  induction m with
  | nil => rfl
  | cons p ps ih =>
    rw [assoc, List.find?_cons_of_neg (by simpa using h p (.head _))]
    exact ih (fun c hc => h c (.tail _ hc))

/-- A slice of the flash is one slice after another. -/
theorem Flash.slice_add (m : List Host.Cell) (a n k : Nat) : Flash.slice m a (n + k) = Flash.slice m a n ++ Flash.slice m (a + n) k := by
  simp [Flash.slice, List.range_add, Function.comp_def, Nat.add_assoc]

/-- A slice of the flash where nothing is listed is erased. -/
theorem Flash.slice_erased (m : List Host.Cell) (a n : Nat) (h : ∀ c ∈ m, c.1 < a ∨ a + n ≤ c.1) :
    Flash.slice m a n = List.replicate n 0xFF := by
  refine List.eq_replicate_iff.2 ⟨by simp [Flash.slice], fun b hb => ?_⟩
  obtain ⟨i, hi, rfl⟩ := List.mem_map.1 hb
  have := List.mem_range.1 hi
  rw [Flash.read, assoc_unlisted m _ (fun c hc => by have := h c hc; omega)]; rfl

/-- A flash cell reads back what was written to it. -/
theorem Flash.read_write_self (m : List Host.Cell) (a : Nat) (v : Byte) : Flash.read (Flash.write m a v) a = v := by
  unfold Flash.read Flash.write
  split
  · simp [assoc_assocDel_self, *]
  · simp [assoc_assocSet_self]

/-- A write leaves every other flash cell as it was. -/
theorem Flash.read_write_other (m : List Host.Cell) (a b : Nat) (v : Byte) (h : b ≠ a) :
    Flash.read (Flash.write m a v) b = Flash.read m b := by
  unfold Flash.read Flash.write
  split
  · rw [assoc_assocDel_other m a b h]
  · rw [assoc_assocSet_other m a b v h]

/-- A write keeps the canonical form of the flash. -/
theorem Flash.write_wf (m : List Host.Cell) (a : Nat) (v : Byte) (h : Flash.wf m) : Flash.wf (Flash.write m a v) := by
  unfold Flash.write
  split
  · exact ⟨h.1.sublist List.filter_sublist, fun c hc => h.2 c (List.mem_filter.1 hc).1⟩
  · rename_i hv
    refine ⟨assocSet_pairwise m a v h.1, ?_⟩
    intro c hc
    rcases assocSet_mem m a v c hc with rfl | hc
    · exact hv
    · exact h.2 c hc

/-- A run of writes keeps the canonical form of the flash. -/
theorem Flash.writeAll_wf (bs : List Byte) (m : List Host.Cell) (a : Nat) (h : Flash.wf m) : Flash.wf (Flash.writeAll m a bs) := by
  induction bs generalizing m a with
  | nil => exact h
  | cons b bs ih => exact ih _ _ (Flash.write_wf m a b h)

/-- Erasing keeps the canonical form of the flash. -/
theorem Flash.erase_wf (m : List Host.Cell) (a n : Nat) (h : Flash.wf m) : Flash.wf (Flash.erase m a n) :=
  ⟨h.1.sublist List.filter_sublist, fun c hc => h.2 c (List.mem_filter.1 hc).1⟩

/-- An erased cell reads 0xFF; a cell outside the range reads as before. -/
theorem Flash.read_erase (m : List Host.Cell) (a n b : Nat) :
    Flash.read (Flash.erase m a n) b = if a ≤ b ∧ b < a + n then 0xFF else Flash.read m b := by
  unfold Flash.read Flash.erase assoc
  induction m with
  | nil => simp
  | cons c m ih =>
    simp only [List.filter_cons, List.find?_cons]
    by_cases hc : c.1 = b
    · subst hc
      by_cases hr : a ≤ c.1 ∧ c.1 < a + n
      · have : (decide (c.1 < a) || decide (a + n ≤ c.1)) = false := by simp; omega
        rw [if_pos hr] at ih ⊢
        simpa [this] using ih
      · have : (decide (c.1 < a) || decide (a + n ≤ c.1)) = true := by simp; omega
        simp [this, hr]
    · have hb : (c.1 == b) = false := by simpa using hc
      split
      · simpa [hb] using ih
      · simpa [hb] using ih

end Sys2Proof.Machine
end

