-- ==== Sys2Proof/Laws/Ops.lean ====
section
/-! SUPPORT. What reads of the parameter words see of the shared operations, and what raising an event and bringing
readiness up to date leave alone. -/
namespace Sys2Proof.Machine

/-! ### Parameter words -/

theorem State.get_lt (s : State) (k : Nat) : s.get k < 2 ^ 64 := (Words.get s.words k).isLt

/-- A read of a state written field by field sees its words. -/
@[simp] theorem State.get_mk (pending ticks drawn out words ctl engines boot txeq clock ledger fifos ports fwd rings buf gates qmon
    red cal snap link ref outs ptp tdc perf pair health k) :
    (State.mk pending ticks drawn out words ctl engines boot txeq clock ledger fifos ports fwd rings buf gates qmon
      red cal snap link ref outs ptp tdc perf pair health).get k = (Words.get words k).toNat := rfl
@[simp] theorem State.toNat_get (s : State) (k : Nat) : (Words.get s.words k).toNat = s.get k := rfl

theorem State.get_congr {s t : State} (h : s.words = t.words) (k : Nat) : s.get k = t.get k := by
  unfold State.get; rw [h]
theorem State.f_congr {s t : State} {k : Nat} (h : s.get k = t.get k) (lo n : Nat) : s.f k lo n = t.f k lo n := by
  unfold State.f; rw [h]
theorem State.b_congr {s t : State} {k : Nat} (h : s.get k = t.get k) (lo : Nat) : s.b k lo = t.b k lo := by
  unfold State.b; rw [State.f_congr h]

theorem State.get_set_self (s : State) (k v : Nat) : (s.set k v).get k = v % 2 ^ 64 := by
  unfold State.get; rw [State.set_words, Words.get_set_self, BitVec.toNat_ofNat]
theorem State.get_set_ne (s : State) {k j : Nat} (v : Nat) (h : j ≠ k) : (s.set k v).get j = s.get j := by
  unfold State.get; rw [State.set_words, Words.get_set_other _ _ _ _ h]

theorem State.get_setf_self (s : State) {k lo n : Nat} (x : Nat) (h : lo + n ≤ 64) :
    (s.setf k lo n x).get k = setBits (s.get k) lo n x := by
  unfold State.setf; rw [State.get_set_self]
  exact Nat.mod_eq_of_lt (setBits_lt _ _ _ _ _ (s.get_lt k) h)
theorem State.get_setf_ne (s : State) {k j : Nat} (lo n x : Nat) (h : j ≠ k) : (s.setf k lo n x).get j = s.get j :=
  State.get_set_ne s _ h

/-- A field reads back what was written to it. -/
theorem State.f_setf_self (s : State) {k lo n : Nat} (x : Nat) (h : lo + n ≤ 64) : (s.setf k lo n x).f k lo n = x % 2 ^ n := by
  unfold State.f; rw [State.get_setf_self s x h, bits_setBits_same]
/-- A field apart from the one written keeps its value. -/
theorem State.f_setf_apart (s : State) {k lo n lo' n' : Nat} (x : Nat) (h : lo + n ≤ 64) (hd : lo' + n' ≤ lo ∨ lo + n ≤ lo') :
    (s.setf k lo n x).f k lo' n' = s.f k lo' n' := by
  unfold State.f; rw [State.get_setf_self s x h, bits_setBits_other _ _ _ _ _ _ hd]
/-- A field of another word keeps its value. -/
theorem State.f_setf_ne (s : State) {k j : Nat} (lo n x lo' n' : Nat) (h : j ≠ k) : (s.setf k lo n x).f j lo' n' = s.f j lo' n' :=
  State.f_congr (State.get_setf_ne s lo n x h) _ _

theorem State.b_setf_self (s : State) {k lo : Nat} (x : Nat) (h : lo + 1 ≤ 64) : (s.setf k lo 1 x).b k lo = (x % 2 == 1) := by
  unfold State.b; rw [State.f_setf_self s x h]; rfl
theorem State.b_setf_apart (s : State) {k lo n lo' : Nat} (x : Nat) (h : lo + n ≤ 64) (hd : lo' + 1 ≤ lo ∨ lo + n ≤ lo') :
    (s.setf k lo n x).b k lo' = s.b k lo' := by
  unfold State.b; rw [State.f_setf_apart s x h hd]
theorem State.b_setf_ne (s : State) {k j : Nat} (lo n x lo' : Nat) (h : j ≠ k) : (s.setf k lo n x).b j lo' = s.b j lo' :=
  State.b_congr (State.get_setf_ne s lo n x h) _

/-- A saturating counter after it is raised. -/
theorem State.f_count_self (s : State) {k lo n : Nat} (d : Nat) (h : lo + n ≤ 64) :
    (s.count k lo n d).f k lo n = min (s.f k lo n + d) (2 ^ n - 1) := by
  unfold State.count satAdd; rw [State.f_setf_self s _ h]
  exact Nat.mod_eq_of_lt (by have := Nat.two_pow_pos n; omega)
theorem State.get_count_ne (s : State) {k j : Nat} (lo n d : Nat) (h : j ≠ k) : (s.count k lo n d).get j = s.get j :=
  State.get_setf_ne s _ _ _ h
/-- A wrapping counter after it is raised. -/
theorem State.f_wrap_self (s : State) {k lo n : Nat} (d : Nat) (h : lo + n ≤ 64) :
    (s.wrap k lo n d).f k lo n = (s.f k lo n + d) % 2 ^ n := State.f_setf_self s _ h
theorem State.get_wrap_ne (s : State) {k j : Nat} (lo n d : Nat) (h : j ≠ k) : (s.wrap k lo n d).get j = s.get j :=
  State.get_setf_ne s _ _ _ h

@[simp] theorem State.get_fresh (s : State) (k : Nat) : s.fresh.get k = s.get k := rfl
@[simp] theorem State.get_emit (s : State) (o : Output) (k : Nat) : (s.emit o).get k = s.get k := rfl
@[simp] theorem State.get_draw (s : State) (k : Nat) : s.draw.get k = s.get k := rfl
@[simp] theorem State.get_mark (s : State) (n k : Nat) : (s.mark n).get k = s.get k := rfl
@[simp] theorem State.get_occurs (s : State) (c i n k : Nat) : (s.occurs c i n).get k = s.get k := rfl
@[simp] theorem State.get_setEngine (s : State) (e : Nat) (g : Engine → Engine) (k : Nat) : (s.setEngine e g).get k = s.get k := rfl

/-! ### What raising an event writes -/

/-- The words that raising an event may change: the event ring's PROD, the two counts of lost events, the MSI-X pending bits. -/
def eventWords : List Nat := [Reg.cmdEvtrProd, Reg.cmdEvtLost, Reg.cmdSbEvtLost, shelf 4 0x3FF 0]

theorem State.get_msix (s : State) (v : Nat) {k : Nat} (h : k ≠ shelf 4 0x3FF 0) : (s.msix v).get k = s.get k := by
  unfold State.msix; split; · rfl
  split; · exact State.get_setf_ne s _ _ _ h
  · rfl
theorem State.get_raiseHost (s : State) (c a b : Nat) (l : List Byte) {k : Nat} (h : k ∉ eventWords) :
    (s.raiseHost c a b l).get k = s.get k := by
  simp only [eventWords, List.mem_cons, List.not_mem_nil, or_false, not_or] at h
  unfold State.raiseHost; extract_lets; split
  · unfold State.writeHostEvent
    rw [State.get_msix _ _ h.2.2.2, State.get_setf_ne _ _ _ _ h.1]; rfl
  · simp only [State.get_mk, State.toNat_get]
    rw [State.get_count_ne _ _ _ _ h.2.1]; rfl
theorem State.get_raiseSb (s : State) (c a b : Nat) (l : List Byte) {k : Nat} (h : k ∉ eventWords) :
    (s.raiseSb c a b l).get k = s.get k := by
  simp only [eventWords, List.mem_cons, List.not_mem_nil, or_false, not_or] at h
  unfold State.raiseSb; split; · rfl
  extract_lets; split
  · split <;> rfl
  · rw [State.get_mk, State.toNat_get, State.get_count_ne s _ _ _ h.2.2.1]
/-- Raising an event leaves every word alone but those of its own ring and counts. -/
theorem State.get_raise (s : State) (c : Nat) (l : List Byte) {k : Nat} (h : k ∉ eventWords) : (s.raise c l).get k = s.get k := by
  unfold State.raise; rw [State.get_raiseSb _ _ _ _ _ h, State.get_raiseHost _ _ _ _ _ h]
theorem State.f_raise (s : State) (c : Nat) (l : List Byte) {k : Nat} (lo n : Nat) (h : k ∉ eventWords) :
    (s.raise c l).f k lo n = s.f k lo n := State.f_congr (State.get_raise s c l h) _ _
theorem State.b_raise (s : State) (c : Nat) (l : List Byte) {k : Nat} (lo : Nat) (h : k ∉ eventWords) :
    (s.raise c l).b k lo = s.b k lo := State.b_congr (State.get_raise s c l h) _
/-- Bringing readiness up to date changes DEV_READY, and what raising READY_CHANGE changes. -/
theorem State.get_refresh (s : State) {k : Nat} (h : k ∉ eventWords) (hr : k ≠ Reg.devReady) : s.refresh.get k = s.get k := by
  unfold State.refresh; extract_lets; split; · rfl
  split
  · rw [State.get_mk, State.toNat_get, State.get_set_ne s _ hr]
  · rw [State.get_raise _ _ _ h, State.get_mk, State.toNat_get, State.get_set_ne s _ hr]
theorem State.f_refresh (s : State) {k : Nat} (lo n : Nat) (h : k ∉ eventWords) (hr : k ≠ Reg.devReady) :
    s.refresh.f k lo n = s.f k lo n := State.f_congr (State.get_refresh s h hr) _ _

/-! ### Lists of operations -/

@[simp] theorem State.forEach_nil {α : Type} (s : State) (g : α → State → State) : s.forEach [] g = s := rfl
@[simp] theorem State.forEach_cons {α : Type} (s : State) (a : α) (l : List α) (g : α → State → State) :
    s.forEach (a :: l) g = (g a s).forEach l g := rfl
/-- What every operation of a list keeps, the whole list keeps. -/
theorem State.forEach_keeps {α : Type} (P : State → Prop) (g : α → State → State) (l : List α)
    (hg : ∀ a ∈ l, ∀ s, P s → P (g a s)) (s : State) (h : P s) : P (s.forEach l g) := by
  induction l generalizing s with
  | nil => exact h
  | cons a l ih =>
    exact ih (fun b hb => hg b (List.mem_cons_of_mem _ hb)) _ (hg a List.mem_cons_self s h)


/-! ### What events and readiness leave alone -/

/-- The state apart from what raising an event may change: the words, the command side and the record of outputs. -/
def State.rest (s : State) : State := { s with words := [], ctl := .reset, out := [] }

theorem State.set_rest (s : State) (k v : Nat) : (s.set k v).rest = s.rest := rfl
theorem State.setf_rest (s : State) (k lo n x : Nat) : (s.setf k lo n x).rest = s.rest := s.set_rest _ _
theorem State.count_rest (s : State) (k lo n d : Nat) : (s.count k lo n d).rest = s.rest := s.set_rest _ _
theorem State.emit_rest (s : State) (o : Output) : (s.emit o).rest = s.rest := rfl
theorem State.ctl_rest (s : State) (c : Ctl) : ({ s with ctl := c } : State).rest = s.rest := rfl
theorem State.msix_rest (s : State) (v : Nat) : (s.msix v).rest = s.rest := by
  unfold State.msix; split; · rfl
  split
  · exact s.setf_rest _ _ _ _
  · exact s.emit_rest _
theorem State.writeHostEvent_rest (s : State) (l : List Byte) : (s.writeHostEvent l).rest = s.rest := by
  unfold State.writeHostEvent; extract_lets
  rw [State.msix_rest, State.setf_rest, State.emit_rest]
theorem State.raiseHost_rest (s : State) (c a b : Nat) (l : List Byte) : (s.raiseHost c a b l).rest = s.rest := by
  unfold State.raiseHost; extract_lets; split
  · rw [State.writeHostEvent_rest, State.ctl_rest]
  · rw [State.ctl_rest, State.count_rest, State.ctl_rest]
theorem State.raiseSb_rest (s : State) (c a b : Nat) (l : List Byte) : (s.raiseSb c a b l).rest = s.rest := by
  unfold State.raiseSb; split; · rfl
  extract_lets; split
  · split
    · rw [State.ctl_rest]
    · rw [State.emit_rest, State.ctl_rest]
  · rw [State.ctl_rest, State.count_rest]
/-- Raising an event changes only its own words, the command side and the record of outputs. -/
theorem State.raise_rest (s : State) (c : Nat) (l : List Byte) : (s.raise c l).rest = s.rest := by
  unfold State.raise; rw [State.raiseSb_rest, State.raiseHost_rest]

@[simp] theorem State.raise_pending (s : State) (c : Nat) (l : List Byte) : (s.raise c l).pending = s.pending :=
  (congrArg State.pending (s.raise_rest c l) :)
@[simp] theorem State.msix_pending (s : State) (v : Nat) : (s.msix v).pending = s.pending := (congrArg State.pending (s.msix_rest v) :)
@[simp] theorem State.raise_ticks (s : State) (c : Nat) (l : List Byte) : (s.raise c l).ticks = s.ticks :=
  (congrArg State.ticks (s.raise_rest c l) :)
@[simp] theorem State.msix_ticks (s : State) (v : Nat) : (s.msix v).ticks = s.ticks := (congrArg State.ticks (s.msix_rest v) :)
@[simp] theorem State.raise_drawn (s : State) (c : Nat) (l : List Byte) : (s.raise c l).drawn = s.drawn :=
  (congrArg State.drawn (s.raise_rest c l) :)
@[simp] theorem State.msix_drawn (s : State) (v : Nat) : (s.msix v).drawn = s.drawn := (congrArg State.drawn (s.msix_rest v) :)
@[simp] theorem State.raise_engines (s : State) (c : Nat) (l : List Byte) : (s.raise c l).engines = s.engines :=
  (congrArg State.engines (s.raise_rest c l) :)
@[simp] theorem State.msix_engines (s : State) (v : Nat) : (s.msix v).engines = s.engines := (congrArg State.engines (s.msix_rest v) :)
@[simp] theorem State.raise_boot (s : State) (c : Nat) (l : List Byte) : (s.raise c l).boot = s.boot :=
  (congrArg State.boot (s.raise_rest c l) :)
@[simp] theorem State.msix_boot (s : State) (v : Nat) : (s.msix v).boot = s.boot := (congrArg State.boot (s.msix_rest v) :)
@[simp] theorem State.raise_txeq (s : State) (c : Nat) (l : List Byte) : (s.raise c l).txeq = s.txeq :=
  (congrArg State.txeq (s.raise_rest c l) :)
@[simp] theorem State.msix_txeq (s : State) (v : Nat) : (s.msix v).txeq = s.txeq := (congrArg State.txeq (s.msix_rest v) :)
@[simp] theorem State.raise_clock (s : State) (c : Nat) (l : List Byte) : (s.raise c l).clock = s.clock :=
  (congrArg State.clock (s.raise_rest c l) :)
@[simp] theorem State.msix_clock (s : State) (v : Nat) : (s.msix v).clock = s.clock := (congrArg State.clock (s.msix_rest v) :)
@[simp] theorem State.raise_ledger (s : State) (c : Nat) (l : List Byte) : (s.raise c l).ledger = s.ledger :=
  (congrArg State.ledger (s.raise_rest c l) :)
@[simp] theorem State.msix_ledger (s : State) (v : Nat) : (s.msix v).ledger = s.ledger := (congrArg State.ledger (s.msix_rest v) :)
@[simp] theorem State.raise_fifos (s : State) (c : Nat) (l : List Byte) : (s.raise c l).fifos = s.fifos :=
  (congrArg State.fifos (s.raise_rest c l) :)
@[simp] theorem State.msix_fifos (s : State) (v : Nat) : (s.msix v).fifos = s.fifos := (congrArg State.fifos (s.msix_rest v) :)
@[simp] theorem State.raise_ports (s : State) (c : Nat) (l : List Byte) : (s.raise c l).ports = s.ports :=
  (congrArg State.ports (s.raise_rest c l) :)
@[simp] theorem State.msix_ports (s : State) (v : Nat) : (s.msix v).ports = s.ports := (congrArg State.ports (s.msix_rest v) :)
@[simp] theorem State.raise_fwd (s : State) (c : Nat) (l : List Byte) : (s.raise c l).fwd = s.fwd :=
  (congrArg State.fwd (s.raise_rest c l) :)
@[simp] theorem State.msix_fwd (s : State) (v : Nat) : (s.msix v).fwd = s.fwd := (congrArg State.fwd (s.msix_rest v) :)
@[simp] theorem State.raise_rings (s : State) (c : Nat) (l : List Byte) : (s.raise c l).rings = s.rings :=
  (congrArg State.rings (s.raise_rest c l) :)
@[simp] theorem State.msix_rings (s : State) (v : Nat) : (s.msix v).rings = s.rings := (congrArg State.rings (s.msix_rest v) :)
@[simp] theorem State.raise_buf (s : State) (c : Nat) (l : List Byte) : (s.raise c l).buf = s.buf :=
  (congrArg State.buf (s.raise_rest c l) :)
@[simp] theorem State.msix_buf (s : State) (v : Nat) : (s.msix v).buf = s.buf := (congrArg State.buf (s.msix_rest v) :)
@[simp] theorem State.raise_gates (s : State) (c : Nat) (l : List Byte) : (s.raise c l).gates = s.gates :=
  (congrArg State.gates (s.raise_rest c l) :)
@[simp] theorem State.msix_gates (s : State) (v : Nat) : (s.msix v).gates = s.gates := (congrArg State.gates (s.msix_rest v) :)
@[simp] theorem State.raise_qmon (s : State) (c : Nat) (l : List Byte) : (s.raise c l).qmon = s.qmon :=
  (congrArg State.qmon (s.raise_rest c l) :)
@[simp] theorem State.msix_qmon (s : State) (v : Nat) : (s.msix v).qmon = s.qmon := (congrArg State.qmon (s.msix_rest v) :)
@[simp] theorem State.raise_red (s : State) (c : Nat) (l : List Byte) : (s.raise c l).red = s.red :=
  (congrArg State.red (s.raise_rest c l) :)
@[simp] theorem State.msix_red (s : State) (v : Nat) : (s.msix v).red = s.red := (congrArg State.red (s.msix_rest v) :)
@[simp] theorem State.raise_cal (s : State) (c : Nat) (l : List Byte) : (s.raise c l).cal = s.cal :=
  (congrArg State.cal (s.raise_rest c l) :)
@[simp] theorem State.msix_cal (s : State) (v : Nat) : (s.msix v).cal = s.cal := (congrArg State.cal (s.msix_rest v) :)
@[simp] theorem State.raise_snap (s : State) (c : Nat) (l : List Byte) : (s.raise c l).snap = s.snap :=
  (congrArg State.snap (s.raise_rest c l) :)
@[simp] theorem State.msix_snap (s : State) (v : Nat) : (s.msix v).snap = s.snap := (congrArg State.snap (s.msix_rest v) :)
@[simp] theorem State.raise_link (s : State) (c : Nat) (l : List Byte) : (s.raise c l).link = s.link :=
  (congrArg State.link (s.raise_rest c l) :)
@[simp] theorem State.msix_link (s : State) (v : Nat) : (s.msix v).link = s.link := (congrArg State.link (s.msix_rest v) :)
@[simp] theorem State.raise_ref (s : State) (c : Nat) (l : List Byte) : (s.raise c l).ref = s.ref :=
  (congrArg State.ref (s.raise_rest c l) :)
@[simp] theorem State.msix_ref (s : State) (v : Nat) : (s.msix v).ref = s.ref := (congrArg State.ref (s.msix_rest v) :)
@[simp] theorem State.raise_outs (s : State) (c : Nat) (l : List Byte) : (s.raise c l).outs = s.outs :=
  (congrArg State.outs (s.raise_rest c l) :)
@[simp] theorem State.msix_outs (s : State) (v : Nat) : (s.msix v).outs = s.outs := (congrArg State.outs (s.msix_rest v) :)
@[simp] theorem State.raise_ptp (s : State) (c : Nat) (l : List Byte) : (s.raise c l).ptp = s.ptp :=
  (congrArg State.ptp (s.raise_rest c l) :)
@[simp] theorem State.msix_ptp (s : State) (v : Nat) : (s.msix v).ptp = s.ptp := (congrArg State.ptp (s.msix_rest v) :)
@[simp] theorem State.raise_tdc (s : State) (c : Nat) (l : List Byte) : (s.raise c l).tdc = s.tdc :=
  (congrArg State.tdc (s.raise_rest c l) :)
@[simp] theorem State.msix_tdc (s : State) (v : Nat) : (s.msix v).tdc = s.tdc := (congrArg State.tdc (s.msix_rest v) :)
@[simp] theorem State.raise_perf (s : State) (c : Nat) (l : List Byte) : (s.raise c l).perf = s.perf :=
  (congrArg State.perf (s.raise_rest c l) :)
@[simp] theorem State.msix_perf (s : State) (v : Nat) : (s.msix v).perf = s.perf := (congrArg State.perf (s.msix_rest v) :)
@[simp] theorem State.raise_pair (s : State) (c : Nat) (l : List Byte) : (s.raise c l).pair = s.pair :=
  (congrArg State.pair (s.raise_rest c l) :)
@[simp] theorem State.msix_pair (s : State) (v : Nat) : (s.msix v).pair = s.pair := (congrArg State.pair (s.msix_rest v) :)
@[simp] theorem State.raise_health (s : State) (c : Nat) (l : List Byte) : (s.raise c l).health = s.health :=
  (congrArg State.health (s.raise_rest c l) :)
@[simp] theorem State.msix_health (s : State) (v : Nat) : (s.msix v).health = s.health := (congrArg State.health (s.msix_rest v) :)

/-- The state apart also from start-up. -/
def State.restBoot (s : State) : State := { s.rest with boot := .reset }

/-- Bringing readiness up to date changes, beside what an event changes, only the merge of READY_CHANGE. -/
theorem State.refresh_rest (s : State) : s.refresh.restBoot = s.restBoot := by
  unfold State.refresh; extract_lets; split; · rfl
  split
  · rfl
  · unfold State.restBoot; rw [State.raise_rest]; rfl

@[simp] theorem State.refresh_pending (s : State) : s.refresh.pending = s.pending := (congrArg State.pending s.refresh_rest :)
@[simp] theorem State.refresh_ticks (s : State) : s.refresh.ticks = s.ticks := (congrArg State.ticks s.refresh_rest :)
@[simp] theorem State.refresh_drawn (s : State) : s.refresh.drawn = s.drawn := (congrArg State.drawn s.refresh_rest :)
@[simp] theorem State.refresh_engines (s : State) : s.refresh.engines = s.engines := (congrArg State.engines s.refresh_rest :)
@[simp] theorem State.refresh_txeq (s : State) : s.refresh.txeq = s.txeq := (congrArg State.txeq s.refresh_rest :)
@[simp] theorem State.refresh_clock (s : State) : s.refresh.clock = s.clock := (congrArg State.clock s.refresh_rest :)
@[simp] theorem State.refresh_ledger (s : State) : s.refresh.ledger = s.ledger := (congrArg State.ledger s.refresh_rest :)
@[simp] theorem State.refresh_fifos (s : State) : s.refresh.fifos = s.fifos := (congrArg State.fifos s.refresh_rest :)
@[simp] theorem State.refresh_ports (s : State) : s.refresh.ports = s.ports := (congrArg State.ports s.refresh_rest :)
@[simp] theorem State.refresh_fwd (s : State) : s.refresh.fwd = s.fwd := (congrArg State.fwd s.refresh_rest :)
@[simp] theorem State.refresh_rings (s : State) : s.refresh.rings = s.rings := (congrArg State.rings s.refresh_rest :)
@[simp] theorem State.refresh_buf (s : State) : s.refresh.buf = s.buf := (congrArg State.buf s.refresh_rest :)
@[simp] theorem State.refresh_gates (s : State) : s.refresh.gates = s.gates := (congrArg State.gates s.refresh_rest :)
@[simp] theorem State.refresh_qmon (s : State) : s.refresh.qmon = s.qmon := (congrArg State.qmon s.refresh_rest :)
@[simp] theorem State.refresh_red (s : State) : s.refresh.red = s.red := (congrArg State.red s.refresh_rest :)
@[simp] theorem State.refresh_cal (s : State) : s.refresh.cal = s.cal := (congrArg State.cal s.refresh_rest :)
@[simp] theorem State.refresh_snap (s : State) : s.refresh.snap = s.snap := (congrArg State.snap s.refresh_rest :)
@[simp] theorem State.refresh_link (s : State) : s.refresh.link = s.link := (congrArg State.link s.refresh_rest :)
@[simp] theorem State.refresh_ref (s : State) : s.refresh.ref = s.ref := (congrArg State.ref s.refresh_rest :)
@[simp] theorem State.refresh_outs (s : State) : s.refresh.outs = s.outs := (congrArg State.outs s.refresh_rest :)
@[simp] theorem State.refresh_ptp (s : State) : s.refresh.ptp = s.ptp := (congrArg State.ptp s.refresh_rest :)
@[simp] theorem State.refresh_tdc (s : State) : s.refresh.tdc = s.tdc := (congrArg State.tdc s.refresh_rest :)
@[simp] theorem State.refresh_perf (s : State) : s.refresh.perf = s.perf := (congrArg State.perf s.refresh_rest :)
@[simp] theorem State.refresh_pair (s : State) : s.refresh.pair = s.pair := (congrArg State.pair s.refresh_rest :)
@[simp] theorem State.refresh_health (s : State) : s.refresh.health = s.health := (congrArg State.health s.refresh_rest :)

end Sys2Proof.Machine
end

