-- ==== Sys2Proof/Laws/Keeps.lean ====
section
/-! SUPPORT. What every operation keeps: the queue of waiting commands, and the invariant of Safety. -/
namespace Sys2Proof.Machine
open Sys2Proof.Safety

/-- From s, t holds the same waiting commands and, if s meets the invariant, meets it too. -/
structure Keeps (s t : State) : Prop where
  queue : t.pending = s.pending
  inv : Inv s → Inv t

/-- What the invariant and the queue depend on. -/
def State.view (s : State) : List Instr × List (Nat × Word) × List Host.Cell × List Nat × List Nat :=
  (s.pending, s.words, s.boot.flash,
    [s.engines.length, s.clock.domains.length, s.ledger.length, s.outs.length, s.ptp.insts.length, s.ref.sels.length,
      s.ref.dplls.length],
    [s.ctl.sbEvents.length, s.ctl.pcie.session.kept.length, s.ctl.inband.session.kept.length,
      s.ctl.sideband.session.kept.length])

theorem Inv.of_view {s t : State} (h : t.view = s.view) (i : Inv s) : Inv t := by
  simp only [State.view, Prod.mk.injEq, List.cons.injEq, and_true] at h
  obtain ⟨-, hw, hf, ⟨h1, h2, h3, h4, h5, h6, h7⟩, h8, h9, h10, h11⟩ := h
  exact ⟨hw ▸ i.words, hf ▸ i.flash, h1.trans i.engines, h2.trans i.domains, h3.trans i.ledger, h4.trans i.outputs,
    h5.trans i.instances, h6.trans i.selectors, h7.trans i.dplls, h8 ▸ i.events, h9 ▸ i.keptPcie, h10 ▸ i.keptInband,
    h11 ▸ i.keptSideband⟩

theorem Keeps.refl (s : State) : Keeps s s := ⟨rfl, id⟩
theorem Keeps.trans {s t u : State} (h : Keeps s t) (k : Keeps t u) : Keeps s u :=
  ⟨k.queue.trans h.queue, fun i => k.inv (h.inv i)⟩
/-- An update of fields that the invariant and the queue do not depend on. -/
theorem Keeps.same {s₀ s t : State} (h : Keeps s₀ s) (hv : t.view = s.view) : Keeps s₀ t :=
  ⟨(congrArg Prod.fst hv :).trans h.queue, fun i => Inv.of_view hv (h.inv i)⟩

theorem modifyAt_length {α : Type} (l : List α) (i : Nat) (f : α → α) : (modifyAt l i f).length = l.length := by
  induction l generalizing i with
  | nil => rfl
  | cons a l ih => cases i with
    | zero => rfl
    | succ i => simp only [modifyAt, List.length_cons, ih]

/-- An update that writes the words in canonical form and nothing else the invariant depends on. -/
theorem Keeps.words {s₀ s t : State} (h : Keeps s₀ s) (hw : Words.wf s.words → Words.wf t.words)
    (hv : t.view = (t.pending, t.words, s.view.2.2)) (hq : t.pending = s.pending) : Keeps s₀ t := by
  refine ⟨hq.trans h.queue, fun i => ?_⟩
  have j := h.inv i
  have k : Inv { s with words := t.words } := { j with words := hw j.words }
  refine Inv.of_view ?_ k
  rw [hv, hq]; rfl

/-- An update that writes the flash in canonical form. -/
theorem Keeps.flash {s₀ s t : State} (h : Keeps s₀ s) (hf : Flash.wf s.boot.flash → Flash.wf t.boot.flash)
    (hv : t.view = (s.pending, s.words, t.boot.flash, s.view.2.2.2)) : Keeps s₀ t := by
  refine ⟨(congrArg Prod.fst hv :).trans h.queue, fun i => ?_⟩
  have j := h.inv i
  have k : Inv { s with boot := { s.boot with flash := t.boot.flash } } := { j with flash := hf j.flash }
  refine Inv.of_view ?_ k
  rw [hv]; rfl

/-- An update of a list whose length stays. -/
theorem Keeps.lengths {s₀ s t : State} (h : Keeps s₀ s)
    (hv : t.view = (s.pending, s.words, s.boot.flash, t.view.2.2.2.1, s.view.2.2.2.2)) (hl : t.view.2.2.2.1 = s.view.2.2.2.1) :
    Keeps s₀ t := h.same (by rw [hv, hl]; rfl)

theorem State.forEach_keep {s₀ s : State} {α : Type} (l : List α) (g : α → State → State) (h : Keeps s₀ s)
    (hg : ∀ a t, Keeps s₀ t → Keeps s₀ (g a t)) : Keeps s₀ (s.forEach l g) :=
  State.forEach_keeps (Keeps s₀) g l (fun a _ t ht => hg a t ht) s h

theorem Keeps.foldl {s₀ s : State} {α : Type} (l : List α) (g : State → α → State) (h : Keeps s₀ s)
    (hg : ∀ t a, Keeps s₀ t → Keeps s₀ (g t a)) : Keeps s₀ (l.foldl g s) := by
  induction l generalizing s with
  | nil => exact h
  | cons a l ih => exact ih (hg _ _ h)

/-- A fold that carries a state first. -/
theorem Keeps.foldl_fst {s₀ : State} {α β : Type} (l : List α) (g : State × β → α → State × β) (p : State × β) (h : Keeps s₀ p.1)
    (hg : ∀ q a, Keeps s₀ q.1 → Keeps s₀ (g q a).1) : Keeps s₀ (l.foldl g p).1 := by
  induction l generalizing p with
  | nil => exact h
  | cons a l ih => exact ih _ (hg _ _ h)
/-- A fold that carries a state second. -/
theorem Keeps.foldl_snd {s₀ : State} {α β : Type} (l : List α) (g : β × State → α → β × State) (p : β × State) (h : Keeps s₀ p.2)
    (hg : ∀ q a, Keeps s₀ q.2 → Keeps s₀ (g q a).2) : Keeps s₀ (l.foldl g p).2 := by
  induction l generalizing p with
  | nil => exact h
  | cons a l ih => exact ih _ (hg _ _ h)

theorem State.when_keeps {s₀ s : State} (c : Bool) (g : State → State) (h : Keeps s₀ s) (hg : ∀ t, Keeps s₀ t → Keeps s₀ (g t)) :
    Keeps s₀ (s.when c g) := by
  unfold State.when; split
  · exact hg _ h
  · exact h

theorem Keeps.getD {s₀ : State} {o : Option State} {d : State} (ho : ∀ t, o = some t → Keeps s₀ t) (hd : Keeps s₀ d) :
    Keeps s₀ (o.getD d) := by
  cases o with
  | none => exact hd
  | some t => exact ho t rfl

/-- An update that gives every list that the invariant counts its fixed length, and every word and flash cell its form. -/
theorem Keeps.of {s₀ s t : State} (h : Keeps s₀ s) (hq : t.pending = s.pending) (hi : Inv s → Inv t) : Keeps s₀ t :=
  ⟨hq.trans h.queue, fun i => hi (h.inv i)⟩

/-- An answer whose state keeps. -/
def NextKeeps (s₀ : State) (o : Host.Outcome State Fault Refusal) : Prop := ∀ t, o = .next t → Keeps s₀ t

theorem NextKeeps.next {s₀ t : State} (h : Keeps s₀ t) : NextKeeps s₀ (.next t) := by
  intro u hu; obtain rfl := Host.Outcome.next.inj hu; exact h
theorem NextKeeps.atUnit {s₀ s t : State} (n m : Nat) (h : Keeps s₀ s) (k : Keeps s₀ t) :
    NextKeeps s₀ (atUnit n m s t) := by
  unfold Machine.atUnit; split
  · exact .next k
  · exact .next h

/-- The state of what step 10 yields. -/
def Ran.state : Ran → State
  | .reply _ _ t => t
  | .later _ t => t
  | .error _ t => t

theorem Keeps.ofReply {s₀ t : State} (st : Status) (p : List Byte) (h : Keeps s₀ t) : Keeps s₀ (Ran.reply st p t).state := h
theorem Keeps.ofLater {s₀ t : State} (j : Job) (h : Keeps s₀ t) : Keeps s₀ (Ran.later j t).state := h
theorem Keeps.ofError {s₀ t : State} (e : Err) (h : Keeps s₀ t) : Keeps s₀ (Ran.error e t).state := h
theorem Keeps.ofOk {s₀ t : State} (p : List Byte) (h : Keeps s₀ t) : Keeps s₀ (Ran.ok p t).state := h

theorem Cmd.run_mk (a b c d e f g h i j k r l) : (Cmd.mk a b c d e f g h i j k r l).run = r := rfl
theorem Cmd.refused_mk (a b c d e f g h i j k r l) : (Cmd.mk a b c d e f g h i j k r l).refused = k := rfl
theorem Cmd.after_mk (a b c d e f g h i j k r l) : (Cmd.mk a b c d e f g h i j k r l).after = l := rfl

/-- A command each of whose parts keeps. -/
structure CmdKeeps (c : Cmd) : Prop where
  run : ∀ s₀ x s, Keeps s₀ s → Keeps s₀ (c.run x s).state
  refused : ∀ s₀ x s e, Keeps s₀ s → Keeps s₀ (c.refused x s e)
  after : ∀ s₀ x s, Keeps s₀ s → Keeps s₀ (c.after x s)

/-! ### Words and flash -/

/-- A word store whose words are dropped or rewritten in place keeps its form. -/
theorem Words.filterMap_wf (ws : List (Nat × Word)) (g : Nat × Word → Option (Nat × Word)) (h : Words.wf ws)
    (hg : ∀ p ∈ ws, ∀ q, g p = some q → q.1 = p.1 ∧ q.2 ≠ resetWord q.1) : Words.wf (ws.filterMap g) := by
  refine ⟨?_, ?_⟩
  · rw [List.pairwise_filterMap]
    refine h.1.imp_of_mem ?_
    intro a b ha hb hab a' ha' b' hb'
    rw [(hg a ha a' ha').1, (hg b hb b' hb').1]
    exact hab
  · intro q hq
    obtain ⟨p, hp, hpq⟩ := List.mem_filterMap.1 hq
    exact (hg p hp q hpq).2

theorem Flash.program_wf (m : List Host.Cell) (a : Nat) (bs : List Byte) (h : Flash.wf m) : Flash.wf (Flash.program m a bs) := by
  induction bs generalizing m a with
  | nil => exact h
  | cons b bs ih => exact ih _ _ (Flash.write_wf m a _ h)

theorem journalNext_wf (m : List Host.Cell) (h : Flash.wf m) : Flash.wf (journalNext m).2 := by
  rw [journalNext]
  split
  · exact Flash.writeAll_wf _ _ _ h
  · exact Flash.writeAll_wf _ _ _ (Flash.erase_wf _ _ _ h)

/-! ### The basic updates -/

theorem State.set_keeps {s₀ s : State} (k v : Nat) (h : Keeps s₀ s) : Keeps s₀ (s.set k v) :=
  h.words (fun w => Words.set_wf _ _ _ w) rfl rfl
theorem State.setf_keeps {s₀ s : State} (k lo n x : Nat) (h : Keeps s₀ s) : Keeps s₀ (s.setf k lo n x) := State.set_keeps _ _ h
theorem State.count_keeps {s₀ s : State} (k lo n d : Nat) (h : Keeps s₀ s) : Keeps s₀ (s.count k lo n d) := State.set_keeps _ _ h
theorem State.wrap_keeps {s₀ s : State} (k lo n d : Nat) (h : Keeps s₀ s) : Keeps s₀ (s.wrap k lo n d) := State.set_keeps _ _ h
theorem State.setEngine_keeps {s₀ s : State} (e : Nat) (f : Engine → Engine) (h : Keeps s₀ s) : Keeps s₀ (s.setEngine e f) :=
  h.lengths rfl (by simp only [State.view, State.setEngine, modifyAt_length])

end Sys2Proof.Machine
end

