-- ==== Sys2Proof/Laws/KeepsSession.lean ====
section
/-! SUPPORT. What the shared operations keep: one lemma for each operation, in the words of Laws.Keeps. -/
namespace Sys2Proof.Machine

theorem State.fresh_keeps {s₀ : State} {s : State} (h : Keeps s₀ s) : Keeps s₀ (State.fresh s) := by
  unfold State.fresh; exact h.same (by unfold State.view; rfl)
theorem State.emit_keeps {s₀ : State} {s : State} (o : Output) (h : Keeps s₀ s) : Keeps s₀ (State.emit s o) := by
  unfold State.emit; exact h.same (by unfold State.view; rfl)
theorem State.draw_keeps {s₀ : State} {s : State} (h : Keeps s₀ s) : Keeps s₀ (State.draw s) := by
  unfold State.draw; exact h.same (by unfold State.view; rfl)
theorem State.msix_keeps {s₀ : State} {s : State} (v : ℕ) (h : Keeps s₀ s) : Keeps s₀ (State.msix s v) := by
  unfold State.msix; split
  · exact h
  · split
    · apply State.setf_keeps; exact h
    · apply State.emit_keeps; exact h
theorem State.writeHostEvent_keeps {s₀ : State} {s : State} (pkt : List Byte) (h : Keeps s₀ s) : Keeps s₀ (State.writeHostEvent s pkt) := by
  unfold State.writeHostEvent; extract_lets +onlyGivenNames z5; extract_lets +onlyGivenNames z6; extract_lets +onlyGivenNames z7
  extract_lets +onlyGivenNames z8; apply State.msix_keeps; apply State.setf_keeps; apply State.emit_keeps; exact h
theorem State.raiseHost_keeps {s₀ : State} {s : State} (code tag status : Nat) (payload : List Byte) (h : Keeps s₀ s) : Keeps s₀ (State.raiseHost s code tag status payload) := by
  unfold State.raiseHost; extract_lets seq r t u v
  have kt : Keeps s₀ t := h.same (by unfold State.view; rfl)
  clear_value t; split
  · exact State.writeHostEvent_keeps _ kt
  · exact (State.count_keeps Reg.cmdEvtLost 0 32 1 kt).same (by unfold State.view; simp only [State.count_ctl]; rfl)
theorem State.raiseSb_keeps {s₀ : State} {s : State} (code tag status : Nat) (payload : List Byte) (h : Keeps s₀ s) : Keeps s₀ (State.raiseSb s code tag status payload) := by
  unfold State.raiseSb; split
  · exact h
  extract_lets seq r c ses pkt t; split
  · rename_i _ hl
    have kt : Keeps s₀ t := by
      refine ⟨h.queue, fun i => ?_⟩
      have j := h.inv i
      refine { j with events := ?_ }
      show (s.ctl.sbEvents ++ [pkt]).length ≤ 64
      simp only [List.length_append, List.length_singleton]
      omega
    clear_value t; split
    · exact kt
    · exact State.emit_keeps _ kt
  · exact (State.count_keeps Reg.cmdSbEvtLost 0 32 1 h).same (by unfold State.view; simp only [State.count_ctl]; rfl)
theorem State.raise_keeps {s₀ : State} {s : State} (code : ℕ) (payload : List Byte) (h : Keeps s₀ s) : Keeps s₀ (State.raise s code payload) := by
  unfold State.raise; apply State.raiseSb_keeps; apply State.raiseHost_keeps; exact h
theorem State.flushHostLost_keeps {s₀ : State} {s : State} (h : Keeps s₀ s) : Keeps s₀ (State.flushHostLost s) := by
  unfold State.flushHostLost; split
  · extract_lets +onlyGivenNames z5; apply State.raiseHost_keeps; exact h.same (by unfold State.view; rfl)
  · exact h
theorem State.flushSbLost_keeps {s₀ : State} {s : State} (h : Keeps s₀ s) : Keeps s₀ (State.flushSbLost s) := by
  unfold State.flushSbLost; split
  · extract_lets +onlyGivenNames z5; apply State.raiseSb_keeps; exact h.same (by unfold State.view; rfl)
  · exact h
theorem State.deviceFault_keeps {s₀ : State} {s : State} (h : Keeps s₀ s) : Keeps s₀ (State.deviceFault s) := by
  unfold State.deviceFault; apply State.msix_keeps; exact h
theorem State.ringError_keeps {s₀ : State} {s : State} (ring : ℕ) (flags : ℕ) (h : Keeps s₀ s) : Keeps s₀ (State.ringError s ring flags) := by
  unfold State.ringError; apply State.raise_keeps; exact h
theorem State.refresh_keeps {s₀ : State} {s : State} (h : Keeps s₀ s) : Keeps s₀ (State.refresh s) := by
  unfold State.refresh; extract_lets +onlyGivenNames z4; extract_lets +onlyGivenNames z5; split
  · exact h
  · extract_lets +onlyGivenNames z7
    have kz7 : Keeps s₀ z7 := by
      unfold z7; apply State.set_keeps; exact h
    clear_value z7; revert z7; refine id ?_; intro z7 kz7; extract_lets +onlyGivenNames z9; split
    · exact kz7.same (by unfold State.view; rfl)
    · apply State.raise_keeps; exact kz7.same (by unfold State.view; rfl)
theorem State.flushReady_keeps {s₀ : State} {s : State} (h : Keeps s₀ s) : Keeps s₀ (State.flushReady s) := by
  unfold State.flushReady; split
  · exact h
  · split
    · exact h
    · extract_lets +onlyGivenNames z11; extract_lets +onlyGivenNames z12
      have kz12 : Keeps s₀ z12 := by
        unfold z12; exact h.same (by unfold State.view; rfl)
      clear_value z12; revert z12; refine id ?_; intro z12 kz12; split
      · exact kz12
      · apply State.raise_keeps; exact kz12
theorem State.pathB_keeps {s₀ : State} {s : State} (up : Bool) (h : Keeps s₀ s) : Keeps s₀ (State.pathB s up) := by
  unfold State.pathB; extract_lets +onlyGivenNames z5; split
  · split
    · apply State.raise_keeps; apply State.setf_keeps; exact h
    · exact h
  · split
    · exact h
    · extract_lets +onlyGivenNames z8
      have kz8 : Keeps s₀ z8 := by
        unfold z8; split
        · apply State.count_keeps; exact h
        · exact h
      clear_value z8; revert z8; refine id ?_; intro z8 kz8; apply State.raise_keeps; apply State.setf_keeps; exact kz8
theorem State.setPortReady_keeps {s₀ : State} {s : State} (p : ℕ) (b : Bool) (h : Keeps s₀ s) : Keeps s₀ (State.setPortReady s p b) := by
  unfold State.setPortReady; extract_lets +onlyGivenNames z6
  have kz6 : Keeps s₀ z6 := by
    unfold z6; split
    · apply State.setf_keeps; exact h
    · apply State.setf_keeps; exact h
  clear_value z6; revert z6; refine id ?_; intro z6 kz6; split
  · apply State.pathB_keeps; exact kz6
  · exact kz6
theorem State.mark_keeps {s₀ : State} {s : State} (finding : ℕ) (h : Keeps s₀ s) : Keeps s₀ (State.mark s finding) := by
  unfold State.mark; exact h.same (by unfold State.view; rfl)
theorem State.tested_keeps {s₀ : State} {s : State} (ok : Bool) (h : Keeps s₀ s) : Keeps s₀ (State.tested s ok) := by
  unfold State.tested; apply State.count_keeps; exact h
theorem State.occurs_keeps {s₀ : State} {s : State} (code : ℕ) (inst : ℕ) (n : ℕ) (h : Keeps s₀ s) : Keeps s₀ (State.occurs s code inst n) := by
  unfold State.occurs; extract_lets +onlyGivenNames z7; exact h.same (by unfold State.view; rfl)
theorem State.stat_keeps {s₀ : State} {s : State} (p : ℕ) (idx : ℕ) (n : ℕ) (h : Keeps s₀ s) : Keeps s₀ (State.stat s p idx n) := by
  unfold State.stat; extract_lets +onlyGivenNames z7
  have kz7 : Keeps s₀ z7 := by
    unfold z7; split
    · apply State.wrap_keeps; exact h
    · exact h
  clear_value z7; revert z7; refine id ?_; intro z7 kz7; split
  · apply State.occurs_keeps; exact kz7
  · exact kz7
theorem State.setDom_keeps {s₀ : State} {s : State} (d : Nat) (f : Domain → Domain) (h : Keeps s₀ s) : Keeps s₀ (State.setDom s d f) :=
  h.lengths rfl (by simp only [State.view, State.setDom, modifyAt_length])
theorem State.setTime_keeps {s₀ : State} {s : State} (k : ℕ) (t : ℕ) (h : Keeps s₀ s) : Keeps s₀ (State.setTime s k t) := by
  unfold State.setTime; apply State.set_keeps; apply State.set_keeps; exact h
theorem State.schedule_keeps {s₀ : State} {s : State} (opcode : ℕ) (tag : ℕ) (master : ℕ) (dom : ℕ) (t : ℕ) (data : List Byte) (h : Keeps s₀ s) : Keeps s₀ (State.schedule s opcode tag master dom t data) := by
  unfold State.schedule; extract_lets +onlyGivenNames z10; exact h.same (by unfold State.view; rfl)
theorem State.dropAction_keeps {s₀ : State} {s : State} (hh : ℕ) (h : Keeps s₀ s) : Keeps s₀ (State.dropAction s hh) := by
  unfold State.dropAction; exact h.same (by unfold State.view; rfl)
theorem State.raiseTo_keeps {s₀ : State} {s : State} (master : ℕ) (code : ℕ) (tag : ℕ) (status : ℕ) (payload : List Byte) (h : Keeps s₀ s) : Keeps s₀ (State.raiseTo s master code tag status payload) := by
  unfold State.raiseTo; split
  · apply State.raiseSb_keeps; exact h
  · apply State.raiseHost_keeps; exact h
theorem State.outcome_keeps {s₀ : State} {s : State} (a : Action) (status : ℕ) (t : ℕ) (h : Keeps s₀ s) : Keeps s₀ (State.outcome s a status t) := by
  unfold State.outcome; apply State.raiseTo_keeps; exact h
theorem State.signal_keeps {s₀ : State} {s : State} (v : ℕ) (modUs : ℕ) (h : Keeps s₀ s) : Keeps s₀ (State.signal s v modUs) := by
  unfold State.signal; extract_lets +onlyGivenNames z6; split
  · extract_lets +onlyGivenNames z8
    have kz8 : Keeps s₀ z8 := by
      unfold z8; apply State.msix_keeps; exact h
    clear_value z8; revert z8; refine id ?_; intro z8 kz8; exact kz8.same (by unfold State.view; rfl)
  · split
    · exact h
    · exact h.same (by unfold State.view; rfl)
theorem State.setLedger_keeps {s₀ : State} {s : State} (r : Nat) (f : LedgerRing → LedgerRing) (h : Keeps s₀ s) :
    Keeps s₀ (State.setLedger s r f) :=
  h.lengths rfl (by simp only [State.view, State.setLedger, modifyAt_length])
theorem State.ledgerPut_keeps {s₀ : State} {s : State} (r : ℕ) (w0 : ℕ) (w1 : ℕ) (h : Keeps s₀ s) : Keeps s₀ (State.ledgerPut s r w0 w1) := by
  unfold State.ledgerPut; extract_lets +onlyGivenNames z7; extract_lets +onlyGivenNames z8; apply State.signal_keeps
  apply State.occurs_keeps; apply State.setf_keeps; apply State.emit_keeps; exact h
theorem State.ringLost_keeps {s₀ : State} {s : State} (r : ℕ) (n : ℕ) (h : Keeps s₀ s) : Keeps s₀ (State.ringLost s r n) := by
  unfold State.ringLost; extract_lets +onlyGivenNames z6
  have kz6 : Keeps s₀ z6 := by
    unfold z6; apply State.count_keeps; exact h
  clear_value z6; revert z6; refine id ?_; intro z6 kz6; extract_lets +onlyGivenNames z8; extract_lets +onlyGivenNames z9
  extract_lets +onlyGivenNames z10
  have kz10 : Keeps s₀ z10 := by
    unfold z10; apply State.setLedger_keeps; exact kz6
  clear_value z10; revert z10; refine id ?_; intro z10 kz10; split
  · apply State.raise_keeps; exact kz10
  · exact kz10
theorem State.anchor_keeps {s₀ : State} {s : State} (r : ℕ) (d : ℕ) (h : Keeps s₀ s) : Keeps s₀ (State.anchor s r d) := by
  unfold State.anchor; extract_lets +onlyGivenNames z6; split
  · apply State.setLedger_keeps; apply State.ledgerPut_keeps; exact h
  · apply State.ringLost_keeps; exact h
theorem State.anchorAll_keeps {s₀ : State} {s : State} (r : ℕ) (h : Keeps s₀ s) : Keeps s₀ (State.anchorAll s r) := by
  unfold State.anchorAll; apply State.forEach_keeps
  · intro a5 a6 t7 h8; apply State.anchor_keeps; exact h8
  · exact h
theorem State.ringResume_keeps {s₀ : State} {s : State} (r : ℕ) (h : Keeps s₀ s) : Keeps s₀ (State.ringResume s r) := by
  unfold State.ringResume; extract_lets +onlyGivenNames z5; split
  · extract_lets +onlyGivenNames z7
    have kz7 : Keeps s₀ z7 := by
      unfold z7; apply State.ledgerPut_keeps; exact h
    clear_value z7; revert z7; refine id ?_; intro z7 kz7; apply State.anchorAll_keeps; apply State.setLedger_keeps; exact kz7
  · exact h
theorem State.record_keeps {s₀ : State} {s : State} (x : StampRecord) (h : Keeps s₀ s) : Keeps s₀ (State.record s x) := by
  unfold State.record; split
  · apply State.count_keeps; exact h
  · extract_lets +onlyGivenNames z10
    have kz10 : Keeps s₀ z10 := by
      unfold z10; apply State.ringResume_keeps; exact h
    clear_value z10; revert z10; refine id ?_; intro z10 kz10; split
    · extract_lets +onlyGivenNames z13; extract_lets +onlyGivenNames z14; extract_lets +onlyGivenNames z15
      apply State.setLedger_keeps; apply State.ledgerPut_keeps; exact kz10
    · apply State.ringLost_keeps; exact kz10
theorem State.pairRecords_keeps {s₀ : State} {s : State} (d : ℕ) (cause : ℕ) (oldT : ℕ) (oldGen : ℕ) (newT : ℕ) (newGen : ℕ) (h : Keeps s₀ s) : Keeps s₀ (State.pairRecords s d cause oldT oldGen newT newGen) := by
  unfold State.pairRecords; apply State.forEach_keeps
  · intro a10 a11 t12 h13; extract_lets +onlyGivenNames z14
    have kz14 : Keeps s₀ z14 := by
      unfold z14; apply State.ringResume_keeps; exact h13
    clear_value z14; revert z14; refine id ?_; intro z14 kz14; split
    · apply State.setLedger_keeps; apply State.ledgerPut_keeps; apply State.ledgerPut_keeps; exact kz14
    · apply State.ringLost_keeps; exact kz14
  · exact h
theorem State.discontinuity_keeps {s₀ : State} {s : State} (d : ℕ) (cause : ℕ) (oldT : ℕ) (oldGen : ℕ) (newT : ℕ) (newGen : ℕ) (h : Keeps s₀ s) : Keeps s₀ (State.discontinuity s d cause oldT oldGen newT newGen) := by
  unfold State.discontinuity; extract_lets +onlyGivenNames z10
  have kz10 : Keeps s₀ z10 := by
    unfold z10; apply State.set_keeps; apply State.count_keeps; exact h
  clear_value z10; revert z10; refine id ?_; intro z10 kz10; extract_lets +onlyGivenNames z12
  have kz12 : Keeps s₀ z12 := by
    unfold z12; apply State.set_keeps; apply State.setTime_keeps; exact kz10
  clear_value z12; revert z12; refine id ?_; intro z12 kz12; apply State.raise_keeps; apply State.pairRecords_keeps; exact kz12
theorem State.setFifo_keeps {s₀ : State} {s : State} (p : ℕ) (x : StampFifo) (h : Keeps s₀ s) : Keeps s₀ (State.setFifo s p x) := by
  unfold State.setFifo; extract_lets +onlyGivenNames z6
  have kz6 : Keeps s₀ z6 := by
    unfold z6; apply State.setf_keeps; exact h
  clear_value z6; revert z6; refine id ?_; intro z6 kz6; exact kz6.same (by unfold State.view; rfl)
theorem State.fifoLoss_keeps {s₀ : State} {s : State} (p : ℕ) (q : StampFifo) (h : Keeps s₀ s) : Keeps s₀ (State.fifoLoss s p q) := by
  unfold State.fifoLoss; extract_lets +onlyGivenNames z6; extract_lets +onlyGivenNames z7
  have kz7 : Keeps s₀ z7 := by
    unfold z7; apply State.setFifo_keeps; exact h
  clear_value z7; revert z7; refine id ?_; intro z7 kz7; split
  · apply State.raise_keeps; exact kz7
  · exact kz7
theorem State.pushStamp_keeps {s₀ : State} {s : State} (p : ℕ) (x : StampRecord) (h : Keeps s₀ s) : Keeps s₀ (State.pushStamp s p x) := by
  unfold State.pushStamp; extract_lets +onlyGivenNames z6; split
  · split
    · apply State.setFifo_keeps; exact h
    · apply State.fifoLoss_keeps; apply State.count_keeps; exact h
  · apply State.fifoLoss_keeps; apply State.count_keeps; exact h
theorem State.drained_keeps {s₀ : State} {s : State} (x : StampRecord) (h : Keeps s₀ s) : Keeps s₀ (State.drained s x) := by
  unfold State.drained; split
  · exact h
  · apply State.record_keeps; exact h
theorem State.drainOne_keeps {s₀ : State} {s : State} (h : Keeps s₀ s) : Keeps s₀ (State.drainOne s) := by
  unfold State.drainOne; split
  · exact h
  · split
    · exact h
    · apply State.drained_keeps; apply State.setFifo_keeps; exact h
theorem State.fifoGap_keeps {s₀ : State} {s : State} (p : ℕ) (h : Keeps s₀ s) : Keeps s₀ (State.fifoGap s p) := by
  unfold State.fifoGap; extract_lets +onlyGivenNames z5; split
  · exact h
  · split
    · exact h
    · extract_lets +onlyGivenNames z12
      have kz12 : Keeps s₀ z12 := by
        unfold z12; apply State.setFifo_keeps; exact h
      clear_value z12; revert z12; refine id ?_; intro z12 kz12; split
      · exact kz12
      · split
        · apply State.count_keeps; exact kz12
        · extract_lets +onlyGivenNames z20
          have kz20 : Keeps s₀ z20 := by
            unfold z20; apply State.ringResume_keeps; exact kz12
          clear_value z20; revert z20; refine id ?_; intro z20 kz20; split
          · apply State.ledgerPut_keeps; exact kz20
          · apply State.ringLost_keeps; exact kz20
theorem State.ledgerEnable_keeps {s₀ : State} {s : State} (r : ℕ) (h : Keeps s₀ s) : Keeps s₀ (State.ledgerEnable s r) := by
  unfold State.ledgerEnable; extract_lets +onlyGivenNames z5
  have kz5 : Keeps s₀ z5 := by
    unfold z5; apply State.setLedger_keeps; apply State.setf_keeps; exact h
  clear_value z5; revert z5; refine id ?_; intro z5 kz5; split
  · apply State.anchorAll_keeps; exact kz5
  · apply State.ringResume_keeps; exact kz5
theorem State.setGate_keeps {s₀ : State} {s : State} (p : ℕ) (f : Gates → Gates) (h : Keeps s₀ s) : Keeps s₀ (State.setGate s p f) := by
  unfold State.setGate; extract_lets +onlyGivenNames z6; extract_lets +onlyGivenNames z7
  have kz7 : Keeps s₀ z7 := by
    unfold z7; exact h.same (by unfold State.view; rfl)
  clear_value z7; revert z7; refine id ?_; intro z7 kz7; apply State.setf_keeps; exact kz7
theorem State.stageCalendar_keeps {s₀ : State} {s : State} (port : ℕ) (dom : ℕ) (cycle : ℕ) (base : ℕ) (c : Calendar) (h : Keeps s₀ s) : Keeps s₀ (State.stageCalendar s port dom cycle base c) := by
  unfold State.stageCalendar; extract_lets +onlyGivenNames z9
  have kz9 : Keeps s₀ z9 := by
    unfold z9; apply State.setGate_keeps; exact h
  clear_value z9; revert z9; refine id ?_; intro z9 kz9; extract_lets +onlyGivenNames z11
  have kz11 : Keeps s₀ z11 := by
    unfold z11; apply State.set_keeps; apply State.set_keeps; exact kz9
  clear_value z11; revert z11; refine id ?_; intro z11 kz11; extract_lets +onlyGivenNames z13
  have kz13 : Keeps s₀ z13 := by
    unfold z13; apply State.setTime_keeps; exact kz11
  clear_value z13; revert z13; refine id ?_; intro z13 kz13; apply State.forEach_keeps
  · intro a15 a16 t17 h18; apply State.set_keeps; exact h18
  · exact kz13
theorem State.commitGate_keeps {s₀ : State} {s : State} (port : ℕ) (start : ℕ) (dom : ℕ) (h : Keeps s₀ s) : Keeps s₀ (State.commitGate s port start dom) := by
  unfold State.commitGate; split
  · exact h
  · apply State.setTime_keeps; apply State.setGate_keeps; exact h
theorem State.gateActive_keeps {s₀ : State} {s : State} (p : ℕ) (h : Keeps s₀ s) : Keeps s₀ (State.gateActive s p) := by
  unfold State.gateActive; split
  · exact h
  · split
    · exact h
    · extract_lets +onlyGivenNames z13; extract_lets +onlyGivenNames z14; extract_lets +onlyGivenNames z15
      have kz15 : Keeps s₀ z15 := by
        unfold z15; apply State.setGate_keeps; exact h
      clear_value z15; revert z15; refine id ?_; intro z15 kz15; extract_lets +onlyGivenNames z17
      have kz17 : Keeps s₀ z17 := by
        unfold z17; apply State.setf_keeps; exact kz15
      clear_value z17; revert z17; refine id ?_; intro z17 kz17; extract_lets +onlyGivenNames z19
      have kz19 : Keeps s₀ z19 := by
        unfold z19; apply State.set_keeps; exact kz17
      clear_value z19; revert z19; refine id ?_; intro z19 kz19; extract_lets +onlyGivenNames z21
      have kz21 : Keeps s₀ z21 := by
        unfold z21; apply State.setTime_keeps; exact kz19
      clear_value z21; revert z21; refine id ?_; intro z21 kz21; extract_lets +onlyGivenNames z23
      have kz23 : Keeps s₀ z23 := by
        unfold z23; apply State.setTime_keeps; apply State.setTime_keeps; exact kz21
      clear_value z23; revert z23; refine id ?_; intro z23 kz23; extract_lets +onlyGivenNames z25
      have kz25 : Keeps s₀ z25 := by
        unfold z25; apply State.set_keeps; exact kz23
      clear_value z25; revert z25; refine id ?_; intro z25 kz25; extract_lets +onlyGivenNames z27
      have kz27 : Keeps s₀ z27 := by
        unfold z27; apply State.forEach_keeps
        · intro a28 a29 t30 h31; apply State.set_keeps; apply State.set_keeps; exact h31
        · exact kz25
      clear_value z27; revert z27; refine id ?_; intro z27 kz27; apply State.raise_keeps; exact kz27
theorem execGateActive_keeps {s₀ : State} (p : ℕ) {s : State} (h : Keeps s₀ s) : NextKeeps s₀ (execGateActive p s) := by
  unfold execGateActive; extract_lets +onlyGivenNames z5
  have kz5 : Keeps s₀ z5 := by
    unfold z5; apply State.fresh_keeps; exact h
  clear_value z5; revert z5; refine id ?_; intro z5 kz5; apply NextKeeps.atUnit
  · exact kz5
  · apply State.gateActive_keeps; exact kz5
theorem State.gateStep_keeps {s₀ : State} {s : State} (dom : ℕ) (held : List (ℕ × ℕ × ℕ)) (h : Keeps s₀ s) : Keeps s₀ (State.gateStep s dom held) := by
  unfold State.gateStep; apply State.forEach_keeps
  · intro a6 a7 t8 h9; extract_lets +onlyGivenNames z10; extract_lets +onlyGivenNames z11
    have kz11 : Keeps s₀ z11 := by
      unfold z11; split
      · split
        · extract_lets +onlyGivenNames z18; extract_lets +onlyGivenNames z19
          have kz19 : Keeps s₀ z19 := by
            unfold z19; apply State.setGate_keeps; exact h9
          clear_value z19; revert z19; refine id ?_; intro z19 kz19; extract_lets +onlyGivenNames z21
          have kz21 : Keeps s₀ z21 := by
            unfold z21; apply State.count_keeps; apply State.setf_keeps; exact kz19
          clear_value z21; revert z21; refine id ?_; intro z21 kz21; apply State.raise_keeps; exact kz21
        · exact h9
      · exact h9
    clear_value z11; revert z11; refine id ?_; intro z11 kz11; split
    · split
      · extract_lets +onlyGivenNames z21; apply State.setTime_keeps; apply State.setGate_keeps; exact kz11
      · exact kz11
    · exact kz11
  · exact h
theorem State.gatesDue_keeps {s₀ : State} {s : State} (h : Keeps s₀ s) : Keeps s₀ (State.gatesDue s) := by
  unfold State.gatesDue; apply State.forEach_keeps
  · intro a4 a5 t6 h7; apply State.gateActive_keeps; exact h7
  · exact h
theorem execGateRestart_keeps {s₀ : State} (p : ℕ) {s : State} (h : Keeps s₀ s) : NextKeeps s₀ (execGateRestart p s) := by
  unfold execGateRestart; extract_lets +onlyGivenNames z5
  have kz5 : Keeps s₀ z5 := by
    unfold z5; apply State.fresh_keeps; exact h
  clear_value z5; revert z5; refine id ?_; intro z5 kz5; apply NextKeeps.atUnit
  · exact kz5
  · split
    · split
      · apply State.setf_keeps; apply State.setGate_keeps; exact kz5
      · exact kz5
    · exact kz5
theorem State.setQ_keeps {s₀ : State} {s : State} (p : ℕ) (q : ℕ) (x : Queue) (h : Keeps s₀ s) : Keeps s₀ (State.setQ s p q x) := by
  unfold State.setQ; exact h.same (by unfold State.view; rfl)
theorem State.setSide_keeps {s₀ : State} {s : State} (p : ℕ) (f : PortSide → PortSide) (h : Keeps s₀ s) : Keeps s₀ (State.setSide s p f) := by
  unfold State.setSide; extract_lets +onlyGivenNames z6; exact h.same (by unfold State.view; rfl)
theorem State.countGood_keeps {s₀ : State} {s : State} (p : ℕ) (d : List Byte) (len : ℕ) (h : Keeps s₀ s) : Keeps s₀ (State.countGood s p d len) := by
  unfold State.countGood; apply State.occurs_keeps; apply State.stat_keeps; apply State.stat_keeps; apply State.stat_keeps
  apply State.stat_keeps; exact h
theorem State.sentGood_keeps {s₀ : State} {s : State} (p : ℕ) (bytes : List Byte) (h : Keeps s₀ s) : Keeps s₀ (State.sentGood s p bytes) := by
  unfold State.sentGood; apply State.stat_keeps; apply State.stat_keeps; apply State.stat_keeps; exact h
theorem State.issue_keeps {s₀ : State} {s : State} (tag n : Nat) (h : Keeps s₀ s) : Keeps s₀ (State.issue s tag n).1 := by
  induction n generalizing s with
  | zero => exact h
  | succ n ih =>
    unfold State.issue; split
    · exact h
    · exact ih (h.same (by unfold State.view; rfl))
theorem State.retag_keeps {s₀ : State} {s : State} (ident : ℕ) (h : Keeps s₀ s) : Keeps s₀ (State.retag s ident) := by
  unfold State.retag; split
  · exact h
  · exact h.same (by unfold State.view; rfl)
theorem State.poolCheck_keeps {s₀ : State} {s : State} (h : Keeps s₀ s) : Keeps s₀ (State.poolCheck s) := by
  unfold State.poolCheck; split
  · exact h
  · extract_lets +onlyGivenNames z5; extract_lets +onlyGivenNames z6; extract_lets +onlyGivenNames z7
    have kz7 : Keeps s₀ z7 := by
      unfold z7; split
      · exact h
      · apply State.raise_keeps; apply State.setf_keeps; exact h
    clear_value z7; revert z7; refine id ?_; intro z7 kz7; split
    · exact kz7
    · apply State.raise_keeps; apply State.setf_keeps; exact kz7
theorem State.moveK_keeps {s₀ : State} {s : State} (h : Keeps s₀ s) : Keeps s₀ (State.moveK s) := by
  unfold State.moveK; extract_lets +onlyGivenNames z4; extract_lets +onlyGivenNames z5; extract_lets +onlyGivenNames z6; split
  · exact h
  · apply State.poolCheck_keeps; exact h.same (by unfold State.view; rfl)
theorem State.collect_keeps {s₀ : State} {s : State} (h : Keeps s₀ s) : Keeps s₀ (State.collect s) := by
  unfold State.collect; extract_lets +onlyGivenNames z4; extract_lets +onlyGivenNames z5; extract_lets +onlyGivenNames z6
  have kz6 : Keeps s₀ z6 := by
    unfold z6; exact h.same (by unfold State.view; rfl)
  clear_value z6; revert z6; refine id ?_; intro z6 kz6; extract_lets +onlyGivenNames z8; extract_lets +onlyGivenNames z9
  exact kz6.same (by unfold State.view; rfl)
theorem State.deadCopy_keeps {s₀ : State} {s : State} (p : ℕ) (c : Copy) (h : Keeps s₀ s) : Keeps s₀ (State.deadCopy s p c) := by
  unfold State.deadCopy; split
  · split
    · apply State.pushStamp_keeps; exact h
    · exact h
  · exact h
theorem State.busy_keeps {s₀ : State} {s : State} (p : ℕ) (h : Keeps s₀ s) : Keeps s₀ (State.busy s p) := by
  unfold State.busy; apply State.setSide_keeps; exact h
theorem State.removeCopies_keeps {s₀ : State} {s : State} (p : ℕ) (q : ℕ) (test : Copy → Bool) (h : Keeps s₀ s) : Keeps s₀ (State.removeCopies s p q test) := by
  unfold State.removeCopies; extract_lets +onlyGivenNames z7; extract_lets +onlyGivenNames z8; extract_lets +onlyGivenNames z9
  have kz9 : Keeps s₀ z9 := by
    unfold z9; apply State.setQ_keeps; exact h
  clear_value z9; revert z9; refine id ?_; intro z9 kz9; apply State.busy_keeps; apply State.collect_keeps
  apply State.forEach_keeps
  · intro a11 a12 t13 h14; apply State.deadCopy_keeps; exact h14
  · exact kz9
theorem State.sendPfc_keeps {s₀ : State} {s : State} (p : ℕ) (off : List ℕ) (on : List ℕ) (h : Keeps s₀ s) : Keeps s₀ (State.sendPfc s p off on) := by
  unfold State.sendPfc; extract_lets +onlyGivenNames z7; extract_lets +onlyGivenNames z8; split
  · extract_lets +onlyGivenNames z10
    have kz10 : Keeps s₀ z10 := by
      unfold z10; apply State.setSide_keeps; exact h
    clear_value z10; revert z10; refine id ?_; intro z10 kz10; apply State.sentGood_keeps; apply State.stat_keeps
    apply State.emit_keeps; exact kz10
  · exact h
theorem State.pfcCheck_keeps {s₀ : State} {s : State} (p : ℕ) (h : Keeps s₀ s) : Keeps s₀ (State.pfcCheck s p) := by
  unfold State.pfcCheck; split
  · extract_lets +onlyGivenNames z6; extract_lets +onlyGivenNames z7; extract_lets +onlyGivenNames z8
    extract_lets +onlyGivenNames z9; split
    · exact h
    · extract_lets +onlyGivenNames z11
      have kz11 : Keeps s₀ z11 := by
        unfold z11; apply State.setf_keeps; exact h
      clear_value z11; revert z11; refine id ?_; intro z11 kz11; apply State.forEach_keeps
      · intro a13 a14 t15 h16; apply State.stat_keeps; exact h16
      · apply State.sendPfc_keeps; exact kz11
  · exact h
theorem State.pfcCheckAll_keeps {s₀ : State} {s : State} (h : Keeps s₀ s) : Keeps s₀ (State.pfcCheckAll s) := by
  unfold State.pfcCheckAll; apply State.forEach_keeps
  · intro a4 a5 t6 h7; apply State.pfcCheck_keeps; exact h7
  · exact h
theorem State.spillSet_keeps {s₀ : State} {s : State} (p : ℕ) (q : ℕ) (st : ℕ) (h : Keeps s₀ s) : Keeps s₀ (State.spillSet s p q st) := by
  unfold State.spillSet; extract_lets +onlyGivenNames z7; split
  · exact h
  · extract_lets +onlyGivenNames z9; extract_lets +onlyGivenNames z10; extract_lets +onlyGivenNames z11
    have kz11 : Keeps s₀ z11 := by
      unfold z11; apply State.setQ_keeps; exact h
    clear_value z11; revert z11; refine id ?_; intro z11 kz11; split
    · apply State.raise_keeps; exact kz11
    · exact kz11
theorem State.packPage_keeps {s₀ : State} {s : State} (p : ℕ) (q : ℕ) (h : Keeps s₀ s) : Keeps s₀ (State.packPage s p q) := by
  unfold State.packPage; extract_lets +onlyGivenNames z6; extract_lets +onlyGivenNames z7; split
  · exact h
  · extract_lets +onlyGivenNames z9; extract_lets +onlyGivenNames z10; extract_lets +onlyGivenNames z11; apply State.setQ_keeps
    exact h
theorem State.packPages_keeps {s₀ : State} {s : State} (p q k : Nat) (h : Keeps s₀ s) : Keeps s₀ (State.packPages s p q k) := by
  induction k generalizing s with
  | zero => exact h
  | succ k ih =>
    unfold State.packPages; split
    · exact ih (State.packPage_keeps p q h)
    · exact h
theorem State.packFull_keeps {s₀ : State} {s : State} (p : ℕ) (q : ℕ) (h : Keeps s₀ s) : Keeps s₀ (State.packFull s p q) := by
  unfold State.packFull; apply State.packPages_keeps; exact h
theorem State.spillCheck_keeps {s₀ : State} {s : State} (p : ℕ) (q : ℕ) (h : Keeps s₀ s) : Keeps s₀ (State.spillCheck s p q) := by
  unfold State.spillCheck; extract_lets +onlyGivenNames z6; extract_lets +onlyGivenNames z7
  have kz7 : Keeps s₀ z7 := by
    unfold z7; split
    · apply State.spillSet_keeps; exact h
    · split
      · apply State.packFull_keeps; apply State.spillSet_keeps; exact h
      · exact h
  clear_value z7; revert z7; refine id ?_; intro z7 kz7; split
  · apply State.spillSet_keeps; exact kz7
  · exact kz7
theorem State.noFit_keeps {s₀ : State} {s : State} (p : ℕ) (q : ℕ) (h : Keeps s₀ s) : Keeps s₀ (State.noFit s p q) := by
  unfold State.noFit; extract_lets +onlyGivenNames z6
  have kz6 : Keeps s₀ z6 := by
    unfold z6; apply State.count_keeps; exact h
  clear_value z6; revert z6; refine id ?_; intro z6 kz6; extract_lets +onlyGivenNames z8; extract_lets +onlyGivenNames z9
  extract_lets +onlyGivenNames z10
  have kz10 : Keeps s₀ z10 := by
    unfold z10; apply State.setSide_keeps; exact kz6
  clear_value z10; revert z10; refine id ?_; intro z10 kz10; split
  · apply State.raise_keeps; exact kz10
  · exact kz10
theorem State.dropHead_keeps {s₀ : State} {s : State} (p : ℕ) (q : ℕ) (h : Keeps s₀ s) : Keeps s₀ (State.dropHead s p q) := by
  unfold State.dropHead; split
  · exact h
  · apply State.deadCopy_keeps; apply State.setQ_keeps; exact h
theorem State.judgeHead_keeps {s₀ : State} {s : State} (p q k : Nat) (h : Keeps s₀ s) : Keeps s₀ (State.judgeHead s p q k) := by
  induction k generalizing s with
  | zero => exact h
  | succ k ih =>
    unfold State.judgeHead; split
    · exact h
    · split
      · exact h
      · split
        · exact ih (State.dropHead_keeps _ _ (State.noFit_keeps _ _ h))
        · exact State.setQ_keeps _ _ _ h
theorem State.judge_keeps {s₀ : State} {s : State} (p : ℕ) (q : ℕ) (h : Keeps s₀ s) : Keeps s₀ (State.judge s p q) := by
  unfold State.judge; apply State.judgeHead_keeps; exact h
theorem State.enqueue_keeps {s₀ : State} {s : State} (p : ℕ) (q : ℕ) (n : ℕ) (c : Copy) (h : Keeps s₀ s) : Keeps s₀ (State.enqueue s p q n c).1 := by
  unfold State.enqueue; split
  · extract_lets +onlyGivenNames z9; extract_lets +onlyGivenNames z10; extract_lets +onlyGivenNames z11
    have kz11 : Keeps s₀ z11 := by
      unfold z11; apply State.setf_keeps; exact h
    clear_value z11; revert z11; refine id ?_; intro z11 kz11; extract_lets +onlyGivenNames z13
    extract_lets +onlyGivenNames z14; extract_lets +onlyGivenNames z15
    have kz15 : Keeps s₀ z15 := by
      unfold z15; apply State.setQ_keeps; exact kz11
    clear_value z15; revert z15; refine id ?_; intro z15 kz15; extract_lets +onlyGivenNames z17
    have kz17 : Keeps s₀ z17 := by
      unfold z17; split
      · apply State.spillSet_keeps; exact kz15
      · apply State.spillCheck_keeps; exact kz15
    clear_value z17; revert z17; refine id ?_; intro z17 kz17; dsimp -zeta -zetaHave only; apply State.judge_keeps
    apply State.busy_keeps; apply State.retag_keeps; apply State.packFull_keeps; exact kz17
  · dsimp -zeta -zetaHave only; apply State.stat_keeps; exact h
theorem State.settle_keeps {s₀ : State} {s : State} (ident : ℕ) (h : Keeps s₀ s) : Keeps s₀ (State.settle s ident) := by
  unfold State.settle; extract_lets +onlyGivenNames z5; extract_lets +onlyGivenNames z6; apply State.forEach_keeps
  · intro a7 a8 t9 h10; extract_lets +onlyGivenNames z11; extract_lets +onlyGivenNames z12; extract_lets +onlyGivenNames z13
    have kz13 : Keeps s₀ z13 := by
      unfold z13; apply State.setQ_keeps; exact h10
    clear_value z13; revert z13; refine id ?_; intro z13 kz13; apply State.spillCheck_keeps; apply State.packFull_keeps
    exact kz13
  · exact h
theorem State.storeFrame_keeps {s₀ : State} {s : State} (f : Frame) (h : Keeps s₀ s) : Keeps s₀ (State.storeFrame s f) := by
  unfold State.storeFrame; extract_lets +onlyGivenNames z5
  have kz5 : Keeps s₀ z5.1 := by
    unfold z5; apply State.issue_keeps; exact h
  clear_value z5; revert z5; refine id ?_; intro z5 kz5; extract_lets +onlyGivenNames z7
  have kz7 : Keeps s₀ z7 := by
    unfold z7; exact kz5
  clear_value z7; revert z7; refine id ?_; intro z7 kz7; exact kz7.same (by unfold State.view; rfl)
theorem State.dropPort_keeps {s₀ : State} {s : State} (p : ℕ) (h : Keeps s₀ s) : Keeps s₀ (State.dropPort s p) := by
  unfold State.dropPort; extract_lets +onlyGivenNames z5
  have kz5 : Keeps s₀ z5 := by
    unfold z5; apply State.forEach_keeps
    · intro a6 a7 t8 h9; extract_lets +onlyGivenNames z10; split
      · exact h9
      · extract_lets +onlyGivenNames z12
        have kz12 : Keeps s₀ z12 := by
          unfold z12; apply State.wrap_keeps; exact h9
        clear_value z12; revert z12; refine id ?_; intro z12 kz12; extract_lets +onlyGivenNames z14
        have kz14 : Keeps s₀ z14 := by
          unfold z14; apply State.forEach_keeps
          · intro a15 a16 t17 h18; apply State.deadCopy_keeps; exact h18
          · exact kz12
        clear_value z14; revert z14; refine id ?_; intro z14 kz14; apply State.spillSet_keeps; apply State.setQ_keeps
        exact kz14
    · exact h
  clear_value z5; revert z5; refine id ?_; intro z5 kz5; extract_lets +onlyGivenNames z7; extract_lets +onlyGivenNames z8
  have kz8 : Keeps s₀ z8 := by
    unfold z8; apply State.wrap_keeps; exact kz5
  clear_value z8; revert z8; refine id ?_; intro z8 kz8; extract_lets +onlyGivenNames z10
  have kz10 : Keeps s₀ z10 := by
    unfold z10; apply State.setSide_keeps; exact kz8
  clear_value z10; revert z10; refine id ?_; intro z10 kz10; apply State.moveK_keeps; apply State.pfcCheckAll_keeps
  apply State.collect_keeps; apply State.forEach_keeps
  · intro a12 a13 t14 h15; apply State.deadCopy_keeps; exact h15
  · exact kz10
theorem State.dropSerials_keeps {s₀ : State} {s : State} (p : ℕ) (q : ℕ) (l : List ℕ) (h : Keeps s₀ s) : Keeps s₀ (State.dropSerials s p q l) := by
  unfold State.dropSerials; extract_lets +onlyGivenNames z7; extract_lets +onlyGivenNames z8
  have kz8 : Keeps s₀ z8 := by
    unfold z8; apply State.removeCopies_keeps; apply State.stat_keeps; exact h
  clear_value z8; revert z8; refine id ?_; intro z8 kz8; extract_lets +onlyGivenNames z10; extract_lets +onlyGivenNames z11
  apply State.setQ_keeps; exact kz8
theorem State.mergeTail_keeps {s₀ : State} {s : State} (p : ℕ) (q : ℕ) (h : Keeps s₀ s) : Keeps s₀ (State.mergeTail s p q) := by
  unfold State.mergeTail; extract_lets +onlyGivenNames z6; extract_lets +onlyGivenNames z7; apply State.spillSet_keeps
  apply State.setQ_keeps; exact h
theorem State.losePages_keeps {s₀ : State} {s : State} (p : ℕ) (q : ℕ) (lost : Page → Bool) (h : Keeps s₀ s) : Keeps s₀ (State.losePages s p q lost).1 := by
  unfold State.losePages; extract_lets +onlyGivenNames z7; extract_lets +onlyGivenNames z8; extract_lets +onlyGivenNames z9
  extract_lets +onlyGivenNames z10; extract_lets +onlyGivenNames z11; extract_lets +onlyGivenNames z12
  have kz12 : Keeps s₀ z12 := by
    unfold z12; apply State.setQ_keeps; exact h
  clear_value z12; revert z12; refine id ?_; intro z12 kz12; extract_lets +onlyGivenNames z14
  have kz14 : Keeps s₀ z14 := by
    unfold z14; apply State.dropSerials_keeps; exact kz12
  clear_value z14; revert z14; refine id ?_; intro z14 kz14; split
  · dsimp -zeta -zetaHave only; apply State.spillCheck_keeps; exact kz14
  · extract_lets +onlyGivenNames z17; extract_lets +onlyGivenNames z18
    have kz18 : Keeps s₀ z18 := by
      unfold z18; apply State.count_keeps; exact kz14
    clear_value z18; revert z18; refine id ?_; intro z18 kz18; extract_lets +onlyGivenNames z20
    extract_lets +onlyGivenNames z21
    have kz21 : Keeps s₀ z21 := by
      unfold z21; exact kz18.same (by unfold State.view; rfl)
    clear_value z21; revert z21; refine id ?_; intro z21 kz21; dsimp -zeta -zetaHave only; apply State.collect_keeps
    apply State.mergeTail_keeps; apply State.setQ_keeps; exact kz21
theorem State.mirrorMode_keeps {s₀ : State} {s : State} (m : ℕ) (mode : ℕ) (cause : ℕ) (h : Keeps s₀ s) : Keeps s₀ (State.mirrorMode s m mode cause) := by
  unfold State.mirrorMode; split
  · exact h
  · apply State.raise_keeps; apply State.setf_keeps; exact h
theorem State.setMirror_keeps {s₀ : State} {s : State} (m : ℕ) (f : MirrorSide → MirrorSide) (h : Keeps s₀ s) : Keeps s₀ (State.setMirror s m f) := by
  unfold State.setMirror; exact h.same (by unfold State.view; rfl)
theorem State.mirrorCheck_keeps {s₀ : State} {s : State} (m : ℕ) (h : Keeps s₀ s) : Keeps s₀ (State.mirrorCheck s m) := by
  unfold State.mirrorCheck; split
  · exact h
  · extract_lets +onlyGivenNames z10; extract_lets +onlyGivenNames z11
    have kz11 : Keeps s₀ z11 := by
      unfold z11; split
      · apply State.setMirror_keeps; exact h
      · exact h
    clear_value z11; revert z11; refine id ?_; intro z11 kz11; split
    · apply State.mirrorMode_keeps; exact kz11
    · exact kz11
theorem State.mirrorFull_keeps {s₀ : State} {s : State} (f : Frame) (m : ℕ) (e : List Byte) (n : ℕ) (len : ℕ) (pol : Bool) (elim : Bool) (h : Keeps s₀ s) : Keeps s₀ (State.mirrorFull s f m e n len pol elim) := by
  unfold State.mirrorFull; extract_lets +onlyGivenNames z11; extract_lets +onlyGivenNames z12; extract_lets +onlyGivenNames z13
  extract_lets +onlyGivenNames z14; extract_lets +onlyGivenNames z15; split
  · extract_lets +onlyGivenNames z17
    have kz17 : Keeps s₀ z17.1 := by
      unfold z17; apply State.enqueue_keeps; exact h
    clear_value z17; revert z17; refine id ?_; intro z17 kz17; split
    · apply State.mirrorCheck_keeps; exact kz17
    · apply State.mirrorMode_keeps; apply State.count_keeps; exact kz17
  · apply State.wrap_keeps; exact h
theorem State.mirrorSample_keeps {s₀ : State} {s : State} (f : Frame) (m : ℕ) (e : List Byte) (kind : ℕ) (port : ℕ) (stamp : ℕ) (len : ℕ) (h : Keeps s₀ s) : Keeps s₀ (State.mirrorSample s f m e kind port stamp len) := by
  unfold State.mirrorSample; extract_lets +onlyGivenNames z11; extract_lets +onlyGivenNames z12
  extract_lets +onlyGivenNames z13; extract_lets +onlyGivenNames z14; extract_lets +onlyGivenNames z15
  extract_lets +onlyGivenNames z16
  have kz16 : Keeps s₀ z16.1 := by
    unfold z16; apply State.enqueue_keeps; apply State.storeFrame_keeps; exact h
  clear_value z16; revert z16; refine id ?_; intro z16 kz16; split
  · exact kz16
  · apply State.count_keeps; exact kz16
theorem State.mirrorFrame_keeps {s₀ : State} {s : State} (pair : ℕ) (f : Frame) (m : ℕ) (kind : ℕ) (n : ℕ) (port : ℕ) (len : ℕ) (stamp : ℕ) (pol : Bool) (elim : Bool) (h : Keeps s₀ s) : Keeps s₀ (State.mirrorFrame s pair f m kind n port len stamp pol elim) := by
  unfold State.mirrorFrame; split
  · exact h
  · extract_lets +onlyGivenNames z19; extract_lets +onlyGivenNames z20; extract_lets +onlyGivenNames z21
    have kz21 : Keeps s₀ z21 := by
      unfold z21; apply State.setMirror_keeps; exact h
    clear_value z21; revert z21; refine id ?_; intro z21 kz21; split
    · apply State.mirrorFull_keeps; exact kz21
    · split
      · apply State.mirrorSample_keeps; exact kz21
      · exact kz21
theorem State.mirrorPort_keeps {s₀ : State} {s : State} (f : Frame) (port : ℕ) (h : Keeps s₀ s) : Keeps s₀ (State.mirrorPort s f port) := by
  unfold State.mirrorPort; apply State.forEach_keeps
  · intro a6 a7 t8 h9; apply State.mirrorFrame_keeps; exact h9
  · exact h
theorem State.sendOwn_keeps {s₀ : State} {s : State} (p : ℕ) (q : ℕ) (kind : ℕ) (f : Frame) (h : Keeps s₀ s) : Keeps s₀ (State.sendOwn s p q kind f) := by
  unfold State.sendOwn; extract_lets +onlyGivenNames z8
  have kz8 : Keeps s₀ z8 := by
    unfold z8; apply State.mirrorPort_keeps; apply State.storeFrame_keeps; apply State.countGood_keeps; exact h
  clear_value z8; revert z8; refine id ?_; intro z8 kz8; extract_lets +onlyGivenNames z10; extract_lets +onlyGivenNames z11
  have kz11 : Keeps s₀ z11 := by
    unfold z11; split
    · apply State.enqueue_keeps; exact kz8
    · apply State.wrap_keeps; exact kz8
  clear_value z11; revert z11; refine id ?_; intro z11 kz11; apply State.collect_keeps; exact kz11
theorem State.deviceSend_keeps {s₀ : State} {s : State} (p : ℕ) (q : ℕ) (d : List Byte) (h : Keeps s₀ s) : Keeps s₀ (State.deviceSend s p q d) := by
  unfold State.deviceSend; apply State.sendOwn_keeps; exact h
theorem Ran.ok_keeps {s₀ : State} (payload : List Byte) {s : State} (h : Keeps s₀ s) : Keeps s₀ (Ran.ok payload s).state := by
  unfold Ran.ok; apply Keeps.ofReply; exact h
theorem State.setTransport_keeps {s₀ : State} {s : State} (v : Via) (f : Transport → Transport)
    (hf : ∀ t, t.session.kept.length ≤ 16 → (f t).session.kept.length ≤ 16) (h : Keeps s₀ s) : Keeps s₀ (State.setTransport s v f) := by
  refine ⟨by cases v <;> exact h.queue, fun i => ?_⟩
  have j := h.inv i
  cases v
  · exact { j with keptPcie := hf _ j.keptPcie }
  · exact { j with keptInband := hf _ j.keptInband }
  · exact { j with keptSideband := hf _ j.keptSideband }
theorem State.setSession_keeps {s₀ : State} {s : State} (v : Via) (f : Session → Session)
    (hf : ∀ t, t.kept.length ≤ 16 → (f t).kept.length ≤ 16) (h : Keeps s₀ s) : Keeps s₀ (State.setSession s v f) :=
  State.setTransport_keeps v _ (fun t ht => hf t.session ht) h
theorem State.active_keeps {s₀ : State} {s : State} (x1 : Master) (h : Keeps s₀ s) : Keeps s₀ (State.active s x1) := by
  unfold State.active; split
  · exact h.same (by unfold State.view; rfl)
  · exact h.same (by unfold State.view; rfl)
theorem State.setOwner_keeps {s₀ : State} {s : State} (b : ℕ) (o : ℕ) (h : Keeps s₀ s) : Keeps s₀ (State.setOwner s b o) := by
  unfold State.setOwner; split
  · apply State.setf_keeps; exact h
  · apply State.setf_keeps; exact h
theorem State.replyPcie_keeps {s₀ : State} {s : State} (t : ReplyTo) (status : ℕ) (pkt : List Byte) (h : Keeps s₀ s) : Keeps s₀ (State.replyPcie s t status pkt) := by
  unfold State.replyPcie; split
  · extract_lets +onlyGivenNames z8; extract_lets +onlyGivenNames z9; extract_lets +onlyGivenNames z10
    have kz10 : Keeps s₀ z10 := by
      unfold z10; split
      · exact h
      · apply State.emit_keeps; exact h
    clear_value z10; revert z10; refine id ?_; intro z10 kz10; extract_lets +onlyGivenNames z12; apply State.msix_keeps
    apply State.setf_keeps; apply State.emit_keeps; exact kz10
  · exact h
theorem State.sbHold_keeps {s₀ : State} {s : State} (pkt : List Byte) (h : Keeps s₀ s) : Keeps s₀ (State.sbHold s pkt) := by
  unfold State.sbHold; extract_lets +onlyGivenNames z5; extract_lets +onlyGivenNames z6
  have kz6 : Keeps s₀ z6 := by
    unfold z6; exact h.same (by unfold State.view; rfl)
  clear_value z6; revert z6; refine id ?_; intro z6 kz6; split
  · apply State.emit_keeps; apply State.emit_keeps; exact kz6
  · apply State.emit_keeps; exact kz6
theorem State.replySb_keeps {s₀ : State} {s : State} (pkt : List Byte) (h : Keeps s₀ s) : Keeps s₀ (State.replySb s pkt) := by
  unfold State.replySb; split
  · exact h
  · split
    · apply State.sbHold_keeps; exact h
    · exact h.same (by unfold State.view; rfl)
theorem State.sbPromote_keeps {s₀ : State} {s : State} (n : Nat) (h : Keeps s₀ s) : Keeps s₀ (State.sbPromote n s) := by
  induction n generalizing s with
  | zero => exact h
  | succ n ih =>
    unfold State.sbPromote; split
    · exact h
    · split
      · exact ih (State.sbHold_keeps _ (h.same (by unfold State.view; rfl)))
      · exact h
theorem State.replyInband_keeps {s₀ : State} {s : State} (t : ReplyTo) (pkt : List Byte) (h : Keeps s₀ s) : Keeps s₀ (State.replyInband s t pkt) := by
  unfold State.replyInband; split
  · exact h
  · extract_lets +onlyGivenNames z7; apply State.deviceSend_keeps; exact h
theorem State.send_keeps {s₀ : State} {s : State} (t : ReplyTo) (status : ℕ) (pkt : List Byte) (h : Keeps s₀ s) : Keeps s₀ (State.send s t status pkt) := by
  unfold State.send; split
  · apply State.replyPcie_keeps; exact h
  · apply State.replyInband_keeps; exact h
  · apply State.replySb_keeps; exact h
theorem State.remember_keeps {s₀ : State} {s : State} (t : ReplyTo) (st : Status) (pkt : List Byte) (h : Keeps s₀ s) : Keeps s₀ (State.remember s t st pkt) := by
  unfold State.remember; apply State.setSession_keeps
  · intro a7 a8; exact List.length_take_le _ _
  · exact h
theorem State.deliver_keeps {s₀ : State} {s : State} (t : ReplyTo) (keep : Bool) (st : Status) (payload : List Byte) (h : Keeps s₀ s) : Keeps s₀ (State.deliver s t keep st payload) := by
  unfold State.deliver; extract_lets +onlyGivenNames z8; extract_lets +onlyGivenNames z9
  have kz9 : Keeps s₀ z9 := by
    unfold z9; split
    · apply State.remember_keeps; exact h
    · exact h
  clear_value z9; revert z9; refine id ?_; intro z9 kz9; apply State.send_keeps; exact kz9
theorem State.fail_keeps {s₀ : State} {s : State} (t : ReplyTo) (keep : Bool) (e : Err) (h : Keeps s₀ s) : Keeps s₀ (State.fail s t keep e) := by
  unfold State.fail; extract_lets +onlyGivenNames z7; apply State.deliver_keeps; exact h
theorem State.authFail_keeps {s₀ : State} {s : State} (v : Via) (h : Keeps s₀ s) : Keeps s₀ (State.authFail s v) := by
  unfold State.authFail; extract_lets +onlyGivenNames z5
  have kz5 : Keeps s₀ z5 := by
    unfold z5; apply State.count_keeps; exact h
  clear_value z5; revert z5; refine id ?_; intro z5 kz5; extract_lets +onlyGivenNames z7; extract_lets +onlyGivenNames z8
  extract_lets +onlyGivenNames z9; extract_lets +onlyGivenNames z10; extract_lets +onlyGivenNames z11
  have kz11 : Keeps s₀ z11 := by
    unfold z11; apply State.setTransport_keeps
    · intro a12 a13; exact a13
    · exact kz5
  clear_value z11; revert z11; refine id ?_; intro z11 kz11; split
  · apply State.raise_keeps; exact kz11
  · exact kz11
theorem State.answerQueued_keeps {s₀ : State} {s : State} (es : List ℕ) (h : Keeps s₀ s) : Keeps s₀ (State.answerQueued s es) := by
  unfold State.answerQueued; extract_lets +onlyGivenNames z5; extract_lets +onlyGivenNames z6; extract_lets +onlyGivenNames z7
  have kz7 : Keeps s₀ z7 := by
    unfold z7; exact h.same (by unfold State.view; rfl)
  clear_value z7; revert z7; refine id ?_; intro z7 kz7; apply State.forEach_keeps
  · intro a9 a10 t11 h12; apply State.fail_keeps; exact h12
  · exact kz7
theorem State.putOff_keeps {s₀ : State} {s : State} (t : ReplyTo) (job : Job) (h : Keeps s₀ s) : Keeps s₀ (State.putOff s t job) := by
  unfold State.putOff; exact h.same (by unfold State.view; rfl)
theorem Cmd.execute_keeps {s₀ : State} (c : Cmd) (hc : CmdKeeps c) (m : Mailbox) (x : Ctx) {s : State} (h : Keeps s₀ s) : Keeps s₀ (Cmd.execute c m x s) := by
  unfold Cmd.execute; split
  · exact State.fail_keeps _ _ _ (hc.refused _ _ _ _ h)
  · have hr := hc.run s₀ x s h
    split
    · split
      · rename_i hx; rw [hx] at hr; exact hc.after _ _ _ (State.deliver_keeps _ _ _ _ hr)
      · rename_i hx; rw [hx] at hr; exact State.putOff_keeps _ _ hr
      · rename_i hx; rw [hx] at hr; exact State.fail_keeps _ _ _ hr
    · extract_lets e t u
      have kt : Keeps s₀ t := by
        unfold t; split
        · split
          · rename_i hx; rw [hx] at hr; exact hc.after _ _ _ hr
          · rename_i hx; rw [hx] at hr; exact hr
          · exact h
        · exact h
      exact State.refresh_keeps (State.answerQueued_keeps _ (State.setEngine_keeps _ _ (State.deviceFault_keeps (State.fail_keeps _ _ _ kt))))
theorem State.endChain_keeps {s₀ : State} {s : State} (v : Via) (e : Err) (h : Keeps s₀ s) : Keeps s₀ (State.endChain s v e) := by
  unfold State.endChain; split
  · exact h
  · apply State.fail_keeps; apply State.setSession_keeps
    · intro a11 a12; exact a12
    · exact h
theorem Cmd.finish_keeps {s₀ : State} (c : Cmd) (hc : CmdKeeps c) (m : Mailbox) (t : ReplyTo) (body : List Byte) {s : State} (h : Keeps s₀ s) :
    Keeps s₀ (Cmd.finish c m t body s) := by
  unfold Cmd.finish; split
  · split
    · exact Cmd.execute_keeps c hc _ _ h
    · extract_lets u
      have ku : Keeps s₀ u := State.setSession_keeps _ _ (fun _ ht => ht) h
      split
      · exact State.fail_keeps _ _ _ ku
      split
      · exact State.fail_keeps _ _ _ ku
      · exact Cmd.execute_keeps c hc _ _ ku
  · exact Cmd.execute_keeps c hc _ _ h
theorem Cmd.inner_keeps {s₀ : State} (t : ReplyTo) (body : List Byte) {s : State} (h : Keeps s₀ s) : Keeps s₀ (Cmd.inner t body s) := by
  unfold Cmd.inner; extract_lets +onlyGivenNames z6; extract_lets +onlyGivenNames z7; apply State.setSession_keeps
  · intro a8 a9; exact a9
  · exact h
theorem afterAccept_keeps {s₀ : State} (find : List Byte → Option Cmd) (hf : ∀ l c, find l = some c → CmdKeeps c) (m : Mailbox) (t : ReplyTo)
    (body : List Byte) {s : State} (h : Keeps s₀ s) : Keeps s₀ (afterAccept find m t body s) := by
  unfold afterAccept; extract_lets c u
  have ku : Keeps s₀ u := by
    unfold u; split
    · exact State.endChain_keeps _ _ h
    · exact h
  clear_value u; revert u; refine id ?_; intro u ku
  have hcd : ∀ d, c = some d → CmdKeeps d := fun d hd => hf _ _ hd
  clear_value c; split
  · exact State.fail_keeps _ _ _ ku
  · rename_i d
    have hc : CmdKeeps d := hcd d rfl
    split
    · exact State.fail_keeps _ _ _ ku
    split
    · split
      · exact State.fail_keeps _ _ _ ku
      · exact Cmd.inner_keeps _ _ ku
    · exact Cmd.finish_keeps d hc _ _ _ ku
theorem State.accept_keeps {s₀ : State} {s : State} (op : ℕ) (q : Request) (h : Keeps s₀ s) : Keeps s₀ (State.accept s op q).1 := by
  unfold State.accept; extract_lets +onlyGivenNames z6; split
  · dsimp -zeta -zetaHave only; apply State.deliver_keeps; exact h
  · split
    · dsimp -zeta -zetaHave only; apply State.fail_keeps; exact h
    · split
      · dsimp -zeta -zetaHave only; apply State.fail_keeps; exact h
      · split
        · dsimp -zeta -zetaHave only; apply State.fail_keeps; apply State.authFail_keeps; exact h
        · extract_lets +onlyGivenNames z15; extract_lets +onlyGivenNames z16; split
          · dsimp -zeta -zetaHave only; apply State.send_keeps; apply State.active_keeps; apply State.setTransport_keeps
            · intro a22 a23; exact a23
            · exact h
          · split
            · dsimp -zeta -zetaHave only; split
              · apply State.fail_keeps; apply State.authFail_keeps; exact h
              · apply State.fail_keeps; exact h
            · extract_lets +onlyGivenNames z22
              have kz22 : Keeps s₀ z22 := by
                unfold z22; apply State.setTransport_keeps
                · intro a23 a24; exact a24
                · exact h
              clear_value z22; revert z22; refine id ?_; intro z22 kz22; dsimp -zeta -zetaHave only; apply State.active_keeps
              exact kz22
theorem serve_keeps {s₀ : State} (find : List Byte → Option Cmd) (hf : ∀ l c, find l = some c → CmdKeeps c) (m : Mailbox) (op : Nat)
    (q : Request) {s : State} (h : Keeps s₀ s) : Keeps s₀ (serve find m op q s) := by
  unfold serve; extract_lets a
  have ka : Keeps s₀ a.1 := State.accept_keeps op q h
  clear_value a; revert a; refine id ?_; intro a ka; split
  · exact ka
  · exact afterAccept_keeps find hf _ _ _ ka
theorem runCmd_keeps {s₀ : State} (c : Cmd) (hc : CmdKeeps c) (q : Request) {s : State} (h : Keeps s₀ s) : Keeps s₀ (runCmd c q s) := by
  unfold runCmd; extract_lets t
  have kt : Keeps s₀ t := State.fresh_keeps h
  clear_value t; revert t; refine id ?_; intro t kt; split
  · exact serve_keeps _ (fun _ d hd => by obtain rfl := Option.some.inj hd; exact hc) _ _ _ kt
  · exact kt

end Sys2Proof.Machine
end

