-- ==== Sys2Proof/Laws/KeepsCommands.lean ====
section
/-! SUPPORT. What lanes, tables and the first commands keep: one lemma for each operation, in the words of Laws.Keeps. -/
namespace Sys2Proof.Machine

theorem State.setRx_keeps {s₀ : State} {s : State} (l : Lane) (v : ℕ) (h : Keeps s₀ s) : Keeps s₀ (State.setRx s l v) := by
  unfold State.setRx; apply State.setf_keeps; exact h
theorem State.setTx_keeps {s₀ : State} {s : State} (l : Lane) (v : ℕ) (h : Keeps s₀ s) : Keeps s₀ (State.setTx s l v) := by
  unfold State.setTx; apply State.setf_keeps; exact h
theorem State.setLaneReady_keeps {s₀ : State} {s : State} (l : Lane) (b : Bool) (h : Keeps s₀ s) : Keeps s₀ (State.setLaneReady s l b) := by
  unfold State.setLaneReady; split
  · apply State.setf_keeps; exact h
  · apply State.setf_keeps; exact h
theorem State.linkSet_keeps {s₀ : State} {s : State} (p : ℕ) (new : ℕ) (cause : ℕ) (delay : ℕ) (h : Keeps s₀ s) : Keeps s₀ (State.linkSet s p new cause delay) := by
  unfold State.linkSet; extract_lets +onlyGivenNames z8; split
  · exact h
  · extract_lets +onlyGivenNames z10
    have kz10 : Keeps s₀ z10 := by
      unfold z10; apply State.setf_keeps; exact h
    clear_value z10; revert z10; refine id ?_; intro z10 kz10; extract_lets +onlyGivenNames z12
    have kz12 : Keeps s₀ z12 := by
      unfold z12; split
      · apply State.count_keeps; exact kz10
      · exact kz10
    clear_value z12; revert z12; refine id ?_; intro z12 kz12; extract_lets +onlyGivenNames z14
    have kz14 : Keeps s₀ z14 := by
      unfold z14; split
      · apply State.count_keeps; exact kz12
      · exact kz12
    clear_value z14; revert z14; refine id ?_; intro z14 kz14; extract_lets +onlyGivenNames z16
    have kz16 : Keeps s₀ z16 := by
      unfold z16; split
      · apply State.count_keeps; exact kz14
      · exact kz14
    clear_value z16; revert z16; refine id ?_; intro z16 kz16; extract_lets +onlyGivenNames z18
    have kz18 : Keeps s₀ z18 := by
      unfold z18; split
      · apply State.setf_keeps; apply State.setf_keeps; exact kz16
      · exact kz16
    clear_value z18; revert z18; refine id ?_; intro z18 kz18; apply State.raise_keeps; exact kz18
theorem State.linkInvalid_keeps {s₀ : State} {s : State} (p : ℕ) (cause : ℕ) (h : Keeps s₀ s) : Keeps s₀ (State.linkInvalid s p cause) := by
  unfold State.linkInvalid; apply State.linkSet_keeps; apply State.setf_keeps; exact h
theorem State.linkFix_keeps {s₀ : State} {s : State} (p : ℕ) (h : Keeps s₀ s) : Keeps s₀ (State.linkFix s p) := by
  unfold State.linkFix; extract_lets +onlyGivenNames z5; apply State.set_keeps; apply State.set_keeps; exact h
theorem State.linkRxDelay_keeps {s₀ : State} {s : State} (p : ℕ) (h : Keeps s₀ s) : Keeps s₀ (State.linkRxDelay s p) := by
  unfold State.linkRxDelay; split
  · exact h
  · extract_lets +onlyGivenNames z10
    have kz10 : Keeps s₀ z10 := by
      unfold z10; apply State.linkFix_keeps; exact h
    clear_value z10; revert z10; refine id ?_; intro z10 kz10; apply State.set_keeps; exact kz10
theorem State.linkTxDelay_keeps {s₀ : State} {s : State} (p : ℕ) (h : Keeps s₀ s) : Keeps s₀ (State.linkTxDelay s p) := by
  unfold State.linkTxDelay; split
  · exact h
  · extract_lets +onlyGivenNames z10
    have kz10 : Keeps s₀ z10 := by
      unfold z10; apply State.linkFix_keeps; exact h
    clear_value z10; revert z10; refine id ?_; intro z10 kz10; apply State.set_keeps; exact kz10
theorem State.linkProgress_keeps {s₀ : State} {s : State} (p : ℕ) (cause : ℕ) (h : Keeps s₀ s) : Keeps s₀ (State.linkProgress s p cause) := by
  unfold State.linkProgress; extract_lets +onlyGivenNames z6; split
  · extract_lets +onlyGivenNames z8; extract_lets +onlyGivenNames z9
    have kz9 : Keeps s₀ z9 := by
      unfold z9; apply State.setf_keeps; exact h
    clear_value z9; revert z9; refine id ?_; intro z9 kz9; extract_lets +onlyGivenNames z11
    have kz11 : Keeps s₀ z11 := by
      unfold z11; apply State.setf_keeps; exact kz9
    clear_value z11; revert z11; refine id ?_; intro z11 kz11; apply State.linkSet_keeps; apply State.setf_keeps; exact kz11
  · exact h
theorem State.portRefresh_keeps {s₀ : State} {s : State} (p : ℕ) (h : Keeps s₀ s) : Keeps s₀ (State.portRefresh s p) := by
  unfold State.portRefresh; extract_lets +onlyGivenNames z5; split
  · exact h
  · extract_lets +onlyGivenNames z7
    have kz7 : Keeps s₀ z7 := by
      unfold z7; apply State.setPortReady_keeps; exact h
    clear_value z7; revert z7; refine id ?_; intro z7 kz7; split
    · extract_lets +onlyGivenNames z10
      have kz10 : Keeps s₀ z10 := by
        unfold z10; apply State.setf_keeps; exact kz7
      clear_value z10; revert z10; refine id ?_; intro z10 kz10; split
      · apply State.linkProgress_keeps; exact kz10
      · apply State.linkInvalid_keeps; exact kz10
    · exact kz7
theorem State.portRecheck_keeps {s₀ : State} {s : State} (p : ℕ) (h : Keeps s₀ s) : Keeps s₀ (State.portRecheck s p) := by
  unfold State.portRecheck; extract_lets +onlyGivenNames z5
  have kz5 : Keeps s₀ z5 := by
    unfold z5; apply State.portRefresh_keeps; exact h
  clear_value z5; revert z5; refine id ?_; intro z5 kz5; split
  · exact kz5
  · apply State.dropPort_keeps; exact kz5
theorem State.laneUncal_keeps {s₀ : State} {s : State} (l : Lane) (code : ℕ) (h : Keeps s₀ s) : Keeps s₀ (State.laneUncal s l code) := by
  unfold State.laneUncal; extract_lets +onlyGivenNames z6; extract_lets +onlyGivenNames z7; extract_lets +onlyGivenNames z8
  extract_lets +onlyGivenNames z9; extract_lets +onlyGivenNames z10; extract_lets +onlyGivenNames z11
  have kz11 : Keeps s₀ z11 := by
    unfold z11; apply State.setf_keeps; exact h
  clear_value z11; revert z11; refine id ?_; intro z11 kz11; extract_lets +onlyGivenNames z13; extract_lets +onlyGivenNames z14
  extract_lets +onlyGivenNames z15
  have kz15 : Keeps s₀ z15 := by
    unfold z15; exact kz11.same (by unfold State.view; rfl)
  clear_value z15; revert z15; refine id ?_; intro z15 kz15; extract_lets +onlyGivenNames z17
  have kz17 : Keeps s₀ z17 := by
    unfold z17; split
    · apply State.set_keeps; apply State.set_keeps; exact kz15
    · exact kz15
  clear_value z17; revert z17; refine id ?_; intro z17 kz17; extract_lets +onlyGivenNames z19
  have kz19 : Keeps s₀ z19 := by
    unfold z19; split
    · exact kz17
    · apply State.raise_keeps; exact kz17
  clear_value z19; revert z19; refine id ?_; intro z19 kz19; split
  · exact kz19
  · apply State.raise_keeps; exact kz19
theorem State.marginEnd_keeps {s₀ : State} {s : State} (l : Lane) (status : ℕ) (h : Keeps s₀ s) : Keeps s₀ (State.marginEnd s l status) := by
  unfold State.marginEnd; extract_lets +onlyGivenNames z6
  have kz6 : Keeps s₀ z6 := by
    unfold z6; apply State.setf_keeps; apply State.setf_keeps; exact h
  clear_value z6; revert z6; refine id ?_; intro z6 kz6; apply State.raise_keeps; exact kz6
theorem State.marginAbort_keeps {s₀ : State} {s : State} (l : Lane) (h : Keeps s₀ s) : Keeps s₀ (State.marginAbort s l) := by
  unfold State.marginAbort; split
  · apply State.marginEnd_keeps; exact h
  · exact h
theorem State.laneLose_keeps {s₀ : State} {s : State} (l : Lane) (cause : ℕ) (next : ℕ) (h : Keeps s₀ s) : Keeps s₀ (State.laneLose s l cause next) := by
  unfold State.laneLose; split
  · extract_lets +onlyGivenNames z8; extract_lets +onlyGivenNames z9
    have kz9 : Keeps s₀ z9 := by
      unfold z9; apply State.setf_keeps; apply State.count_keeps; apply State.setRx_keeps; exact h
    clear_value z9; revert z9; refine id ?_; intro z9 kz9; extract_lets +onlyGivenNames z11
    have kz11 : Keeps s₀ z11 := by
      unfold z11; apply State.marginAbort_keeps; apply State.setLaneReady_keeps; apply State.set_keeps; apply State.set_keeps
      exact kz9
    clear_value z11; revert z11; refine id ?_; intro z11 kz11; extract_lets +onlyGivenNames z13
    have kz13 : Keeps s₀ z13 := by
      unfold z13; apply State.setf_keeps; exact kz11
    clear_value z13; revert z13; refine id ?_; intro z13 kz13; apply State.raise_keeps; exact kz13
  · apply State.setRx_keeps; exact h
theorem State.unsettle_keeps {s₀ : State} {s : State} (l : Lane) (tx : Bool) (h : Keeps s₀ s) : Keeps s₀ (State.unsettle s l tx) := by
  unfold State.unsettle; extract_lets +onlyGivenNames z6
  have kz6 : Keeps s₀ z6 := by
    unfold z6; apply State.setf_keeps; exact h
  clear_value z6; revert z6; refine id ?_; intro z6 kz6; exact kz6.same (by unfold State.view; rfl)
theorem State.laneReport_keeps {s₀ : State} {s : State} (l : Lane) (single : Bool) (x : LaneReport) (h : Keeps s₀ s) : Keeps s₀ (State.laneReport s l single x) := by
  unfold State.laneReport; extract_lets +onlyGivenNames z7; extract_lets +onlyGivenNames z8; extract_lets +onlyGivenNames z9
  apply State.unsettle_keeps; apply State.setRx_keeps; apply State.set_keeps; apply State.set_keeps; exact h
theorem State.laneLockEvent_keeps {s₀ : State} {s : State} (l : Lane) (h : Keeps s₀ s) : Keeps s₀ (State.laneLockEvent s l) := by
  unfold State.laneLockEvent; apply State.raise_keeps; exact h
theorem State.txStart_keeps {s₀ : State} {s : State} (l : Lane) (h : Keeps s₀ s) : Keeps s₀ (State.txStart s l) := by
  unfold State.txStart; split
  · exact h
  · split
    · exact h
    · extract_lets +onlyGivenNames z15; extract_lets +onlyGivenNames z16; extract_lets +onlyGivenNames z17
      have kz17 : Keeps s₀ z17 := by
        unfold z17; apply State.unsettle_keeps; apply State.setTx_keeps; apply State.set_keeps; apply State.draw_keeps; exact h
      clear_value z17; revert z17; refine id ?_; intro z17 kz17; extract_lets +onlyGivenNames z19
      have kz19 : Keeps s₀ z19 := by
        unfold z19; exact kz17.same (by unfold State.view; rfl)
      clear_value z19; revert z19; refine id ?_; intro z19 kz19; extract_lets +onlyGivenNames z21
      have kz21 : Keeps s₀ z21 := by
        unfold z21; apply State.linkInvalid_keeps; exact kz19
      clear_value z21; revert z21; refine id ?_; intro z21 kz21; extract_lets +onlyGivenNames z23
      have kz23 : Keeps s₀ z23 := by
        unfold z23; split
        · apply State.linkTxDelay_keeps; exact kz21
        · exact kz21
      clear_value z23; revert z23; refine id ?_; intro z23 kz23; apply State.linkProgress_keeps; apply State.raise_keeps
      exact kz23
theorem execLaneSignalDetect_keeps {s₀ : State} (lane : Lane) {s : State} (h : Keeps s₀ s) : NextKeeps s₀ (execLaneSignalDetect lane s) := by
  unfold execLaneSignalDetect; extract_lets +onlyGivenNames z5
  have kz5 : Keeps s₀ z5 := by
    unfold z5; apply State.fresh_keeps; exact h
  clear_value z5; revert z5; refine id ?_; intro z5 kz5; apply NextKeeps.next; split
  · split
    · apply State.setf_keeps; apply State.setRx_keeps; exact kz5
    · apply State.setf_keeps; exact kz5
  · exact kz5
theorem execLaneClockStable_keeps {s₀ : State} (lane : Lane) (found : ℕ) {s : State} (h : Keeps s₀ s) : NextKeeps s₀ (execLaneClockStable lane found s) := by
  unfold execLaneClockStable; extract_lets +onlyGivenNames z6
  have kz6 : Keeps s₀ z6 := by
    unfold z6; apply State.fresh_keeps; exact h
  clear_value z6; revert z6; refine id ?_; intro z6 kz6; apply NextKeeps.next; split
  · split
    · extract_lets +onlyGivenNames z10; apply State.setf_keeps; apply State.setRx_keeps; exact kz6
    · exact kz6
  · exact kz6
theorem State.ctleLocked_keeps {s₀ : State} {s : State} (l : Lane) (h : Keeps s₀ s) : Keeps s₀ (State.ctleLocked s l) := by
  unfold State.ctleLocked; extract_lets +onlyGivenNames z5
  have kz5 : Keeps s₀ z5 := by
    unfold z5; split
    · apply State.setf_keeps; exact h
    · exact h
  clear_value z5; revert z5; refine id ?_; intro z5 kz5; apply State.setf_keeps; exact kz5
theorem State.advertise_keeps {s₀ : State} {s : State} (p : ℕ) (h : Keeps s₀ s) : Keeps s₀ (State.advertise s p) := by
  unfold State.advertise; split
  · apply State.emit_keeps; exact h
  · exact h
theorem execLaneLock_keeps {s₀ : State} (p : ℕ) (reports : List LaneReport) {s : State} (h : Keeps s₀ s) : NextKeeps s₀ (execLaneLock p reports s) := by
  unfold execLaneLock; extract_lets +onlyGivenNames z6
  have kz6 : Keeps s₀ z6 := by
    unfold z6; apply State.fresh_keeps; exact h
  clear_value z6; revert z6; refine id ?_; intro z6 kz6; extract_lets +onlyGivenNames z8; apply NextKeeps.atUnit
  · exact kz6
  · extract_lets +onlyGivenNames z9; extract_lets +onlyGivenNames z10; split
    · extract_lets +onlyGivenNames z12
      have kz12 : Keeps s₀ z12 := by
        unfold z12; apply State.forEach_keeps
        · intro a13 a14 t15 h16; apply State.laneReport_keeps; exact h16
        · exact kz6
      clear_value z12; revert z12; refine id ?_; intro z12 kz12; extract_lets +onlyGivenNames z14
      have kz14 : Keeps s₀ z14 := by
        unfold z14; apply State.forEach_keeps
        · intro a15 a16 t17 h18; apply State.ctleLocked_keeps; apply State.setLaneReady_keeps; exact h18
        · exact kz12
      clear_value z14; revert z14; refine id ?_; intro z14 kz14; extract_lets +onlyGivenNames z16
      have kz16 : Keeps s₀ z16 := by
        unfold z16; apply State.linkRxDelay_keeps; apply State.linkInvalid_keeps; exact kz14
      clear_value z16; revert z16; refine id ?_; intro z16 kz16; extract_lets +onlyGivenNames z18
      have kz18 : Keeps s₀ z18 := by
        unfold z18; apply State.forEach_keeps
        · intro a19 a20 t21 h22; apply State.laneLockEvent_keeps; exact h22
        · exact kz16
      clear_value z18; revert z18; refine id ?_; intro z18 kz18; apply State.portRefresh_keeps; apply State.advertise_keeps
      apply State.linkProgress_keeps; exact kz18
    · exact kz6
theorem State.lockLost_keeps {s₀ : State} {s : State} (l : Lane) (cause : ℕ) (next : ℕ) (h : Keeps s₀ s) : Keeps s₀ (State.lockLost s l cause next) := by
  unfold State.lockLost; split
  · apply State.laneLose_keeps; exact h
  · extract_lets +onlyGivenNames z12
    have kz12 : Keeps s₀ z12 := by
      unfold z12; apply State.forEach_keeps
      · intro a13 a14 t15 h16; split
        · apply State.laneLose_keeps; exact h16
        · apply State.laneLose_keeps; exact h16
      · exact h
    clear_value z12; revert z12; refine id ?_; intro z12 kz12; extract_lets +onlyGivenNames z14
    extract_lets +onlyGivenNames z15
    have kz15 : Keeps s₀ z15 := by
      unfold z15; exact kz12.same (by unfold State.view; rfl)
    clear_value z15; revert z15; refine id ?_; intro z15 kz15; apply State.portRecheck_keeps; apply State.linkInvalid_keeps
    exact kz15
theorem State.wakeFailed_keeps {s₀ : State} {s : State} (l : Lane) (h : Keeps s₀ s) : Keeps s₀ (State.wakeFailed s l) := by
  unfold State.wakeFailed; extract_lets +onlyGivenNames z5
  have kz5 : Keeps s₀ z5 := by
    unfold z5; apply State.setLaneReady_keeps; apply State.setRx_keeps; exact h
  clear_value z5; revert z5; refine id ?_; intro z5 kz5; split
  · apply State.portRecheck_keeps; exact kz5
  · exact kz5
theorem execLaneLockLost_keeps {s₀ : State} (lane : Lane) (cause : LockLoss) {s : State} (h : Keeps s₀ s) : NextKeeps s₀ (execLaneLockLost lane cause s) := by
  unfold execLaneLockLost; extract_lets +onlyGivenNames z6
  have kz6 : Keeps s₀ z6 := by
    unfold z6; apply State.fresh_keeps; exact h
  clear_value z6; revert z6; refine id ?_; intro z6 kz6; apply NextKeeps.next; split
  · split
    · split
      · apply State.lockLost_keeps; apply State.setf_keeps; exact kz6
      · apply State.lockLost_keeps; exact kz6
      · apply State.lockLost_keeps; exact kz6
    · split
      · apply State.wakeFailed_keeps; exact kz6
      · exact kz6
  · exact kz6
theorem execDeskewRetry_keeps {s₀ : State} (p : ℕ) {s : State} (h : Keeps s₀ s) : NextKeeps s₀ (execDeskewRetry p s) := by
  unfold execDeskewRetry; extract_lets +onlyGivenNames z5
  have kz5 : Keeps s₀ z5 := by
    unfold z5; apply State.fresh_keeps; exact h
  clear_value z5; revert z5; refine id ?_; intro z5 kz5; apply NextKeeps.atUnit
  · exact kz5
  · split
    · apply State.count_keeps; exact kz5
    · exact kz5
theorem execLaneReceiveSleep_keeps {s₀ : State} (p : ℕ) {s : State} (h : Keeps s₀ s) : NextKeeps s₀ (execLaneReceiveSleep p s) := by
  unfold execLaneReceiveSleep; extract_lets +onlyGivenNames z5
  have kz5 : Keeps s₀ z5 := by
    unfold z5; apply State.fresh_keeps; exact h
  clear_value z5; revert z5; refine id ?_; intro z5 kz5; extract_lets +onlyGivenNames z7; apply NextKeeps.atUnit
  · exact kz5
  · split
    · split
      · extract_lets +onlyGivenNames z10
        have kz10 : Keeps s₀ z10 := by
          unfold z10; apply State.setSide_keeps; apply State.setf_keeps; apply State.marginAbort_keeps; apply State.setRx_keeps
          exact kz5
        clear_value z10; revert z10; refine id ?_; intro z10 kz10; apply State.stat_keeps; apply State.set_keeps
        apply State.set_keeps; exact kz10
      · apply State.lockLost_keeps; apply State.setf_keeps; exact kz5
    · exact kz5
theorem State.rxWake_keeps {s₀ : State} {s : State} (p : ℕ) (h : Keeps s₀ s) : Keeps s₀ (State.rxWake s p) := by
  unfold State.rxWake; extract_lets +onlyGivenNames z5; split
  · extract_lets +onlyGivenNames z7
    have kz7 : Keeps s₀ z7 := by
      unfold z7; apply State.setf_keeps; apply State.count_keeps; apply State.setRx_keeps; exact h
    clear_value z7; revert z7; refine id ?_; intro z7 kz7; exact kz7.same (by unfold State.view; rfl)
  · exact h
theorem execLaneWake_keeps {s₀ : State} (p : ℕ) {s : State} (h : Keeps s₀ s) : NextKeeps s₀ (execLaneWake p s) := by
  unfold execLaneWake; extract_lets +onlyGivenNames z5
  have kz5 : Keeps s₀ z5 := by
    unfold z5; apply State.fresh_keeps; exact h
  clear_value z5; revert z5; refine id ?_; intro z5 kz5; apply NextKeeps.atUnit
  · exact kz5
  · apply State.rxWake_keeps; exact kz5
theorem execCtleAdaptStep_keeps {s₀ : State} (lane : Lane) (up : Bool) {s : State} (h : Keeps s₀ s) : NextKeeps s₀ (execCtleAdaptStep lane up s) := by
  unfold execCtleAdaptStep; extract_lets +onlyGivenNames z6
  have kz6 : Keeps s₀ z6 := by
    unfold z6; apply State.fresh_keeps; exact h
  clear_value z6; revert z6; refine id ?_; intro z6 kz6; apply NextKeeps.next; split
  · split
    · extract_lets +onlyGivenNames z10; extract_lets +onlyGivenNames z11; apply State.setf_keeps; exact kz6
    · exact kz6
  · exact kz6
theorem execEyeRefresh_keeps {s₀ : State} (lane : Lane) (heights : List ℕ) (widths : List ℕ) (snr : ℕ) {s : State} (h : Keeps s₀ s) : NextKeeps s₀ (execEyeRefresh lane heights widths snr s) := by
  unfold execEyeRefresh; extract_lets +onlyGivenNames z8
  have kz8 : Keeps s₀ z8 := by
    unfold z8; apply State.fresh_keeps; exact h
  clear_value z8; revert z8; refine id ?_; intro z8 kz8; apply NextKeeps.next; split
  · split
    · extract_lets +onlyGivenNames z12; extract_lets +onlyGivenNames z13; extract_lets +onlyGivenNames z14
      extract_lets +onlyGivenNames z15; apply State.set_keeps; apply State.set_keeps; exact kz8
    · apply State.set_keeps; apply State.set_keeps; exact kz8
  · exact kz8
theorem State.marginStart_keeps {s₀ : State} {s : State} (l : Lane) (h : Keeps s₀ s) : Keeps s₀ (State.marginStart s l) := by
  unfold State.marginStart; split
  · exact h
  · split
    · apply State.setf_keeps; apply State.setf_keeps; apply State.set_keeps; exact h
    · apply State.marginEnd_keeps; apply State.set_keeps; exact h
theorem execMarginDone_keeps {s₀ : State} (lane : Lane) (margins : List ℕ) {s : State} (h : Keeps s₀ s) : NextKeeps s₀ (execMarginDone lane margins s) := by
  unfold execMarginDone; extract_lets +onlyGivenNames z6
  have kz6 : Keeps s₀ z6 := by
    unfold z6; apply State.fresh_keeps; exact h
  clear_value z6; revert z6; refine id ?_; intro z6 kz6; extract_lets +onlyGivenNames z8; apply NextKeeps.next; split
  · split
    · extract_lets +onlyGivenNames z11
      have kz11 : Keeps s₀ z11 := by
        unfold z11; split
        · apply State.marginStart_keeps; exact kz6
        · exact kz6
      clear_value z11; revert z11; refine id ?_; intro z11 kz11; extract_lets +onlyGivenNames z13
      extract_lets +onlyGivenNames z14
      have kz14 : Keeps s₀ z14 := by
        unfold z14; apply State.setf_keeps; exact kz11
      clear_value z14; revert z14; refine id ?_; intro z14 kz14; extract_lets +onlyGivenNames z16
      have kz16 : Keeps s₀ z16 := by
        unfold z16; apply State.marginEnd_keeps; exact kz14
      clear_value z16; revert z16; refine id ?_; intro z16 kz16; split
      · apply State.tested_keeps; exact kz16
      · exact kz16
    · exact kz6
  · exact kz6
theorem State.ctleWritten_keeps {s₀ : State} {s : State} (l : Lane) (h : Keeps s₀ s) : Keeps s₀ (State.ctleWritten s l) := by
  unfold State.ctleWritten; split
  · exact h
  · extract_lets +onlyGivenNames z6
    have kz6 : Keeps s₀ z6 := by
      unfold z6; split
      · apply State.setf_keeps; exact h
      · exact h
    clear_value z6; revert z6; refine id ?_; intro z6 kz6; apply State.setf_keeps; exact kz6
theorem State.txeqWritten_keeps {s₀ : State} {s : State} (l : Lane) (h : Keeps s₀ s) : Keeps s₀ (State.txeqWritten s l) := by
  unfold State.txeqWritten; split
  · exact h
  · exact h.same (by unfold State.view; rfl)
theorem State.restartRx_keeps {s₀ : State} {s : State} (l : Lane) (h : Keeps s₀ s) : Keeps s₀ (State.restartRx s l) := by
  unfold State.restartRx; split
  · apply State.lockLost_keeps; exact h
  · split
    · apply State.setRx_keeps; exact h
    · exact h
theorem State.rcvyReset_keeps {s₀ : State} {s : State} (r : ℕ) (h : Keeps s₀ s) : Keeps s₀ (State.rcvyReset s r) := by
  unfold State.rcvyReset; extract_lets +onlyGivenNames z5
  have kz5 : Keeps s₀ z5 := by
    unfold z5; apply State.setf_keeps; exact h
  clear_value z5; revert z5; refine id ?_; intro z5 kz5; exact kz5.same (by unfold State.view; rfl)
theorem State.rcvyNew_keeps {s₀ : State} {s : State} (r : ℕ) (h : Keeps s₀ s) : Keeps s₀ (State.rcvyNew s r) := by
  unfold State.rcvyNew; extract_lets +onlyGivenNames z5
  have kz5 : Keeps s₀ z5 := by
    unfold z5; apply State.forEach_keeps
    · intro a6 a7 t8 h9; apply State.set_keeps; exact h9
    · exact h
  clear_value z5; revert z5; refine id ?_; intro z5 kz5; extract_lets +onlyGivenNames z7; extract_lets +onlyGivenNames z8
  have kz8 : Keeps s₀ z8 := by
    unfold z8; exact kz5.same (by unfold State.view; rfl)
  clear_value z8; revert z8; refine id ?_; intro z8 kz8; apply State.rcvyReset_keeps; exact kz8
theorem State.rcvyCarry_keeps {s₀ : State} {s : State} (r : ℕ) (a : List Byte) (b : List Byte) (h : Keeps s₀ s) : Keeps s₀ (State.rcvyCarry s r a b) := by
  unfold State.rcvyCarry; extract_lets +onlyGivenNames z7; extract_lets +onlyGivenNames z8
  have kz8 : Keeps s₀ z8 := by
    unfold z8; apply State.setf_keeps; exact h
  clear_value z8; revert z8; refine id ?_; intro z8 kz8; extract_lets +onlyGivenNames z10; apply State.forEach_keeps
  · intro a11 a12 t13 h14; extract_lets +onlyGivenNames z15
    have kz15 : Keeps s₀ z15 := by
      unfold z15; apply State.setf_keeps; exact h14
    clear_value z15; revert z15; refine id ?_; intro z15 kz15; exact kz15.same (by unfold State.view; rfl)
  · exact kz8
theorem State.applied_keeps {s₀ : State} {s : State} (old : Tables) (x : Staged) (h : Keeps s₀ s) : Keeps s₀ (State.applied s old x) := by
  unfold State.applied; extract_lets +onlyGivenNames z6; extract_lets +onlyGivenNames z7; split
  · extract_lets +onlyGivenNames z16
    have kz16 : Keeps s₀ z16 := by
      unfold z16; apply State.setf_keeps; exact h
    clear_value z16; revert z16; refine id ?_; intro z16 kz16; clear_value z7; split
    · exact kz16.same (by unfold State.view; rfl)
    · extract_lets +onlyGivenNames z15; extract_lets +onlyGivenNames z16; extract_lets +onlyGivenNames z17
      exact kz16.same (by unfold State.view; rfl)
  · extract_lets +onlyGivenNames z16; split
    · apply State.set_keeps; exact h
    · exact h
  · clear_value z6; clear_value z7; split
    · apply State.rcvyNew_keeps; exact h
    · extract_lets +onlyGivenNames z16
      have kz16 : Keeps s₀ z16 := by
        unfold z16; apply State.rcvyCarry_keeps; exact h
      clear_value z16; revert z16; refine id ?_; intro z16 kz16; split
      · exact kz16
      · apply State.rcvyReset_keeps; exact kz16
    · exact h
  · clear_value z7; split
    · apply State.mirrorMode_keeps; exact h
    · apply State.mirrorMode_keeps; exact h
  · exact h
theorem State.displace_keeps {s₀ : State} {s : State} (l : List Staged) (h : Keeps s₀ s) : Keeps s₀ (State.displace s l) := by
  unfold State.displace; extract_lets +onlyGivenNames z5; apply State.forEach_keeps
  · intro a6 a7 t8 h9; extract_lets +onlyGivenNames z10; extract_lets +onlyGivenNames z11; extract_lets +onlyGivenNames z12
    extract_lets +onlyGivenNames z13; extract_lets +onlyGivenNames z14
    have kz14 : Keeps s₀ z14 := by
      unfold z14; exact h9.same (by unfold State.view; rfl)
    clear_value z14; revert z14; refine id ?_; intro z14 kz14; split
    · exact kz14
    · split
      · apply State.draw_keeps; exact kz14.same (by unfold State.view; rfl)
      · exact kz14
  · exact h
theorem State.newEpoch_keeps {s₀ : State} {s : State} (num : ℕ) (dom : ℕ) (t : ℕ) (changes : List Staged) (h : Keeps s₀ s) : Keeps s₀ (State.newEpoch s num dom t changes) := by
  unfold State.newEpoch; extract_lets +onlyGivenNames z8; extract_lets +onlyGivenNames z9; extract_lets +onlyGivenNames z10
  extract_lets +onlyGivenNames z11
  have kz11 : Keeps s₀ z11 := by
    unfold z11; exact h.same (by unfold State.view; rfl)
  clear_value z11; revert z11; refine id ?_; intro z11 kz11; extract_lets +onlyGivenNames z13
  have kz13 : Keeps s₀ z13 := by
    unfold z13; apply State.set_keeps; apply State.displace_keeps; apply State.forEach_keeps
    · intro a14 a15 t16 h17; apply State.applied_keeps; exact h17
    · exact kz11
  clear_value z13; revert z13; refine id ?_; intro z13 kz13; extract_lets +onlyGivenNames z15
  have kz15 : Keeps s₀ z15 := by
    unfold z15; apply State.setTime_keeps; exact kz13
  clear_value z15; revert z15; refine id ?_; intro z15 kz15; apply State.raise_keeps; exact kz15
theorem State.epochDue_keeps {s₀ : State} {s : State} (h : Keeps s₀ s) : Keeps s₀ (State.epochDue s) := by
  unfold State.epochDue; split
  · split
    · extract_lets +onlyGivenNames z10; extract_lets +onlyGivenNames z11; extract_lets +onlyGivenNames z12
      have kz12 : Keeps s₀ z12 := by
        unfold z12; apply State.newEpoch_keeps; exact h
      clear_value z12; revert z12; refine id ?_; intro z12 kz12; extract_lets +onlyGivenNames z14
      extract_lets +onlyGivenNames z15
      have kz15 : Keeps s₀ z15 := by
        unfold z15; exact kz12.same (by unfold State.view; rfl)
      clear_value z15; revert z15; refine id ?_; intro z15 kz15; extract_lets +onlyGivenNames z17
      have kz17 : Keeps s₀ z17 := by
        unfold z17; apply Keeps.foldl
        · exact kz15
        · intro t18 a19 h20; apply State.dropAction_keeps; exact h20
      clear_value z17; revert z17; refine id ?_; intro z17 kz17; apply State.setf_keeps; exact kz17
    · exact h
  · exact h
theorem nopCmd_keeps : CmdKeeps (nopCmd) := by
  rw [nopCmd]; refine ⟨fun s₀ x s h => ?_, fun s₀ x s e h => ?_, fun s₀ x s h => ?_⟩
  · rw [Cmd.run_mk]; apply Keeps.ofOk; exact h
  · rw [Cmd.refused_mk]; exact h
  · rw [Cmd.after_mk]; exact h
theorem State.endSession_keeps {s₀ : State} {s : State} (v : Via) (h : Keeps s₀ s) : Keeps s₀ (State.endSession s v) := by
  unfold State.endSession; exact h.same (by unfold State.view; rfl)
theorem sessionOpenRun_keeps {s₀ : State} (c : Ctx) {s : State} (h : Keeps s₀ s) : Keeps s₀ (sessionOpenRun c s).state := by
  unfold sessionOpenRun; split
  · apply Keeps.ofError; apply State.draw_keeps; exact h
  · extract_lets +onlyGivenNames z6; extract_lets +onlyGivenNames z7; extract_lets +onlyGivenNames z8
    extract_lets +onlyGivenNames z9
    have kz9 : Keeps s₀ z9 := by
      unfold z9; exact h.same (by unfold State.view; rfl)
    clear_value z9; revert z9; refine id ?_; intro z9 kz9; extract_lets +onlyGivenNames z11; extract_lets +onlyGivenNames z12
    have kz12 : Keeps s₀ z12 := by
      unfold z12; apply State.setSession_keeps
      · intro a13 a14; exact Nat.zero_le _
      · apply State.endSession_keeps; exact kz9
    clear_value z12; revert z12; refine id ?_; intro z12 kz12; apply Keeps.ofOk; apply State.set_keeps; exact kz12
theorem sessionOpenCmd_keeps : CmdKeeps (sessionOpenCmd) := by
  rw [sessionOpenCmd]; refine ⟨fun s₀ x s h => ?_, fun s₀ x s e h => ?_, fun s₀ x s h => ?_⟩
  · rw [Cmd.run_mk]; apply sessionOpenRun_keeps; exact h
  · rw [Cmd.refused_mk]; exact h
  · rw [Cmd.after_mk]; exact h
theorem sessionCloseCmd_keeps : CmdKeeps (sessionCloseCmd) := by
  rw [sessionCloseCmd]; refine ⟨fun s₀ x s h => ?_, fun s₀ x s e h => ?_, fun s₀ x s h => ?_⟩
  · rw [Cmd.run_mk]; apply Keeps.ofOk; apply State.setSession_keeps
    · intro a5 a6; exact Nat.zero_le _
    · apply State.endSession_keeps; exact h
  · rw [Cmd.refused_mk]; exact h
  · rw [Cmd.after_mk]; exact h
theorem identityGetCmd_keeps : CmdKeeps (identityGetCmd) := by
  rw [identityGetCmd]; refine ⟨fun s₀ x s h => ?_, fun s₀ x s e h => ?_, fun s₀ x s h => ?_⟩
  · rw [Cmd.run_mk]; apply Keeps.ofOk; exact h
  · rw [Cmd.refused_mk]; exact h
  · rw [Cmd.after_mk]; exact h
theorem State.discardStaged_keeps {s₀ : State} {s : State} (b : ℕ) (h : Keeps s₀ s) : Keeps s₀ (State.discardStaged s b) := by
  unfold State.discardStaged; extract_lets +onlyGivenNames z5; extract_lets +onlyGivenNames z6
  have kz6 : Keeps s₀ z6 := by
    unfold z6; exact h.same (by unfold State.view; rfl)
  clear_value z6; revert z6; refine id ?_; intro z6 kz6; split
  · apply State.forEach_keeps
    · intro a9 a10 t11 h12; apply State.setGate_keeps; exact h12
    · exact kz6
  · exact kz6
theorem State.loseChain_keeps {s₀ : State} {s : State} (v : Via) (bs : List ℕ) (h : Keeps s₀ s) : Keeps s₀ (State.loseChain s v bs) := by
  unfold State.loseChain; apply State.setSession_keeps
  · intro a6 a7; exact a7
  · exact h
theorem State.closeDeferred_keeps {s₀ : State} {s : State} (d : Deferred) (h : Keeps s₀ s) : Keeps s₀ (State.closeDeferred s d) := by
  unfold State.closeDeferred; exact h.same (by unfold State.view; rfl)
theorem State.answerDeferred_keeps {s₀ : State} {s : State} (d : Deferred) (st : Status) (payload : List Byte) (h : Keeps s₀ s) : Keeps s₀ (State.answerDeferred s d st payload) := by
  unfold State.answerDeferred; extract_lets +onlyGivenNames z7; extract_lets +onlyGivenNames z8
  have kz8 : Keeps s₀ z8 := by
    unfold z8; apply State.closeDeferred_keeps; exact h
  clear_value z8; revert z8; refine id ?_; intro z8 kz8; extract_lets +onlyGivenNames z10
  have kz10 : Keeps s₀ z10 := by
    unfold z10; split
    · apply State.remember_keeps; exact kz8
    · exact kz8
  clear_value z10; revert z10; refine id ?_; intro z10 kz10; split
  · exact kz10
  · apply State.send_keeps; exact kz10
theorem State.failDeferred_keeps {s₀ : State} {s : State} (d : Deferred) (e : Err) (h : Keeps s₀ s) : Keeps s₀ (State.failDeferred s d e) := by
  unfold State.failDeferred; apply State.answerDeferred_keeps; exact h
theorem State.stopStage_keeps {s₀ : State} {s : State} (loser winner : Master) (h : Keeps s₀ s) : Keeps s₀ (State.stopStage s loser winner) := by
  unfold State.stopStage; refine State.forEach_keep _ _ h fun d t k => ?_; split
  · rename_i kind slot _ _ _ _ _; extract_lets place bt z
    have kz : Keeps s₀ z := k.flash (fun w => Flash.erase_wf _ (slotPlace kind slot).1 (slotPlace kind slot).2 w) rfl
    clear_value z; exact State.failDeferred_keeps _ _ kz
  · exact k
theorem State.leaseChange_keeps {s₀ : State} {s : State} (m : Master) (bs : List ℕ) (holder : ℕ) (cause : ℕ) (h : Keeps s₀ s) : Keeps s₀ (State.leaseChange s m bs holder cause) := by
  unfold State.leaseChange; split
  · exact h
  · apply State.raise_keeps; exact h
theorem leaseTakeRun_keeps {s₀ : State} (c : Ctx) {s : State} (h : Keeps s₀ s) : Keeps s₀ (leaseTakeRun c s).state := by
  unfold leaseTakeRun; extract_lets +onlyGivenNames z5; split
  · apply Keeps.ofError; exact h
  · extract_lets +onlyGivenNames z10; extract_lets +onlyGivenNames z11
    have kz11 : Keeps s₀ z11 := by
      unfold z11; apply State.leaseChange_keeps; apply State.forEach_keeps
      · intro a12 a13 t14 h15; apply State.setOwner_keeps; exact h15
      · exact h
    clear_value z11; revert z11; refine id ?_; intro z11 kz11; apply Keeps.ofOk; exact kz11
theorem leaseTakeCmd_keeps : CmdKeeps (leaseTakeCmd) := by
  rw [leaseTakeCmd]; refine ⟨fun s₀ x s h => ?_, fun s₀ x s e h => ?_, fun s₀ x s h => ?_⟩
  · rw [Cmd.run_mk]; apply leaseTakeRun_keeps; exact h
  · rw [Cmd.refused_mk]; exact h
  · rw [Cmd.after_mk]; exact h
theorem leaseSeizeRun_keeps {s₀ : State} (c : Ctx) {s : State} (h : Keeps s₀ s) : Keeps s₀ (leaseSeizeRun c s).state := by
  unfold leaseSeizeRun; extract_lets +onlyGivenNames z5; extract_lets +onlyGivenNames z6; split
  · apply Keeps.ofError; exact h
  · extract_lets +onlyGivenNames z11; extract_lets +onlyGivenNames z12; extract_lets +onlyGivenNames z13
    extract_lets +onlyGivenNames z14
    have kz14 : Keeps s₀ z14 := by
      unfold z14; apply State.forEach_keeps
      · intro a15 a16 t17 h18; apply State.discardStaged_keeps; exact h18
      · exact h
    clear_value z14; revert z14; refine id ?_; intro z14 kz14; extract_lets +onlyGivenNames z16
    have kz16 : Keeps s₀ z16 := by
      unfold z16; apply State.forEach_keeps
      · intro a17 a18 t19 h20; apply State.setOwner_keeps; exact h20
      · exact kz14
    clear_value z16; revert z16; refine id ?_; intro z16 kz16; extract_lets +onlyGivenNames z18
    have kz18 : Keeps s₀ z18 := by
      unfold z18; split
      · apply State.loseChain_keeps; apply State.loseChain_keeps; exact kz16
      · apply State.loseChain_keeps; exact kz16
    clear_value z18; revert z18; refine id ?_; intro z18 kz18; extract_lets +onlyGivenNames z20
    have kz20 : Keeps s₀ z20 := by
      unfold z20; split
      · apply State.stopStage_keeps; exact kz18
      · exact kz18
    clear_value z20; revert z20; refine id ?_; intro z20 kz20; extract_lets +onlyGivenNames z22
    have kz22 : Keeps s₀ z22 := by
      unfold z22; apply State.leaseChange_keeps; exact kz20
    clear_value z22; revert z22; refine id ?_; intro z22 kz22; apply Keeps.ofOk; exact kz22
theorem leaseSeizeCmd_keeps : CmdKeeps (leaseSeizeCmd) := by
  rw [leaseSeizeCmd]; refine ⟨fun s₀ x s h => ?_, fun s₀ x s e h => ?_, fun s₀ x s h => ?_⟩
  · rw [Cmd.run_mk]; apply leaseSeizeRun_keeps; exact h
  · rw [Cmd.refused_mk]; exact h
  · rw [Cmd.after_mk]; exact h
theorem leaseDropRun_keeps {s₀ : State} (c : Ctx) {s : State} (h : Keeps s₀ s) : Keeps s₀ (leaseDropRun c s).state := by
  unfold leaseDropRun; extract_lets +onlyGivenNames z5; split
  · apply Keeps.ofError; exact h
  · extract_lets +onlyGivenNames z10; extract_lets +onlyGivenNames z11
    have kz11 : Keeps s₀ z11 := by
      unfold z11; apply State.forEach_keeps
      · intro a12 a13 t14 h15; apply State.setOwner_keeps; apply State.discardStaged_keeps; exact h15
      · exact h
    clear_value z11; revert z11; refine id ?_; intro z11 kz11; extract_lets +onlyGivenNames z13
    have kz13 : Keeps s₀ z13 := by
      unfold z13; apply State.leaseChange_keeps; exact kz11
    clear_value z13; revert z13; refine id ?_; intro z13 kz13; apply Keeps.ofOk; exact kz13
theorem leaseDropCmd_keeps : CmdKeeps (leaseDropCmd) := by
  rw [leaseDropCmd]; refine ⟨fun s₀ x s h => ?_, fun s₀ x s e h => ?_, fun s₀ x s h => ?_⟩
  · rw [Cmd.run_mk]; apply leaseDropRun_keeps; exact h
  · rw [Cmd.refused_mk]; exact h
  · rw [Cmd.after_mk]; exact h
theorem execNop_keeps {s₀ : State} (q : Request) {s : State} (h : Keeps s₀ s) : NextKeeps s₀ (execNop q s) := by
  unfold execNop; apply NextKeeps.next; apply runCmd_keeps
  · apply nopCmd_keeps
  · exact h
theorem execSessionOpen_keeps {s₀ : State} (q : Request) {s : State} (h : Keeps s₀ s) : NextKeeps s₀ (execSessionOpen q s) := by
  unfold execSessionOpen; apply NextKeeps.next; apply runCmd_keeps
  · apply sessionOpenCmd_keeps
  · exact h
theorem execSessionClose_keeps {s₀ : State} (q : Request) {s : State} (h : Keeps s₀ s) : NextKeeps s₀ (execSessionClose q s) := by
  unfold execSessionClose; apply NextKeeps.next; apply runCmd_keeps
  · apply sessionCloseCmd_keeps
  · exact h
theorem execIdentityGet_keeps {s₀ : State} (q : Request) {s : State} (h : Keeps s₀ s) : NextKeeps s₀ (execIdentityGet q s) := by
  unfold execIdentityGet; apply NextKeeps.next; apply runCmd_keeps
  · apply identityGetCmd_keeps
  · exact h
theorem execLeaseTake_keeps {s₀ : State} (q : Request) {s : State} (h : Keeps s₀ s) : NextKeeps s₀ (execLeaseTake q s) := by
  unfold execLeaseTake; apply NextKeeps.next; apply runCmd_keeps
  · apply leaseTakeCmd_keeps
  · exact h
theorem execLeaseSeize_keeps {s₀ : State} (q : Request) {s : State} (h : Keeps s₀ s) : NextKeeps s₀ (execLeaseSeize q s) := by
  unfold execLeaseSeize; apply NextKeeps.next; apply runCmd_keeps
  · apply leaseSeizeCmd_keeps
  · exact h
theorem execLeaseDrop_keeps {s₀ : State} (q : Request) {s : State} (h : Keeps s₀ s) : NextKeeps s₀ (execLeaseDrop q s) := by
  unfold execLeaseDrop; apply NextKeeps.next; apply runCmd_keeps
  · apply leaseDropCmd_keeps
  · exact h
theorem tableStageRun_keeps {s₀ : State} (op : ℕ) (c : Ctx) {s : State} (h : Keeps s₀ s) : Keeps s₀ (tableStageRun op c s).state := by
  unfold tableStageRun; extract_lets +onlyGivenNames z6; apply Keeps.ofOk; exact h.same (by unfold State.view; rfl)
theorem tableStageCmd_keeps (op : ℕ) : CmdKeeps (tableStageCmd op) := by
  rw [tableStageCmd]; refine ⟨fun s₀ x s h => ?_, fun s₀ x s e h => ?_, fun s₀ x s h => ?_⟩
  · rw [Cmd.run_mk]; apply tableStageRun_keeps; exact h
  · rw [Cmd.refused_mk]; exact h
  · rw [Cmd.after_mk]; exact h
theorem execTableStageWrite_keeps {s₀ : State} (q : Request) {s : State} (h : Keeps s₀ s) : NextKeeps s₀ (execTableStageWrite q s) := by
  unfold execTableStageWrite; apply NextKeeps.next; apply runCmd_keeps
  · apply tableStageCmd_keeps
  · exact h
theorem execTableStageClear_keeps {s₀ : State} (q : Request) {s : State} (h : Keeps s₀ s) : NextKeeps s₀ (execTableStageClear q s) := by
  unfold execTableStageClear; apply NextKeeps.next; apply runCmd_keeps
  · apply tableStageCmd_keeps
  · exact h
theorem execTableStageDiscard_keeps {s₀ : State} (q : Request) {s : State} (h : Keeps s₀ s) : NextKeeps s₀ (execTableStageDiscard q s) := by
  unfold execTableStageDiscard; apply NextKeeps.next; apply runCmd_keeps
  · apply tableStageCmd_keeps
  · exact h
theorem State.freezeGates_keeps {s₀ : State} {s : State} (dom : ℕ) (t : ℕ) (h : Keeps s₀ s) : Keeps s₀ (State.freezeGates s dom t) := by
  unfold State.freezeGates; apply State.forEach_keeps
  · intro a6 a7 t8 h9; extract_lets +onlyGivenNames z10; extract_lets +onlyGivenNames z11; split
    · apply State.commitGate_keeps; exact h9
    · exact h9
  · exact h
theorem State.freeze_keeps {s₀ : State} {s : State} (bs : List ℕ) (dom : ℕ) (t : ℕ) (h : Keeps s₀ s) : Keeps s₀ (State.freeze s bs dom t) := by
  unfold State.freeze; extract_lets +onlyGivenNames z7; extract_lets +onlyGivenNames z8; extract_lets +onlyGivenNames z9
  have kz9 : Keeps s₀ z9 := by
    unfold z9; split
    · apply State.freezeGates_keeps; exact h
    · exact h
  clear_value z9; revert z9; refine id ?_; intro z9 kz9; extract_lets +onlyGivenNames z11; extract_lets +onlyGivenNames z12
  have kz12 : Keeps s₀ z12 := by
    unfold z12; exact kz9.same (by unfold State.view; rfl)
  clear_value z12; revert z12; refine id ?_; intro z12 kz12; apply State.setTime_keeps; apply State.setf_keeps
  apply State.setf_keeps; exact kz12
theorem tableCommitRun_keeps {s₀ : State} (c : Ctx) {s : State} (h : Keeps s₀ s) : Keeps s₀ (tableCommitRun c s).state := by
  unfold tableCommitRun; extract_lets +onlyGivenNames z5; extract_lets +onlyGivenNames z6; extract_lets +onlyGivenNames z7
  extract_lets +onlyGivenNames z8; split
  · apply Keeps.ofError; exact h
  · apply Keeps.ofError; exact h
  · split
    · split
      · apply Keeps.ofError; exact h
      · extract_lets +onlyGivenNames z22; apply Keeps.ofReply; apply State.epochDue_keeps; apply State.freeze_keeps; exact h
      · split
        · apply Keeps.ofError; exact h
        · apply Keeps.ofOk; apply State.schedule_keeps; apply State.freeze_keeps; exact h
    · extract_lets +onlyGivenNames z18; apply Keeps.ofOk; apply State.freeze_keeps; exact h
theorem tableCommitCmd_keeps : CmdKeeps (tableCommitCmd) := by
  rw [tableCommitCmd]; refine ⟨fun s₀ x s h => ?_, fun s₀ x s e h => ?_, fun s₀ x s h => ?_⟩
  · rw [Cmd.run_mk]; apply tableCommitRun_keeps; exact h
  · rw [Cmd.refused_mk]; exact h
  · rw [Cmd.after_mk]; exact h
theorem execTableCommit_keeps {s₀ : State} (q : Request) {s : State} (h : Keeps s₀ s) : NextKeeps s₀ (execTableCommit q s) := by
  unfold execTableCommit; apply NextKeeps.next; apply runCmd_keeps
  · apply tableCommitCmd_keeps
  · exact h
theorem epochStatusRun_keeps {s₀ : State} (x0 : Ctx) {s : State} (h : Keeps s₀ s) : Keeps s₀ (epochStatusRun x0 s).state := by
  unfold epochStatusRun; extract_lets +onlyGivenNames z5; apply Keeps.ofOk; exact h
theorem epochStatusCmd_keeps : CmdKeeps (epochStatusCmd) := by
  rw [epochStatusCmd]; refine ⟨fun s₀ x s h => ?_, fun s₀ x s e h => ?_, fun s₀ x s h => ?_⟩
  · rw [Cmd.run_mk]; apply epochStatusRun_keeps; exact h
  · rw [Cmd.refused_mk]; exact h
  · rw [Cmd.after_mk]; exact h
theorem execEpochStatus_keeps {s₀ : State} (q : Request) {s : State} (h : Keeps s₀ s) : NextKeeps s₀ (execEpochStatus q s) := by
  unfold execEpochStatus; apply NextKeeps.next; apply runCmd_keeps
  · apply epochStatusCmd_keeps
  · exact h
theorem execEpochCommitted_keeps {s₀ : State} {s : State} (h : Keeps s₀ s) : NextKeeps s₀ (execEpochCommitted s) := by
  unfold execEpochCommitted; apply NextKeeps.next; apply State.epochDue_keeps; apply State.fresh_keeps; exact h
theorem execEpochRetired_keeps {s₀ : State} {s : State} (h : Keeps s₀ s) : NextKeeps s₀ (execEpochRetired s) := by
  unfold execEpochRetired; extract_lets +onlyGivenNames z4
  have kz4 : Keeps s₀ z4 := by
    unfold z4; apply State.fresh_keeps; exact h
  clear_value z4; revert z4; refine id ?_; intro z4 kz4; apply NextKeeps.next; split
  · split
    · apply State.raise_keeps; apply State.setf_keeps; exact kz4.same (by unfold State.view; rfl)
    · exact kz4
  · exact kz4
theorem execEpochDrainSlow_keeps {s₀ : State} {s : State} (h : Keeps s₀ s) : NextKeeps s₀ (execEpochDrainSlow s) := by
  unfold execEpochDrainSlow; extract_lets +onlyGivenNames z4
  have kz4 : Keeps s₀ z4 := by
    unfold z4; apply State.fresh_keeps; exact h
  clear_value z4; revert z4; refine id ?_; intro z4 kz4; apply NextKeeps.next; split
  · split
    · apply State.raise_keeps; exact kz4.same (by unfold State.view; rfl)
    · exact kz4
  · exact kz4
theorem State.unfreeze_keeps {s₀ : State} {s : State} (h : Keeps s₀ s) : Keeps s₀ (State.unfreeze s) := by
  unfold State.unfreeze; split
  · split
    · extract_lets +onlyGivenNames z10; extract_lets +onlyGivenNames z11
      have kz11 : Keeps s₀ z11 := by
        unfold z11; apply State.forEach_keeps
        · intro a12 a13 t14 h15; apply State.setTime_keeps; apply State.setGate_keeps; exact h15
        · exact h
      clear_value z11; revert z11; refine id ?_; intro z11 kz11; extract_lets +onlyGivenNames z13
      extract_lets +onlyGivenNames z14
      have kz14 : Keeps s₀ z14 := by
        unfold z14; exact kz11.same (by unfold State.view; rfl)
      clear_value z14; revert z14; refine id ?_; intro z14 kz14; apply State.setTime_keeps; apply State.setf_keeps; exact kz14
    · exact h
  · exact h
theorem execMirrorResume_keeps {s₀ : State} (m : ℕ) {s : State} (h : Keeps s₀ s) : NextKeeps s₀ (execMirrorResume m s) := by
  unfold execMirrorResume; extract_lets +onlyGivenNames z5
  have kz5 : Keeps s₀ z5 := by
    unfold z5; apply State.fresh_keeps; exact h
  clear_value z5; revert z5; refine id ?_; intro z5 kz5; apply NextKeeps.atUnit
  · exact kz5
  · split
    · split
      · apply State.mirrorMode_keeps; exact kz5
      · exact kz5
    · exact kz5
theorem execMsixModerationTimer_keeps {s₀ : State} (v : ℕ) {s : State} (h : Keeps s₀ s) : NextKeeps s₀ (execMsixModerationTimer v s) := by
  unfold execMsixModerationTimer; extract_lets +onlyGivenNames z5
  have kz5 : Keeps s₀ z5 := by
    unfold z5; apply State.fresh_keeps; exact h
  clear_value z5; revert z5; refine id ?_; intro z5 kz5; apply NextKeeps.atUnit
  · exact kz5
  · split
    · apply State.signal_keeps; exact kz5
    · exact kz5
theorem State.loadWaits_keeps {s₀ : State} {s : State} (p : List Byte) (code : ℕ) (h : Keeps s₀ s) : Keeps s₀ (State.loadWaits s p code).2 := by
  unfold State.loadWaits; split
  · dsimp -zeta -zetaHave only; exact h
  · dsimp -zeta -zetaHave only; apply State.draw_keeps; apply State.draw_keeps; apply State.draw_keeps; exact h
theorem gateLoadRun_keeps {s₀ : State} (checkOnly : Bool) (c : Ctx) {s : State} (h : Keeps s₀ s) : Keeps s₀ (gateLoadRun checkOnly c s).state := by
  unfold gateLoadRun; extract_lets +onlyGivenNames z6; extract_lets +onlyGivenNames z7
  have kz7 : Keeps s₀ z7.2 := by
    unfold z7; apply State.loadWaits_keeps; exact h
  clear_value z7; revert z7; refine id ?_; intro z7 kz7; extract_lets +onlyGivenNames z9
  have kz9 : Keeps s₀ z9 := by
    unfold z9; split
    · exact kz7
    · apply State.stageCalendar_keeps; exact kz7
  clear_value z9; revert z9; refine id ?_; intro z9 kz9; apply Keeps.ofOk; exact kz9
theorem gateLoadCmd_keeps (checkOnly : Bool) : CmdKeeps (gateLoadCmd checkOnly) := by
  rw [gateLoadCmd]; refine ⟨fun s₀ x s h => ?_, fun s₀ x s e h => ?_, fun s₀ x s h => ?_⟩
  · rw [Cmd.run_mk]; apply gateLoadRun_keeps; exact h
  · rw [Cmd.refused_mk]; exact h
  · rw [Cmd.after_mk]; exact h
theorem execGateLoad_keeps {s₀ : State} (q : Request) {s : State} (h : Keeps s₀ s) : NextKeeps s₀ (execGateLoad q s) := by
  unfold execGateLoad; apply NextKeeps.next; apply runCmd_keeps
  · apply gateLoadCmd_keeps
  · exact h
theorem execGateLoadCheckOnly_keeps {s₀ : State} (q : Request) {s : State} (h : Keeps s₀ s) : NextKeeps s₀ (execGateLoadCheckOnly q s) := by
  unfold execGateLoadCheckOnly; apply NextKeeps.next; apply runCmd_keeps
  · apply gateLoadCmd_keeps
  · exact h
theorem State.fireSwitch_keeps {s₀ : State} {s : State} (p : List Byte) (t : ℕ) (h : Keeps s₀ s) : Keeps s₀ (State.fireSwitch s p t) := by
  unfold State.fireSwitch; apply State.forEach_keeps
  · intro a6 a7 t8 h9; apply State.commitGate_keeps; exact h9
  · exact h
theorem gateSwitchRun_keeps {s₀ : State} (c : Ctx) {s : State} (h : Keeps s₀ s) : Keeps s₀ (gateSwitchRun c s).state := by
  unfold gateSwitchRun; extract_lets +onlyGivenNames z5; split
  · apply Keeps.ofError; exact h
  · split
    · extract_lets +onlyGivenNames z11; split
      · apply Keeps.ofError; exact h
      · apply Keeps.ofReply; apply State.fireSwitch_keeps; exact h
      · split
        · apply Keeps.ofError; exact h
        · apply Keeps.ofOk; apply State.schedule_keeps; exact h
    · apply Keeps.ofOk; apply State.fireSwitch_keeps; exact h
theorem gateSwitchCmd_keeps : CmdKeeps (gateSwitchCmd) := by
  rw [gateSwitchCmd]; refine ⟨fun s₀ x s h => ?_, fun s₀ x s e h => ?_, fun s₀ x s h => ?_⟩
  · rw [Cmd.run_mk]; apply gateSwitchRun_keeps; exact h
  · rw [Cmd.refused_mk]; exact h
  · rw [Cmd.after_mk]; exact h
theorem execGateSwitch_keeps {s₀ : State} (q : Request) {s : State} (h : Keeps s₀ s) : NextKeeps s₀ (execGateSwitch q s) := by
  unfold execGateSwitch; apply NextKeeps.next; apply runCmd_keeps
  · apply gateSwitchCmd_keeps
  · exact h
theorem State.atTime_keeps {s₀ : State} {s : State} (hh opcode : Nat) (ready : Action → Bool) (fire : Action → State → State)
    (hf : ∀ a t, Keeps s₀ t → Keeps s₀ (fire a t)) (h : Keeps s₀ s) : Keeps s₀ (State.atTime s hh opcode ready fire) := by
  unfold State.atTime; split
  · exact h
  · split
    · apply hf; apply State.dropAction_keeps; exact h
    · apply State.outcome_keeps; apply State.dropAction_keeps; exact h
theorem execScheduledGateSwitch_keeps {s₀ : State} (hh : ℕ) {s : State} (h : Keeps s₀ s) : NextKeeps s₀ (execScheduledGateSwitch hh s) := by
  unfold execScheduledGateSwitch; extract_lets +onlyGivenNames z5
  have kz5 : Keeps s₀ z5 := by
    unfold z5; apply State.fresh_keeps; exact h
  clear_value z5; revert z5; refine id ?_; intro z5 kz5; apply NextKeeps.next; apply State.atTime_keeps
  · intro a7 t8 h9; apply State.fireSwitch_keeps; exact h9
  · exact kz5

end Sys2Proof.Machine
end

