-- ==== Sys2Proof/Laws/KeepsFrames.lean ====
section
/-! SUPPORT. What classifying, editing, forwarding, sending and stacks keep: one lemma for each operation, in the words of Laws.Keeps. -/
namespace Sys2Proof.Machine

theorem State.police_keeps {s₀ : State} {s : State} (p : ℕ) (l : ℕ) (t : ℕ) (h : Keeps s₀ s) : Keeps s₀ (State.police s p l t).1 := by
  unfold State.police; split
  · dsimp -zeta -zetaHave only; exact h
  · extract_lets +onlyGivenNames z12; extract_lets +onlyGivenNames z13; extract_lets +onlyGivenNames z14
    extract_lets +onlyGivenNames z15; extract_lets +onlyGivenNames z16; extract_lets +onlyGivenNames z17; split
    · dsimp -zeta -zetaHave only; apply State.count_keeps; unfold z15; exact h.same (by unfold State.view; rfl)
    · split
      · extract_lets +onlyGivenNames z20
        have kz20 : Keeps s₀ z20 := by
          unfold z20; apply State.count_keeps; unfold z15; exact h.same (by unfold State.view; rfl)
        clear_value z20; revert z20; refine id ?_; intro z20 kz20; dsimp -zeta -zetaHave only; split
        · apply State.raise_keeps; apply State.setf_keeps; exact kz20
        · exact kz20
      · split
        · dsimp -zeta -zetaHave only; apply State.count_keeps; unfold z15; exact h.same (by unfold State.view; rfl)
        · dsimp -zeta -zetaHave only; apply State.count_keeps; unfold z15; exact h.same (by unfold State.view; rfl)
theorem State.rcvyCount_keeps {s₀ : State} {s : State} (r : ℕ) (c : ℕ) (n : ℕ) (h : Keeps s₀ s) : Keeps s₀ (State.rcvyCount s r c n) := by
  unfold State.rcvyCount; apply State.wrap_keeps; exact h
theorem State.rcvyPass_keeps {s₀ : State} {s : State} (r : ℕ) (seq : ℕ) (hist : Option ℕ) (newest : Bool) (h : Keeps s₀ s) : Keeps s₀ (State.rcvyPass s r seq hist newest) := by
  unfold State.rcvyPass; extract_lets +onlyGivenNames z8
  have kz8 : Keeps s₀ z8 := by
    unfold z8; apply State.rcvyCount_keeps; exact h
  clear_value z8; revert z8; refine id ?_; intro z8 kz8; extract_lets +onlyGivenNames z10
  have kz10 : Keeps s₀ z10 := by
    unfold z10; split
    · apply State.setf_keeps; apply State.setf_keeps; exact kz8
    · exact kz8
  clear_value z10; revert z10; refine id ?_; intro z10 kz10; exact kz10.same (by unfold State.view; rfl)
theorem State.recover_keeps {s₀ : State} {s : State} (r : ℕ) (port : ℕ) (seq : Option ℕ) (h : Keeps s₀ s) : Keeps s₀ (State.recover s r port seq).1 := by
  unfold State.recover; split
  · dsimp -zeta -zetaHave only; exact h
  · split
    · dsimp -zeta -zetaHave only; apply State.rcvyCount_keeps; exact h
    · split
      · split
        · dsimp -zeta -zetaHave only; apply State.rcvyPass_keeps; exact h
        · dsimp -zeta -zetaHave only; apply State.rcvyCount_keeps; exact h
      · extract_lets +onlyGivenNames z15; split
        · dsimp -zeta -zetaHave only; apply State.rcvyPass_keeps; exact h
        · split
          · split
            · dsimp -zeta -zetaHave only; apply State.rcvyCount_keeps; exact h
            · extract_lets +onlyGivenNames z19
              have kz19 : Keeps s₀ z19 := by
                unfold z19; split
                · exact h
                · apply State.rcvyCount_keeps; exact h
              clear_value z19; revert z19; refine id ?_; intro z19 kz19; dsimp -zeta -zetaHave only; apply State.rcvyPass_keeps
              exact kz19
          · extract_lets +onlyGivenNames z18; extract_lets +onlyGivenNames z19; extract_lets +onlyGivenNames z20; split
            · dsimp -zeta -zetaHave only; apply State.rcvyCount_keeps; exact h
            · split
              · extract_lets +onlyGivenNames z23; extract_lets +onlyGivenNames z24
                have kz24 : Keeps s₀ z24 := by
                  unfold z24; apply State.rcvyCount_keeps; exact h
                clear_value z24; revert z24; refine id ?_; intro z24 kz24; dsimp -zeta -zetaHave only
                apply State.rcvyPass_keeps; exact kz24
              · split
                · dsimp -zeta -zetaHave only; apply State.rcvyCount_keeps; exact h
                · dsimp -zeta -zetaHave only; apply State.rcvyPass_keeps; apply State.rcvyCount_keeps; exact h
theorem State.frer_keeps {s₀ : State} {s : State} (hh : ℕ) (port : ℕ) (received : Option ℕ) (h : Keeps s₀ s) : Keeps s₀ (State.frer s hh port received).1 := by
  unfold State.frer; split
  · dsimp -zeta -zetaHave only; exact h
  · extract_lets +onlyGivenNames z12; extract_lets +onlyGivenNames z13; extract_lets +onlyGivenNames z14
    have kz14 : Keeps s₀ z14 := by
      unfold z14; split
      · apply State.wrap_keeps; exact h
      · exact h
    clear_value z14; revert z14; refine id ?_; intro z14 kz14; split
    · extract_lets +onlyGivenNames z17
      have kz17 : Keeps s₀ z17.1 := by
        unfold z17; apply State.recover_keeps; exact kz14
      clear_value z17; revert z17; refine id ?_; intro z17 kz17; dsimp -zeta -zetaHave only; exact kz17
    · dsimp -zeta -zetaHave only; exact kz14
theorem State.watchLoss_keeps {s₀ : State} {s : State} (h : Keeps s₀ s) : Keeps s₀ (State.watchLoss s) := by
  unfold State.watchLoss; extract_lets +onlyGivenNames z4
  have kz4 : Keeps s₀ z4 := by
    unfold z4; apply State.forEach_keeps
    · intro a5 a6 t7 h8; apply State.setf_keeps; exact h8
    · exact h
  clear_value z4; revert z4; refine id ?_; intro z4 kz4; extract_lets +onlyGivenNames z6; extract_lets +onlyGivenNames z7
  have kz7 : Keeps s₀ z7 := by
    unfold z7; exact kz4.same (by unfold State.view; rfl)
  clear_value z7; revert z7; refine id ?_; intro z7 kz7; extract_lets +onlyGivenNames z9
  have kz9 : Keeps s₀ z9 := by
    unfold z9; apply State.count_keeps; exact kz7
  clear_value z9; revert z9; refine id ?_; intro z9 kz9; extract_lets +onlyGivenNames z11; split
  · apply State.raise_keeps; exact kz9.same (by unfold State.view; rfl)
  · exact kz9
theorem State.watchMeasure_keeps {s₀ : State} {s : State} (e : ℕ) (w : Watch) (d : List Byte) (off : ℕ) (stop : ℕ) (h : Keeps s₀ s) : Keeps s₀ (State.watchMeasure s e w d off stop) := by
  unfold State.watchMeasure; extract_lets +onlyGivenNames z9; extract_lets +onlyGivenNames z10; extract_lets +onlyGivenNames z11
  split
  · apply State.count_keeps; exact h
  · extract_lets +onlyGivenNames z13; extract_lets +onlyGivenNames z14; extract_lets +onlyGivenNames z15
    extract_lets +onlyGivenNames z16; extract_lets +onlyGivenNames z17; extract_lets +onlyGivenNames z18
    extract_lets +onlyGivenNames z19; extract_lets +onlyGivenNames z20; extract_lets +onlyGivenNames z21
    extract_lets +onlyGivenNames z22; extract_lets +onlyGivenNames z23; extract_lets +onlyGivenNames z24
    extract_lets +onlyGivenNames z25
    have kz25 : Keeps s₀ z25 := by
      unfold z25; split
      · apply State.setf_keeps; exact h
      · exact h
    clear_value z25; revert z25; refine id ?_; intro z25 kz25; extract_lets +onlyGivenNames z27
    extract_lets +onlyGivenNames z28; extract_lets +onlyGivenNames z29; extract_lets +onlyGivenNames z30
    extract_lets +onlyGivenNames z31; extract_lets +onlyGivenNames z32
    have kz32 : Keeps s₀ z32 := by
      unfold z32; exact kz25.same (by unfold State.view; rfl)
    clear_value z32; revert z32; refine id ?_; intro z32 kz32; extract_lets +onlyGivenNames z34
    have kz34 : Keeps s₀ z34 := by
      unfold z34; apply State.count_keeps; apply State.wrap_keeps; exact kz32
    clear_value z34; revert z34; refine id ?_; intro z34 kz34; extract_lets +onlyGivenNames z36
    have kz36 : Keeps s₀ z36 := by
      unfold z36; split
      · exact kz34
      · apply State.count_keeps; exact kz34
    clear_value z36; revert z36; refine id ?_; intro z36 kz36; split
    · apply State.setf_keeps; exact kz36
    · exact kz36
theorem State.watchTakes_keeps {s₀ : State} {s : State} (h : Keeps s₀ s) : Keeps s₀ (State.watchTakes s).2 := by
  unfold State.watchTakes; extract_lets +onlyGivenNames z4; extract_lets +onlyGivenNames z5; dsimp -zeta -zetaHave only
  exact h.same (by unfold State.view; rfl)
theorem State.watchFrame_keeps {s₀ : State} {s : State} (e : ℕ) (port : ℕ) (d : List Byte) (off : ℕ) (stop : ℕ) (h : Keeps s₀ s) : Keeps s₀ (State.watchFrame s e port d off stop) := by
  unfold State.watchFrame; extract_lets +onlyGivenNames z9
  have kz9 : Keeps s₀ z9.2 := by
    unfold z9; apply State.watchTakes_keeps; exact h
  clear_value z9; revert z9; refine id ?_; intro z9 kz9; extract_lets +onlyGivenNames z11
  have kz11 : Keeps s₀ z11 := by
    unfold z11; exact kz9
  clear_value z11; revert z11; refine id ?_; intro z11 kz11; split
  · apply State.watchLoss_keeps; exact kz11
  · split
    · exact kz11
    · split
      · apply State.watchMeasure_keeps; exact kz11
      · apply State.count_keeps; exact kz11
theorem State.learnLoss_keeps {s₀ : State} {s : State} (h : Keeps s₀ s) : Keeps s₀ (State.learnLoss s) := by
  unfold State.learnLoss; extract_lets +onlyGivenNames z4; split
  · apply State.raise_keeps; exact h.same (by unfold State.view; rfl)
  · exact h
theorem State.learnQueued_keeps {s₀ : State} {s : State} (key : ℕ) (port : ℕ) (t : ℕ) (h : Keeps s₀ s) : Keeps s₀ (State.learnQueued s key port t) := by
  unfold State.learnQueued; split
  · exact h.same (by unfold State.view; rfl)
  · apply State.learnLoss_keeps; apply State.count_keeps; exact h
theorem State.setLearned_keeps {s₀ : State} {s : State} (x : Learned) (h : Keeps s₀ s) : Keeps s₀ (State.setLearned s x) := by
  unfold State.setLearned; exact h.same (by unfold State.view; rfl)
theorem State.evict_keeps {s₀ : State} {s : State} (here : List Learned) (h : Keeps s₀ s) : Keeps s₀ (State.evict s here) := by
  unfold State.evict; split
  · apply State.draw_keeps; exact h.same (by unfold State.view; rfl)
  · exact h
theorem State.addLearned_keeps {s₀ : State} {s : State} (x : Learned) (h : Keeps s₀ s) : Keeps s₀ (State.addLearned s x) := by
  unfold State.addLearned; extract_lets +onlyGivenNames z5; extract_lets +onlyGivenNames z6; split
  · apply State.learnLoss_keeps; apply State.count_keeps; exact h
  · apply State.setLearned_keeps; split
    · exact h
    · apply State.evict_keeps; exact h
theorem State.learn_keeps {s₀ : State} {s : State} (key : ℕ) (port : ℕ) (t : ℕ) (h : Keeps s₀ s) : Keeps s₀ (State.learn s key port t) := by
  unfold State.learn; split
  · exact h
  · split
    · extract_lets +onlyGivenNames z13; apply State.setLearned_keeps; exact h
    · apply State.addLearned_keeps; exact h
theorem State.learnOne_keeps {s₀ : State} {s : State} (h : Keeps s₀ s) : Keeps s₀ (State.learnOne s) := by
  unfold State.learnOne; split
  · exact h
  · apply State.learn_keeps; exact h.same (by unfold State.view; rfl)
theorem State.learnDue_keeps {s₀ : State} {s : State} (t n : Nat) (h : Keeps s₀ s) : Keeps s₀ (State.learnDue s t n) := by
  induction n generalizing s with
  | zero => exact h
  | succ n ih =>
    unfold State.learnDue; split
    · split
      · exact ih (State.learnOne_keeps h)
      · exact h
    · exact h
theorem State.calDrop_keeps {s₀ : State} {s : State} (key : ℕ) (h : Keeps s₀ s) : Keeps s₀ (State.calDrop s key) := by
  unfold State.calDrop; exact h.same (by unfold State.view; rfl)
theorem State.calRxEnd_keeps {s₀ : State} {s : State} (p : ℕ) (h : Keeps s₀ s) : Keeps s₀ (State.calRxEnd s p) := by
  unfold State.calRxEnd; extract_lets +onlyGivenNames z5
  have kz5 : Keeps s₀ z5 := by
    unfold z5; apply State.setSide_keeps; exact h
  clear_value z5; revert z5; refine id ?_; intro z5 kz5; split
  · apply State.count_keeps; apply State.calDrop_keeps; exact kz5
  · exact kz5
theorem State.calYield_keeps {s₀ : State} {s : State} (p : ℕ) (h : Keeps s₀ s) : Keeps s₀ (State.calYield s p) := by
  unfold State.calYield; split
  · apply State.occurs_keeps; apply State.count_keeps; apply State.calDrop_keeps; exact h
  · exact h
theorem State.offerCopy_keeps {s₀ : State} {s : State} (f : Frame) (vlan : List Byte) (group : Option ℕ) (n : ℕ) (p : ℕ) (q : ℕ) (h : Keeps s₀ s) : Keeps s₀ (State.offerCopy s f vlan group n p q) := by
  unfold State.offerCopy; split
  · apply State.wrap_keeps; exact h
  · split
    · apply State.wrap_keeps; exact h
    · extract_lets +onlyGivenNames z12; extract_lets +onlyGivenNames z13; extract_lets +onlyGivenNames z14
      extract_lets +onlyGivenNames z15
      have kz15 : Keeps s₀ z15.1 := by
        unfold z15; clear_value z12; split
        · apply State.police_keeps; exact h
        · dsimp -zeta -zetaHave only; exact h
      clear_value z15; revert z15; refine id ?_; intro z15 kz15; split
      · apply State.enqueue_keeps; exact kz15
      · apply State.wrap_keeps; exact kz15
theorem State.offerAll_keeps {s₀ : State} {s : State} (f : Frame) (vlan : List Byte) (group : Option ℕ) (n : ℕ) (pair : ℕ) (pol : Bool) (elim : Bool) (l : List Offer) (h : Keeps s₀ s) : Keeps s₀ (State.offerAll s f vlan group n pair pol elim l) := by
  unfold State.offerAll; apply State.forEach_keeps
  · intro a12 a13 t14 h15; split
    · apply State.offerCopy_keeps; exact h15
    · apply State.offerCopy_keeps; exact h15
    · apply State.mirrorFrame_keeps; exact h15
  · exact h
theorem State.classify_keeps {s₀ : State} {s : State} (p : ℕ) (d : List Byte) (len : ℕ) (csum : ℕ) (csumReq : ℕ) (ts : Option ℕ) (h : Keeps s₀ s) : Keeps s₀ (State.classify s p d len csum csumReq ts) := by
  unfold State.classify; extract_lets +onlyGivenNames z10; extract_lets +onlyGivenNames z11
  have kz11 : Keeps s₀ z11 := by
    unfold z11; split
    · apply State.count_keeps; exact h
    · exact h
  clear_value z11; revert z11; refine id ?_; intro z11 kz11; extract_lets +onlyGivenNames z13; extract_lets +onlyGivenNames z14
  extract_lets +onlyGivenNames z15; extract_lets +onlyGivenNames z16; extract_lets +onlyGivenNames z17
  have kz17 : Keeps s₀ z17 := by
    unfold z17; clear_value z15; split
    · apply State.wrap_keeps; exact kz11
    · exact kz11
  clear_value z17; revert z17; refine id ?_; intro z17 kz17; extract_lets +onlyGivenNames z19; extract_lets +onlyGivenNames z20
  have kz20 : Keeps s₀ z20 := by
    unfold z20; apply State.learnDue_keeps; exact kz17
  clear_value z20; revert z20; refine id ?_; intro z20 kz20; extract_lets +onlyGivenNames z22; extract_lets +onlyGivenNames z23
  extract_lets +onlyGivenNames z24; extract_lets +onlyGivenNames z25; extract_lets +onlyGivenNames z26
  extract_lets +onlyGivenNames z27
  have kz27 : Keeps s₀ z27 := by
    unfold z27; split
    · apply State.watchFrame_keeps; exact kz20
    · exact kz20
  clear_value z27; revert z27; refine id ?_; intro z27 kz27; extract_lets +onlyGivenNames z29
  have kz29 : Keeps s₀ z29.1 := by
    unfold z29; split
    · apply State.police_keeps; exact kz27
    · dsimp -zeta -zetaHave only; exact kz27
  clear_value z29; revert z29; refine id ?_; intro z29 kz29; extract_lets +onlyGivenNames z31
  have kz31 : Keeps s₀ z31.1 := by
    unfold z31; apply State.frer_keeps; exact kz29
  clear_value z31; revert z31; refine id ?_; intro z31 kz31; extract_lets +onlyGivenNames z33
  have kz33 : Keeps s₀ z33.1 := by
    unfold z33; split
    · dsimp -zeta -zetaHave only; exact kz31
    · dsimp -zeta -zetaHave only; exact kz29
  clear_value z33; revert z33; refine id ?_; intro z33 kz33; extract_lets +onlyGivenNames z35
  have kz35 : Keeps s₀ z35 := by
    unfold z35; exact kz33
  clear_value z35; revert z35; refine id ?_; intro z35 kz35; extract_lets +onlyGivenNames z37; extract_lets +onlyGivenNames z38
  extract_lets +onlyGivenNames z39; extract_lets +onlyGivenNames z40; extract_lets +onlyGivenNames z41
  extract_lets +onlyGivenNames z42
  have kz42 : Keeps s₀ z42 := by
    unfold z42; split
    · apply State.learnQueued_keeps; exact kz35
    · exact kz35
  clear_value z42; revert z42; refine id ?_; intro z42 kz42; extract_lets +onlyGivenNames z44; extract_lets +onlyGivenNames z45
  have kz45 : Keeps s₀ z45 := by
    unfold z45; split
    · apply State.wrap_keeps; exact kz42
    · exact kz42
  clear_value z45; revert z45; refine id ?_; intro z45 kz45; extract_lets +onlyGivenNames z47; extract_lets +onlyGivenNames z48
  extract_lets +onlyGivenNames z49; extract_lets +onlyGivenNames z50; split
  · exact kz45
  · extract_lets +onlyGivenNames z52
    have kz52 : Keeps s₀ z52 := by
      unfold z52; apply State.offerAll_keeps; apply State.storeFrame_keeps; exact kz45
    clear_value z52; revert z52; refine id ?_; intro z52 kz52; extract_lets +onlyGivenNames z54
    extract_lets +onlyGivenNames z55
    have kz55 : Keeps s₀ z55 := by
      unfold z55; split
      · exact kz52
      · exact kz52.same (by unfold State.view; rfl)
    clear_value z55; revert z55; refine id ?_; intro z55 kz55; apply State.pfcCheckAll_keeps; apply State.collect_keeps
    apply State.settle_keeps; exact kz55
theorem State.stompUnderway_keeps {s₀ : State} {s : State} (p : ℕ) (err : ℕ) (frame : List Byte) (under : List ℕ) (h : Keeps s₀ s) : Keeps s₀ (State.stompUnderway s p err frame under) := by
  unfold State.stompUnderway; extract_lets +onlyGivenNames z8; extract_lets +onlyGivenNames z9
  have kz9 : Keeps s₀ z9 := by
    unfold z9; apply State.classify_keeps; exact h
  clear_value z9; revert z9; refine id ?_; intro z9 kz9; split
  · exact h
  · split
    · exact h
    · extract_lets +onlyGivenNames z17; apply State.forEach_keeps
      · intro a18 a19 t20 h21; extract_lets +onlyGivenNames z22; extract_lets +onlyGivenNames z23
        have kz23 : Keeps s₀ z23 := by
          unfold z23; apply State.stat_keeps; apply State.emit_keeps; exact h21
        clear_value z23; revert z23; refine id ?_; intro z23 kz23; apply State.stat_keeps; split
        · apply State.stat_keeps; exact kz23
        · exact kz23
      · exact h
theorem State.errored_keeps {s₀ : State} {s : State} (p : ℕ) (err : ℕ) (frame : List Byte) (under : List ℕ) (h : Keeps s₀ s) : Keeps s₀ (State.errored s p err frame under) := by
  unfold State.errored; extract_lets +onlyGivenNames z8
  have kz8 : Keeps s₀ z8 := by
    unfold z8; apply State.stompUnderway_keeps; apply State.occurs_keeps; apply State.stat_keeps; exact h
  clear_value z8; revert z8; refine id ?_; intro z8 kz8; split
  · extract_lets +onlyGivenNames z11; extract_lets +onlyGivenNames z12; extract_lets +onlyGivenNames z13
    extract_lets +onlyGivenNames z14; extract_lets +onlyGivenNames z15; extract_lets +onlyGivenNames z16
    have kz16 : Keeps s₀ z16 := by
      unfold z16; apply State.storeFrame_keeps; exact kz8
    clear_value z16; revert z16; refine id ?_; intro z16 kz16; extract_lets +onlyGivenNames z18
    extract_lets +onlyGivenNames z19; extract_lets +onlyGivenNames z20
    have kz20 : Keeps s₀ z20.1 := by
      unfold z20; split
      · apply State.enqueue_keeps; exact kz16
      · dsimp -zeta -zetaHave only; apply State.wrap_keeps; exact kz16
    clear_value z20; revert z20; refine id ?_; intro z20 kz20; extract_lets +onlyGivenNames z22
    have kz22 : Keeps s₀ z22 := by
      unfold z22; apply State.forEach_keeps
      · intro a23 a24 t25 h26; split
        · apply State.mirrorFrame_keeps; exact h26
        · exact h26
      · exact kz20
    clear_value z22; revert z22; refine id ?_; intro z22 kz22; extract_lets +onlyGivenNames z24
    have kz24 : Keeps s₀ z24 := by
      unfold z24; apply State.pfcCheckAll_keeps; apply State.collect_keeps; apply State.settle_keeps; exact kz22
    clear_value z24; revert z24; refine id ?_; intro z24 kz24; split
    · apply State.stat_keeps; exact kz24
    · exact kz24
  · exact kz8
theorem State.mirrorTaken_keeps {s₀ : State} {s : State} (p : ℕ) (d : List Byte) (len : ℕ) (h : Keeps s₀ s) : Keeps s₀ (State.mirrorTaken s p d len) := by
  unfold State.mirrorTaken; split
  · exact h
  · extract_lets +onlyGivenNames z8; apply State.pfcCheckAll_keeps; apply State.collect_keeps; apply State.settle_keeps
    apply State.mirrorPort_keeps; apply State.storeFrame_keeps; exact h
theorem State.noteStop_keeps {s₀ : State} {s : State} (p : ℕ) (k : ℕ) (quanta : ℕ) (h : Keeps s₀ s) : Keeps s₀ (State.noteStop s p k quanta) := by
  unfold State.noteStop; extract_lets +onlyGivenNames z7; extract_lets +onlyGivenNames z8; apply State.setSide_keeps; exact h
theorem State.pauseReceived_keeps {s₀ : State} {s : State} (p : ℕ) (quanta : ℕ) (h : Keeps s₀ s) : Keeps s₀ (State.pauseReceived s p quanta) := by
  unfold State.pauseReceived; extract_lets +onlyGivenNames z6
  have kz6 : Keeps s₀ z6 := by
    unfold z6; apply State.stat_keeps; exact h
  clear_value z6; revert z6; refine id ?_; intro z6 kz6; split
  · exact kz6
  · split
    · apply State.stat_keeps; exact kz6
    · apply State.setf_keeps; apply State.noteStop_keeps; exact kz6
theorem State.pfcReceived_keeps {s₀ : State} {s : State} (p : ℕ) (enable : ℕ) (quanta : List ℕ) (h : Keeps s₀ s) : Keeps s₀ (State.pfcReceived s p enable quanta) := by
  unfold State.pfcReceived; extract_lets +onlyGivenNames z7
  have kz7 : Keeps s₀ z7 := by
    unfold z7; apply State.stat_keeps; exact h
  clear_value z7; revert z7; refine id ?_; intro z7 kz7; split
  · exact kz7
  · extract_lets +onlyGivenNames z10; extract_lets +onlyGivenNames z11; extract_lets +onlyGivenNames z12
    have kz12 : Keeps s₀ z12 := by
      unfold z12; split
      · exact kz7
      · apply State.stat_keeps; exact kz7
    clear_value z12; revert z12; refine id ?_; intro z12 kz12; apply State.forEach_keeps
    · intro a14 a15 t16 h17; extract_lets +onlyGivenNames z18; extract_lets +onlyGivenNames z19
      have kz19 : Keeps s₀ z19 := by
        unfold z19; split
        · apply State.stat_keeps; exact h17
        · exact h17
      clear_value z19; revert z19; refine id ?_; intro z19 kz19; apply State.setf_keeps; apply State.noteStop_keeps; exact kz19
    · exact kz12
theorem State.macControl_keeps {s₀ : State} {s : State} (p : ℕ) (d : List Byte) (h : Keeps s₀ s) : Keeps s₀ (State.macControl s p d) := by
  unfold State.macControl; split
  · apply State.pauseReceived_keeps; exact h
  · apply State.pfcReceived_keeps; exact h
  · exact h
theorem State.good_keeps {s₀ : State} {s : State} (p : ℕ) (d : List Byte) (len : ℕ) (h : Keeps s₀ s) : Keeps s₀ (State.good s p d len) := by
  unfold State.good; extract_lets +onlyGivenNames z7; split
  · apply State.macControl_keeps; exact h
  · split
    · apply State.mirrorTaken_keeps; split
      · exact h
      · apply State.count_keeps; exact h
    · split
      · apply State.mirrorTaken_keeps; exact h
      · extract_lets +onlyGivenNames z11; extract_lets +onlyGivenNames z12
        have kz12 : Keeps s₀ z12 := by
          unfold z12; split
          · apply State.stat_keeps; exact h
          · exact h
        clear_value z12; revert z12; refine id ?_; intro z12 kz12; extract_lets +onlyGivenNames z14
        have kz14 : Keeps s₀ z14 := by
          unfold z14; split
          · apply State.stat_keeps; exact kz12
          · exact kz12
        clear_value z14; revert z14; refine id ?_; intro z14 kz14; split
        · extract_lets +onlyGivenNames z21
          have kz21 : Keeps s₀ z21 := by
            unfold z21; split
            · apply State.pushStamp_keeps; exact kz14
            · exact kz14
          clear_value z21; revert z21; refine id ?_; intro z21 kz21; apply State.classify_keeps; exact kz21
        · apply State.classify_keeps; exact kz14
theorem State.pcsCount_keeps {s₀ : State} {s : State} (p : ℕ) (x : PcsReport) (h : Keeps s₀ s) : Keeps s₀ (State.pcsCount s p x) := by
  unfold State.pcsCount; split
  · apply State.forEach_keeps
    · intro a7 a8 t9 h10; split
      · exact h10
      · apply State.stat_keeps; exact h10
    · exact h
  · exact h
theorem State.receive_keeps {s₀ : State} {s : State} (p : ℕ) (frame : List Byte) (pcs : PcsReport) (under : List ℕ) (h : Keeps s₀ s) : Keeps s₀ (State.receive s p frame pcs under) := by
  unfold State.receive; extract_lets +onlyGivenNames z8
  have kz8 : Keeps s₀ z8 := by
    unfold z8; apply State.pcsCount_keeps; exact h
  clear_value z8; revert z8; refine id ?_; intro z8 kz8; split
  · exact kz8
  · extract_lets +onlyGivenNames z11; extract_lets +onlyGivenNames z12; extract_lets +onlyGivenNames z13
    have kz13 : Keeps s₀ z13 := by
      unfold z13; split
      · apply State.emit_keeps; exact kz8
      · exact kz8
    clear_value z13; revert z13; refine id ?_; intro z13 kz13; extract_lets +onlyGivenNames z15
    have kz15 : Keeps s₀ z15 := by
      unfold z15; apply State.calRxEnd_keeps; apply State.epochDue_keeps; exact kz13
    clear_value z15; revert z15; refine id ?_; intro z15 kz15; extract_lets +onlyGivenNames z17; split
    · apply State.errored_keeps; exact kz15
    · extract_lets +onlyGivenNames z19; extract_lets +onlyGivenNames z20
      have kz20 : Keeps s₀ z20 := by
        unfold z20; apply State.countGood_keeps; exact kz15
      clear_value z20; revert z20; refine id ?_; intro z20 kz20; apply State.good_keeps; exact kz20
theorem execFrameReceive_keeps {s₀ : State} (p : ℕ) (frame : List Byte) (pcs : PcsReport) (under : List ℕ) {s : State} (h : Keeps s₀ s) : NextKeeps s₀ (execFrameReceive p frame pcs under s) := by
  unfold execFrameReceive; extract_lets +onlyGivenNames z8
  have kz8 : Keeps s₀ z8 := by
    unfold z8; apply State.fresh_keeps; exact h
  clear_value z8; revert z8; refine id ?_; intro z8 kz8; apply NextKeeps.atUnit
  · exact kz8
  · apply State.receive_keeps; exact kz8
theorem execFdbLearn_keeps {s₀ : State} {s : State} (h : Keeps s₀ s) : NextKeeps s₀ (execFdbLearn s) := by
  unfold execFdbLearn; apply NextKeeps.next; apply State.learnOne_keeps; apply State.fresh_keeps; exact h
theorem State.forget_keeps {s₀ : State} {s : State} (test : Learned → Bool) (h : Keeps s₀ s) : Keeps s₀ (State.forget s test) := by
  unfold State.forget; extract_lets +onlyGivenNames z5; exact h.same (by unfold State.view; rfl)
theorem execFdbAgeOut_keeps {s₀ : State} {s : State} (h : Keeps s₀ s) : NextKeeps s₀ (execFdbAgeOut s) := by
  unfold execFdbAgeOut; extract_lets +onlyGivenNames z4
  have kz4 : Keeps s₀ z4 := by
    unfold z4; apply State.fresh_keeps; exact h
  clear_value z4; revert z4; refine id ?_; intro z4 kz4; extract_lets +onlyGivenNames z6
  have kz6 : Keeps s₀ z6 := by
    unfold z6; apply State.learnDue_keeps; exact kz4
  clear_value z6; revert z6; refine id ?_; intro z6 kz6; extract_lets +onlyGivenNames z8; extract_lets +onlyGivenNames z9
  extract_lets +onlyGivenNames z10; apply NextKeeps.next; exact kz6.same (by unfold State.view; rfl)
theorem State.fdbFlush_keeps {s₀ : State} {s : State} (v : ℕ) (h : Keeps s₀ s) : Keeps s₀ (State.fdbFlush s v) := by
  unfold State.fdbFlush; extract_lets +onlyGivenNames z5; extract_lets +onlyGivenNames z6; extract_lets +onlyGivenNames z7
  have kz7 : Keeps s₀ z7 := by
    unfold z7; apply State.learnDue_keeps; exact h
  clear_value z7; revert z7; refine id ?_; intro z7 kz7; apply State.forget_keeps; exact kz7
theorem execIgmpMldSnooping_keeps {s₀ : State} (fid : ℕ) (mac : ℕ) (dest : Option (ℕ × ℕ)) {s : State} (h : Keeps s₀ s) : NextKeeps s₀ (execIgmpMldSnooping fid mac dest s) := by
  unfold execIgmpMldSnooping; extract_lets +onlyGivenNames z7
  have kz7 : Keeps s₀ z7 := by
    unfold z7; apply State.fresh_keeps; exact h
  clear_value z7; revert z7; refine id ?_; intro z7 kz7; split
  · extract_lets +onlyGivenNames z10; extract_lets +onlyGivenNames z11; split
    · apply NextKeeps.next; apply State.setLearned_keeps; exact kz7
    · apply NextKeeps.next; split
      · apply State.addLearned_keeps; exact kz7
      · exact kz7
  · apply NextKeeps.next; exact kz7
theorem State.complete_keeps {s₀ : State} {s : State} (tag : ℕ) (status : ℕ) (h : Keeps s₀ s) : Keeps s₀ (State.complete s tag status) := by
  unfold State.complete; split
  · extract_lets +onlyGivenNames z7; extract_lets +onlyGivenNames z8; extract_lets +onlyGivenNames z9; apply State.signal_keeps
    apply State.setf_keeps; apply State.emit_keeps; exact h
  · exact h
theorem State.submitTo_keeps {s₀ : State} {s : State} (port : ℕ) (q : ℕ) (csumReq : ℕ) (tag : ℕ) (ts : Option ℕ) (d : List Byte) (h : Keeps s₀ s) : Keeps s₀ (State.submitTo s port q csumReq tag ts d) := by
  unfold State.submitTo; extract_lets +onlyGivenNames z10; extract_lets +onlyGivenNames z11; extract_lets +onlyGivenNames z12
  extract_lets +onlyGivenNames z13
  have kz13 : Keeps s₀ z13.1 := by
    unfold z13; apply State.enqueue_keeps; apply State.mirrorPort_keeps; apply State.storeFrame_keeps; exact h
  clear_value z13; revert z13; refine id ?_; intro z13 kz13; apply State.complete_keeps; apply State.collect_keeps; exact kz13
theorem State.submitLookup_keeps {s₀ : State} {s : State} (csumReq : ℕ) (tag : ℕ) (ts : Option ℕ) (d : List Byte) (h : Keeps s₀ s) : Keeps s₀ (State.submitLookup s csumReq tag ts d) := by
  unfold State.submitLookup; extract_lets +onlyGivenNames z8; extract_lets +onlyGivenNames z9
  have kz9 : Keeps s₀ z9 := by
    unfold z9; apply State.classify_keeps; exact h
  clear_value z9; revert z9; refine id ?_; intro z9 kz9; apply State.complete_keeps; exact kz9
theorem State.submit_keeps {s₀ : State} {s : State} (entry : List Byte) (frame : List Byte) (h : Keeps s₀ s) : Keeps s₀ (State.submit s entry frame) := by
  unfold State.submit; extract_lets +onlyGivenNames z6; extract_lets +onlyGivenNames z7; extract_lets +onlyGivenNames z8
  extract_lets +onlyGivenNames z9; extract_lets +onlyGivenNames z10; extract_lets +onlyGivenNames z11; split
  · apply State.complete_keeps; apply State.stat_keeps; exact h
  · split
    · apply State.complete_keeps; exact h
    · extract_lets +onlyGivenNames z14
      have kz14 : Keeps s₀ z14 := by
        unfold z14; apply State.countGood_keeps; exact h
      clear_value z14; revert z14; refine id ?_; intro z14 kz14; extract_lets +onlyGivenNames z16
      extract_lets +onlyGivenNames z17
      have kz17 : Keeps s₀ z17 := by
        unfold z17; split
        · apply State.stat_keeps; exact kz14
        · exact kz14
      clear_value z17; revert z17; refine id ?_; intro z17 kz17; split
      · apply State.submitTo_keeps; exact kz17
      · apply State.submitLookup_keeps; exact kz17
theorem execHostFrameSubmit_keeps {s₀ : State} (entry : List Byte) (frame : List Byte) {s : State} (h : Keeps s₀ s) : NextKeeps s₀ (execHostFrameSubmit entry frame s) := by
  unfold execHostFrameSubmit; extract_lets +onlyGivenNames z6
  have kz6 : Keeps s₀ z6 := by
    unfold z6; apply State.fresh_keeps; exact h
  clear_value z6; revert z6; refine id ?_; intro z6 kz6; extract_lets +onlyGivenNames z8; split
  · extract_lets +onlyGivenNames z10; extract_lets +onlyGivenNames z11
    have kz11 : Keeps s₀ z11 := by
      unfold z11; exact kz6.same (by unfold State.view; rfl)
    clear_value z11; revert z11; refine id ?_; intro z11 kz11; apply NextKeeps.next; apply State.submit_keeps
    apply State.epochDue_keeps; apply State.setf_keeps; exact kz11
  · apply NextKeeps.next; exact kz6
theorem State.shaperWritten_keeps {s₀ : State} {s : State} (p : ℕ) (q : ℕ) (old : ℕ) (h : Keeps s₀ s) : Keeps s₀ (State.shaperWritten s p q old) := by
  unfold State.shaperWritten; split
  · extract_lets +onlyGivenNames z14; apply State.setSide_keeps; exact h
  · exact h
theorem State.cleanHead_keeps {s₀ : State} {s : State} (p q k : Nat) (h : Keeps s₀ s) : Keeps s₀ (State.cleanHead s p q k) := by
  induction k generalizing s with
  | zero => exact h
  | succ k ih =>
    unfold State.cleanHead; split
    · exact h
    split
    · exact h
    split
    · exact ih (State.dropHead_keeps p q (State.stat_keeps p (0x60 + q) 1 h))
    · exact h
theorem State.dropAged_keeps {s₀ : State} {s : State} (p : ℕ) (q : ℕ) (l : List ℕ) (h : Keeps s₀ s) : Keeps s₀ (State.dropAged s p q l) := by
  unfold State.dropAged; extract_lets +onlyGivenNames z7; extract_lets +onlyGivenNames z8
  have kz8 : Keeps s₀ z8 := by
    unfold z8; apply State.removeCopies_keeps; apply State.stat_keeps; exact h
  clear_value z8; revert z8; refine id ?_; intro z8 kz8; extract_lets +onlyGivenNames z10; extract_lets +onlyGivenNames z11
  apply State.setQ_keeps; exact kz8
theorem State.skipPage_keeps {s₀ : State} {s : State} (p : ℕ) (q : ℕ) (g : Page) (h : Keeps s₀ s) : Keeps s₀ (State.skipPage s p q g) := by
  unfold State.skipPage; extract_lets +onlyGivenNames z7; apply State.dropAged_keeps; apply State.setQ_keeps; exact h
theorem State.readPage_keeps {s₀ : State} {s : State} (p : ℕ) (q : ℕ) (n : ℕ) (h : Keeps s₀ s) : Keeps s₀ (State.readPage s p q n) := by
  unfold State.readPage; extract_lets +onlyGivenNames z7
  have kz7 : Keeps s₀ z7.1 := by
    unfold z7; apply State.issue_keeps; exact h
  clear_value z7; revert z7; refine id ?_; intro z7 kz7; extract_lets +onlyGivenNames z9; apply State.setQ_keeps; exact kz7
theorem State.refill_keeps {s₀ : State} {s : State} (p q k : Nat) (h : Keeps s₀ s) : Keeps s₀ (State.refill s p q k) := by
  induction k generalizing s with
  | zero => exact h
  | succ k ih =>
    unfold State.refill; extract_lets +onlyGivenNames x; clear_value x; split
    · exact h
    split
    · exact h
    split
    · exact ih (State.skipPage_keeps p q _ h)
    extract_lets +onlyGivenNames n; split
    · split
      · exact h
      · exact State.count_keeps _ _ _ _ (State.setQ_keeps _ _ _ h)
    · exact ih (State.readPage_keeps p q _ h)
theorem State.refillAll_keeps {s₀ : State} {s : State} (h : Keeps s₀ s) : Keeps s₀ (State.refillAll s) := by
  unfold State.refillAll; apply State.forEach_keeps
  · intro a4 a5 t6 h7; apply State.refill_keeps; exact h7
  · exact h
theorem State.released_keeps {s₀ : State} {s : State} (p : ℕ) (q : ℕ) (h : Keeps s₀ s) : Keeps s₀ (State.released s p q) := by
  unfold State.released; apply State.pfcCheckAll_keeps; apply State.moveK_keeps; apply State.collect_keeps
  apply State.judge_keeps; apply State.spillCheck_keeps; apply State.refillAll_keeps; apply State.collect_keeps; exact h
theorem execHeadAgeExpiry_keeps {s₀ : State} (p : ℕ) (q : ℕ) {s : State} (h : Keeps s₀ s) : NextKeeps s₀ (execHeadAgeExpiry p q s) := by
  unfold execHeadAgeExpiry; extract_lets +onlyGivenNames z6
  have kz6 : Keeps s₀ z6 := by
    unfold z6; apply State.fresh_keeps; exact h
  clear_value z6; revert z6; refine id ?_; intro z6 kz6; apply NextKeeps.atUnit
  · exact kz6
  · split
    · apply State.released_keeps; apply State.cleanHead_keeps; exact kz6
    · exact kz6
theorem State.roundRobin_keeps {s₀ : State} {s : State} (p k : Nat) (h : Keeps s₀ s) : Keeps s₀ (State.roundRobin s p k).1 := by
  induction k generalizing s with
  | zero => exact h
  | succ k ih =>
    unfold State.roundRobin; extract_lets; split
    · exact ih (State.setSide_keeps p _ h)
    split
    · dsimp only; exact State.setSide_keeps p _ h
    · exact ih (State.setSide_keeps p _ h)
theorem State.endVisit_keeps {s₀ : State} {s : State} (p : ℕ) (h : Keeps s₀ s) : Keeps s₀ (State.endVisit s p) := by
  unfold State.endVisit; extract_lets +onlyGivenNames z5; extract_lets +onlyGivenNames z6; extract_lets +onlyGivenNames z7
  split
  · apply State.setSide_keeps; exact h
  · exact h
theorem State.choose_keeps {s₀ : State} {s : State} (p : ℕ) (h : Keeps s₀ s) : Keeps s₀ (State.choose s p).1 := by
  unfold State.choose; split
  · dsimp -zeta -zetaHave only; exact h
  · split
    · apply State.roundRobin_keeps; exact h
    · dsimp -zeta -zetaHave only; apply State.endVisit_keeps; exact h
theorem State.deliverHost_keeps {s₀ : State} {s : State} (q : ℕ) (f : Frame) (c : Copy) (bytes : List Byte) (buf : ℕ) (h : Keeps s₀ s) : Keeps s₀ (State.deliverHost s q f c bytes buf) := by
  unfold State.deliverHost; extract_lets +onlyGivenNames z9; extract_lets +onlyGivenNames z10; extract_lets +onlyGivenNames z11
  extract_lets +onlyGivenNames z12; extract_lets +onlyGivenNames z13
  have kz13 : Keeps s₀ z13 := by
    unfold z13; split
    · apply State.count_keeps; exact h
    · exact h
  clear_value z13; revert z13; refine id ?_; intro z13 kz13; extract_lets +onlyGivenNames z15; extract_lets +onlyGivenNames z16
  extract_lets +onlyGivenNames z17; extract_lets +onlyGivenNames z18
  have kz18 : Keeps s₀ z18 := by
    unfold z18; apply State.emit_keeps; apply State.emit_keeps; apply State.emit_keeps; exact kz13
  clear_value z18; revert z18; refine id ?_; intro z18 kz18; apply State.signal_keeps; apply State.setf_keeps; exact kz18
theorem State.reenterSample_keeps {s₀ : State} {s : State} (q : ℕ) (c : Copy) (d : List Byte) (h : Keeps s₀ s) : Keeps s₀ (State.reenterSample s q c d) := by
  unfold State.reenterSample; extract_lets +onlyGivenNames z7; extract_lets +onlyGivenNames z8; extract_lets +onlyGivenNames z9
  have kz9 : Keeps s₀ z9 := by
    unfold z9; apply State.mirrorPort_keeps; apply State.storeFrame_keeps; exact h
  clear_value z9; revert z9; refine id ?_; intro z9 kz9; extract_lets +onlyGivenNames z11; extract_lets +onlyGivenNames z12
  have kz12 : Keeps s₀ z12.1 := by
    unfold z12; split
    · apply State.enqueue_keeps; exact kz9
    · dsimp -zeta -zetaHave only; exact kz9
  clear_value z12; revert z12; refine id ?_; intro z12 kz12; extract_lets +onlyGivenNames z14
  have kz14 : Keeps s₀ z14 := by
    unfold z14; apply State.collect_keeps; exact kz12
  clear_value z14; revert z14; refine id ?_; intro z14 kz14; split
  · split
    · apply State.count_keeps; exact kz14
    · apply State.count_keeps; exact kz14
  · exact kz14
theorem State.reenterProbe_keeps {s₀ : State} {s : State} (slot : ℕ) (d : List Byte) (h : Keeps s₀ s) : Keeps s₀ (State.reenterProbe s slot d) := by
  unfold State.reenterProbe; extract_lets +onlyGivenNames z6; extract_lets +onlyGivenNames z7; extract_lets +onlyGivenNames z8
  extract_lets +onlyGivenNames z9; extract_lets +onlyGivenNames z10
  have kz10 : Keeps s₀ z10 := by
    unfold z10; apply State.mirrorPort_keeps; apply State.storeFrame_keeps; exact h
  clear_value z10; revert z10; refine id ?_; intro z10 kz10; apply State.collect_keeps; split
  · apply State.enqueue_keeps; exact kz10
  · apply State.wrap_keeps; exact kz10
theorem State.reenter_keeps {s₀ : State} {s : State} (q : ℕ) (f : Frame) (c : Copy) (bytes : List Byte) (h : Keeps s₀ s) : Keeps s₀ (State.reenter s q f c bytes) := by
  unfold State.reenter; extract_lets +onlyGivenNames z8; extract_lets +onlyGivenNames z9
  have kz9 : Keeps s₀ z9 := by
    unfold z9; apply State.countGood_keeps; apply State.epochDue_keeps; exact h
  clear_value z9; revert z9; refine id ?_; intro z9 kz9; split
  · apply State.reenterSample_keeps; exact kz9
  · split
    · apply State.reenterProbe_keeps; exact kz9
    · apply State.classify_keeps; exact kz9
theorem State.startStamp_keeps {s₀ : State} {s : State} (p : ℕ) (f : Frame) (c : Copy) (h : Keeps s₀ s) : Keeps s₀ (State.startStamp s p f c) := by
  unfold State.startStamp; extract_lets +onlyGivenNames z7; extract_lets +onlyGivenNames z8; extract_lets +onlyGivenNames z9
  split
  · extract_lets +onlyGivenNames z15; apply State.pushStamp_keeps; exact h
  · split
    · apply State.pushStamp_keeps; exact h
    · exact h
theorem State.countSent_keeps {s₀ : State} {s : State} (p : ℕ) (q : ℕ) (bytes : List Byte) (stomped : Bool) (valid : Bool) (padded : Bool) (h : Keeps s₀ s) : Keeps s₀ (State.countSent s p q bytes stomped valid padded) := by
  unfold State.countSent; extract_lets +onlyGivenNames z10
  have kz10 : Keeps s₀ z10 := by
    unfold z10; split
    · apply State.stat_keeps; exact h
    · exact h
  clear_value z10; revert z10; refine id ?_; intro z10 kz10; extract_lets +onlyGivenNames z12
  have kz12 : Keeps s₀ z12 := by
    unfold z12; apply State.stat_keeps; exact kz10
  clear_value z12; revert z12; refine id ?_; intro z12 kz12; split
  · apply State.stat_keeps; exact kz12
  · split
    · apply State.sentGood_keeps; exact kz12
    · exact kz12
theorem State.recountStomped_keeps {s₀ : State} {s : State} (p : ℕ) (bytes : List Byte) (h : Keeps s₀ s) : Keeps s₀ (State.recountStomped s p bytes) := by
  unfold State.recountStomped; apply State.wrap_keeps; apply State.wrap_keeps; apply State.wrap_keeps; apply State.wrap_keeps
  exact h
theorem State.sojourned_keeps {s₀ : State} {s : State} (p : ℕ) (q : ℕ) (f : Frame) (h : Keeps s₀ s) : Keeps s₀ (State.sojourned s p q f) := by
  unfold State.sojourned; extract_lets +onlyGivenNames z7; extract_lets +onlyGivenNames z8; apply State.setSide_keeps; exact h
theorem State.mirrorSent_keeps {s₀ : State} {s : State} (p : ℕ) (f : Frame) (len : ℕ) (h : Keeps s₀ s) : Keeps s₀ (State.mirrorSent s p f len) := by
  unfold State.mirrorSent; apply State.forEach_keeps
  · intro a7 a8 t9 h10; apply State.mirrorFrame_keeps; exact h10
  · exact h
theorem State.debit_keeps {s₀ : State} {s : State} (p : ℕ) (q : ℕ) (c : Copy) (h : Keeps s₀ s) : Keeps s₀ (State.debit s p q c) := by
  unfold State.debit; split
  · apply State.setSide_keeps; exact h
  · exact h
theorem State.begin_keeps {s₀ : State} {s : State} (p : ℕ) (q : ℕ) (f : Frame) (c : Copy) (bytes : List Byte) (padded : Bool) (h : Keeps s₀ s) : Keeps s₀ (State.begin s p q f c bytes padded) := by
  unfold State.begin; extract_lets +onlyGivenNames z10
  have kz10 : Keeps s₀ z10 := by
    unfold z10; apply State.sojourned_keeps; apply State.startStamp_keeps; apply State.debit_keeps; exact h
  clear_value z10; revert z10; refine id ?_; intro z10 kz10; extract_lets +onlyGivenNames z12
  have kz12 : Keeps s₀ z12 := by
    unfold z12; apply State.countSent_keeps; exact kz10
  clear_value z12; revert z12; refine id ?_; intro z12 kz12; extract_lets +onlyGivenNames z14
  have kz14 : Keeps s₀ z14 := by
    unfold z14; split
    · apply State.count_keeps; exact kz12
    · exact kz12
  clear_value z14; revert z14; refine id ?_; intro z14 kz14; extract_lets +onlyGivenNames z16
  have kz16 : Keeps s₀ z16 := by
    unfold z16; split
    · apply State.count_keeps; exact kz14
    · exact kz14
  clear_value z16; revert z16; refine id ?_; intro z16 kz16; extract_lets +onlyGivenNames z18
  have kz18 : Keeps s₀ z18 := by
    unfold z18; apply State.setSide_keeps; exact kz16
  clear_value z18; revert z18; refine id ?_; intro z18 kz18; apply State.judge_keeps; apply State.busy_keeps; exact kz18
theorem State.start_keeps {s₀ : State} {s : State} (p : ℕ) (q : ℕ) (buf : ℕ) (h : Keeps s₀ s) : Keeps s₀ (State.start s p q buf) := by
  unfold State.start; split
  · exact h
  · split
    · exact h
    · extract_lets +onlyGivenNames z18; extract_lets +onlyGivenNames z19; extract_lets +onlyGivenNames z20
      extract_lets +onlyGivenNames z21
      have kz21 : Keeps s₀ z21 := by
        unfold z21; apply State.setQ_keeps; exact h
      clear_value z21; revert z21; refine id ?_; intro z21 kz21; split
      · apply State.released_keeps; apply State.deadCopy_keeps; apply State.stat_keeps; exact kz21
      · extract_lets +onlyGivenNames z24
        have kz24 : Keeps s₀ z24 := by
          unfold z24; apply State.mirrorSent_keeps; apply State.begin_keeps; exact kz21
        clear_value z24; revert z24; refine id ?_; intro z24 kz24; split
        · apply State.emit_keeps; exact kz24
        · split
          · apply State.deliverHost_keeps; exact kz24
          · split
            · apply State.reenter_keeps; exact kz24
            · exact kz24
theorem State.egressReady_keeps {s₀ : State} {s : State} (p : ℕ) (h : Keeps s₀ s) : Keeps s₀ (State.egressReady s p) := by
  unfold State.egressReady; extract_lets +onlyGivenNames z5
  have kz5 : Keeps s₀ z5 := by
    unfold z5; apply State.forEach_keeps
    · intro a6 a7 t8 h9; apply State.judge_keeps; apply State.cleanHead_keeps; exact h9
    · exact h
  clear_value z5; revert z5; refine id ?_; intro z5 kz5; extract_lets +onlyGivenNames z7
  have kz7 : Keeps s₀ z7 := by
    unfold z7; apply State.collect_keeps; exact kz5
  clear_value z7; revert z7; refine id ?_; intro z7 kz7; split
  · apply State.calYield_keeps; exact kz7
  · exact kz7
theorem State.cutAt_keeps {s₀ : State} {s : State} (p : ℕ) (n : ℕ) (t : Sending) (h : Keeps s₀ s) : Keeps s₀ (State.cutAt s p n t) := by
  unfold State.cutAt; extract_lets +onlyGivenNames z7
  have kz7 : Keeps s₀ z7 := by
    unfold z7; apply State.stat_keeps; exact h
  clear_value z7; revert z7; refine id ?_; intro z7 kz7; extract_lets +onlyGivenNames z9
  have kz9 : Keeps s₀ z9 := by
    unfold z9; split
    · apply State.stat_keeps; exact kz7
    · exact kz7
  clear_value z9; revert z9; refine id ?_; intro z9 kz9; apply State.setSide_keeps; exact kz9
theorem State.resume_keeps {s₀ : State} {s : State} (p : ℕ) (t : Sending) (h : Keeps s₀ s) : Keeps s₀ (State.resume s p t) := by
  unfold State.resume; split
  · apply State.setSide_keeps; exact h
  · exact h
theorem State.startNext_keeps {s₀ : State} {s : State} (p : ℕ) (buf : ℕ) (h : Keeps s₀ s) : Keeps s₀ (State.startNext s p buf) := by
  unfold State.startNext; split
  · apply State.start_keeps; exact h
  · split
    · apply State.resume_keeps; exact h
    · split
      · apply State.start_keeps; apply State.choose_keeps; exact h
      · apply State.choose_keeps; exact h
theorem State.sendNext_keeps {s₀ : State} {s : State} (p : ℕ) (buf : ℕ) (h : Keeps s₀ s) : Keeps s₀ (State.sendNext s p buf) := by
  unfold State.sendNext; split
  · split
    · apply State.startNext_keeps; apply State.cutAt_keeps; exact h
    · exact h
  · apply State.startNext_keeps; exact h
theorem execEgressFrameStart_keeps {s₀ : State} (p : ℕ) (buf : ℕ) {s : State} (h : Keeps s₀ s) : NextKeeps s₀ (execEgressFrameStart p buf s) := by
  unfold execEgressFrameStart; apply NextKeeps.atUnit
  · apply State.fresh_keeps; exact h
  · apply State.sendNext_keeps; apply State.egressReady_keeps; apply State.epochDue_keeps; apply State.fresh_keeps; exact h
theorem execCopyDeparture_keeps {s₀ : State} (p : ℕ) {s : State} (h : Keeps s₀ s) : NextKeeps s₀ (execCopyDeparture p s) := by
  unfold execCopyDeparture; extract_lets +onlyGivenNames z5
  have kz5 : Keeps s₀ z5 := by
    unfold z5; apply State.fresh_keeps; exact h
  clear_value z5; revert z5; refine id ?_; intro z5 kz5; apply NextKeeps.atUnit
  · exact kz5
  · split
    · exact kz5
    · extract_lets +onlyGivenNames z12
      have kz12 : Keeps s₀ z12 := by
        unfold z12; split
        · apply State.stat_keeps; exact kz5
        · exact kz5
      clear_value z12; revert z12; refine id ?_; intro z12 kz12; extract_lets +onlyGivenNames z14
      have kz14 : Keeps s₀ z14 := by
        unfold z14; apply State.released_keeps; apply State.busy_keeps; apply State.setSide_keeps; exact kz12
      clear_value z14; revert z14; refine id ?_; intro z14 kz14; split
      · apply State.endVisit_keeps; exact kz14
      · exact kz14
theorem State.loseChannel_keeps {s₀ : State} {s : State} (c : ℕ) (h : Keeps s₀ s) : Keeps s₀ (State.loseChannel s c).1 := by
  unfold State.loseChannel; extract_lets +onlyGivenNames z5; extract_lets +onlyGivenNames z6
  have kz6 : Keeps s₀ z6.1 := by
    unfold z6; apply Keeps.foldl_fst
    · dsimp -zeta -zetaHave only; exact h
    · intro a7 a8 h9; extract_lets +onlyGivenNames z10; split
      · extract_lets +onlyGivenNames z12
        have kz12 : Keeps s₀ z12.1 := by
          unfold z12; apply State.losePages_keeps; exact h9
        clear_value z12; revert z12; refine id ?_; intro z12 kz12; dsimp -zeta -zetaHave only; exact kz12
      · exact h9
  clear_value z6; revert z6; refine id ?_; intro z6 kz6; split
  · dsimp -zeta -zetaHave only; apply State.forEach_keeps
    · intro a9 a10 t11 h12; split
      · apply State.mergeTail_keeps; exact h12
      · exact h12
    · exact kz6
  · exact kz6
theorem State.channelLeave_keeps {s₀ : State} {s : State} (c : ℕ) (st : ℕ) (cause : ℕ) (h : Keeps s₀ s) : Keeps s₀ (State.channelLeave s c st cause) := by
  unfold State.channelLeave; extract_lets +onlyGivenNames z7; extract_lets +onlyGivenNames z8
  have kz8 : Keeps s₀ z8 := by
    unfold z8; apply State.setf_keeps; apply State.setf_keeps; exact h
  clear_value z8; revert z8; refine id ?_; intro z8 kz8; split
  · extract_lets +onlyGivenNames z11
    have kz11 : Keeps s₀ z11.1 := by
      unfold z11; apply State.loseChannel_keeps; exact kz8
    clear_value z11; revert z11; refine id ?_; intro z11 kz11; apply State.refresh_keeps; apply State.pfcCheckAll_keeps
    apply State.moveK_keeps; apply State.raise_keeps; exact kz11
  · apply State.refresh_keeps; exact kz8
theorem State.retiredCheck_keeps {s₀ : State} {s : State} (c : ℕ) (h : Keeps s₀ s) : Keeps s₀ (State.retiredCheck s c) := by
  unfold State.retiredCheck; extract_lets +onlyGivenNames z5; extract_lets +onlyGivenNames z6
  have kz6 : Keeps s₀ z6 := by
    unfold z6; apply State.set_keeps; exact h
  clear_value z6; revert z6; refine id ?_; intro z6 kz6; split
  · apply State.channelLeave_keeps; exact kz6
  · exact kz6
theorem State.retirePage_keeps {s₀ : State} {s : State} (c : ℕ) (n : ℕ) (cause : ℕ) (lost : ℕ) (h : Keeps s₀ s) : Keeps s₀ (State.retirePage s c n cause lost) := by
  unfold State.retirePage; extract_lets +onlyGivenNames z8
  have kz8 : Keeps s₀ z8 := by
    unfold z8; split
    · apply State.set_keeps; exact h
    · exact h
  clear_value z8; revert z8; refine id ?_; intro z8 kz8; apply State.retiredCheck_keeps; apply State.raise_keeps; exact kz8
theorem execPagePackTimer_keeps {s₀ : State} (p : ℕ) (q : ℕ) {s : State} (h : Keeps s₀ s) : NextKeeps s₀ (execPagePackTimer p q s) := by
  unfold execPagePackTimer; extract_lets +onlyGivenNames z6
  have kz6 : Keeps s₀ z6 := by
    unfold z6; apply State.fresh_keeps; exact h
  clear_value z6; revert z6; refine id ?_; intro z6 kz6; apply NextKeeps.atUnit
  · exact kz6
  · split
    · apply State.packPage_keeps; exact kz6
    · exact kz6
theorem State.pageWritten_keeps {s₀ : State} {s : State} (p : ℕ) (q : ℕ) (ch : ℕ) (page : ℕ) (h : Keeps s₀ s) : Keeps s₀ (State.pageWritten s p q ch page) := by
  unfold State.pageWritten; extract_lets +onlyGivenNames z8; split
  · exact h
  · extract_lets +onlyGivenNames z15; extract_lets +onlyGivenNames z16
    have kz16 : Keeps s₀ z16 := by
      unfold z16; apply State.setQ_keeps; exact h
    clear_value z16; revert z16; refine id ?_; intro z16 kz16; apply State.released_keeps; exact kz16
theorem execPageWriteDone_keeps {s₀ : State} (p : ℕ) (q : ℕ) (page : ℕ) (failed : Bool) {s : State} (h : Keeps s₀ s) : NextKeeps s₀ (execPageWriteDone p q page failed s) := by
  unfold execPageWriteDone; extract_lets +onlyGivenNames z8
  have kz8 : Keeps s₀ z8 := by
    unfold z8; apply State.fresh_keeps; exact h
  clear_value z8; revert z8; refine id ?_; intro z8 kz8; apply NextKeeps.atUnit
  · exact kz8
  · split
    · split
      · exact kz8
      · split
        · extract_lets +onlyGivenNames z17; extract_lets +onlyGivenNames z18
          have kz18 : Keeps s₀ z18 := by
            unfold z18; apply State.occurs_keeps; exact kz8.same (by unfold State.view; rfl)
          clear_value z18; revert z18; refine id ?_; intro z18 kz18; split
          · apply State.retirePage_keeps; exact kz18
          · apply State.pageWritten_keeps; exact kz18
        · exact kz8
    · exact kz8
theorem State.pageRead_keeps {s₀ : State} {s : State} (p : ℕ) (q : ℕ) (g : Page) (rest : List Page) (h : Keeps s₀ s) : Keeps s₀ (State.pageRead s p q g rest) := by
  unfold State.pageRead; extract_lets +onlyGivenNames z8; extract_lets +onlyGivenNames z9; apply State.setQ_keeps; exact h
theorem State.uncorrectable_keeps {s₀ : State} {s : State} (c : ℕ) (h : Keeps s₀ s) : Keeps s₀ (State.uncorrectable s c) := by
  unfold State.uncorrectable; extract_lets +onlyGivenNames z5; extract_lets +onlyGivenNames z6; extract_lets +onlyGivenNames z7
  have kz7 : Keeps s₀ z7 := by
    unfold z7; exact h.same (by unfold State.view; rfl)
  clear_value z7; revert z7; refine id ?_; intro z7 kz7; extract_lets +onlyGivenNames z9
  have kz9 : Keeps s₀ z9 := by
    unfold z9; apply State.count_keeps; exact kz7
  clear_value z9; revert z9; refine id ?_; intro z9 kz9; split
  · apply State.channelLeave_keeps; exact kz9
  · exact kz9
theorem execPageReadDone_keeps {s₀ : State} (p : ℕ) (q : ℕ) (corrected : ℕ) (bad : Bool) {s : State} (h : Keeps s₀ s) : NextKeeps s₀ (execPageReadDone p q corrected bad s) := by
  unfold execPageReadDone; extract_lets +onlyGivenNames z8
  have kz8 : Keeps s₀ z8 := by
    unfold z8; apply State.fresh_keeps; exact h
  clear_value z8; revert z8; refine id ?_; intro z8 kz8; apply NextKeeps.atUnit
  · exact kz8
  · extract_lets +onlyGivenNames z10; split
    · exact kz8
    · split
      · extract_lets +onlyGivenNames z18
        have kz18 : Keeps s₀ z18 := by
          unfold z18; apply State.occurs_keeps; apply State.count_keeps; exact kz8
        clear_value z18; revert z18; refine id ?_; intro z18 kz18; split
        · extract_lets +onlyGivenNames z21; extract_lets +onlyGivenNames z22; extract_lets +onlyGivenNames z23
          have kz23 : Keeps s₀ z23 := by
            unfold z23; apply State.dropSerials_keeps; apply State.setQ_keeps; exact kz18
          clear_value z23; revert z23; refine id ?_; intro z23 kz23; apply State.released_keeps; apply State.uncorrectable_keeps
          apply State.retirePage_keeps; exact kz23
        · apply State.released_keeps; apply State.pageRead_keeps; exact kz18
      · exact kz8
theorem execStackChainAbandoned_keeps {s₀ : State} {s : State} (h : Keeps s₀ s) : NextKeeps s₀ (execStackChainAbandoned s) := by
  unfold execStackChainAbandoned; extract_lets +onlyGivenNames z4
  have kz4 : Keeps s₀ z4 := by
    unfold z4; apply State.fresh_keeps; exact h
  clear_value z4; revert z4; refine id ?_; intro z4 kz4; apply NextKeeps.next; split
  · exact kz4
  · apply State.raise_keeps; exact kz4.same (by unfold State.view; rfl)
theorem execDdrTrainingDone_keeps {s₀ : State} (c : ℕ) (step : ℕ) (readEye : ℕ) (writeEye : ℕ) (vref : ℕ) {s : State} (h : Keeps s₀ s) : NextKeeps s₀ (execDdrTrainingDone c step readEye writeEye vref s) := by
  unfold execDdrTrainingDone; extract_lets +onlyGivenNames z9
  have kz9 : Keeps s₀ z9 := by
    unfold z9; apply State.fresh_keeps; exact h
  clear_value z9; revert z9; refine id ?_; intro z9 kz9; apply NextKeeps.atUnit
  · exact kz9
  · split
    · extract_lets +onlyGivenNames z12; extract_lets +onlyGivenNames z13
      have kz13 : Keeps s₀ z13 := by
        unfold z13; apply State.set_keeps; exact kz9
      clear_value z13; revert z13; refine id ?_; intro z13 kz13; extract_lets +onlyGivenNames z15
      extract_lets +onlyGivenNames z16; split
      · apply State.refresh_keeps; unfold z16; apply State.setf_keeps; apply State.setf_keeps; exact kz13
      · split
        · apply State.refresh_keeps; unfold z16; apply State.setf_keeps; apply State.setf_keeps; exact kz13
        · extract_lets +onlyGivenNames z19
          have kz19 : Keeps s₀ z19 := by
            unfold z19; unfold z16; apply State.setf_keeps; apply State.setf_keeps; exact kz13
          clear_value z19; revert z19; refine id ?_; intro z19 kz19; apply State.refresh_keeps; apply State.retiredCheck_keeps
          exact kz19.same (by unfold State.view; rfl)
    · exact kz9
theorem execDqsDriftTrack_keeps {s₀ : State} (c : ℕ) {s : State} (h : Keeps s₀ s) : NextKeeps s₀ (execDqsDriftTrack c s) := by
  unfold execDqsDriftTrack; apply NextKeeps.atUnit
  · apply State.fresh_keeps; exact h
  · apply State.fresh_keeps; exact h
theorem State.chEnCleared_keeps {s₀ : State} {s : State} (old : ℕ) (h : Keeps s₀ s) : Keeps s₀ (State.chEnCleared s old) := by
  unfold State.chEnCleared; apply State.forEach_keeps
  · intro a5 a6 t7 h8; split
    · apply State.channelLeave_keeps; exact h8
    · exact h8
  · exact h
theorem State.dropFrame_keeps {s₀ : State} {s : State} (ident : ℕ) (h : Keeps s₀ s) : Keeps s₀ (State.dropFrame s ident) := by
  unfold State.dropFrame; split
  · exact h
  · extract_lets +onlyGivenNames z10
    have kz10 : Keeps s₀ z10 := by
      unfold z10; apply State.stat_keeps; exact h
    clear_value z10; revert z10; refine id ?_; intro z10 kz10; extract_lets +onlyGivenNames z12
    extract_lets +onlyGivenNames z13
    have kz13 : Keeps s₀ z13 := by
      unfold z13; apply State.forEach_keeps
      · intro a14 a15 t16 h17; apply State.removeCopies_keeps; exact h17
      · exact kz10
    clear_value z13; revert z13; refine id ?_; intro z13 kz13; apply State.pfcCheckAll_keeps; apply State.moveK_keeps
    apply State.forEach_keeps
    · intro a15 a16 t17 h18; apply State.spillCheck_keeps; exact h18
    · exact kz13
theorem State.cutUnderway_keeps {s₀ : State} {s : State} (p : ℕ) (test : Sending → Bool) (h : Keeps s₀ s) : Keeps s₀ (State.cutUnderway s p test) := by
  unfold State.cutUnderway; extract_lets +onlyGivenNames z6; extract_lets +onlyGivenNames z7; extract_lets +onlyGivenNames z8
  have kz8 : Keeps s₀ z8 := by
    unfold z8; apply State.setSide_keeps; exact h
  clear_value z8; revert z8; refine id ?_; intro z8 kz8; apply State.forEach_keeps
  · intro a10 a11 t12 h13; apply State.deadCopy_keeps; exact h13
  · exact kz8
theorem State.cutFrames_keeps {s₀ : State} {s : State} (ids : List ℕ) (h : Keeps s₀ s) : Keeps s₀ (State.cutFrames s ids) := by
  unfold State.cutFrames; apply State.forEach_keeps
  · intro a5 a6 t7 h8; extract_lets +onlyGivenNames z9
    have kz9 : Keeps s₀ z9 := by
      unfold z9; apply State.forEach_keeps
      · intro a10 a11 t12 h13; apply State.cutUnderway_keeps; exact h13
      · exact h8
    clear_value z9; revert z9; refine id ?_; intro z9 kz9; apply State.dropFrame_keeps; exact kz9
  · exact h
theorem State.internalDrops_keeps {s₀ : State} {s : State} (ps : List ℕ) (h : Keeps s₀ s) : Keeps s₀ (State.internalDrops s ps) := by
  unfold State.internalDrops; extract_lets +onlyGivenNames z5; extract_lets +onlyGivenNames z6
  have kz6 : Keeps s₀ z6 := by
    unfold z6; apply State.forEach_keeps
    · intro a7 a8 t9 h10; apply State.stat_keeps; exact h10
    · exact h
  clear_value z6; revert z6; refine id ?_; intro z6 kz6; apply State.collect_keeps; apply State.forEach_keeps
  · intro a8 a9 t10 h11; apply State.cutUnderway_keeps; exact h11
  · exact kz6
theorem State.cutUpper_keeps {s₀ : State} {s : State} (h : Keeps s₀ s) : Keeps s₀ (State.cutUpper s) := by
  unfold State.cutUpper; extract_lets +onlyGivenNames z4
  have kz4 : Keeps s₀ z4 := by
    unfold z4; apply State.cutFrames_keeps; exact h
  clear_value z4; revert z4; refine id ?_; intro z4 kz4; extract_lets +onlyGivenNames z6
  have kz6 : Keeps s₀ z6 := by
    unfold z6; apply State.forEach_keeps
    · intro a7 a8 t9 h10; apply State.setQ_keeps; exact h10
    · exact kz4
  clear_value z6; revert z6; refine id ?_; intro z6 kz6; extract_lets +onlyGivenNames z8; apply State.refillAll_keeps
  exact kz6.same (by unfold State.view; rfl)
theorem State.faultCells_keeps {s₀ : State} {s : State} (mem : ℕ) (frame : Option ℕ) (cells : List ℕ) (h : Keeps s₀ s) : Keeps s₀ (State.faultCells s mem frame cells) := by
  unfold State.faultCells; extract_lets +onlyGivenNames z7; split
  · extract_lets +onlyGivenNames z9; exact h.same (by unfold State.view; rfl)
  · extract_lets +onlyGivenNames z9; exact h.same (by unfold State.view; rfl)
theorem execBufMemFault_keeps {s₀ : State} (mem : ℕ) (corrected : Bool) (frame : Option ℕ) (cells : List ℕ) {s : State} (h : Keeps s₀ s) : NextKeeps s₀ (execBufMemFault mem corrected frame cells s) := by
  unfold execBufMemFault; extract_lets +onlyGivenNames z8
  have kz8 : Keeps s₀ z8 := by
    unfold z8; apply State.fresh_keeps; exact h
  clear_value z8; revert z8; refine id ?_; intro z8 kz8; apply NextKeeps.atUnit
  · exact kz8
  · split
    · apply State.count_keeps; exact kz8
    · extract_lets +onlyGivenNames z11; extract_lets +onlyGivenNames z12
      have kz12 : Keeps s₀ z12 := by
        unfold z12; apply State.raise_keeps; apply State.count_keeps; exact kz8
      clear_value z12; revert z12; refine id ?_; intro z12 kz12; extract_lets +onlyGivenNames z14
      have kz14 : Keeps s₀ z14 := by
        unfold z14; apply State.faultCells_keeps; exact kz12
      clear_value z14; revert z14; refine id ?_; intro z14 kz14; split
      · apply State.dropFrame_keeps; exact kz14
      · exact kz14
theorem State.finding_keeps {s₀ : State} {s : State} (kind : ℕ) (action : ℕ) (cell : ℕ) (h : Keeps s₀ s) : Keeps s₀ (State.finding s kind action cell) := by
  unfold State.finding; extract_lets +onlyGivenNames z7; extract_lets +onlyGivenNames z8; extract_lets +onlyGivenNames z9
  have kz9 : Keeps s₀ z9 := by
    unfold z9; apply State.set_keeps; exact h
  clear_value z9; revert z9; refine id ?_; intro z9 kz9; extract_lets +onlyGivenNames z11
  have kz11 : Keeps s₀ z11 := by
    unfold z11; split
    · exact kz9
    · apply State.mark_keeps; exact kz9
  clear_value z11; revert z11; refine id ?_; intro z11 kz11; extract_lets +onlyGivenNames z13; extract_lets +onlyGivenNames z14
  have kz14 : Keeps s₀ z14 := by
    unfold z14; exact kz11.same (by unfold State.view; rfl)
  clear_value z14; revert z14; refine id ?_; intro z14 kz14; extract_lets +onlyGivenNames z16; extract_lets +onlyGivenNames z17
  have kz17 : Keeps s₀ z17 := by
    unfold z17; exact kz14.same (by unfold State.view; rfl)
  clear_value z17; revert z17; refine id ?_; intro z17 kz17; split
  · apply State.raise_keeps; exact kz17
  · exact kz17
theorem State.auditLeak_keeps {s₀ : State} {s : State} (c : ℕ) (h : Keeps s₀ s) : Keeps s₀ (State.auditLeak s c) := by
  unfold State.auditLeak; extract_lets +onlyGivenNames z5; extract_lets +onlyGivenNames z6; extract_lets +onlyGivenNames z7
  split
  · extract_lets +onlyGivenNames z9
    have kz9 : Keeps s₀ z9 := by
      unfold z9; apply State.count_keeps; unfold z7; exact h.same (by unfold State.view; rfl)
    clear_value z9; revert z9; refine id ?_; intro z9 kz9; split
    · extract_lets +onlyGivenNames z12; extract_lets +onlyGivenNames z13
      have kz13 : Keeps s₀ z13 := by
        unfold z13; exact kz9.same (by unfold State.view; rfl)
      clear_value z13; revert z13; refine id ?_; intro z13 kz13; apply State.finding_keeps; apply State.count_keeps; exact kz13
    · apply State.finding_keeps; exact kz9
  · split
    · unfold z7; exact h.same (by unfold State.view; rfl)
    · exact h
theorem State.stompSending_keeps {s₀ : State} {s : State} (ident : ℕ) (h : Keeps s₀ s) : Keeps s₀ (State.stompSending s ident) := by
  unfold State.stompSending; apply State.forEach_keeps
  · intro a5 a6 t7 h8; extract_lets +onlyGivenNames z9; extract_lets +onlyGivenNames z10; extract_lets +onlyGivenNames z11
    have kz11 : Keeps s₀ z11 := by
      unfold z11; apply State.setSide_keeps; exact h8
    clear_value z11; revert z11; refine id ?_; intro z11 kz11; apply State.forEach_keeps
    · intro a13 a14 t15 h16; apply State.recountStomped_keeps; apply State.emit_keeps; exact h16
    · exact kz11
  · exact h
theorem State.auditCross_keeps {s₀ : State} {s : State} (cell : ℕ) (h : Keeps s₀ s) : Keeps s₀ (State.auditCross s cell) := by
  unfold State.auditCross; extract_lets +onlyGivenNames z5; extract_lets +onlyGivenNames z6; extract_lets +onlyGivenNames z7
  have kz7 : Keeps s₀ z7 := by
    unfold z7; exact h.same (by unfold State.view; rfl)
  clear_value z7; revert z7; refine id ?_; intro z7 kz7; extract_lets +onlyGivenNames z9
  have kz9 : Keeps s₀ z9 := by
    unfold z9; apply State.forEach_keeps
    · intro a10 a11 t12 h13; apply State.dropFrame_keeps; apply State.stompSending_keeps; exact h13
    · exact kz7
  clear_value z9; revert z9; refine id ?_; intro z9 kz9; apply State.finding_keeps; apply State.count_keeps; exact kz9
theorem State.upset_keeps {s₀ : State} {s : State} (crosslinks : List ℕ) (strayed : List ℕ) (h : Keeps s₀ s) : Keeps s₀ (State.upset s crosslinks strayed) := by
  unfold State.upset; apply State.faultCells_keeps; apply State.faultCells_keeps; exact h
theorem execAuditPass_keeps {s₀ : State} (crosslinks : List ℕ) (strayed : List ℕ) {s : State} (h : Keeps s₀ s) : NextKeeps s₀ (execAuditPass crosslinks strayed s) := by
  unfold execAuditPass; extract_lets +onlyGivenNames z6
  have kz6 : Keeps s₀ z6 := by
    unfold z6; apply State.fresh_keeps; exact h
  clear_value z6; revert z6; refine id ?_; intro z6 kz6; extract_lets +onlyGivenNames z8; apply NextKeeps.next; split
  · extract_lets +onlyGivenNames z10
    have kz10 : Keeps s₀ z10 := by
      unfold z10; apply State.upset_keeps; exact kz6
    clear_value z10; revert z10; refine id ?_; intro z10 kz10; extract_lets +onlyGivenNames z12
    extract_lets +onlyGivenNames z13
    have kz13 : Keeps s₀ z13 := by
      unfold z13; exact kz10.same (by unfold State.view; rfl)
    clear_value z13; revert z13; refine id ?_; intro z13 kz13; extract_lets +onlyGivenNames z15
    extract_lets +onlyGivenNames z16; extract_lets +onlyGivenNames z17
    have kz17 : Keeps s₀ z17 := by
      unfold z17; apply State.forEach_keeps
      · intro a18 a19 t20 h21; apply State.auditLeak_keeps; exact h21
      · exact kz13
    clear_value z17; revert z17; refine id ?_; intro z17 kz17; extract_lets +onlyGivenNames z19
    have kz19 : Keeps s₀ z19 := by
      unfold z19; apply State.forEach_keeps
      · intro a20 a21 t22 h23; apply State.auditCross_keeps; exact h23
      · exact kz17
    clear_value z19; revert z19; refine id ?_; intro z19 kz19; extract_lets +onlyGivenNames z21
    have kz21 : Keeps s₀ z21 := by
      unfold z21; apply State.forEach_keeps
      · intro a22 a23 t24 h25; apply State.finding_keeps; apply State.count_keeps; exact h25
      · exact kz19
    clear_value z21; revert z21; refine id ?_; intro z21 kz21; apply State.wrap_keeps; exact kz21
  · exact kz6

end Sys2Proof.Machine
end

