-- ==== Sys2Proof/Laws/KeepsPorts.lean ====
section
/-! SUPPORT. What ports and links keep: one lemma for each operation, in the words of Laws.Keeps. -/
namespace Sys2Proof.Machine

theorem State.startLanes_keeps {s₀ : State} {s : State} (p : ℕ) (h : Keeps s₀ s) : Keeps s₀ (State.startLanes s p) := by
  unfold State.startLanes; apply State.forEach_keeps
  · intro a5 a6 t7 h8; extract_lets +onlyGivenNames z9
    have kz9 : Keeps s₀ z9 := by
      unfold z9; apply State.setf_keeps; apply State.setRx_keeps; apply State.set_keeps; exact h8
    clear_value z9; revert z9; refine id ?_; intro z9 kz9; apply State.txStart_keeps; apply State.laneUncal_keeps; exact kz9
  · exact h
theorem State.stopLanes_keeps {s₀ : State} {s : State} (p : ℕ) (h : Keeps s₀ s) : Keeps s₀ (State.stopLanes s p) := by
  unfold State.stopLanes; apply State.forEach_keeps
  · intro a5 a6 t7 h8; apply State.set_keeps; apply State.setTx_keeps; apply State.setRx_keeps; apply State.laneLose_keeps
    exact h8
  · exact h
theorem State.linkDown_keeps {s₀ : State} {s : State} (p : ℕ) (cause : ℕ) (h : Keeps s₀ s) : Keeps s₀ (State.linkDown s p cause) := by
  unfold State.linkDown; extract_lets +onlyGivenNames z6
  have kz6 : Keeps s₀ z6 := by
    unfold z6; split
    · apply State.raise_keeps; apply State.stat_keeps; apply State.setf_keeps; exact h
    · exact h
  clear_value z6; revert z6; refine id ?_; intro z6 kz6; apply State.portRecheck_keeps; exact kz6
theorem execPortLinkDown_keeps {s₀ : State} (p : ℕ) (cause : ℕ) {s : State} (h : Keeps s₀ s) : NextKeeps s₀ (execPortLinkDown p cause s) := by
  unfold execPortLinkDown; extract_lets +onlyGivenNames z6
  have kz6 : Keeps s₀ z6 := by
    unfold z6; apply State.fresh_keeps; exact h
  clear_value z6; revert z6; refine id ?_; intro z6 kz6; apply NextKeeps.atUnit
  · exact kz6
  · apply State.linkDown_keeps; exact kz6
theorem State.mergeSet_keeps {s₀ : State} {s : State} (p : ℕ) (st : ℕ) (h : Keeps s₀ s) : Keeps s₀ (State.mergeSet s p st) := by
  unfold State.mergeSet; split
  · exact h
  · apply State.raise_keeps; apply State.setf_keeps; exact h
theorem State.mergeInit_keeps {s₀ : State} {s : State} (p : ℕ) (h : Keeps s₀ s) : Keeps s₀ (State.mergeInit s p) := by
  unfold State.mergeInit; extract_lets +onlyGivenNames z5; apply State.mergeSet_keeps; apply State.setSide_keeps; exact h
theorem execMergeVerifyTimer_keeps {s₀ : State} (p : ℕ) (answered : Bool) {s : State} (h : Keeps s₀ s) : NextKeeps s₀ (execMergeVerifyTimer p answered s) := by
  unfold execMergeVerifyTimer; extract_lets +onlyGivenNames z6
  have kz6 : Keeps s₀ z6 := by
    unfold z6; apply State.fresh_keeps; exact h
  clear_value z6; revert z6; refine id ?_; intro z6 kz6; extract_lets +onlyGivenNames z8; extract_lets +onlyGivenNames z9
  apply NextKeeps.atUnit
  · exact kz6
  · split
    · exact kz6
    · split
      · apply State.emit_keeps; apply State.mergeSet_keeps; apply State.setSide_keeps; exact kz6
      · split
        · split
          · apply State.mergeSet_keeps; exact kz6
          · split
            · exact kz6
            · split
              · apply State.mergeSet_keeps; exact kz6
              · apply State.emit_keeps; apply State.setSide_keeps; exact kz6
        · exact kz6
theorem execPortLinkUp_keeps {s₀ : State} (p : ℕ) (cause : ℕ) {s : State} (h : Keeps s₀ s) : NextKeeps s₀ (execPortLinkUp p cause s) := by
  unfold execPortLinkUp; extract_lets +onlyGivenNames z6
  have kz6 : Keeps s₀ z6 := by
    unfold z6; apply State.fresh_keeps; exact h
  clear_value z6; revert z6; refine id ?_; intro z6 kz6; apply NextKeeps.atUnit
  · exact kz6
  · split
    · extract_lets +onlyGivenNames z9
      have kz9 : Keeps s₀ z9 := by
        unfold z9; apply State.setf_keeps; exact kz6
      clear_value z9; revert z9; refine id ?_; intro z9 kz9; extract_lets +onlyGivenNames z11
      have kz11 : Keeps s₀ z11 := by
        unfold z11; split
        · apply State.setSide_keeps; apply State.setf_keeps; exact kz9
        · exact kz9
      clear_value z11; revert z11; refine id ?_; intro z11 kz11; extract_lets +onlyGivenNames z13
      have kz13 : Keeps s₀ z13 := by
        unfold z13; apply State.raise_keeps; exact kz11
      clear_value z13; revert z13; refine id ?_; intro z13 kz13; apply State.portRefresh_keeps; apply State.mergeInit_keeps
      exact kz13
    · exact kz6
theorem State.typeWritten_keeps {s₀ : State} {s : State} (p : ℕ) (code : ℕ) (h : Keeps s₀ s) : Keeps s₀ (State.typeWritten s p code) := by
  unfold State.typeWritten; extract_lets +onlyGivenNames z6
  have kz6 : Keeps s₀ z6 := by
    unfold z6; apply State.stopLanes_keeps; exact h
  clear_value z6; revert z6; refine id ?_; intro z6 kz6; extract_lets +onlyGivenNames z8
  have kz8 : Keeps s₀ z8 := by
    unfold z8; apply State.linkDown_keeps; apply State.linkInvalid_keeps; exact kz6
  clear_value z8; revert z8; refine id ?_; intro z8 kz8; extract_lets +onlyGivenNames z10
  have kz10 : Keeps s₀ z10 := by
    unfold z10; apply State.set_keeps; apply State.setf_keeps; exact kz8
  clear_value z10; revert z10; refine id ?_; intro z10 kz10; extract_lets +onlyGivenNames z12
  have kz12 : Keeps s₀ z12 := by
    unfold z12; apply State.setf_keeps; exact kz10
  clear_value z12; revert z12; refine id ?_; intro z12 kz12; extract_lets +onlyGivenNames z14
  have kz14 : Keeps s₀ z14 := by
    unfold z14; apply State.setSide_keeps; exact kz12
  clear_value z14; revert z14; refine id ?_; intro z14 kz14; extract_lets +onlyGivenNames z16
  have kz16 : Keeps s₀ z16 := by
    unfold z16; apply State.set_keeps; apply State.set_keeps; exact kz14
  clear_value z16; revert z16; refine id ?_; intro z16 kz16; extract_lets +onlyGivenNames z18
  have kz18 : Keeps s₀ z18 := by
    unfold z18; split
    · apply State.linkFix_keeps; apply State.startLanes_keeps; exact kz16
    · exact kz16
  clear_value z18; revert z18; refine id ?_; intro z18 kz18; apply State.poolCheck_keeps; apply State.portRefresh_keeps
  exact kz18
theorem execPfcXoffRefresh_keeps {s₀ : State} (p : ℕ) (pri : ℕ) {s : State} (h : Keeps s₀ s) : NextKeeps s₀ (execPfcXoffRefresh p pri s) := by
  unfold execPfcXoffRefresh; extract_lets +onlyGivenNames z6
  have kz6 : Keeps s₀ z6 := by
    unfold z6; apply State.fresh_keeps; exact h
  clear_value z6; revert z6; refine id ?_; intro z6 kz6; apply NextKeeps.atUnit
  · exact kz6
  · extract_lets +onlyGivenNames z8; extract_lets +onlyGivenNames z9; extract_lets +onlyGivenNames z10; split
    · exact kz6
    · apply State.sendPfc_keeps; exact kz6
theorem State.controlCounted_keeps {s₀ : State} {s : State} (p : ℕ) (h : Keeps s₀ s) : Keeps s₀ (State.controlCounted s p) := by
  unfold State.controlCounted; apply State.stat_keeps; apply State.stat_keeps; apply State.stat_keeps; apply State.stat_keeps
  exact h
theorem execPauseFrameReceive_keeps {s₀ : State} (p : ℕ) (quanta : ℕ) {s : State} (h : Keeps s₀ s) : NextKeeps s₀ (execPauseFrameReceive p quanta s) := by
  unfold execPauseFrameReceive; extract_lets +onlyGivenNames z6
  have kz6 : Keeps s₀ z6 := by
    unfold z6; apply State.fresh_keeps; exact h
  clear_value z6; revert z6; refine id ?_; intro z6 kz6; apply NextKeeps.atUnit
  · exact kz6
  · split
    · apply State.pauseReceived_keeps; apply State.controlCounted_keeps; exact kz6
    · exact kz6
theorem execPfcFrameReceive_keeps {s₀ : State} (p : ℕ) (enable : ℕ) (quanta : List ℕ) {s : State} (h : Keeps s₀ s) : NextKeeps s₀ (execPfcFrameReceive p enable quanta s) := by
  unfold execPfcFrameReceive; extract_lets +onlyGivenNames z7
  have kz7 : Keeps s₀ z7 := by
    unfold z7; apply State.fresh_keeps; exact h
  clear_value z7; revert z7; refine id ?_; intro z7 kz7; apply NextKeeps.atUnit
  · exact kz7
  · split
    · apply State.pfcReceived_keeps; apply State.controlCounted_keeps; exact kz7
    · exact kz7
theorem State.endStops_keeps {s₀ : State} {s : State} (p : ℕ) (l : List ℕ) (h : Keeps s₀ s) : Keeps s₀ (State.endStops s p l) := by
  unfold State.endStops; apply State.forEach_keeps
  · intro a6 a7 t8 h9; apply State.setf_keeps; exact h9
  · exact h
theorem execPauseQuantaExpiry_keeps {s₀ : State} (p : ℕ) (queues : ℕ) {s : State} (h : Keeps s₀ s) : NextKeeps s₀ (execPauseQuantaExpiry p queues s) := by
  unfold execPauseQuantaExpiry; extract_lets +onlyGivenNames z6
  have kz6 : Keeps s₀ z6 := by
    unfold z6; apply State.fresh_keeps; exact h
  clear_value z6; revert z6; refine id ?_; intro z6 kz6; apply NextKeeps.atUnit
  · exact kz6
  · apply State.endStops_keeps; exact kz6
theorem State.watchdogTrip_keeps {s₀ : State} {s : State} (p : ℕ) (m : ℕ) (ev : ℕ) (h : Keeps s₀ s) : Keeps s₀ (State.watchdogTrip s p m ev) := by
  unfold State.watchdogTrip; apply State.raise_keeps; apply State.stat_keeps; apply State.setf_keeps; apply State.setSide_keeps
  exact h
theorem execPauseWatchdogTrip_keeps {s₀ : State} (p : ℕ) (queues : ℕ) {s : State} (h : Keeps s₀ s) : NextKeeps s₀ (execPauseWatchdogTrip p queues s) := by
  unfold execPauseWatchdogTrip; extract_lets +onlyGivenNames z6
  have kz6 : Keeps s₀ z6 := by
    unfold z6; apply State.fresh_keeps; exact h
  clear_value z6; revert z6; refine id ?_; intro z6 kz6; apply NextKeeps.atUnit
  · exact kz6
  · extract_lets +onlyGivenNames z8; split
    · exact kz6
    · apply State.watchdogTrip_keeps; apply State.endStops_keeps; exact kz6
theorem execPauseIgnoreEnd_keeps {s₀ : State} (p : ℕ) (queues : ℕ) {s : State} (h : Keeps s₀ s) : NextKeeps s₀ (execPauseIgnoreEnd p queues s) := by
  unfold execPauseIgnoreEnd; extract_lets +onlyGivenNames z6
  have kz6 : Keeps s₀ z6 := by
    unfold z6; apply State.fresh_keeps; exact h
  clear_value z6; revert z6; refine id ?_; intro z6 kz6; apply NextKeeps.atUnit
  · exact kz6
  · extract_lets +onlyGivenNames z8; extract_lets +onlyGivenNames z9; extract_lets +onlyGivenNames z10; split
    · exact kz6
    · extract_lets +onlyGivenNames z12; apply State.raise_keeps; apply State.setf_keeps; apply State.setSide_keeps; exact kz6
theorem execLpiEntry_keeps {s₀ : State} (p : ℕ) (advertised : Bool) {s : State} (h : Keeps s₀ s) : NextKeeps s₀ (execLpiEntry p advertised s) := by
  unfold execLpiEntry; extract_lets +onlyGivenNames z6
  have kz6 : Keeps s₀ z6 := by
    unfold z6; apply State.fresh_keeps; exact h
  clear_value z6; revert z6; refine id ?_; intro z6 kz6; extract_lets +onlyGivenNames z8; apply NextKeeps.atUnit
  · exact kz6
  · split
    · extract_lets +onlyGivenNames z10
      have kz10 : Keeps s₀ z10 := by
        unfold z10; apply State.setSide_keeps; exact kz6
      clear_value z10; revert z10; refine id ?_; intro z10 kz10; apply State.stat_keeps; apply State.setf_keeps
      apply State.count_keeps; apply State.setTx_keeps; exact kz10
    · exact kz6
theorem State.txWake_keeps {s₀ : State} {s : State} (p : ℕ) (h : Keeps s₀ s) : Keeps s₀ (State.txWake s p) := by
  unfold State.txWake; extract_lets +onlyGivenNames z5; split
  · extract_lets +onlyGivenNames z7
    have kz7 : Keeps s₀ z7 := by
      unfold z7; apply State.setf_keeps; apply State.setTx_keeps; exact h
    clear_value z7; revert z7; refine id ?_; intro z7 kz7; exact kz7.same (by unfold State.view; rfl)
  · exact h
theorem execLpiTransmitExit_keeps {s₀ : State} (p : ℕ) {s : State} (h : Keeps s₀ s) : NextKeeps s₀ (execLpiTransmitExit p s) := by
  unfold execLpiTransmitExit; extract_lets +onlyGivenNames z5
  have kz5 : Keeps s₀ z5 := by
    unfold z5; apply State.fresh_keeps; exact h
  clear_value z5; revert z5; refine id ?_; intro z5 kz5; apply NextKeeps.atUnit
  · exact kz5
  · split
    · exact kz5
    · apply State.txWake_keeps; exact kz5
theorem State.withdrawStep_keeps {s₀ : State} {s : State} (p : ℕ) (h : Keeps s₀ s) : Keeps s₀ (State.withdrawStep s p) := by
  unfold State.withdrawStep; extract_lets +onlyGivenNames z5
  have kz5 : Keeps s₀ z5 := by
    unfold z5; apply State.setSide_keeps; exact h
  clear_value z5; revert z5; refine id ?_; intro z5 kz5; split
  · apply State.setf_keeps; exact kz5
  · exact kz5
theorem State.retune_keeps {s₀ : State} {s : State} (p : ℕ) (code : ℕ) (cause : ℕ) (h : Keeps s₀ s) : Keeps s₀ (State.retune s p code cause) := by
  unfold State.retune; extract_lets +onlyGivenNames z7; extract_lets +onlyGivenNames z8; extract_lets +onlyGivenNames z9
  have kz9 : Keeps s₀ z9 := by
    unfold z9; apply State.withdrawStep_keeps; exact h
  clear_value z9; revert z9; refine id ?_; intro z9 kz9; extract_lets +onlyGivenNames z11
  have kz11 : Keeps s₀ z11 := by
    unfold z11; apply State.setf_keeps; apply State.laneLose_keeps; exact kz9
  clear_value z11; revert z11; refine id ?_; intro z11 kz11; extract_lets +onlyGivenNames z13
  have kz13 : Keeps s₀ z13 := by
    unfold z13; apply State.setf_keeps; exact kz11
  clear_value z13; revert z13; refine id ?_; intro z13 kz13; extract_lets +onlyGivenNames z15
  have kz15 : Keeps s₀ z15 := by
    unfold z15; apply State.set_keeps; apply State.setf_keeps; exact kz13
  clear_value z15; revert z15; refine id ?_; intro z15 kz15; extract_lets +onlyGivenNames z17
  have kz17 : Keeps s₀ z17 := by
    unfold z17; apply State.stat_keeps; apply State.txStart_keeps; apply State.laneUncal_keeps; exact kz15
  clear_value z17; revert z17; refine id ?_; intro z17 kz17; apply State.raise_keeps; apply State.linkDown_keeps; exact kz17
theorem State.restoreSpeed_keeps {s₀ : State} {s : State} (p : ℕ) (cause : ℕ) (h : Keeps s₀ s) : Keeps s₀ (State.restoreSpeed s p cause) := by
  unfold State.restoreSpeed; split
  · apply State.retune_keeps; exact h
  · apply State.withdrawStep_keeps; exact h
theorem State.propose_keeps {s₀ : State} {s : State} (p : ℕ) (code : ℕ) (cause : ℕ) (h : Keeps s₀ s) : Keeps s₀ (State.propose s p code cause) := by
  unfold State.propose; extract_lets +onlyGivenNames z7; extract_lets +onlyGivenNames z8
  have kz8 : Keeps s₀ z8 := by
    unfold z8; apply State.setf_keeps; exact h
  clear_value z8; revert z8; refine id ?_; intro z8 kz8; extract_lets +onlyGivenNames z10
  have kz10 : Keeps s₀ z10 := by
    unfold z10; apply State.setSide_keeps; exact kz8
  clear_value z10; revert z10; refine id ?_; intro z10 kz10; apply State.deviceSend_keeps; exact kz10
theorem execSpeedStepEvaluate_keeps {s₀ : State} (p : ℕ) (rxDown : ℕ) (txDown : ℕ) (rxUp : ℕ) (txUp : ℕ) {s : State} (h : Keeps s₀ s) : NextKeeps s₀ (execSpeedStepEvaluate p rxDown txDown rxUp txUp s) := by
  unfold execSpeedStepEvaluate; extract_lets +onlyGivenNames z9
  have kz9 : Keeps s₀ z9 := by
    unfold z9; apply State.fresh_keeps; exact h
  clear_value z9; revert z9; refine id ?_; intro z9 kz9; apply NextKeeps.atUnit
  · exact kz9
  · extract_lets +onlyGivenNames z11; extract_lets +onlyGivenNames z12; extract_lets +onlyGivenNames z13; split
    · extract_lets +onlyGivenNames z15; extract_lets +onlyGivenNames z16; extract_lets +onlyGivenNames z17; split
      · apply State.propose_keeps; exact kz9
      · split
        · apply State.propose_keeps; exact kz9
        · exact kz9
    · exact kz9
theorem State.stepAnswered_keeps {s₀ : State} {s : State} (p : ℕ) (code : ℕ) (h : Keeps s₀ s) : Keeps s₀ (State.stepAnswered s p code) := by
  unfold State.stepAnswered; extract_lets +onlyGivenNames z6; extract_lets +onlyGivenNames z7; split
  · extract_lets +onlyGivenNames z9
    have kz9 : Keeps s₀ z9 := by
      unfold z9; apply State.withdrawStep_keeps; exact h
    clear_value z9; revert z9; refine id ?_; intro z9 kz9; extract_lets +onlyGivenNames z11
    have kz11 : Keeps s₀ z11 := by
      unfold z11; split
      · apply State.setSide_keeps; exact kz9
      · exact kz9
    clear_value z11; revert z11; refine id ?_; intro z11 kz11; apply State.raise_keeps; exact kz11
  · apply State.setSide_keeps; exact h
theorem State.stepProposed_keeps {s₀ : State} {s : State} (p : ℕ) (code : ℕ) (number : ℕ) (loadOk : Bool) (h : Keeps s₀ s) : Keeps s₀ (State.stepProposed s p code number loadOk) := by
  unfold State.stepProposed; extract_lets +onlyGivenNames z8; extract_lets +onlyGivenNames z9; extract_lets +onlyGivenNames z10
  have kz10 : Keeps s₀ z10 := by
    unfold z10; apply State.setf_keeps; exact h
  clear_value z10; revert z10; refine id ?_; intro z10 kz10; split
  · extract_lets +onlyGivenNames z13
    have kz13 : Keeps s₀ z13 := by
      unfold z13; apply State.setSide_keeps; exact kz10
    clear_value z13; revert z13; refine id ?_; intro z13 kz13; apply State.deviceSend_keeps; exact kz13
  · apply State.deviceSend_keeps; exact kz10
theorem execStepTlvReceive_keeps {s₀ : State} (p : ℕ) (code : ℕ) (number : ℕ) (loadOk : Bool) {s : State} (h : Keeps s₀ s) : NextKeeps s₀ (execStepTlvReceive p code number loadOk s) := by
  unfold execStepTlvReceive; extract_lets +onlyGivenNames z8
  have kz8 : Keeps s₀ z8 := by
    unfold z8; apply State.fresh_keeps; exact h
  clear_value z8; revert z8; refine id ?_; intro z8 kz8; apply NextKeeps.atUnit
  · exact kz8
  · split
    · exact kz8
    · split
      · apply State.stepAnswered_keeps; exact kz8
      · split
        · exact kz8
        · apply State.stepProposed_keeps; exact kz8
theorem execStepRetune_keeps {s₀ : State} (p : ℕ) {s : State} (h : Keeps s₀ s) : NextKeeps s₀ (execStepRetune p s) := by
  unfold execStepRetune; extract_lets +onlyGivenNames z5
  have kz5 : Keeps s₀ z5 := by
    unfold z5; apply State.fresh_keeps; exact h
  clear_value z5; revert z5; refine id ?_; intro z5 kz5; apply NextKeeps.atUnit
  · exact kz5
  · extract_lets +onlyGivenNames z7; split
    · extract_lets +onlyGivenNames z9; apply State.retune_keeps; exact kz5
    · exact kz5
theorem execStepProposalTimeout_keeps {s₀ : State} (p : ℕ) {s : State} (h : Keeps s₀ s) : NextKeeps s₀ (execStepProposalTimeout p s) := by
  unfold execStepProposalTimeout; extract_lets +onlyGivenNames z5
  have kz5 : Keeps s₀ z5 := by
    unfold z5; apply State.fresh_keeps; exact h
  clear_value z5; revert z5; refine id ?_; intro z5 kz5; apply NextKeeps.atUnit
  · exact kz5
  · split
    · apply State.withdrawStep_keeps; exact kz5
    · exact kz5
theorem State.markLane_keeps {s₀ : State} {s : State} (l : Lane) (new : ℕ) (h : Keeps s₀ s) : Keeps s₀ (State.markLane s l new) := by
  unfold State.markLane; extract_lets +onlyGivenNames z6; split
  · exact h
  · extract_lets +onlyGivenNames z8
    have kz8 : Keeps s₀ z8 := by
      unfold z8; apply State.setf_keeps; exact h
    clear_value z8; revert z8; refine id ?_; intro z8 kz8; extract_lets +onlyGivenNames z10
    have kz10 : Keeps s₀ z10 := by
      unfold z10; split
      · exact kz8
      · apply State.setf_keeps; exact kz8
    clear_value z10; revert z10; refine id ?_; intro z10 kz10; extract_lets +onlyGivenNames z12
    have kz12 : Keeps s₀ z12 := by
      unfold z12; apply State.setf_keeps; exact kz10
    clear_value z12; revert z12; refine id ?_; intro z12 kz12; apply State.raise_keeps; exact kz12
theorem execTimingMarkEvaluation_keeps {s₀ : State} (p : ℕ) {s : State} (h : Keeps s₀ s) : NextKeeps s₀ (execTimingMarkEvaluation p s) := by
  unfold execTimingMarkEvaluation; extract_lets +onlyGivenNames z5
  have kz5 : Keeps s₀ z5 := by
    unfold z5; apply State.fresh_keeps; exact h
  clear_value z5; revert z5; refine id ?_; intro z5 kz5; apply NextKeeps.atUnit
  · exact kz5
  · extract_lets +onlyGivenNames z7; extract_lets +onlyGivenNames z8; extract_lets +onlyGivenNames z9
    have kz9 : Keeps s₀ z9 := by
      unfold z9; apply State.forEach_keeps
      · intro a10 a11 t12 h13; apply State.markLane_keeps; exact h13
      · exact kz5
    clear_value z9; revert z9; refine id ?_; intro z9 kz9; split
    · exact kz9
    · extract_lets +onlyGivenNames z12
      have kz12 : Keeps s₀ z12 := by
        unfold z12; split
        · apply State.txWake_keeps; exact kz9
        · exact kz9
      clear_value z12; revert z12; refine id ?_; intro z12 kz12; extract_lets +onlyGivenNames z14
      have kz14 : Keeps s₀ z14 := by
        unfold z14; split
        · apply State.rxWake_keeps; exact kz12
        · exact kz12
      clear_value z14; revert z14; refine id ?_; intro z14 kz14; apply State.restoreSpeed_keeps; exact kz14
theorem State.planApply_keeps {s₀ : State} {s : State} (p : ℕ) (h : Keeps s₀ s) : Keeps s₀ (State.planApply s p) := by
  unfold State.planApply; extract_lets +onlyGivenNames z5; extract_lets +onlyGivenNames z6
  have kz6 : Keeps s₀ z6 := by
    unfold z6; split
    · exact h
    · apply State.txWake_keeps; exact h
  clear_value z6; revert z6; refine id ?_; intro z6 kz6; extract_lets +onlyGivenNames z8
  have kz8 : Keeps s₀ z8 := by
    unfold z8; split
    · exact kz6
    · apply State.rxWake_keeps; exact kz6
  clear_value z8; revert z8; refine id ?_; intro z8 kz8; split
  · exact kz8
  · apply State.restoreSpeed_keeps; exact kz8
theorem pwrPlanRun_keeps {s₀ : State} (c : Ctx) {s : State} (h : Keeps s₀ s) : Keeps s₀ (pwrPlanRun c s).state := by
  unfold pwrPlanRun; extract_lets +onlyGivenNames z5; extract_lets +onlyGivenNames z6
  have kz6 : Keeps s₀ z6 := by
    unfold z6; apply State.forEach_keeps
    · intro a7 a8 t9 h10; apply State.set_keeps; exact h10
    · exact h
  clear_value z6; revert z6; refine id ?_; intro z6 kz6; apply Keeps.ofOk; apply State.forEach_keeps
  · intro a8 a9 t10 h11; apply State.planApply_keeps; exact h11
  · exact kz6
theorem pwrPlanCmd_keeps : CmdKeeps (pwrPlanCmd) := by
  rw [pwrPlanCmd]; refine ⟨fun s₀ x s h => ?_, fun s₀ x s e h => ?_, fun s₀ x s h => ?_⟩
  · rw [Cmd.run_mk]; apply pwrPlanRun_keeps; exact h
  · rw [Cmd.refused_mk]; exact h
  · rw [Cmd.after_mk]; exact h
theorem execPwrPlan_keeps {s₀ : State} (q : Request) {s : State} (h : Keeps s₀ s) : NextKeeps s₀ (execPwrPlan q s) := by
  unfold execPwrPlan; apply NextKeeps.next; apply runCmd_keeps
  · apply pwrPlanCmd_keeps
  · exact h
theorem State.clearBank_keeps {s₀ : State} {s : State} (b : Nat) (h : Keeps s₀ s) : Keeps s₀ (State.clearBank s b) :=
  h.words (fun w => Words.filter_wf _ _ w) rfl rfl
theorem State.snapTake_keeps {s₀ : State} {s : State} (dom : ℕ) (t : ℕ) (scheduled : Bool) (h : Keeps s₀ s) : Keeps s₀ (State.snapTake s dom t scheduled) := by
  unfold State.snapTake; extract_lets +onlyGivenNames z7; extract_lets +onlyGivenNames z8; extract_lets +onlyGivenNames z9
  have kz9 : Keeps s₀ z9 := by
    unfold z9; apply State.clearBank_keeps; exact h.same (by unfold State.view; rfl)
  clear_value z9; revert z9; refine id ?_; intro z9 kz9; apply State.setTime_keeps; apply State.set_keeps; exact kz9
theorem State.snapCapture_keeps {s₀ : State} {s : State} (h : Keeps s₀ s) : Keeps s₀ (State.snapCapture s) := by
  unfold State.snapCapture; extract_lets +onlyGivenNames z4; apply State.setf_keeps; exact h.same (by unfold State.view; rfl)
theorem statSnapshotRun_keeps {s₀ : State} (c : Ctx) {s : State} (h : Keeps s₀ s) : Keeps s₀ (statSnapshotRun c s).state := by
  unfold statSnapshotRun; extract_lets +onlyGivenNames z5; extract_lets +onlyGivenNames z6; split
  · apply Keeps.ofError; exact h
  · split
    · apply Keeps.ofLater; apply State.snapCapture_keeps; apply State.snapTake_keeps; exact h
    · split
      · apply Keeps.ofError; exact h
      · apply Keeps.ofLater; apply State.snapCapture_keeps; apply State.snapTake_keeps; exact h
      · split
        · apply Keeps.ofError; exact h
        · extract_lets +onlyGivenNames z17
          have kz17 : Keeps s₀ z17 := by
            unfold z17; apply State.snapTake_keeps; exact h
          clear_value z17; revert z17; refine id ?_; intro z17 kz17; apply Keeps.ofOk; apply State.schedule_keeps; exact kz17
theorem statSnapshotCmd_keeps : CmdKeeps (statSnapshotCmd) := by
  rw [statSnapshotCmd]; refine ⟨fun s₀ x s h => ?_, fun s₀ x s e h => ?_, fun s₀ x s h => ?_⟩
  · rw [Cmd.run_mk]; apply statSnapshotRun_keeps; exact h
  · rw [Cmd.refused_mk]; exact h
  · rw [Cmd.after_mk]; exact h
theorem execStatSnapshot_keeps {s₀ : State} (q : Request) {s : State} (h : Keeps s₀ s) : NextKeeps s₀ (execStatSnapshot q s) := by
  unfold execStatSnapshot; apply NextKeeps.next; apply runCmd_keeps
  · apply statSnapshotCmd_keeps
  · exact h
theorem State.snapCancel_keeps {s₀ : State} {s : State} (h : Keeps s₀ s) : Keeps s₀ (State.snapCancel s) := by
  unfold State.snapCancel; split
  · apply State.setTime_keeps; apply State.set_keeps; exact h
  · exact h
theorem State.fireSnapshot_keeps {s₀ : State} {s : State} (t : ℕ) (h : Keeps s₀ s) : Keeps s₀ (State.fireSnapshot s t) := by
  unfold State.fireSnapshot; apply State.snapCapture_keeps; apply State.setTime_keeps; exact h
theorem execScheduledSnapshot_keeps {s₀ : State} (hh : ℕ) {s : State} (h : Keeps s₀ s) : NextKeeps s₀ (execScheduledSnapshot hh s) := by
  unfold execScheduledSnapshot; extract_lets +onlyGivenNames z5
  have kz5 : Keeps s₀ z5 := by
    unfold z5; apply State.fresh_keeps; exact h
  clear_value z5; revert z5; refine id ?_; intro z5 kz5; apply NextKeeps.next; apply State.atTime_keeps
  · intro a7 t8 h9; apply State.fireSnapshot_keeps; exact h9
  · exact kz5
theorem State.answerSnapshot_keeps {s₀ : State} {s : State} (b : ℕ) (d : Deferred) (h : Keeps s₀ s) : Keeps s₀ (State.answerSnapshot s b d) := by
  unfold State.answerSnapshot; split
  · apply State.answerDeferred_keeps; exact h
  · exact h
theorem State.fillBank_keeps {s₀ : State} {s : State} (b : ℕ) (l : List (ℕ × ℕ)) (h : Keeps s₀ s) : Keeps s₀ (State.fillBank s b l) := by
  unfold State.fillBank; extract_lets +onlyGivenNames z6
  have kz6 : Keeps s₀ z6 := by
    unfold z6; apply State.setf_keeps; apply State.forEach_keeps
    · intro a7 a8 t9 h10; apply State.set_keeps; exact h10
    · exact h
  clear_value z6; revert z6; refine id ?_; intro z6 kz6; exact kz6.same (by unfold State.view; rfl)
theorem execStatSnapshotDone_keeps {s₀ : State} {s : State} (h : Keeps s₀ s) : NextKeeps s₀ (execStatSnapshotDone s) := by
  unfold execStatSnapshotDone; extract_lets +onlyGivenNames z4
  have kz4 : Keeps s₀ z4 := by
    unfold z4; apply State.fresh_keeps; exact h
  clear_value z4; revert z4; refine id ?_; intro z4 kz4; apply NextKeeps.next; split
  · exact kz4
  · extract_lets +onlyGivenNames z11; extract_lets +onlyGivenNames z12
    have kz12 : Keeps s₀ z12 := by
      unfold z12; apply State.fillBank_keeps; exact kz4
    clear_value z12; revert z12; refine id ?_; intro z12 kz12; split
    · apply State.raise_keeps; exact kz12
    · apply State.forEach_keeps
      · intro a15 a16 t17 h18; apply State.answerSnapshot_keeps; exact h18
      · exact kz12
theorem State.setReadings_keeps {s₀ : State} {s : State} (d : Detector) (n : ℕ) (h : Keeps s₀ s) : Keeps s₀ (State.setReadings s d n) := by
  unfold State.setReadings; extract_lets +onlyGivenNames z6; extract_lets +onlyGivenNames z7
  have kz7 : Keeps s₀ z7 := by
    unfold z7; exact h.same (by unfold State.view; rfl)
  clear_value z7; revert z7; refine id ?_; intro z7 kz7; extract_lets +onlyGivenNames z9; split
  · apply State.setf_keeps; exact kz7
  · apply State.setf_keeps; exact kz7
  · exact kz7
theorem State.publish_keeps {s₀ : State} {s : State} (d : Detector) (phase : ℤ) (rate : ℤ) (h : Keeps s₀ s) : Keeps s₀ (State.publish s d phase rate) := by
  unfold State.publish; split
  · apply State.setf_keeps; apply State.set_keeps; exact h
  · apply State.setf_keeps; apply State.set_keeps; exact h
  · apply State.set_keeps; exact h
theorem State.glitch_keeps {s₀ : State} {s : State} (d : Detector) (departure : ℤ) (h : Keeps s₀ s) : Keeps s₀ (State.glitch s d departure) := by
  unfold State.glitch; extract_lets +onlyGivenNames z6
  have kz6 : Keeps s₀ z6 := by
    unfold z6; split
    · apply State.count_keeps; exact h
    · apply State.count_keeps; exact h
    · apply State.count_keeps; exact h
  clear_value z6; revert z6; refine id ?_; intro z6 kz6; extract_lets +onlyGivenNames z8; extract_lets +onlyGivenNames z9
  have kz9 : Keeps s₀ z9 := by
    unfold z9; apply State.setReadings_keeps; apply State.raise_keeps; exact kz6
  clear_value z9; revert z9; refine id ?_; intro z9 kz9; apply State.forEach_keeps
  · intro a11 a12 t13 h14; split
    · apply State.linkSet_keeps; exact h14
    · apply State.setf_keeps; exact h14
  · exact kz9
theorem execDdmtdReading_keeps {s₀ : State} (d : Detector) (phase : ℤ) (rate : ℤ) (departure : ℤ) {s : State} (h : Keeps s₀ s) : NextKeeps s₀ (execDdmtdReading d phase rate departure s) := by
  unfold execDdmtdReading; extract_lets +onlyGivenNames z8
  have kz8 : Keeps s₀ z8 := by
    unfold z8; apply State.fresh_keeps; exact h
  clear_value z8; revert z8; refine id ?_; intro z8 kz8; apply NextKeeps.next; split
  · extract_lets +onlyGivenNames z11; extract_lets +onlyGivenNames z12; extract_lets +onlyGivenNames z13
    have kz13 : Keeps s₀ z13 := by
      unfold z13; apply State.publish_keeps; exact kz8
    clear_value z13; revert z13; refine id ?_; intro z13 kz13; split
    · apply State.glitch_keeps; exact kz13
    · apply State.setReadings_keeps; exact kz13
  · exact kz8
theorem State.linkExchange_keeps {s₀ : State} {s : State} (p : ℕ) (inst : ℕ) (h : Keeps s₀ s) : Keeps s₀ (State.linkExchange s p inst) := by
  unfold State.linkExchange; split
  · apply State.count_keeps; exact h
  · exact h
theorem State.linkValid_keeps {s₀ : State} {s : State} (p : ℕ) (cause : ℕ) (delay : Option ℕ) (h : Keeps s₀ s) : Keeps s₀ (State.linkValid s p cause delay) := by
  unfold State.linkValid; extract_lets +onlyGivenNames z7
  have kz7 : Keeps s₀ z7 := by
    unfold z7; split
    · apply State.set_keeps; exact h
    · exact h
  clear_value z7; revert z7; refine id ?_; intro z7 kz7; extract_lets +onlyGivenNames z9; extract_lets +onlyGivenNames z10
  have kz10 : Keeps s₀ z10 := by
    unfold z10; exact kz7.same (by unfold State.view; rfl)
  clear_value z10; revert z10; refine id ?_; intro z10 kz10; apply State.linkSet_keeps; exact kz10
theorem execLinkMeasurementComplete_keeps {s₀ : State} (p : ℕ) {s : State} (h : Keeps s₀ s) : NextKeeps s₀ (execLinkMeasurementComplete p s) := by
  unfold execLinkMeasurementComplete; extract_lets +onlyGivenNames z5
  have kz5 : Keeps s₀ z5 := by
    unfold z5; apply State.fresh_keeps; exact h
  clear_value z5; revert z5; refine id ?_; intro z5 kz5; apply NextKeeps.atUnit
  · exact kz5
  · extract_lets +onlyGivenNames z7; split
    · extract_lets +onlyGivenNames z9; extract_lets +onlyGivenNames z10; split
      · extract_lets +onlyGivenNames z12
        have kz12 : Keeps s₀ z12 := by
          unfold z12; apply State.setf_keeps; exact kz5
        clear_value z12; revert z12; refine id ?_; intro z12 kz12; split
        · apply State.linkValid_keeps; exact kz12
        · extract_lets +onlyGivenNames z15; extract_lets +onlyGivenNames z16
          have kz16 : Keeps s₀ z16 := by
            unfold z16; exact kz12.same (by unfold State.view; rfl)
          clear_value z16; revert z16; refine id ?_; intro z16 kz16; apply State.linkSet_keeps; exact kz16
      · apply State.linkValid_keeps; exact kz5
    · exact kz5
theorem State.linkCtrl_keeps {s₀ : State} {s : State} (p : ℕ) (v : ℕ) (h : Keeps s₀ s) : Keeps s₀ (State.linkCtrl s p v) := by
  unfold State.linkCtrl; split
  · apply State.linkProgress_keeps; apply State.linkInvalid_keeps; exact h
  · split
    · apply State.linkValid_keeps; exact h
    · exact h

end Sys2Proof.Machine
end

