-- ==== Sys2Proof/Laws/KeepsOutputs.lean ====
section
/-! SUPPORT. What outputs and redundancy keep: one lemma for each operation, in the words of Laws.Keeps. -/
namespace Sys2Proof.Machine

theorem State.setOutp_keeps {s₀ : State} {s : State} (i : Nat) (f : OutSide → OutSide) (h : Keeps s₀ s) : Keeps s₀ (State.setOutp s i f) :=
  h.lengths rfl (by simp only [State.view, State.setOutp, modifyAt_length])
theorem State.showPending_keeps {s₀ : State} {s : State} (i : ℕ) (h : Keeps s₀ s) : Keeps s₀ (State.showPending s i) := by
  unfold State.showPending; apply State.setf_keeps; exact h
theorem State.takeConfig_keeps {s₀ : State} {s : State} (i : ℕ) (starts : Bool) (h : Keeps s₀ s) : Keeps s₀ (State.takeConfig s i starts) := by
  unfold State.takeConfig; extract_lets +onlyGivenNames z6; extract_lets +onlyGivenNames z7; extract_lets +onlyGivenNames z8
  have kz8 : Keeps s₀ z8 := by
    unfold z8; apply State.setOutp_keeps; exact h
  clear_value z8; revert z8; refine id ?_; intro z8 kz8; extract_lets +onlyGivenNames z10; extract_lets +onlyGivenNames z11
  have kz11 : Keeps s₀ z11 := by
    unfold z11; split
    · apply State.setOutp_keeps; exact kz8
    · exact kz8
  clear_value z11; revert z11; refine id ?_; intro z11 kz11; apply State.showPending_keeps; exact kz11
theorem State.setOutState_keeps {s₀ : State} {s : State} (i : ℕ) (v : ℕ) (h : Keeps s₀ s) : Keeps s₀ (State.setOutState s i v) := by
  unfold State.setOutState; apply State.setf_keeps; exact h
theorem State.keepLine_keeps {s₀ : State} {s : State} (i : ℕ) (level : Bool) (h : Keeps s₀ s) : Keeps s₀ (State.keepLine s i level) := by
  unfold State.keepLine; extract_lets +onlyGivenNames z6; apply State.setOutp_keeps; exact h
theorem State.prepare_keeps {s₀ : State} {s : State} (i : ℕ) (h : Keeps s₀ s) : Keeps s₀ (State.prepare s i) := by
  unfold State.prepare; extract_lets +onlyGivenNames z5
  have kz5 : Keeps s₀ z5 := by
    unfold z5; apply State.setOutp_keeps; apply State.takeConfig_keeps; exact h
  clear_value z5; revert z5; refine id ?_; intro z5 kz5; extract_lets +onlyGivenNames z7; extract_lets +onlyGivenNames z8
  apply State.setOutp_keeps; apply State.setf_keeps; exact kz5
theorem State.outWant_keeps {s₀ : State} {s : State} (i : ℕ) (h : Keeps s₀ s) : Keeps s₀ (State.outWant s i) := by
  unfold State.outWant; extract_lets +onlyGivenNames z5; extract_lets +onlyGivenNames z6; split
  · exact h
  · apply State.keepLine_keeps; apply State.setOutState_keeps; exact h
theorem State.outOwn_keeps {s₀ : State} {s : State} (i : ℕ) (own : ℕ) (h : Keeps s₀ s) : Keeps s₀ (State.outOwn s i own) := by
  unfold State.outOwn; extract_lets +onlyGivenNames z6; extract_lets +onlyGivenNames z7
  have kz7 : Keeps s₀ z7 := by
    unfold z7; apply State.setf_keeps; exact h
  clear_value z7; revert z7; refine id ?_; intro z7 kz7; extract_lets +onlyGivenNames z9
  have kz9 : Keeps s₀ z9 := by
    unfold z9; split
    · apply State.prepare_keeps; exact kz7
    · exact kz7
  clear_value z9; revert z9; refine id ?_; intro z9 kz9; apply State.outWant_keeps; exact kz9
theorem State.outWantAll_keeps {s₀ : State} {s : State} (h : Keeps s₀ s) : Keeps s₀ (State.outWantAll s) := by
  unfold State.outWantAll; split
  · apply State.forEach_keeps
    · intro a5 a6 t7 h8; apply State.outWant_keeps; exact h8
    · exact h
  · exact h
theorem execOutputDriveChange_keeps {s₀ : State} (i : ℕ) {s : State} (h : Keeps s₀ s) : NextKeeps s₀ (execOutputDriveChange i s) := by
  unfold execOutputDriveChange; extract_lets +onlyGivenNames z5
  have kz5 : Keeps s₀ z5 := by
    unfold z5; apply State.fresh_keeps; exact h
  clear_value z5; revert z5; refine id ?_; intro z5 kz5; apply NextKeeps.atUnit
  · exact kz5
  · split
    · exact kz5
    · extract_lets +onlyGivenNames z8; extract_lets +onlyGivenNames z9; split
      · split
        · apply State.emit_keeps; apply State.keepLine_keeps; apply State.setOutp_keeps; apply State.setOutState_keeps
          exact kz5
        · exact kz5
      · split
        · apply State.emit_keeps; apply State.keepLine_keeps; apply State.setOutState_keeps; exact kz5
        · exact kz5
theorem outOwnRun_keeps {s₀ : State} (c : Ctx) {s : State} (h : Keeps s₀ s) : Keeps s₀ (outOwnRun c s).state := by
  unfold outOwnRun; extract_lets +onlyGivenNames z5
  have kz5 : Keeps s₀ z5 := by
    unfold z5; apply State.forEach_keeps
    · intro a6 a7 t8 h9; apply State.outOwn_keeps; exact h9
    · exact h
  clear_value z5; revert z5; refine id ?_; intro z5 kz5; apply Keeps.ofOk; exact kz5
theorem outOwnCmd_keeps : CmdKeeps (outOwnCmd) := by
  rw [outOwnCmd]; refine ⟨fun s₀ x s h => ?_, fun s₀ x s e h => ?_, fun s₀ x s h => ?_⟩
  · rw [Cmd.run_mk]; apply outOwnRun_keeps; exact h
  · rw [Cmd.refused_mk]; exact h
  · rw [Cmd.after_mk]; exact h
theorem execOutOwn_keeps {s₀ : State} (q : Request) {s : State} (h : Keeps s₀ s) : NextKeeps s₀ (execOutOwn q s) := by
  unfold execOutOwn; apply NextKeeps.next; apply runCmd_keeps
  · apply outOwnCmd_keeps
  · exact h
theorem State.realigned_keeps {s₀ : State} {s : State} (i : ℕ) (how : ℕ) (h : Keeps s₀ s) : Keeps s₀ (State.realigned s i how) := by
  unfold State.realigned; apply State.raise_keeps; exact h
theorem State.realignNow_keeps {s₀ : State} {s : State} (i : ℕ) (slew : Bool) (h : Keeps s₀ s) : Keeps s₀ (State.realignNow s i slew) := by
  unfold State.realignNow; extract_lets +onlyGivenNames z6; extract_lets +onlyGivenNames z7
  have kz7 : Keeps s₀ z7 := by
    unfold z7; split
    · apply State.realigned_keeps; exact h
    · exact h
  clear_value z7; revert z7; refine id ?_; intro z7 kz7; extract_lets +onlyGivenNames z9
  have kz9 : Keeps s₀ z9 := by
    unfold z9; apply State.setOutp_keeps; apply State.takeConfig_keeps; exact kz7
  clear_value z9; revert z9; refine id ?_; intro z9 kz9; split
  · apply State.setOutp_keeps; exact kz9
  · extract_lets +onlyGivenNames z12; split
    · extract_lets +onlyGivenNames z14; apply State.setOutp_keeps; apply State.setf_keeps; exact kz9
    · extract_lets +onlyGivenNames z14; extract_lets +onlyGivenNames z15; extract_lets +onlyGivenNames z16
      apply State.setOutp_keeps; apply State.setf_keeps; exact kz9
theorem State.realign_keeps {s₀ : State} {s : State} (i : ℕ) (slew : Bool) (h : Keeps s₀ s) : Keeps s₀ (State.realign s i slew) := by
  unfold State.realign; split
  · split
    · apply State.setOutp_keeps; exact h
    · apply State.realignNow_keeps; exact h
  · apply State.realignNow_keeps; exact h
theorem State.fireRealign_keeps {s₀ : State} {s : State} (p : List Byte) (h : Keeps s₀ s) : Keeps s₀ (State.fireRealign s p) := by
  unfold State.fireRealign; apply State.forEach_keeps
  · intro a5 a6 t7 h8; apply State.realign_keeps; exact h8
  · exact h
theorem outRealignRun_keeps {s₀ : State} (c : Ctx) {s : State} (h : Keeps s₀ s) : Keeps s₀ (outRealignRun c s).state := by
  unfold outRealignRun; extract_lets +onlyGivenNames z5; extract_lets +onlyGivenNames z6; split
  · extract_lets +onlyGivenNames z8; split
    · apply Keeps.ofError; exact h
    · apply Keeps.ofReply; apply State.fireRealign_keeps; exact h
    · split
      · apply Keeps.ofError; exact h
      · apply Keeps.ofOk; apply State.schedule_keeps; exact h
  · apply Keeps.ofOk; apply State.fireRealign_keeps; exact h
theorem outRealignCmd_keeps : CmdKeeps (outRealignCmd) := by
  rw [outRealignCmd]; refine ⟨fun s₀ x s h => ?_, fun s₀ x s e h => ?_, fun s₀ x s h => ?_⟩
  · rw [Cmd.run_mk]; apply outRealignRun_keeps; exact h
  · rw [Cmd.refused_mk]; exact h
  · rw [Cmd.after_mk]; exact h
theorem execOutRealign_keeps {s₀ : State} (q : Request) {s : State} (h : Keeps s₀ s) : NextKeeps s₀ (execOutRealign q s) := by
  unfold execOutRealign; apply NextKeeps.next; apply runCmd_keeps
  · apply outRealignCmd_keeps
  · exact h
theorem execScheduledRealign_keeps {s₀ : State} (hh : ℕ) {s : State} (h : Keeps s₀ s) : NextKeeps s₀ (execScheduledRealign hh s) := by
  unfold execScheduledRealign; extract_lets +onlyGivenNames z5
  have kz5 : Keeps s₀ z5 := by
    unfold z5; apply State.fresh_keeps; exact h
  clear_value z5; revert z5; refine id ?_; intro z5 kz5; apply NextKeeps.next; apply State.atTime_keeps
  · intro a7 t8 h9; apply State.fireRealign_keeps; exact h9
  · exact kz5
theorem execOutRealigned_keeps {s₀ : State} (i : ℕ) {s : State} (h : Keeps s₀ s) : NextKeeps s₀ (execOutRealigned i s) := by
  unfold execOutRealigned; extract_lets +onlyGivenNames z5
  have kz5 : Keeps s₀ z5 := by
    unfold z5; apply State.fresh_keeps; exact h
  clear_value z5; revert z5; refine id ?_; intro z5 kz5; apply NextKeeps.atUnit
  · exact kz5
  · split
    · exact kz5
    · extract_lets +onlyGivenNames z8; split
      · apply State.realigned_keeps; apply State.setOutp_keeps; apply State.setf_keeps; exact kz5
      · split
        · apply State.realigned_keeps; apply State.setOutp_keeps; exact kz5
        · exact kz5
      · exact kz5
theorem State.outTick_keeps {s₀ : State} {s : State} (i : ℕ) (h : Keeps s₀ s) : Keeps s₀ (State.outTick s i) := by
  unfold State.outTick; extract_lets +onlyGivenNames z5; split
  · split
    · exact h
    · extract_lets +onlyGivenNames z20; split
      · apply State.setOutp_keeps; exact h
      · extract_lets +onlyGivenNames z22; apply State.setOutp_keeps; exact h
  · split
    · apply State.realignNow_keeps; exact h
    · exact h
  · exact h
theorem State.outsStepped_keeps {s₀ : State} {s : State} (d : ℕ) (fine : ℤ) (h : Keeps s₀ s) : Keeps s₀ (State.outsStepped s d fine) := by
  unfold State.outsStepped; apply State.forEach_keeps
  · intro a6 a7 t8 h9; apply State.setOutp_keeps; exact h9
  · exact h
theorem execTodMessageStart_keeps {s₀ : State} (n : ℕ) {s : State} (h : Keeps s₀ s) : NextKeeps s₀ (execTodMessageStart n s) := by
  unfold execTodMessageStart; extract_lets +onlyGivenNames z5
  have kz5 : Keeps s₀ z5 := by
    unfold z5; apply State.fresh_keeps; exact h
  clear_value z5; revert z5; refine id ?_; intro z5 kz5; apply NextKeeps.atUnit
  · exact kz5
  · extract_lets +onlyGivenNames z7; extract_lets +onlyGivenNames z8; extract_lets +onlyGivenNames z9
    extract_lets +onlyGivenNames z10; extract_lets +onlyGivenNames z11; extract_lets +onlyGivenNames z12; split
    · extract_lets +onlyGivenNames z14; extract_lets +onlyGivenNames z15; extract_lets +onlyGivenNames z16
      extract_lets +onlyGivenNames z17; split
      · extract_lets +onlyGivenNames z19; apply State.emit_keeps; unfold z15; apply State.setOutp_keeps
        apply State.setOutp_keeps; exact kz5
      · split
        · apply State.emit_keeps; unfold z15; apply State.setOutp_keeps; apply State.setOutp_keeps; exact kz5
        · apply State.count_keeps; unfold z15; apply State.setOutp_keeps; apply State.setOutp_keeps; exact kz5
    · exact kz5
theorem execFrerResetTimer_keeps {s₀ : State} (r : ℕ) {s : State} (h : Keeps s₀ s) : NextKeeps s₀ (execFrerResetTimer r s) := by
  unfold execFrerResetTimer; extract_lets +onlyGivenNames z5
  have kz5 : Keeps s₀ z5 := by
    unfold z5; apply State.fresh_keeps; exact h
  clear_value z5; revert z5; refine id ?_; intro z5 kz5; apply NextKeeps.atUnit
  · exact kz5
  · split
    · split
      · extract_lets +onlyGivenNames z18; extract_lets +onlyGivenNames z19
        have kz19 : Keeps s₀ z19 := by
          unfold z19; exact kz5.same (by unfold State.view; rfl)
        clear_value z19; revert z19; refine id ?_; intro z19 kz19; apply State.rcvyCount_keeps; apply State.setf_keeps
        exact kz19
      · exact kz5
    · exact kz5
theorem State.latentRecord_keeps {s₀ : State} {s : State} (r : ℕ) (e : List Byte) (h : Keeps s₀ s) : Keeps s₀ (State.latentRecord s r e) := by
  unfold State.latentRecord; exact h.same (by unfold State.view; rfl)
theorem State.latentMade_keeps {s₀ : State} {s : State} (r : ℕ) (base : Bool) (h : Keeps s₀ s) : Keeps s₀ (State.latentMade s r base) := by
  unfold State.latentMade; extract_lets +onlyGivenNames z6; exact h.same (by unfold State.view; rfl)
theorem execLatentTest_keeps {s₀ : State} (r : ℕ) {s : State} (h : Keeps s₀ s) : NextKeeps s₀ (execLatentTest r s) := by
  unfold execLatentTest; extract_lets +onlyGivenNames z5
  have kz5 : Keeps s₀ z5 := by
    unfold z5; apply State.fresh_keeps; exact h
  clear_value z5; revert z5; refine id ?_; intro z5 kz5; apply NextKeeps.atUnit
  · exact kz5
  · split
    · split
      · extract_lets +onlyGivenNames z13; extract_lets +onlyGivenNames z14
        have kz14 : Keeps s₀ z14 := by
          unfold z14; apply State.latentMade_keeps; exact kz5
        clear_value z14; revert z14; refine id ?_; intro z14 kz14; split
        · apply State.latentRecord_keeps; apply State.raise_keeps; apply State.count_keeps; exact kz14
        · exact kz14
      · exact kz5
    · exact kz5
theorem execLatentBaseReset_keeps {s₀ : State} (r : ℕ) {s : State} (h : Keeps s₀ s) : NextKeeps s₀ (execLatentBaseReset r s) := by
  unfold execLatentBaseReset; extract_lets +onlyGivenNames z5
  have kz5 : Keeps s₀ z5 := by
    unfold z5; apply State.fresh_keeps; exact h
  clear_value z5; revert z5; refine id ?_; intro z5 kz5; apply NextKeeps.atUnit
  · exact kz5
  · split
    · split
      · apply State.latentMade_keeps; apply State.latentRecord_keeps; exact kz5
      · exact kz5
    · exact kz5
theorem State.disableMember_keeps {s₀ : State} {s : State} (r : ℕ) (p : ℕ) (e : ℕ) (h : Keeps s₀ s) : Keeps s₀ (State.disableMember s r p e).1 := by
  unfold State.disableMember; split
  · dsimp -zeta -zetaHave only; exact h
  · extract_lets +onlyGivenNames z13; split
    · dsimp -zeta -zetaHave only; exact h.same (by unfold State.view; rfl)
    · split
      · dsimp -zeta -zetaHave only; exact h
      · extract_lets +onlyGivenNames z16; extract_lets +onlyGivenNames z17
        have kz17 : Keeps s₀ z17 := by
          unfold z17; exact h.same (by unfold State.view; rfl)
        clear_value z17; revert z17; refine id ?_; intro z17 kz17; dsimp -zeta -zetaHave only; apply State.raise_keeps
        apply State.setf_keeps; exact kz17
theorem State.enableMember_keeps {s₀ : State} {s : State} (r : ℕ) (p : ℕ) (e : ℕ) (h : Keeps s₀ s) : Keeps s₀ (State.enableMember s r p e) := by
  unfold State.enableMember; extract_lets +onlyGivenNames z7; extract_lets +onlyGivenNames z8; extract_lets +onlyGivenNames z9
  have kz9 : Keeps s₀ z9 := by
    unfold z9; exact h.same (by unfold State.view; rfl)
  clear_value z9; revert z9; refine id ?_; intro z9 kz9; split
  · exact kz9
  · split
    · apply State.raise_keeps; apply State.setf_keeps; exact kz9
    · exact kz9
theorem State.setWatch_keeps {s₀ : State} {s : State} (e : ℕ) (w : Option Watch) (h : Keeps s₀ s) : Keeps s₀ (State.setWatch s e w) := by
  unfold State.setWatch; exact h.same (by unfold State.view; rfl)
theorem State.watchCounted_keeps {s₀ : State} {s : State} (h : Keeps s₀ s) : Keeps s₀ (State.watchCounted s) := by
  unfold State.watchCounted; apply State.set_keeps; exact h
theorem State.releaseActions_keeps {s₀ : State} {s : State} (e : ℕ) (h : Keeps s₀ s) : Keeps s₀ (State.releaseActions s e) := by
  unfold State.releaseActions; split
  · exact h
  · extract_lets +onlyGivenNames z10
    have kz10 : Keeps s₀ z10 := by
      unfold z10; split
      · apply State.enableMember_keeps; exact h
      · exact h
    clear_value z10; revert z10; refine id ?_; intro z10 kz10; apply State.setf_keeps; apply State.setWatch_keeps; exact kz10
theorem State.clearWatchWords_keeps {s₀ : State} {s : State} (e : ℕ) (h : Keeps s₀ s) : Keeps s₀ (State.clearWatchWords s e) := by
  unfold State.clearWatchWords; apply State.forEach_keeps
  · intro a5 a6 t7 h8; apply State.set_keeps; exact h8
  · exact h
theorem State.watchSetOne_keeps {s₀ : State} {s : State} (op : ℕ) (e : ℕ) (x : List Byte) (h : Keeps s₀ s) : Keeps s₀ (State.watchSetOne s op e x) := by
  unfold State.watchSetOne; extract_lets +onlyGivenNames z7; extract_lets +onlyGivenNames z8
  have kz8 : Keeps s₀ z8 := by
    unfold z8; apply State.clearWatchWords_keeps; apply State.releaseActions_keeps; exact h
  clear_value z8; revert z8; refine id ?_; intro z8 kz8; extract_lets +onlyGivenNames z10
  have kz10 : Keeps s₀ z10 := by
    unfold z10; split
    · exact kz8
    · apply State.raise_keeps; exact kz8
  clear_value z10; revert z10; refine id ?_; intro z10 kz10; split
  · apply State.setWatch_keeps; exact kz10
  · apply State.setWatch_keeps; exact kz10
  · split
    · apply State.setWatch_keeps; exact kz10
    · exact kz10
theorem watchSetCmd_keeps (op : ℕ) : CmdKeeps (watchSetCmd op) := by
  rw [watchSetCmd]; refine ⟨fun s₀ x s h => ?_, fun s₀ x s e h => ?_, fun s₀ x s h => ?_⟩
  · rw [Cmd.run_mk]; apply Keeps.ofOk; apply State.watchCounted_keeps; apply State.forEach_keeps
    · intro a6 a7 t8 h9; apply State.watchSetOne_keeps; exact h9
    · exact h
  · rw [Cmd.refused_mk]; exact h
  · rw [Cmd.after_mk]; exact h
theorem execWatchSetWrite_keeps {s₀ : State} (q : Request) {s : State} (h : Keeps s₀ s) : NextKeeps s₀ (execWatchSetWrite q s) := by
  unfold execWatchSetWrite; apply NextKeeps.next; apply runCmd_keeps
  · apply watchSetCmd_keeps
  · exact h
theorem execWatchSetClear_keeps {s₀ : State} (q : Request) {s : State} (h : Keeps s₀ s) : NextKeeps s₀ (execWatchSetClear q s) := by
  unfold execWatchSetClear; apply NextKeeps.next; apply runCmd_keeps
  · apply watchSetCmd_keeps
  · exact h
theorem execWatchSetRelease_keeps {s₀ : State} (q : Request) {s : State} (h : Keeps s₀ s) : NextKeeps s₀ (execWatchSetRelease q s) := by
  unfold execWatchSetRelease; apply NextKeeps.next; apply runCmd_keeps
  · apply watchSetCmd_keeps
  · exact h
theorem State.watchWindow_keeps {s₀ : State} {s : State} (e : ℕ) (w : Watch) (c : ℕ) (h : Keeps s₀ s) : Keeps s₀ (State.watchWindow s e w c).1 := by
  unfold State.watchWindow; extract_lets +onlyGivenNames z7; extract_lets +onlyGivenNames z8; split
  · dsimp -zeta -zetaHave only; apply State.setf_keeps; exact h
  · split
    · dsimp -zeta -zetaHave only; exact h
    · extract_lets +onlyGivenNames z11; extract_lets +onlyGivenNames z12; extract_lets +onlyGivenNames z13
      extract_lets +onlyGivenNames z14
      have kz14 : Keeps s₀ z14 := by
        unfold z14; apply State.set_keeps; apply State.setf_keeps; apply State.setf_keeps; exact h
      clear_value z14; revert z14; refine id ?_; intro z14 kz14; dsimp -zeta -zetaHave only; exact kz14
theorem State.watchAct_keeps {s₀ : State} {s : State} (e : ℕ) (w : Watch) (h : Keeps s₀ s) : Keeps s₀ (State.watchAct s e w).1 := by
  unfold State.watchAct; extract_lets +onlyGivenNames z6; extract_lets +onlyGivenNames z7; extract_lets +onlyGivenNames z8
  extract_lets +onlyGivenNames z9; extract_lets +onlyGivenNames z10; extract_lets +onlyGivenNames z11
  have kz11 : Keeps s₀ z11.1 := by
    unfold z11; apply State.disableMember_keeps; exact h
  clear_value z11; revert z11; refine id ?_; intro z11 kz11; extract_lets +onlyGivenNames z13
  have kz13 : Keeps s₀ z13.1 := by
    unfold z13; split
    · split
      · dsimp -zeta -zetaHave only; apply State.setf_keeps; exact kz11
      · dsimp -zeta -zetaHave only; unfold z10; apply State.raise_keeps; exact kz11
    · dsimp -zeta -zetaHave only; exact h
  clear_value z13; revert z13; refine id ?_; intro z13 kz13; split
  · split
    · dsimp -zeta -zetaHave only; unfold z10; apply State.raise_keeps; exact kz13
    · extract_lets +onlyGivenNames z17
      have kz17 : Keeps s₀ z17 := by
        unfold z17; split
        · unfold z10; apply State.raise_keeps; exact kz13
        · exact kz13
      clear_value z17; revert z17; refine id ?_; intro z17 kz17; dsimp -zeta -zetaHave only; apply State.setf_keeps; exact kz17
  · exact kz13
theorem State.watchRestore_keeps {s₀ : State} {s : State} (e : ℕ) (w : Watch) (h : Keeps s₀ s) : Keeps s₀ (State.watchRestore s e w) := by
  unfold State.watchRestore; extract_lets +onlyGivenNames z6; split
  · split
    · apply State.setWatch_keeps; exact h
    · split
      · apply State.setWatch_keeps; exact h
      · split
        · extract_lets +onlyGivenNames z15
          have kz15 : Keeps s₀ z15 := by
            unfold z15; apply State.releaseActions_keeps; apply State.setWatch_keeps; exact h
          clear_value z15; revert z15; refine id ?_; intro z15 kz15; split
          · apply State.setWatch_keeps; exact kz15
          · exact kz15
        · apply State.setWatch_keeps; exact h
  · apply State.setWatch_keeps; exact h
theorem State.watchOne_keeps {s₀ : State} {s : State} (e : ℕ) (h : Keeps s₀ s) : Keeps s₀ (State.watchOne s e) := by
  unfold State.watchOne; split
  · exact h
  · extract_lets +onlyGivenNames z10; extract_lets +onlyGivenNames z11; extract_lets +onlyGivenNames z12
    have kz12 : Keeps s₀ z12.1 := by
      unfold z12; apply State.watchWindow_keeps; exact h
    clear_value z12; revert z12; refine id ?_; intro z12 kz12; extract_lets +onlyGivenNames z14
    extract_lets +onlyGivenNames z15; extract_lets +onlyGivenNames z16
    have kz16 : Keeps s₀ z16 := by
      unfold z16; apply State.setf_keeps; exact kz12
    clear_value z16; revert z16; refine id ?_; intro z16 kz16; extract_lets +onlyGivenNames z18
    have kz18 : Keeps s₀ z18.1 := by
      unfold z18; apply State.watchAct_keeps; exact kz16
    clear_value z18; revert z18; refine id ?_; intro z18 kz18; extract_lets +onlyGivenNames z20
    have kz20 : Keeps s₀ z20 := by
      unfold z20; exact kz18
    clear_value z20; revert z20; refine id ?_; intro z20 kz20; extract_lets +onlyGivenNames z22
    extract_lets +onlyGivenNames z23; extract_lets +onlyGivenNames z24
    have kz24 : Keeps s₀ z24 := by
      unfold z24; split
      · exact kz20
      · apply State.raise_keeps; exact kz20
    clear_value z24; revert z24; refine id ?_; intro z24 kz24; apply State.watchRestore_keeps; exact kz24
theorem execWatchEvaluate_keeps {s₀ : State} {s : State} (h : Keeps s₀ s) : NextKeeps s₀ (execWatchEvaluate s) := by
  unfold execWatchEvaluate; extract_lets +onlyGivenNames z4
  have kz4 : Keeps s₀ z4 := by
    unfold z4; apply State.fresh_keeps; exact h
  clear_value z4; revert z4; refine id ?_; intro z4 kz4; extract_lets +onlyGivenNames z6; apply NextKeeps.next; split
  · extract_lets +onlyGivenNames z8; extract_lets +onlyGivenNames z9
    have kz9 : Keeps s₀ z9 := by
      unfold z9; exact kz4.same (by unfold State.view; rfl)
    clear_value z9; revert z9; refine id ?_; intro z9 kz9; apply State.watchCounted_keeps; apply State.forEach_keeps
    · intro a11 a12 t13 h14; apply State.watchOne_keeps; exact h14
    · exact kz9
  · exact kz4
theorem State.slotClear_keeps {s₀ : State} {s : State} (n : ℕ) (verdict : ℕ) (h : Keeps s₀ s) : Keeps s₀ (State.slotClear s n verdict) := by
  unfold State.slotClear; extract_lets +onlyGivenNames z6
  have kz6 : Keeps s₀ z6 := by
    unfold z6; apply State.set_keeps; exact h
  clear_value z6; revert z6; refine id ?_; intro z6 kz6; apply State.set_keeps; apply State.set_keeps; apply State.set_keeps
  exact kz6
theorem State.proofEnd_keeps {s₀ : State} {s : State} (aborted : Bool) (h : Keeps s₀ s) : Keeps s₀ (State.proofEnd s aborted) := by
  unfold State.proofEnd; extract_lets +onlyGivenNames z5; extract_lets +onlyGivenNames z6; extract_lets +onlyGivenNames z7
  extract_lets +onlyGivenNames z8; extract_lets +onlyGivenNames z9
  have kz9 : Keeps s₀ z9 := by
    unfold z9; apply State.set_keeps; exact h
  clear_value z9; revert z9; refine id ?_; intro z9 kz9; extract_lets +onlyGivenNames z11
  have kz11 : Keeps s₀ z11 := by
    unfold z11; apply State.setf_keeps; apply State.setTime_keeps; exact kz9
  clear_value z11; revert z11; refine id ?_; intro z11 kz11; apply State.raise_keeps; exact kz11
theorem State.nextSlot_keeps {s₀ : State} {s : State} (l : List Nat) (h : Keeps s₀ s) : Keeps s₀ (State.nextSlot s l) := by
  induction l generalizing s with
  | nil =>
    unfold State.nextSlot; apply State.proofEnd_keeps; exact h.same (by unfold State.view; rfl)
  | cons n rest ih =>
    unfold State.nextSlot; split
    · extract_lets +onlyGivenNames z10; extract_lets +onlyGivenNames z11
      have kz11 : Keeps s₀ z11 := by
        unfold z11; exact h.same (by unfold State.view; rfl)
      clear_value z11; revert z11; refine id ?_; intro z11 kz11; apply State.setf_keeps; apply State.slotClear_keeps; exact kz11
    · exact ih (State.slotClear_keeps n 5 h)
theorem State.proofGo_keeps {s₀ : State} {s : State} (dom : ℕ) (t : ℕ) (slots : List ℕ) (h : Keeps s₀ s) : Keeps s₀ (State.proofGo s dom t slots) := by
  unfold State.proofGo; extract_lets +onlyGivenNames z7; extract_lets +onlyGivenNames z8
  have kz8 : Keeps s₀ z8 := by
    unfold z8; exact h.same (by unfold State.view; rfl)
  clear_value z8; revert z8; refine id ?_; intro z8 kz8; extract_lets +onlyGivenNames z10
  have kz10 : Keeps s₀ z10 := by
    unfold z10; apply State.setf_keeps; exact kz8
  clear_value z10; revert z10; refine id ?_; intro z10 kz10; apply State.nextSlot_keeps; apply State.forEach_keeps
  · intro a12 a13 t14 h15; apply State.slotClear_keeps; exact h15
  · exact kz10
theorem proofStartRun_keeps {s₀ : State} (c : Ctx) {s : State} (h : Keeps s₀ s) : Keeps s₀ (proofStartRun c s).state := by
  unfold proofStartRun; extract_lets +onlyGivenNames z5; extract_lets +onlyGivenNames z6; extract_lets +onlyGivenNames z7
  extract_lets +onlyGivenNames z8; split
  · apply Keeps.ofError; exact h
  · split
    · split
      · apply Keeps.ofError; exact h
      · extract_lets +onlyGivenNames z15
        have kz15 : Keeps s₀ z15 := by
          unfold z15; unfold z7; apply State.setf_keeps; exact h
        clear_value z15; revert z15; refine id ?_; intro z15 kz15; apply Keeps.ofReply; apply State.proofGo_keeps; exact kz15
      · split
        · apply Keeps.ofError; exact h
        · extract_lets +onlyGivenNames z16
          have kz16 : Keeps s₀ z16 := by
            unfold z16; apply State.setf_keeps; unfold z7; apply State.setf_keeps; exact h
          clear_value z16; revert z16; refine id ?_; intro z16 kz16; apply Keeps.ofOk; apply State.schedule_keeps; exact kz16
    · extract_lets +onlyGivenNames z11
      have kz11 : Keeps s₀ z11 := by
        unfold z11; unfold z7; apply State.setf_keeps; exact h
      clear_value z11; revert z11; refine id ?_; intro z11 kz11; apply Keeps.ofOk; apply State.proofGo_keeps; exact kz11
theorem proofStartCmd_keeps : CmdKeeps (proofStartCmd) := by
  rw [proofStartCmd]; refine ⟨fun s₀ x s h => ?_, fun s₀ x s e h => ?_, fun s₀ x s h => ?_⟩
  · rw [Cmd.run_mk]; apply proofStartRun_keeps; exact h
  · rw [Cmd.refused_mk]; exact h
  · rw [Cmd.after_mk]; exact h
theorem execProofRunStart_keeps {s₀ : State} (q : Request) {s : State} (h : Keeps s₀ s) : NextKeeps s₀ (execProofRunStart q s) := by
  unfold execProofRunStart; apply NextKeeps.next; apply runCmd_keeps
  · apply proofStartCmd_keeps
  · exact h
theorem State.proofAbort_keeps {s₀ : State} {s : State} (h : Keeps s₀ s) : Keeps s₀ (State.proofAbort s) := by
  unfold State.proofAbort; split
  · extract_lets +onlyGivenNames z5
    have kz5 : Keeps s₀ z5 := by
      unfold z5; apply State.setf_keeps; exact h
    clear_value z5; revert z5; refine id ?_; intro z5 kz5; apply State.proofEnd_keeps
    exact kz5.same (by unfold State.view; rfl)
  · exact h
theorem proofAbortCmd_keeps : CmdKeeps (proofAbortCmd) := by
  rw [proofAbortCmd]; refine ⟨fun s₀ x s h => ?_, fun s₀ x s e h => ?_, fun s₀ x s h => ?_⟩
  · rw [Cmd.run_mk]; apply Keeps.ofOk; apply State.proofAbort_keeps; exact h
  · rw [Cmd.refused_mk]; exact h
  · rw [Cmd.after_mk]; exact h
theorem execProofRunAbort_keeps {s₀ : State} (q : Request) {s : State} (h : Keeps s₀ s) : NextKeeps s₀ (execProofRunAbort q s) := by
  unfold execProofRunAbort; apply NextKeeps.next; apply runCmd_keeps
  · apply proofAbortCmd_keeps
  · exact h
theorem State.proofCancel_keeps {s₀ : State} {s : State} (h : Keeps s₀ s) : Keeps s₀ (State.proofCancel s) := by
  unfold State.proofCancel; split
  · apply State.setf_keeps; exact h
  · exact h
theorem execScheduledProofStart_keeps {s₀ : State} (hh : ℕ) {s : State} (h : Keeps s₀ s) : NextKeeps s₀ (execScheduledProofStart hh s) := by
  unfold execScheduledProofStart; extract_lets +onlyGivenNames z5
  have kz5 : Keeps s₀ z5 := by
    unfold z5; apply State.fresh_keeps; exact h
  clear_value z5; revert z5; refine id ?_; intro z5 kz5; apply NextKeeps.next; split
  · exact kz5
  · split
    · apply State.proofGo_keeps; apply State.dropAction_keeps; exact kz5
    · apply State.outcome_keeps; apply State.proofCancel_keeps; apply State.dropAction_keeps; exact kz5
theorem execProbeSend_keeps {s₀ : State} {s : State} (h : Keeps s₀ s) : NextKeeps s₀ (execProbeSend s) := by
  unfold execProbeSend; extract_lets +onlyGivenNames z4
  have kz4 : Keeps s₀ z4 := by
    unfold z4; apply State.fresh_keeps; exact h
  clear_value z4; revert z4; refine id ?_; intro z4 kz4; extract_lets +onlyGivenNames z6; extract_lets +onlyGivenNames z7
  apply NextKeeps.next; split
  · extract_lets +onlyGivenNames z9; extract_lets +onlyGivenNames z10; extract_lets +onlyGivenNames z11
    extract_lets +onlyGivenNames z12; extract_lets +onlyGivenNames z13
    have kz13 : Keeps s₀ z13 := by
      unfold z13; exact kz4.same (by unfold State.view; rfl)
    clear_value z13; revert z13; refine id ?_; intro z13 kz13; extract_lets +onlyGivenNames z15
    have kz15 : Keeps s₀ z15 := by
      unfold z15; apply State.setf_keeps; exact kz13
    clear_value z15; revert z15; refine id ?_; intro z15 kz15; split
    · apply State.collect_keeps; apply State.enqueue_keeps; apply State.storeFrame_keeps; exact kz15
    · apply State.wrap_keeps; exact kz15
  · exact kz4
theorem execSlotEnd_keeps {s₀ : State} {s : State} (h : Keeps s₀ s) : NextKeeps s₀ (execSlotEnd s) := by
  unfold execSlotEnd; extract_lets +onlyGivenNames z4
  have kz4 : Keeps s₀ z4 := by
    unfold z4; apply State.fresh_keeps; exact h
  clear_value z4; revert z4; refine id ?_; intro z4 kz4; extract_lets +onlyGivenNames z6; apply NextKeeps.next; split
  · apply State.nextSlot_keeps; apply State.setf_keeps; exact kz4
  · exact kz4
theorem State.arrive_keeps {s₀ : State} {s : State} (p : Nat) (frame : List Byte) (mine : List Byte → State → Bool)
    (take : List Byte → State → State)
    (ht : ∀ l t, Keeps s₀ t → Keeps s₀ (take l t)) (h : Keeps s₀ s) : Keeps s₀ (State.arrive s p frame mine take) := by
  unfold State.arrive; split
  · extract_lets +onlyGivenNames z10
    have kz10 : Keeps s₀ z10 := by
      unfold z10; apply State.calRxEnd_keeps; apply State.epochDue_keeps; exact h
    clear_value z10; revert z10; refine id ?_; intro z10 kz10; extract_lets +onlyGivenNames z12
    extract_lets +onlyGivenNames z13; split
    · apply State.errored_keeps; exact kz10
    · extract_lets +onlyGivenNames z15; extract_lets +onlyGivenNames z16
      have kz16 : Keeps s₀ z16 := by
        unfold z16; apply State.countGood_keeps; exact kz10
      clear_value z16; revert z16; refine id ?_; intro z16 kz16; split
      · apply ht; apply State.mirrorTaken_keeps; exact kz16
      · apply State.good_keeps; exact kz16
  · exact h
theorem State.echoTaken_keeps {s₀ : State} {s : State} (p : ℕ) (y : List Byte) (h : Keeps s₀ s) : Keeps s₀ (State.echoTaken s p y) := by
  unfold State.echoTaken; extract_lets +onlyGivenNames z6; extract_lets +onlyGivenNames z7; extract_lets +onlyGivenNames z8
  extract_lets +onlyGivenNames z9; extract_lets +onlyGivenNames z10; extract_lets +onlyGivenNames z11
  extract_lets +onlyGivenNames z12
  have kz12 : Keeps s₀ z12 := by
    unfold z12; exact h.same (by unfold State.view; rfl)
  clear_value z12; revert z12; refine id ?_; intro z12 kz12; extract_lets +onlyGivenNames z14
  have kz14 : Keeps s₀ z14 := by
    unfold z14; apply State.setf_keeps; apply State.setf_keeps; exact kz12
  clear_value z14; revert z14; refine id ?_; intro z14 kz14; extract_lets +onlyGivenNames z16
  have kz16 : Keeps s₀ z16 := by
    unfold z16; apply State.set_keeps; exact kz14
  clear_value z16; revert z16; refine id ?_; intro z16 kz16; extract_lets +onlyGivenNames z18
  have kz18 : Keeps s₀ z18 := by
    unfold z18; apply State.set_keeps; exact kz16
  clear_value z18; revert z18; refine id ?_; intro z18 kz18; extract_lets +onlyGivenNames z20
  have kz20 : Keeps s₀ z20 := by
    unfold z20; apply State.setf_keeps; exact kz18
  clear_value z20; revert z20; refine id ?_; intro z20 kz20; split
  · apply State.setf_keeps; exact kz20
  · exact kz20
theorem execEchoReceive_keeps {s₀ : State} (p : ℕ) (frame : List Byte) {s : State} (h : Keeps s₀ s) : NextKeeps s₀ (execEchoReceive p frame s) := by
  unfold execEchoReceive; extract_lets +onlyGivenNames z6
  have kz6 : Keeps s₀ z6 := by
    unfold z6; apply State.fresh_keeps; exact h
  clear_value z6; revert z6; refine id ?_; intro z6 kz6; apply NextKeeps.atUnit
  · exact kz6
  · apply State.arrive_keeps
    · intro a8 t9 h10; extract_lets +onlyGivenNames z11; split
      · apply State.echoTaken_keeps; exact h10
      · exact h10
    · exact kz6
theorem State.reflectCount_keeps {s₀ : State} {s : State} (mac : ℕ) (run : ℕ) (slot : ℕ) (h : Keeps s₀ s) : Keeps s₀ (State.reflectCount s mac run slot).1 := by
  unfold State.reflectCount; extract_lets +onlyGivenNames z7; extract_lets +onlyGivenNames z8; extract_lets +onlyGivenNames z9
  extract_lets +onlyGivenNames z10; dsimp -zeta -zetaHave only; exact h.same (by unfold State.view; rfl)
theorem State.reflect_keeps {s₀ : State} {s : State} (p : ℕ) (d : List Byte) (h : Keeps s₀ s) : Keeps s₀ (State.reflect s p d) := by
  unfold State.reflect; extract_lets +onlyGivenNames z6; extract_lets +onlyGivenNames z7; extract_lets +onlyGivenNames z8
  extract_lets +onlyGivenNames z9; split
  · extract_lets +onlyGivenNames z11; extract_lets +onlyGivenNames z12
    have kz12 : Keeps s₀ z12 := by
      unfold z12; exact h.same (by unfold State.view; rfl)
    clear_value z12; revert z12; refine id ?_; intro z12 kz12; extract_lets +onlyGivenNames z14
    have kz14 : Keeps s₀ z14.1 := by
      unfold z14; apply State.reflectCount_keeps; exact kz12
    clear_value z14; revert z14; refine id ?_; intro z14 kz14; extract_lets +onlyGivenNames z16
    extract_lets +onlyGivenNames z17; extract_lets +onlyGivenNames z18; extract_lets +onlyGivenNames z19; split
    · apply State.collect_keeps; apply State.enqueue_keeps; apply State.storeFrame_keeps; exact kz14
    · apply State.wrap_keeps; exact kz14
  · apply State.count_keeps; exact h
theorem execProbeReflect_keeps {s₀ : State} (p : ℕ) (frame : List Byte) {s : State} (h : Keeps s₀ s) : NextKeeps s₀ (execProbeReflect p frame s) := by
  unfold execProbeReflect; extract_lets +onlyGivenNames z6
  have kz6 : Keeps s₀ z6 := by
    unfold z6; apply State.fresh_keeps; exact h
  clear_value z6; revert z6; refine id ?_; intro z6 kz6; apply NextKeeps.atUnit
  · exact kz6
  · apply State.arrive_keeps
    · intro a8 t9 h10; split
      · apply State.reflect_keeps; exact h10
      · exact h10
    · exact kz6

end Sys2Proof.Machine
end

