-- ==== Sys2Proof/Laws/KeepsRefs.lean ====
section
/-! SUPPORT. What references and PTP keep: one lemma for each operation, in the words of Laws.Keeps. -/
namespace Sys2Proof.Machine

theorem State.setDpll_keeps {s₀ : State} {s : State} (i : Nat) (f : DpllSide → DpllSide) (h : Keeps s₀ s) : Keeps s₀ (State.setDpll s i f) :=
  h.lengths rfl (by simp only [State.view, State.setDpll, modifyAt_length])
theorem State.setSel_keeps {s₀ : State} {s : State} (i : Nat) (f : SelSide → SelSide) (h : Keeps s₀ s) : Keeps s₀ (State.setSel s i f) :=
  h.lengths rfl (by simp only [State.view, State.setSel, modifyAt_length])
theorem State.setFreq_keeps {s₀ : State} {s : State} (i : ℕ) (f : ℤ) (h : Keeps s₀ s) : Keeps s₀ (State.setFreq s i f) := by
  unfold State.setFreq; extract_lets +onlyGivenNames z6; extract_lets +onlyGivenNames z7
  have kz7 : Keeps s₀ z7 := by
    unfold z7; apply State.setf_keeps; exact h
  clear_value z7; revert z7; refine id ?_; intro z7 kz7; extract_lets +onlyGivenNames z9
  have kz9 : Keeps s₀ z9 := by
    unfold z9; apply State.setDpll_keeps; exact kz7
  clear_value z9; revert z9; refine id ?_; intro z9 kz9; split
  · apply State.setf_keeps; apply State.setDom_keeps; exact kz9
  · exact kz9
theorem State.retuneOne_keeps {s₀ : State} {s : State} (i : ℕ) (h : Keeps s₀ s) : Keeps s₀ (State.retuneOne s i) := by
  unfold State.retuneOne; extract_lets +onlyGivenNames z5; extract_lets +onlyGivenNames z6; extract_lets +onlyGivenNames z7
  split
  · exact h
  · apply State.setFreq_keeps; exact h
theorem State.retuneDpll_keeps {s₀ : State} {s : State} (i : ℕ) (h : Keeps s₀ s) : Keeps s₀ (State.retuneDpll s i) := by
  unfold State.retuneDpll; extract_lets +onlyGivenNames z5
  have kz5 : Keeps s₀ z5 := by
    unfold z5; apply State.retuneOne_keeps; exact h
  clear_value z5; revert z5; refine id ?_; intro z5 kz5; split
  · exact kz5
  · apply State.forEach_keeps
    · intro a8 a9 t10 h11; apply State.retuneOne_keeps; exact h11
    · exact kz5
theorem State.showValid_keeps {s₀ : State} {s : State} (i : ℕ) (h : Keeps s₀ s) : Keeps s₀ (State.showValid s i) := by
  unfold State.showValid; apply State.setf_keeps; exact h
theorem State.setLevel_keeps {s₀ : State} {s : State} (i : ℕ) (new : ℕ) (h : Keeps s₀ s) : Keeps s₀ (State.setLevel s i new) := by
  unfold State.setLevel; extract_lets +onlyGivenNames z6; split
  · exact h
  · extract_lets +onlyGivenNames z8
    have kz8 : Keeps s₀ z8 := by
      unfold z8; apply State.setf_keeps; apply State.showValid_keeps; exact h
    clear_value z8; revert z8; refine id ?_; intro z8 kz8; extract_lets +onlyGivenNames z10
    have kz10 : Keeps s₀ z10 := by
      unfold z10; apply State.setDpll_keeps; exact kz8
    clear_value z10; revert z10; refine id ?_; intro z10 kz10; extract_lets +onlyGivenNames z12
    have kz12 : Keeps s₀ z12 := by
      unfold z12; split
      · apply State.count_keeps; exact kz10
      · split
        · apply State.count_keeps; exact kz10
        · exact kz10
    clear_value z12; revert z12; refine id ?_; intro z12 kz12; extract_lets +onlyGivenNames z14
    have kz14 : Keeps s₀ z14 := by
      unfold z14; split
      · apply State.setf_keeps; exact kz12
      · exact kz12
    clear_value z14; revert z14; refine id ?_; intro z14 kz14; apply State.outWantAll_keeps; apply State.refresh_keeps
    apply State.raise_keeps; exact kz14
theorem State.openLoop_keeps {s₀ : State} {s : State} (i : ℕ) (f : ℤ) (h : Keeps s₀ s) : Keeps s₀ (State.openLoop s i f) := by
  unfold State.openLoop; apply State.retuneDpll_keeps; apply State.setDpll_keeps; exact h
theorem State.holdOver_keeps {s₀ : State} {s : State} (i : ℕ) (h : Keeps s₀ s) : Keeps s₀ (State.holdOver s i) := by
  unfold State.holdOver; split
  · apply State.setLevel_keeps; apply State.openLoop_keeps; exact h
  · apply State.setLevel_keeps; apply State.openLoop_keeps; exact h
theorem State.servoDown_keeps {s₀ : State} {s : State} (h : Keeps s₀ s) : Keeps s₀ (State.servoDown s) := by
  unfold State.servoDown; apply State.forEach_keeps
  · intro a4 a5 t6 h7; split
    · exact h7
    · extract_lets +onlyGivenNames z9; apply State.setLevel_keeps; apply State.retuneDpll_keeps; apply State.setDpll_keeps
      exact h7
  · exact h
theorem State.slewTick_keeps {s₀ : State} {s : State} (i : ℕ) (h : Keeps s₀ s) : Keeps s₀ (State.slewTick s i) := by
  unfold State.slewTick; split
  · extract_lets +onlyGivenNames z6; extract_lets +onlyGivenNames z7; split
    · apply State.retuneDpll_keeps; apply State.setDpll_keeps; exact h
    · apply State.setDpll_keeps; exact h
  · exact h
theorem State.setPtpState_keeps {s₀ : State} {s : State} (d : ℕ) (p : ℕ) (new : ℕ) (h : Keeps s₀ s) : Keeps s₀ (State.setPtpState s d p new) := by
  unfold State.setPtpState; extract_lets +onlyGivenNames z7; split
  · exact h
  · apply State.raise_keeps; apply State.setf_keeps; exact h
theorem State.slaveFollows_keeps {s₀ : State} {s : State} (r : ℕ) (new : ℕ) (old : ℕ) (h : Keeps s₀ s) : Keeps s₀ (State.slaveFollows s r new old) := by
  unfold State.slaveFollows; extract_lets +onlyGivenNames z7; split
  · split
    · apply State.setPtpState_keeps; exact h
    · split
      · apply State.setPtpState_keeps; exact h
      · exact h
  · exact h
theorem State.setRef_keeps {s₀ : State} {s : State} (r : ℕ) (new : ℕ) (cond : ℕ) (h : Keeps s₀ s) : Keeps s₀ (State.setRef s r new cond) := by
  unfold State.setRef; extract_lets +onlyGivenNames z7; split
  · exact h
  · extract_lets +onlyGivenNames z9
    have kz9 : Keeps s₀ z9 := by
      unfold z9; apply State.setf_keeps; exact h
    clear_value z9; revert z9; refine id ?_; intro z9 kz9; extract_lets +onlyGivenNames z11; extract_lets +onlyGivenNames z12
    have kz12 : Keeps s₀ z12 := by
      unfold z12; exact kz9.same (by unfold State.view; rfl)
    clear_value z12; revert z12; refine id ?_; intro z12 kz12; extract_lets +onlyGivenNames z14
    have kz14 : Keeps s₀ z14 := by
      unfold z14; split
      · apply State.count_keeps; exact kz12
      · split
        · apply State.count_keeps; exact kz12
        · exact kz12
    clear_value z14; revert z14; refine id ?_; intro z14 kz14; apply State.refresh_keeps; apply State.slaveFollows_keeps
    apply State.raise_keeps; exact kz14
theorem State.refDown_keeps {s₀ : State} {s : State} (r : ℕ) (h : Keeps s₀ s) : Keeps s₀ (State.refDown s r) := by
  unfold State.refDown; extract_lets +onlyGivenNames z5; split
  · apply State.setRef_keeps; exact h
  · split
    · apply State.setRef_keeps; exact h
    · exact h
theorem State.refUp_keeps {s₀ : State} {s : State} (r : ℕ) (h : Keeps s₀ s) : Keeps s₀ (State.refUp s r) := by
  unfold State.refUp; split
  · exact h
  · split
    · apply State.setRef_keeps; exact h
    · apply State.setRef_keeps; exact h
    · split
      · apply State.setRef_keeps; exact h
      · exact h
    · split
      · apply State.setRef_keeps; exact h
      · exact h
    · exact h
theorem State.refWritten_keeps {s₀ : State} {s : State} (r : ℕ) (h : Keeps s₀ s) : Keeps s₀ (State.refWritten s r) := by
  unfold State.refWritten; split
  · apply State.setRef_keeps; exact h
  · split
    · apply State.setRef_keeps; exact h
    · split
      · apply State.refUp_keeps; exact h
      · exact h
theorem State.setSelStatus_keeps {s₀ : State} {s : State} (sel : ℕ) (selected : ℕ) (target : ℕ) (st : ℕ) (h : Keeps s₀ s) : Keeps s₀ (State.setSelStatus s sel selected target st) := by
  unfold State.setSelStatus; apply State.setf_keeps; apply State.setf_keeps; apply State.setf_keeps; exact h
theorem State.refSwitch_keeps {s₀ : State} {s : State} (sel : ℕ) (src : ℕ) (dst : ℕ) (what : ℕ) (offset : ℤ) (h : Keeps s₀ s) : Keeps s₀ (State.refSwitch s sel src dst what offset) := by
  unfold State.refSwitch; apply State.raise_keeps; exact h
theorem State.startSwitch_keeps {s₀ : State} {s : State} (sel : ℕ) (r : ℕ) (h : Keeps s₀ s) : Keeps s₀ (State.startSwitch s sel r) := by
  unfold State.startSwitch; extract_lets +onlyGivenNames z6; extract_lets +onlyGivenNames z7; extract_lets +onlyGivenNames z8
  have kz8 : Keeps s₀ z8 := by
    unfold z8; apply State.openLoop_keeps; exact h
  clear_value z8; revert z8; refine id ?_; intro z8 kz8; extract_lets +onlyGivenNames z10
  have kz10 : Keeps s₀ z10 := by
    unfold z10; apply State.setDpll_keeps; exact kz8
  clear_value z10; revert z10; refine id ?_; intro z10 kz10; extract_lets +onlyGivenNames z12
  have kz12 : Keeps s₀ z12 := by
    unfold z12; apply State.refSwitch_keeps; apply State.setSel_keeps; apply State.setSelStatus_keeps; exact kz10
  clear_value z12; revert z12; refine id ?_; intro z12 kz12; split
  · apply State.setLevel_keeps; exact kz12
  · exact kz12
theorem State.abandon_keeps {s₀ : State} {s : State} (sel : ℕ) (h : Keeps s₀ s) : Keeps s₀ (State.abandon s sel) := by
  unfold State.abandon; extract_lets +onlyGivenNames z5
  have kz5 : Keeps s₀ z5 := by
    unfold z5; apply State.refSwitch_keeps; exact h
  clear_value z5; revert z5; refine id ?_; intro z5 kz5; extract_lets +onlyGivenNames z7
  have kz7 : Keeps s₀ z7 := by
    unfold z7; apply State.setSelStatus_keeps; apply State.count_keeps; exact kz5
  clear_value z7; revert z7; refine id ?_; intro z7 kz7; apply State.holdOver_keeps; apply State.setSel_keeps; exact kz7
theorem State.deselect_keeps {s₀ : State} {s : State} (sel : ℕ) (h : Keeps s₀ s) : Keeps s₀ (State.deselect s sel) := by
  unfold State.deselect; apply State.holdOver_keeps; apply State.setSelStatus_keeps; exact h
theorem State.loopReading_keeps {s₀ : State} {s : State} (i : ℕ) (freq : ℤ) (phi : ℤ) (h : Keeps s₀ s) : Keeps s₀ (State.loopReading s i freq phi) := by
  unfold State.loopReading; split
  · extract_lets +onlyGivenNames z8; extract_lets +onlyGivenNames z9
    have kz9 : Keeps s₀ z9 := by
      unfold z9; apply State.set_keeps; exact h
    clear_value z9; revert z9; refine id ?_; intro z9 kz9; extract_lets +onlyGivenNames z11; apply State.retuneDpll_keeps
    apply State.setDpll_keeps; exact kz9
  · exact h
theorem State.close_keeps {s₀ : State} {s : State} (i : ℕ) (r : ℕ) (phi : ℤ) (h : Keeps s₀ s) : Keeps s₀ (State.close s i r phi) := by
  unfold State.close; extract_lets +onlyGivenNames z7; extract_lets +onlyGivenNames z8; extract_lets +onlyGivenNames z9
  have kz9 : Keeps s₀ z9 := by
    unfold z9; apply State.setDpll_keeps; exact h
  clear_value z9; revert z9; refine id ?_; intro z9 kz9; extract_lets +onlyGivenNames z11
  have kz11 : Keeps s₀ z11 := by
    unfold z11; apply State.setDpll_keeps; exact kz9
  clear_value z11; revert z11; refine id ?_; intro z11 kz11; split
  · extract_lets +onlyGivenNames z14; split
    · extract_lets +onlyGivenNames z16
      have kz16 : Keeps s₀ z16 := by
        unfold z16; split
        · apply State.count_keeps; exact kz11
        · exact kz11
      clear_value z16; revert z16; refine id ?_; intro z16 kz16; exact kz16.same (by unfold State.view; rfl)
    · apply State.retuneDpll_keeps; apply State.setDpll_keeps; exact kz11
  · apply State.retuneDpll_keeps; apply State.setDpll_keeps; exact kz11
theorem State.refDisagree_keeps {s₀ : State} {s : State} (sel : ℕ) (kept : ℕ) (mark : ℕ) (what : ℕ) (h : Keeps s₀ s) : Keeps s₀ (State.refDisagree s sel kept mark what) := by
  unfold State.refDisagree; apply State.raise_keeps; exact h
theorem State.showMark_keeps {s₀ : State} {s : State} (r : ℕ) (h : Keeps s₀ s) : Keeps s₀ (State.showMark s r) := by
  unfold State.showMark; apply State.setf_keeps; exact h
theorem State.markAll_keeps {s₀ : State} {s : State} (sel : ℕ) (view : ℕ) (r : ℕ) (h : Keeps s₀ s) : Keeps s₀ (State.markAll s sel view r) := by
  unfold State.markAll; apply State.forEach_keeps
  · intro a7 a8 t9 h10; apply State.showMark_keeps; apply State.refDisagree_keeps; apply State.setSel_keeps; exact h10
  · exact h
theorem State.unmark_keeps {s₀ : State} {s : State} (sel : ℕ) (q : ℕ) (h : Keeps s₀ s) : Keeps s₀ (State.unmark s sel q) := by
  unfold State.unmark; apply State.showMark_keeps; apply State.refDisagree_keeps; apply State.setSel_keeps; exact h
theorem State.tendMarks_keeps {s₀ : State} {s : State} (sel : ℕ) (h : Keeps s₀ s) : Keeps s₀ (State.tendMarks s sel) := by
  unfold State.tendMarks; extract_lets +onlyGivenNames z5
  have kz5 : Keeps s₀ z5 := by
    unfold z5; apply State.forEach_keeps
    · intro a6 a7 t8 h9; apply State.unmark_keeps; exact h9
    · exact h
  clear_value z5; revert z5; refine id ?_; intro z5 kz5; apply State.setSel_keeps; exact kz5
theorem State.switchBest_keeps {s₀ : State} {s : State} (sel view : Nat) (h : Keeps s₀ s) : ∀ u, State.switchBest s sel view = some u → Keeps s₀ u := by
  intro u hu; unfold State.switchBest at hu; obtain ⟨r, _, rfl⟩ := Option.map_eq_some_iff.1 hu
  exact State.markAll_keeps _ _ _ (State.startSwitch_keeps _ _ h)
theorem State.react_keeps {s₀ : State} {s : State} (sel : ℕ) (view : ℕ) (h : Keeps s₀ s) : Keeps s₀ (State.react s sel view) := by
  unfold State.react; extract_lets +onlyGivenNames z6; extract_lets +onlyGivenNames z7; extract_lets +onlyGivenNames z8
  extract_lets +onlyGivenNames z9; split
  · split
    · split
      · apply State.deselect_keeps; exact h
      · split
        · exact h
        · apply State.startSwitch_keeps; exact h
    · split
      · split
        · exact h
        · apply State.abandon_keeps; exact h
      · split
        · apply State.startSwitch_keeps; exact h
        · exact h
  · split
    · split
      · apply Keeps.getD
        · apply State.switchBest_keeps; exact h
        · apply State.deselect_keeps; exact h
      · extract_lets +onlyGivenNames z13
        have kz13 : Keeps s₀ z13 := by
          unfold z13; apply State.markAll_keeps; exact h
        clear_value z13; revert z13; refine id ?_; intro z13 kz13; extract_lets +onlyGivenNames z15; split
        · apply Keeps.getD
          · apply State.switchBest_keeps; exact kz13
          · exact kz13
        · exact kz13
    · split
      · split
        · exact h
        · apply State.abandon_keeps; exact h
      · split
        · apply Keeps.getD
          · apply State.switchBest_keeps; exact h
          · exact h
        · exact h
theorem State.reactAll_keeps {s₀ : State} {s : State} (view : ℕ) (h : Keeps s₀ s) : Keeps s₀ (State.reactAll s view) := by
  unfold State.reactAll; apply State.forEach_keeps
  · intro a5 a6 t7 h8; apply State.tendMarks_keeps; exact h8
  · apply State.forEach_keeps
    · intro a5 a6 t7 h8; apply State.react_keeps; exact h8
    · exact h
theorem State.applyChanges_keeps {s₀ : State} {s : State} (h : Keeps s₀ s) : Keeps s₀ (State.applyChanges s) := by
  unfold State.applyChanges; extract_lets +onlyGivenNames z4; extract_lets +onlyGivenNames z5; extract_lets +onlyGivenNames z6
  extract_lets +onlyGivenNames z7; extract_lets +onlyGivenNames z8; extract_lets +onlyGivenNames z9
  have kz9 : Keeps s₀ z9.2 := by
    unfold z9; apply Keeps.foldl_snd
    · dsimp -zeta -zetaHave only; exact h
    · intro a10 a11 h12; dsimp -zeta -zetaHave only; apply State.reactAll_keeps; exact h12
  clear_value z9; revert z9; refine id ?_; intro z9 kz9; extract_lets +onlyGivenNames z11
  have kz11 : Keeps s₀ z11.2 := by
    unfold z11; apply Keeps.foldl_snd
    · exact kz9
    · intro a12 a13 h14; dsimp -zeta -zetaHave only; apply State.reactAll_keeps; exact h14
  clear_value z11; revert z11; refine id ?_; intro z11 kz11; extract_lets +onlyGivenNames z13
  have kz13 : Keeps s₀ z13 := by
    unfold z13; apply State.reactAll_keeps; exact kz11
  clear_value z13; revert z13; refine id ?_; intro z13 kz13; exact kz13.same (by unfold State.view; rfl)
theorem State.takeBack_keeps {s₀ : State} {s : State} (i : ℕ) (h : Keeps s₀ s) : Keeps s₀ (State.takeBack s i) := by
  unfold State.takeBack; split
  · extract_lets +onlyGivenNames z6
    have kz6 : Keeps s₀ z6 := by
      unfold z6; apply State.setDpll_keeps; exact h
    clear_value z6; revert z6; refine id ?_; intro z6 kz6; extract_lets +onlyGivenNames z8
    have kz8 : Keeps s₀ z8 := by
      unfold z8; apply State.setDpll_keeps; exact kz6
    clear_value z8; revert z8; refine id ?_; intro z8 kz8; apply State.setLevel_keeps; apply State.retuneDpll_keeps; exact kz8
  · split
    · apply State.setLevel_keeps; exact h
    · exact h
theorem State.showRefs_keeps {s₀ : State} {s : State} (h : Keeps s₀ s) : Keeps s₀ (State.showRefs s) := by
  unfold State.showRefs; extract_lets +onlyGivenNames z4
  have kz4 : Keeps s₀ z4 := by
    unfold z4; apply State.forEach_keeps
    · intro a5 a6 t7 h8; apply State.setf_keeps; apply State.setf_keeps; apply State.setf_keeps; exact h8
    · exact h
  clear_value z4; revert z4; refine id ?_; intro z4 kz4; apply State.forEach_keeps
  · intro a6 a7 t8 h9; extract_lets +onlyGivenNames z10; apply State.showValid_keeps; apply State.setf_keeps
    apply State.setf_keeps; exact h9
  · exact kz4
theorem State.sendEsmc_keeps {s₀ : State} {s : State} (p : ℕ) (event : Bool) (h : Keeps s₀ s) : Keeps s₀ (State.sendEsmc s p event) := by
  unfold State.sendEsmc; apply State.deviceSend_keeps; apply State.setf_keeps; exact h
theorem State.esmcEvents_keeps {s₀ : State} {s : State} (h : Keeps s₀ s) : Keeps s₀ (State.esmcEvents s) := by
  unfold State.esmcEvents; apply State.forEach_keeps
  · intro a4 a5 t6 h7; apply State.sendEsmc_keeps; exact h7
  · exact h
theorem State.setQl_keeps {s₀ : State} {s : State} (p : ℕ) (new : ℕ) (timedOut : ℕ) (h : Keeps s₀ s) : Keeps s₀ (State.setQl s p new timedOut) := by
  unfold State.setQl; extract_lets +onlyGivenNames z7; extract_lets +onlyGivenNames z8
  have kz8 : Keeps s₀ z8 := by
    unfold z8; apply State.setf_keeps; exact h
  clear_value z8; revert z8; refine id ?_; intro z8 kz8; split
  · exact kz8
  · apply State.raise_keeps; exact kz8
theorem execRefEvaluate_keeps {s₀ : State} (edges : ℕ) (freqs : List (ℕ × ℤ)) (loops : List LoopReading) {s : State} (h : Keeps s₀ s) : NextKeeps s₀ (execRefEvaluate edges freqs loops s) := by
  unfold execRefEvaluate; extract_lets +onlyGivenNames z7
  have kz7 : Keeps s₀ z7 := by
    unfold z7; apply State.fresh_keeps; exact h
  clear_value z7; revert z7; refine id ?_; intro z7 kz7; apply NextKeeps.next; split
  · extract_lets +onlyGivenNames z10
    have kz10 : Keeps s₀ z10 := by
      unfold z10; apply State.mark_keeps; exact kz7
    clear_value z10; revert z10; refine id ?_; intro z10 kz10; extract_lets +onlyGivenNames z12
    extract_lets +onlyGivenNames z13
    have kz13 : Keeps s₀ z13 := by
      unfold z13; exact kz10.same (by unfold State.view; rfl)
    clear_value z13; revert z13; refine id ?_; intro z13 kz13; extract_lets +onlyGivenNames z15
    have kz15 : Keeps s₀ z15 := by
      unfold z15; apply State.forEach_keeps
      · intro a16 a17 t18 h19; apply State.setf_keeps; exact h19
      · exact kz13
    clear_value z15; revert z15; refine id ?_; intro z15 kz15; extract_lets +onlyGivenNames z17
    have kz17 : Keeps s₀ z17 := by
      unfold z17; apply State.forEach_keeps
      · intro a18 a19 t20 h21; apply State.takeBack_keeps; exact h21
      · exact kz15
    clear_value z17; revert z17; refine id ?_; intro z17 kz17; extract_lets +onlyGivenNames z19
    have kz19 : Keeps s₀ z19 := by
      unfold z19; apply State.forEach_keeps
      · intro a20 a21 t22 h23; apply State.loopReading_keeps; exact h23
      · exact kz17
    clear_value z19; revert z19; refine id ?_; intro z19 kz19; extract_lets +onlyGivenNames z21
    have kz21 : Keeps s₀ z21 := by
      unfold z21; apply State.forEach_keeps
      · intro a22 a23 t24 h25; apply State.refDown_keeps; exact h25
      · exact kz19
    clear_value z21; revert z21; refine id ?_; intro z21 kz21; extract_lets +onlyGivenNames z23
    have kz23 : Keeps s₀ z23 := by
      unfold z23; apply State.forEach_keeps
      · intro a24 a25 t26 h27; apply State.refUp_keeps; exact h27
      · exact kz21
    clear_value z23; revert z23; refine id ?_; intro z23 kz23; apply State.esmcEvents_keeps; apply State.showRefs_keeps
    apply State.applyChanges_keeps; exact kz23
  · exact kz7
theorem execRefFailure_keeps {s₀ : State} (r : ℕ) (lost : Bool) {s : State} (h : Keeps s₀ s) : NextKeeps s₀ (execRefFailure r lost s) := by
  unfold execRefFailure; extract_lets +onlyGivenNames z6
  have kz6 : Keeps s₀ z6 := by
    unfold z6; apply State.fresh_keeps; exact h
  clear_value z6; revert z6; refine id ?_; intro z6 kz6; apply NextKeeps.atUnit
  · exact kz6
  · split
    · extract_lets +onlyGivenNames z9; extract_lets +onlyGivenNames z10
      have kz10 : Keeps s₀ z10 := by
        unfold z10; split
        · exact kz6.same (by unfold State.view; rfl)
        · exact kz6
      clear_value z10; revert z10; refine id ?_; intro z10 kz10; apply State.refDown_keeps; exact kz10
    · exact kz6
theorem execRefMonitorPass_keeps {s₀ : State} (r : ℕ) {s : State} (h : Keeps s₀ s) : NextKeeps s₀ (execRefMonitorPass r s) := by
  unfold execRefMonitorPass; extract_lets +onlyGivenNames z5
  have kz5 : Keeps s₀ z5 := by
    unfold z5; apply State.fresh_keeps; exact h
  clear_value z5; revert z5; refine id ?_; intro z5 kz5; apply NextKeeps.atUnit
  · exact kz5
  · split
    · apply State.refUp_keeps; exact kz5
    · exact kz5
theorem execWtrExpiry_keeps {s₀ : State} (r : ℕ) {s : State} (h : Keeps s₀ s) : NextKeeps s₀ (execWtrExpiry r s) := by
  unfold execWtrExpiry; extract_lets +onlyGivenNames z5
  have kz5 : Keeps s₀ z5 := by
    unfold z5; apply State.fresh_keeps; exact h
  clear_value z5; revert z5; refine id ?_; intro z5 kz5; apply NextKeeps.atUnit
  · exact kz5
  · split
    · apply State.refUp_keeps; exact kz5
    · exact kz5
theorem execDisagreeClear_keeps {s₀ : State} (sel : ℕ) (r : ℕ) {s : State} (h : Keeps s₀ s) : NextKeeps s₀ (execDisagreeClear sel r s) := by
  unfold execDisagreeClear; extract_lets +onlyGivenNames z6
  have kz6 : Keeps s₀ z6 := by
    unfold z6; apply State.fresh_keeps; exact h
  clear_value z6; revert z6; refine id ?_; intro z6 kz6; apply NextKeeps.atUnit
  · exact kz6
  · split
    · extract_lets +onlyGivenNames z14; split
      · apply State.unmark_keeps; exact kz6
      · exact kz6
    · exact kz6
theorem execSwitchMeasurementEnd_keeps {s₀ : State} (sel : ℕ) (phi : ℤ) {s : State} (h : Keeps s₀ s) : NextKeeps s₀ (execSwitchMeasurementEnd sel phi s) := by
  unfold execSwitchMeasurementEnd; extract_lets +onlyGivenNames z6
  have kz6 : Keeps s₀ z6 := by
    unfold z6; apply State.fresh_keeps; exact h
  clear_value z6; revert z6; refine id ?_; intro z6 kz6; apply NextKeeps.atUnit
  · exact kz6
  · split
    · extract_lets +onlyGivenNames z9; extract_lets +onlyGivenNames z10; extract_lets +onlyGivenNames z11
      have kz11 : Keeps s₀ z11 := by
        unfold z11; apply State.count_keeps; apply State.setSelStatus_keeps; exact kz6
      clear_value z11; revert z11; refine id ?_; intro z11 kz11; extract_lets +onlyGivenNames z13
      have kz13 : Keeps s₀ z13 := by
        unfold z13; apply State.refSwitch_keeps; apply State.close_keeps; exact kz11
      clear_value z13; revert z13; refine id ?_; intro z13 kz13; apply State.react_keeps; exact kz13
    · exact kz6
theorem execDpllLock_keeps {s₀ : State} (i : ℕ) {s : State} (h : Keeps s₀ s) : NextKeeps s₀ (execDpllLock i s) := by
  unfold execDpllLock; extract_lets +onlyGivenNames z5
  have kz5 : Keeps s₀ z5 := by
    unfold z5; apply State.fresh_keeps; exact h
  clear_value z5; revert z5; refine id ?_; intro z5 kz5; apply NextKeeps.atUnit
  · exact kz5
  · extract_lets +onlyGivenNames z7; extract_lets +onlyGivenNames z8; split
    · apply State.setLevel_keeps; exact kz5
    · exact kz5
theorem execDpllUnlock_keeps {s₀ : State} (i : ℕ) (phi : ℤ) {s : State} (h : Keeps s₀ s) : NextKeeps s₀ (execDpllUnlock i phi s) := by
  unfold execDpllUnlock; extract_lets +onlyGivenNames z6
  have kz6 : Keeps s₀ z6 := by
    unfold z6; apply State.fresh_keeps; exact h
  clear_value z6; revert z6; refine id ?_; intro z6 kz6; apply NextKeeps.atUnit
  · exact kz6
  · extract_lets +onlyGivenNames z8; split
    · extract_lets +onlyGivenNames z10
      have kz10 : Keeps s₀ z10 := by
        unfold z10; apply State.loopReading_keeps; exact kz6
      clear_value z10; revert z10; refine id ?_; intro z10 kz10; extract_lets +onlyGivenNames z12; split
      · apply State.setLevel_keeps; exact kz10
      · exact kz10
    · exact kz6
theorem execHoldoverEstimateWrite_keeps {s₀ : State} (i : ℕ) {s : State} (h : Keeps s₀ s) : NextKeeps s₀ (execHoldoverEstimateWrite i s) := by
  unfold execHoldoverEstimateWrite; extract_lets +onlyGivenNames z5
  have kz5 : Keeps s₀ z5 := by
    unfold z5; apply State.fresh_keeps; exact h
  clear_value z5; revert z5; refine id ?_; intro z5 kz5; apply NextKeeps.atUnit
  · exact kz5
  · extract_lets +onlyGivenNames z7; split
    · extract_lets +onlyGivenNames z9
      have kz9 : Keeps s₀ z9 := by
        unfold z9; apply State.setDpll_keeps; exact kz5
      clear_value z9; revert z9; refine id ?_; intro z9 kz9; extract_lets +onlyGivenNames z11; extract_lets +onlyGivenNames z12
      extract_lets +onlyGivenNames z13; extract_lets +onlyGivenNames z14; apply State.showValid_keeps; apply State.setf_keeps
      exact kz9
    · exact kz5
theorem execHoldoverStore_keeps {s₀ : State} (d : ℕ) {s : State} (h : Keeps s₀ s) : NextKeeps s₀ (execHoldoverStore d s) := by
  unfold execHoldoverStore; extract_lets +onlyGivenNames z5
  have kz5 : Keeps s₀ z5 := by
    unfold z5; apply State.fresh_keeps; exact h
  clear_value z5; revert z5; refine id ?_; intro z5 kz5; apply NextKeeps.atUnit
  · exact kz5
  · extract_lets +onlyGivenNames z7; split
    · exact kz5.same (by unfold State.view; rfl)
    · exact kz5
theorem State.clearUser_keeps {s₀ : State} {s : State} (d : ℕ) (h : Keeps s₀ s) : Keeps s₀ (State.clearUser s d) := by
  unfold State.clearUser; extract_lets +onlyGivenNames z5; extract_lets +onlyGivenNames z6
  have kz6 : Keeps s₀ z6 := by
    unfold z6; apply State.set_keeps; exact h
  clear_value z6; revert z6; refine id ?_; intro z6 kz6; split
  · apply State.retuneDpll_keeps; apply State.setDpll_keeps; exact kz6
  · exact kz6
theorem State.dpllStepped_keeps {s₀ : State} {s : State} (d : ℕ) (cause : ℕ) (step : ℤ) (h : Keeps s₀ s) : Keeps s₀ (State.dpllStepped s d cause step) := by
  unfold State.dpllStepped; extract_lets +onlyGivenNames z7
  have kz7 : Keeps s₀ z7 := by
    unfold z7; split
    · apply State.set_keeps; exact h
    · exact h
  clear_value z7; revert z7; refine id ?_; intro z7 kz7; split
  · apply State.setDpll_keeps; exact kz7
  · exact kz7
theorem execEsmcInfoSend_keeps {s₀ : State} (p : ℕ) {s : State} (h : Keeps s₀ s) : NextKeeps s₀ (execEsmcInfoSend p s) := by
  unfold execEsmcInfoSend; extract_lets +onlyGivenNames z5
  have kz5 : Keeps s₀ z5 := by
    unfold z5; apply State.fresh_keeps; exact h
  clear_value z5; revert z5; refine id ?_; intro z5 kz5; extract_lets +onlyGivenNames z7; apply NextKeeps.atUnit
  · exact kz5
  · split
    · apply State.sendEsmc_keeps; exact kz5.same (by unfold State.view; rfl)
    · exact kz5
theorem execEsmcReceive_keeps {s₀ : State} (p : ℕ) (frame : List Byte) {s : State} (h : Keeps s₀ s) : NextKeeps s₀ (execEsmcReceive p frame s) := by
  unfold execEsmcReceive; extract_lets +onlyGivenNames z6
  have kz6 : Keeps s₀ z6 := by
    unfold z6; apply State.fresh_keeps; exact h
  clear_value z6; revert z6; refine id ?_; intro z6 kz6; apply NextKeeps.atUnit
  · exact kz6
  · apply State.arrive_keeps
    · intro a8 t9 h10; split
      · apply State.setQl_keeps; exact h10.same (by unfold State.view; rfl)
      · exact h10
    · exact kz6
theorem execEsmcTimeout_keeps {s₀ : State} (p : ℕ) {s : State} (h : Keeps s₀ s) : NextKeeps s₀ (execEsmcTimeout p s) := by
  unfold execEsmcTimeout; extract_lets +onlyGivenNames z5
  have kz5 : Keeps s₀ z5 := by
    unfold z5; apply State.fresh_keeps; exact h
  clear_value z5; revert z5; refine id ?_; intro z5 kz5; apply NextKeeps.atUnit
  · exact kz5
  · split
    · split
      · apply State.setQl_keeps; exact kz5.same (by unfold State.view; rfl)
      · exact kz5
    · exact kz5
theorem State.recordForce_keeps {s₀ : State} {s : State} (sel : ℕ) (r : ℕ) (h : Keeps s₀ s) : Keeps s₀ (State.recordForce s sel r) := by
  unfold State.recordForce; extract_lets +onlyGivenNames z6
  have kz6 : Keeps s₀ z6 := by
    unfold z6; apply State.setf_keeps; exact h
  clear_value z6; revert z6; refine id ?_; intro z6 kz6; split
  · exact kz6.same (by unfold State.view; rfl)
  · exact kz6
theorem State.followForce_keeps {s₀ : State} {s : State} (sel : ℕ) (r : ℕ) (h : Keeps s₀ s) : Keeps s₀ (State.followForce s sel r) := by
  unfold State.followForce; split
  · split
    · apply State.startSwitch_keeps; exact h
    · split
      · apply State.startSwitch_keeps; exact h
      · exact h
  · split
    · apply State.abandon_keeps; exact h
    · split
      · apply State.deselect_keeps; exact h
      · exact h
theorem refForceRun_keeps {s₀ : State} (c : Ctx) {s : State} (h : Keeps s₀ s) : Keeps s₀ (refForceRun c s).state := by
  unfold refForceRun; extract_lets +onlyGivenNames z5
  have kz5 : Keeps s₀ z5 := by
    unfold z5; apply State.followForce_keeps; apply State.recordForce_keeps; exact h
  clear_value z5; revert z5; refine id ?_; intro z5 kz5; apply Keeps.ofOk; exact kz5
theorem refForceCmd_keeps : CmdKeeps (refForceCmd) := by
  rw [refForceCmd]; refine ⟨fun s₀ x s h => ?_, fun s₀ x s e h => ?_, fun s₀ x s h => ?_⟩
  · rw [Cmd.run_mk]; apply refForceRun_keeps; exact h
  · rw [Cmd.refused_mk]; exact h
  · rw [Cmd.after_mk]; exact h
theorem refReleaseRun_keeps {s₀ : State} (c : Ctx) {s : State} (h : Keeps s₀ s) : Keeps s₀ (refReleaseRun c s).state := by
  unfold refReleaseRun; extract_lets +onlyGivenNames z5
  have kz5 : Keeps s₀ z5 := by
    unfold z5; apply State.setf_keeps; exact h
  clear_value z5; revert z5; refine id ?_; intro z5 kz5; apply Keeps.ofOk; exact kz5
theorem refReleaseCmd_keeps : CmdKeeps (refReleaseCmd) := by
  rw [refReleaseCmd]; refine ⟨fun s₀ x s h => ?_, fun s₀ x s e h => ?_, fun s₀ x s h => ?_⟩
  · rw [Cmd.run_mk]; apply refReleaseRun_keeps; exact h
  · rw [Cmd.refused_mk]; exact h
  · rw [Cmd.after_mk]; exact h
theorem refClearWtrRun_keeps {s₀ : State} (c : Ctx) {s : State} (h : Keeps s₀ s) : Keeps s₀ (refClearWtrRun c s).state := by
  unfold refClearWtrRun; extract_lets +onlyGivenNames z5; apply Keeps.ofOk; apply State.forEach_keeps
  · intro a6 a7 t8 h9; apply State.setRef_keeps; exact h9
  · exact h
theorem refClearWtrCmd_keeps : CmdKeeps (refClearWtrCmd) := by
  rw [refClearWtrCmd]; refine ⟨fun s₀ x s h => ?_, fun s₀ x s e h => ?_, fun s₀ x s h => ?_⟩
  · rw [Cmd.run_mk]; apply refClearWtrRun_keeps; exact h
  · rw [Cmd.refused_mk]; exact h
  · rw [Cmd.after_mk]; exact h
theorem execRefForce_keeps {s₀ : State} (q : Request) {s : State} (h : Keeps s₀ s) : NextKeeps s₀ (execRefForce q s) := by
  unfold execRefForce; apply NextKeeps.next; apply runCmd_keeps
  · apply refForceCmd_keeps
  · exact h
theorem execRefRelease_keeps {s₀ : State} (q : Request) {s : State} (h : Keeps s₀ s) : NextKeeps s₀ (execRefRelease q s) := by
  unfold execRefRelease; apply NextKeeps.next; apply runCmd_keeps
  · apply refReleaseCmd_keeps
  · exact h
theorem execRefClearWtr_keeps {s₀ : State} (q : Request) {s : State} (h : Keeps s₀ s) : NextKeeps s₀ (execRefClearWtr q s) := by
  unfold execRefClearWtr; apply NextKeeps.next; apply runCmd_keeps
  · apply refClearWtrCmd_keeps
  · exact h
theorem State.setInst_keeps {s₀ : State} {s : State} (d : Nat) (f : PtpInst → PtpInst) (h : Keeps s₀ s) : Keeps s₀ (State.setInst s d f) :=
  h.lengths rfl (by simp only [State.view, State.setInst, modifyAt_length])
theorem State.overload_keeps {s₀ : State} {s : State} (k : ℕ) (n : ℕ) (h : Keeps s₀ s) : Keeps s₀ (State.overload s k n) := by
  unfold State.overload; extract_lets +onlyGivenNames z6; extract_lets +onlyGivenNames z7; extract_lets +onlyGivenNames z8
  extract_lets +onlyGivenNames z9
  have kz9 : Keeps s₀ z9 := by
    unfold z9; exact h.same (by unfold State.view; rfl)
  clear_value z9; revert z9; refine id ?_; intro z9 kz9; split
  · apply State.raise_keeps; exact kz9
  · exact kz9
theorem State.handle_keeps {s₀ : State} {s : State} (k : ℕ) (h : Keeps s₀ s) : Keeps s₀ (State.handle s k).2 := by
  unfold State.handle; extract_lets +onlyGivenNames z5; extract_lets +onlyGivenNames z6; dsimp -zeta -zetaHave only
  exact h.same (by unfold State.view; rfl)
theorem State.showSlave_keeps {s₀ : State} {s : State} (d : ℕ) (h : Keeps s₀ s) : Keeps s₀ (State.showSlave s d) := by
  unfold State.showSlave; apply State.setf_keeps; exact h
theorem State.ptpStates_keeps {s₀ : State} {s : State} (d : ℕ) (l : List (ℕ × ℕ)) (h : Keeps s₀ s) : Keeps s₀ (State.ptpStates s d l) := by
  unfold State.ptpStates; apply State.showSlave_keeps; apply State.forEach_keeps
  · intro a6 a7 t8 h9; apply State.setPtpState_keeps; exact h9
  · exact h
theorem State.setParent_keeps {s₀ : State} {s : State} (d : ℕ) (x : PtpParent) (h : Keeps s₀ s) : Keeps s₀ (State.setParent s d x) := by
  unfold State.setParent; extract_lets +onlyGivenNames z6; extract_lets +onlyGivenNames z7; extract_lets +onlyGivenNames z8
  have kz8 : Keeps s₀ z8 := by
    unfold z8; apply State.set_keeps; apply State.set_keeps; exact h
  clear_value z8; revert z8; refine id ?_; intro z8 kz8; extract_lets +onlyGivenNames z10
  have kz10 : Keeps s₀ z10 := by
    unfold z10; apply State.set_keeps; exact kz8
  clear_value z10; revert z10; refine id ?_; intro z10 kz10; extract_lets +onlyGivenNames z12
  have kz12 : Keeps s₀ z12 := by
    unfold z12; apply State.setInst_keeps; apply State.setf_keeps; exact kz10
  clear_value z12; revert z12; refine id ?_; intro z12 kz12; split
  · apply State.raise_keeps; exact kz12
  · exact kz12
theorem State.ptpDiscard_keeps {s₀ : State} {s : State} (d : ℕ) (p : ℕ) (h : Keeps s₀ s) : Keeps s₀ (State.ptpDiscard s d p) := by
  unfold State.ptpDiscard; apply State.count_keeps; exact h
theorem State.markStale_keeps {s₀ : State} {s : State} (d : ℕ) (p : ℕ) (h : Keeps s₀ s) : Keeps s₀ (State.markStale s d p) := by
  unfold State.markStale; apply State.setf_keeps; exact h
theorem State.delayExchange_keeps {s₀ : State} {s : State} (d : ℕ) (p : ℕ) (x : ℤ × ℤ) (straddles : Bool) (h : Keeps s₀ s) : Keeps s₀ (State.delayExchange s d p x straddles) := by
  unfold State.delayExchange; extract_lets +onlyGivenNames z8; split
  · apply State.ptpDiscard_keeps; exact h
  · extract_lets +onlyGivenNames z10; extract_lets +onlyGivenNames z11; extract_lets +onlyGivenNames z12
    extract_lets +onlyGivenNames z13; extract_lets +onlyGivenNames z14
    have kz14 : Keeps s₀ z14 := by
      unfold z14; exact h.same (by unfold State.view; rfl)
    clear_value z14; revert z14; refine id ?_; intro z14 kz14; extract_lets +onlyGivenNames z16
    have kz16 : Keeps s₀ z16 := by
      unfold z16; apply State.set_keeps; exact kz14
    clear_value z16; revert z16; refine id ?_; intro z16 kz16; extract_lets +onlyGivenNames z18
    extract_lets +onlyGivenNames z19
    have kz19 : Keeps s₀ z19 := by
      unfold z19; apply State.set_keeps; apply State.set_keeps; exact kz16
    clear_value z19; revert z19; refine id ?_; intro z19 kz19; apply State.linkExchange_keeps; apply State.markStale_keeps
    exact kz19
theorem State.acceptOffset_keeps {s₀ : State} {s : State} (d : ℕ) (o : ℤ) (history : List ℤ) (h : Keeps s₀ s) : Keeps s₀ (State.acceptOffset s d o history) := by
  unfold State.acceptOffset; apply State.setInst_keeps; apply State.set_keeps; exact h
theorem State.ptpJump_keeps {s₀ : State} {s : State} (d : ℕ) (action : ℕ) (j : ℤ) (h : Keeps s₀ s) : Keeps s₀ (State.ptpJump s d action j) := by
  unfold State.ptpJump; apply State.raise_keeps; exact h
theorem State.confirmJump_keeps {s₀ : State} {s : State} (d : ℕ) (o : ℤ) (h : Keeps s₀ s) : Keeps s₀ (State.confirmJump s d o) := by
  unfold State.confirmJump; extract_lets +onlyGivenNames z6; extract_lets +onlyGivenNames z7; split
  · apply State.ptpJump_keeps; apply State.setInst_keeps; exact h
  · split
    · extract_lets +onlyGivenNames z10
      have kz10 : Keeps s₀ z10 := by
        unfold z10; apply State.acceptOffset_keeps; apply State.count_keeps; exact h
      clear_value z10; revert z10; refine id ?_; intro z10 kz10; extract_lets +onlyGivenNames z12
      have kz12 : Keeps s₀ z12 := by
        unfold z12; apply State.retuneDpll_keeps; apply State.setDpll_keeps; exact kz10
      clear_value z12; revert z12; refine id ?_; intro z12 kz12; apply State.ptpJump_keeps; exact kz12
    · extract_lets +onlyGivenNames z10
      have kz10 : Keeps s₀ z10 := by
        unfold z10; apply State.acceptOffset_keeps; apply State.count_keeps; exact h
      clear_value z10; revert z10; refine id ?_; intro z10 kz10; apply State.ptpJump_keeps
      exact kz10.same (by unfold State.view; rfl)
theorem State.dropSuspects_keeps {s₀ : State} {s : State} (d : ℕ) (o : ℤ) (h : Keeps s₀ s) : Keeps s₀ (State.dropSuspects s d o) := by
  unfold State.dropSuspects; split
  · split
    · apply State.ptpJump_keeps; apply State.setInst_keeps; apply State.count_keeps; exact h
    · exact h
  · exact h
theorem State.offsetResult_keeps {s₀ : State} {s : State} (d : ℕ) (o : ℤ) (h : Keeps s₀ s) : Keeps s₀ (State.offsetResult s d o) := by
  unfold State.offsetResult; split
  · apply State.acceptOffset_keeps; exact h
  · extract_lets +onlyGivenNames z7
    have kz7 : Keeps s₀ z7 := by
      unfold z7; apply State.setInst_keeps; apply State.dropSuspects_keeps; exact h
    clear_value z7; revert z7; refine id ?_; intro z7 kz7; split
    · apply State.confirmJump_keeps; exact kz7
    · exact kz7
theorem State.syncExchange_keeps {s₀ : State} {s : State} (d : ℕ) (p : ℕ) (t : ℤ) (h : Keeps s₀ s) : Keeps s₀ (State.syncExchange s d p t) := by
  unfold State.syncExchange; split
  · extract_lets +onlyGivenNames z8
    have kz8 : Keeps s₀ z8 := by
      unfold z8; apply State.markStale_keeps; exact h
    clear_value z8; revert z8; refine id ?_; intro z8 kz8; split
    · apply State.offsetResult_keeps; exact kz8
    · exact kz8
  · exact h
theorem State.ptpStepped_keeps {s₀ : State} {s : State} (d : ℕ) (step : ℤ) (h : Keeps s₀ s) : Keeps s₀ (State.ptpStepped s d step) := by
  unfold State.ptpStepped; apply State.setInst_keeps; exact h
theorem State.ptpFindings_keeps {s₀ : State} {s : State} (d : ℕ) (p : ℕ) (f : PtpFindings) (h : Keeps s₀ s) : Keeps s₀ (State.ptpFindings s d p f) := by
  unfold State.ptpFindings; extract_lets +onlyGivenNames z7
  have kz7 : Keeps s₀ z7 := by
    unfold z7; apply State.ptpStates_keeps; exact h
  clear_value z7; revert z7; refine id ?_; intro z7 kz7; extract_lets +onlyGivenNames z9
  have kz9 : Keeps s₀ z9 := by
    unfold z9; split
    · apply State.setParent_keeps; exact kz7
    · exact kz7
  clear_value z9; revert z9; refine id ?_; intro z9 kz9; extract_lets +onlyGivenNames z11
  have kz11 : Keeps s₀ z11 := by
    unfold z11; split
    · apply State.delayExchange_keeps; exact kz9
    · exact kz9
  clear_value z11; revert z11; refine id ?_; intro z11 kz11; extract_lets +onlyGivenNames z13
  have kz13 : Keeps s₀ z13 := by
    unfold z13; split
    · apply State.syncExchange_keeps; exact kz11
    · exact kz11
  clear_value z13; revert z13; refine id ?_; intro z13 kz13; extract_lets +onlyGivenNames z15; extract_lets +onlyGivenNames z16
  have kz16 : Keeps s₀ z16 := by
    unfold z16; split
    · apply State.setf_keeps; exact kz13
    · exact kz13
  clear_value z16; revert z16; refine id ?_; intro z16 kz16; split
  · apply State.setf_keeps; exact kz16
  · exact kz16
theorem State.announceHeard_keeps {s₀ : State} {s : State} (d : ℕ) (p : ℕ) (sender : List Byte) (h : Keeps s₀ s) : Keeps s₀ (State.announceHeard s d p sender) := by
  unfold State.announceHeard; extract_lets +onlyGivenNames z7; extract_lets +onlyGivenNames z8
  exact h.same (by unfold State.view; rfl)
theorem execPtpMessageReceive_keeps {s₀ : State} (p : ℕ) (frame : List Byte) (f : PtpFindings) {s : State} (h : Keeps s₀ s) : NextKeeps s₀ (execPtpMessageReceive p frame f s) := by
  unfold execPtpMessageReceive; extract_lets +onlyGivenNames z7
  have kz7 : Keeps s₀ z7 := by
    unfold z7; apply State.fresh_keeps; exact h
  clear_value z7; revert z7; refine id ?_; intro z7 kz7; apply NextKeeps.atUnit
  · exact kz7
  · apply State.arrive_keeps
    · intro a9 t10 h11; extract_lets +onlyGivenNames z12; split
      · exact h11
      · split
        · extract_lets +onlyGivenNames z19
          have kz19 : Keeps s₀ z19.2 := by
            unfold z19; apply State.handle_keeps; exact h11
          clear_value z19; revert z19; refine id ?_; intro z19 kz19; split
          · extract_lets +onlyGivenNames z22
            have kz22 : Keeps s₀ z22 := by
              unfold z22; apply State.count_keeps; exact kz19
            clear_value z22; revert z22; refine id ?_; intro z22 kz22; split
            · apply State.ptpDiscard_keeps; exact kz22
            · extract_lets +onlyGivenNames z25
              have kz25 : Keeps s₀ z25 := by
                unfold z25; split
                · apply State.announceHeard_keeps; exact kz22
                · exact kz22
              clear_value z25; revert z25; refine id ?_; intro z25 kz25; apply State.ptpFindings_keeps; exact kz25
          · apply State.overload_keeps; apply State.count_keeps; exact kz19
        · exact h11
    · exact kz7
theorem State.ptpSend_keeps {s₀ : State} {s : State} (d : ℕ) (p : ℕ) (bytes : List Byte) (h : Keeps s₀ s) : Keeps s₀ (State.ptpSend s d p bytes) := by
  unfold State.ptpSend; extract_lets +onlyGivenNames z7; extract_lets +onlyGivenNames z8; extract_lets +onlyGivenNames z9
  extract_lets +onlyGivenNames z10; apply State.sendOwn_keeps; exact h
theorem execPtpMessageSend_keeps {s₀ : State} (d : ℕ) (p : ℕ) (dst : ℕ) (body : List Byte) (f : PtpFindings) {s : State} (h : Keeps s₀ s) : NextKeeps s₀ (execPtpMessageSend d p dst body f s) := by
  unfold execPtpMessageSend; extract_lets +onlyGivenNames z9
  have kz9 : Keeps s₀ z9 := by
    unfold z9; apply State.fresh_keeps; exact h
  clear_value z9; revert z9; refine id ?_; intro z9 kz9; apply NextKeeps.atUnit
  · exact kz9
  · split
    · extract_lets +onlyGivenNames z12
      have kz12 : Keeps s₀ z12.2 := by
        unfold z12; apply State.handle_keeps; exact kz9
      clear_value z12; revert z12; refine id ?_; intro z12 kz12; extract_lets +onlyGivenNames z14
      have kz14 : Keeps s₀ z14 := by
        unfold z14; split
        · exact kz12
        · apply State.overload_keeps; exact kz12
      clear_value z14; revert z14; refine id ?_; intro z14 kz14; extract_lets +onlyGivenNames z16
      have kz16 : Keeps s₀ z16 := by
        unfold z16; apply State.count_keeps; exact kz14
      clear_value z16; revert z16; refine id ?_; intro z16 kz16; apply State.ptpSend_keeps; apply State.ptpFindings_keeps
      exact kz16
    · exact kz9
theorem execSyncReceiptTimeout_keeps {s₀ : State} (d : ℕ) {s : State} (h : Keeps s₀ s) : NextKeeps s₀ (execSyncReceiptTimeout d s) := by
  unfold execSyncReceiptTimeout; extract_lets +onlyGivenNames z5
  have kz5 : Keeps s₀ z5 := by
    unfold z5; apply State.fresh_keeps; exact h
  clear_value z5; revert z5; refine id ?_; intro z5 kz5; apply NextKeeps.atUnit
  · exact kz5
  · extract_lets +onlyGivenNames z7; extract_lets +onlyGivenNames z8; split
    · extract_lets +onlyGivenNames z10
      have kz10 : Keeps s₀ z10 := by
        unfold z10; apply State.setInst_keeps; exact kz5
      clear_value z10; revert z10; refine id ?_; intro z10 kz10; apply State.refDown_keeps; apply State.count_keeps; exact kz10
    · exact kz5
theorem execAnnounceReceiptTimeout_keeps {s₀ : State} (d : ℕ) (p : ℕ) (f : PtpFindings) {s : State} (h : Keeps s₀ s) : NextKeeps s₀ (execAnnounceReceiptTimeout d p f s) := by
  unfold execAnnounceReceiptTimeout; extract_lets +onlyGivenNames z7
  have kz7 : Keeps s₀ z7 := by
    unfold z7; apply State.fresh_keeps; exact h
  clear_value z7; revert z7; refine id ?_; intro z7 kz7; extract_lets +onlyGivenNames z9; apply NextKeeps.atUnit
  · exact kz7
  · split
    · extract_lets +onlyGivenNames z11; extract_lets +onlyGivenNames z12
      have kz12 : Keeps s₀ z12 := by
        unfold z12; exact kz7.same (by unfold State.view; rfl)
      clear_value z12; revert z12; refine id ?_; intro z12 kz12; apply State.ptpFindings_keeps; apply State.count_keeps
      exact kz12
    · exact kz7

end Sys2Proof.Machine
end

