-- ==== Sys2Proof/Laws/KeepsMeasure.lean ====
section
/-! SUPPORT. What calibration, edge measurement and timed actions keep: one lemma for each operation, in the words of Laws.Keeps. -/
namespace Sys2Proof.Machine

theorem State.calStale_keeps {s₀ : State} {s : State} (k : ℕ) (what : ℕ) (h : Keeps s₀ s) : Keeps s₀ (State.calStale s k what) := by
  unfold State.calStale; extract_lets +onlyGivenNames z6; apply State.raise_keeps; exact h
theorem State.setItem_keeps {s₀ : State} {s : State} (k : ℕ) (new : ℕ) (h : Keeps s₀ s) : Keeps s₀ (State.setItem s k new) := by
  unfold State.setItem; extract_lets +onlyGivenNames z6; extract_lets +onlyGivenNames z7
  have kz7 : Keeps s₀ z7 := by
    unfold z7; apply State.setf_keeps; exact h
  clear_value z7; revert z7; refine id ?_; intro z7 kz7; split
  · exact kz7
  · apply State.calStale_keeps; exact kz7
theorem State.settleRuns_keeps {s₀ : State} {s : State} (k : ℕ) (stale : Bool) (h : Keeps s₀ s) : Keeps s₀ (State.settleRuns s k stale) := by
  unfold State.settleRuns; extract_lets +onlyGivenNames z6; extract_lets +onlyGivenNames z7; extract_lets +onlyGivenNames z8
  extract_lets +onlyGivenNames z9; extract_lets +onlyGivenNames z10
  have kz10 : Keeps s₀ z10 := by
    unfold z10; exact h.same (by unfold State.view; rfl)
  clear_value z10; revert z10; refine id ?_; intro z10 kz10; apply State.forEach_keeps
  · intro a12 a13 t14 h15; apply State.raise_keeps; exact h15
  · exact kz10
theorem State.makeDue_keeps {s₀ : State} {s : State} (k : ℕ) (h : Keeps s₀ s) : Keeps s₀ (State.makeDue s k) := by
  unfold State.makeDue; extract_lets +onlyGivenNames z5
  have kz5 : Keeps s₀ z5 := by
    unfold z5; apply State.setItem_keeps; exact h
  clear_value z5; revert z5; refine id ?_; intro z5 kz5; exact kz5.same (by unfold State.view; rfl)
theorem State.startStep_keeps {s₀ : State} {s : State} (p : ℕ) (tx : Bool) (forced : Bool) (h : Keeps s₀ s) : Keeps s₀ (State.startStep s p tx forced) := by
  unfold State.startStep; extract_lets +onlyGivenNames z7; exact h.same (by unfold State.view; rfl)
theorem State.takeGap_keeps {s₀ : State} {s : State} (g : CalGap) (h : Keeps s₀ s) : Keeps s₀ (State.takeGap s g) := by
  unfold State.takeGap; split
  · split
    · extract_lets +onlyGivenNames z8; apply State.setSide_keeps; apply State.startStep_keeps; exact h
    · exact h
  · split
    · apply State.setSide_keeps; apply State.startStep_keeps; exact h
    · exact h
  · split
    · apply State.setSide_keeps; apply State.startStep_keeps; exact h
    · exact h
  · split
    · apply State.startStep_keeps; exact h
    · exact h
  · extract_lets +onlyGivenNames z8; split
    · exact h.same (by unfold State.view; rfl)
    · exact h
theorem execCalStepStart_keeps {s₀ : State} (g : CalGap) {s : State} (h : Keeps s₀ s) : NextKeeps s₀ (execCalStepStart g s) := by
  unfold execCalStepStart; extract_lets +onlyGivenNames z5
  have kz5 : Keeps s₀ z5 := by
    unfold z5; apply State.fresh_keeps; exact h
  clear_value z5; revert z5; refine id ?_; intro z5 kz5; apply NextKeeps.atUnit
  · exact kz5
  · apply State.takeGap_keeps; exact kz5
theorem State.applyLane_keeps {s₀ : State} {s : State} (k : ℕ) (raw : ℤ) (det : ℤ) (h : Keeps s₀ s) : Keeps s₀ (State.applyLane s k raw det) := by
  unfold State.applyLane; extract_lets +onlyGivenNames z7; extract_lets +onlyGivenNames z8; extract_lets +onlyGivenNames z9
  have kz9 : Keeps s₀ z9 := by
    unfold z9; split
    · apply State.setf_keeps; apply State.set_keeps; apply State.set_keeps; exact h
    · apply State.setf_keeps; apply State.set_keeps; apply State.set_keeps; exact h
  clear_value z9; revert z9; refine id ?_; intro z9 kz9; split
  · exact kz9
  · extract_lets +onlyGivenNames z16
    have kz16 : Keeps s₀ z16 := by
      unfold z16; apply State.linkFix_keeps; exact kz9
    clear_value z16; revert z16; refine id ?_; intro z16 kz16; split
    · exact kz16
    · split
      · split
        · apply State.linkRxDelay_keeps; exact kz16
        · exact kz16
      · split
        · apply State.linkTxDelay_keeps; exact kz16
        · exact kz16
theorem State.applyItem_keeps {s₀ : State} {s : State} (k : ℕ) (raw : ℤ) (bins : List (ℤ × ℤ)) (h : Keeps s₀ s) : Keeps s₀ (State.applyItem s k raw bins) := by
  unfold State.applyItem; extract_lets +onlyGivenNames z7; extract_lets +onlyGivenNames z8; split
  · unfold z8; apply State.set_keeps; apply State.set_keeps; exact h
  · unfold z8; apply State.set_keeps; apply State.set_keeps; exact h
  · unfold z8; apply State.set_keeps; apply State.set_keeps; exact h
  · apply State.forEach_keeps
    · intro a15 a16 t17 h18; apply State.set_keeps; exact h18
    · exact h
theorem State.completeItem_keeps {s₀ : State} {s : State} (k : ℕ) (h : Keeps s₀ s) : Keeps s₀ (State.completeItem s k) := by
  unfold State.completeItem; extract_lets +onlyGivenNames z5
  have kz5 : Keeps s₀ z5 := by
    unfold z5; apply State.setf_keeps; apply State.setItem_keeps; exact h
  clear_value z5; revert z5; refine id ?_; intro z5 kz5; extract_lets +onlyGivenNames z7; extract_lets +onlyGivenNames z8
  have kz8 : Keeps s₀ z8 := by
    unfold z8; exact kz5.same (by unfold State.view; rfl)
  clear_value z8; revert z8; refine id ?_; intro z8 kz8; apply State.settleRuns_keeps; exact kz8
theorem State.itemStep_keeps {s₀ : State} {s : State} (k : ℕ) (v : ℤ × ℤ) (bins : List (ℤ × ℤ)) (h : Keeps s₀ s) : Keeps s₀ (State.itemStep s k v bins) := by
  unfold State.itemStep; split
  · exact h
  · extract_lets +onlyGivenNames z8; extract_lets +onlyGivenNames z9; extract_lets +onlyGivenNames z10
    extract_lets +onlyGivenNames z11; split
    · exact h.same (by unfold State.view; rfl)
    · split
      · apply State.completeItem_keeps; apply State.applyLane_keeps; exact h
      · apply State.completeItem_keeps; apply State.applyItem_keeps; exact h
theorem State.laneStepDone_keeps {s₀ : State} {s : State} (p : ℕ) (tx : Bool) (values : List (ℤ × ℤ)) (h : Keeps s₀ s) : Keeps s₀ (State.laneStepDone s p tx values) := by
  unfold State.laneStepDone; extract_lets +onlyGivenNames z7; split
  · apply State.calYield_keeps; exact h
  · split
    · extract_lets +onlyGivenNames z10
      have kz10 : Keeps s₀ z10 := by
        unfold z10; apply State.count_keeps; apply State.calDrop_keeps; exact h
      clear_value z10; revert z10; refine id ?_; intro z10 kz10; apply State.forEach_keeps
      · intro a12 a13 t14 h15; apply State.itemStep_keeps; exact h15
      · exact kz10
    · exact h
theorem State.itemStepDone_keeps {s₀ : State} {s : State} (k : ℕ) (values : List (ℤ × ℤ)) (h : Keeps s₀ s) : Keeps s₀ (State.itemStepDone s k values) := by
  unfold State.itemStepDone; split
  · apply State.itemStep_keeps; exact h.same (by unfold State.view; rfl)
  · exact h
theorem execCalStepComplete_keeps {s₀ : State} (which : CalStep) (values : List (ℤ × ℤ)) {s : State} (h : Keeps s₀ s) : NextKeeps s₀ (execCalStepComplete which values s) := by
  unfold execCalStepComplete; extract_lets +onlyGivenNames z6
  have kz6 : Keeps s₀ z6 := by
    unfold z6; apply State.fresh_keeps; exact h
  clear_value z6; revert z6; refine id ?_; intro z6 kz6; split
  · apply NextKeeps.atUnit
    · exact kz6
    · apply State.laneStepDone_keeps; exact kz6
  · apply NextKeeps.next; apply State.itemStepDone_keeps; exact kz6
theorem execSensorSample_keeps {s₀ : State} {s : State} (h : Keeps s₀ s) : NextKeeps s₀ (execSensorSample s) := by
  unfold execSensorSample; extract_lets +onlyGivenNames z4
  have kz4 : Keeps s₀ z4 := by
    unfold z4; apply State.fresh_keeps; exact h
  clear_value z4; revert z4; refine id ?_; intro z4 kz4; apply NextKeeps.next; split
  · extract_lets +onlyGivenNames z7
    have kz7 : Keeps s₀ z7 := by
      unfold z7; apply State.mark_keeps; exact kz4
    clear_value z7; revert z7; refine id ?_; intro z7 kz7; extract_lets +onlyGivenNames z9; apply State.forEach_keeps
    · intro a10 a11 t12 h13; apply State.makeDue_keeps; exact h13
    · exact kz7
  · exact kz4
theorem execCalDeadline_keeps {s₀ : State} (cls : ℕ) (i : ℕ) {s : State} (h : Keeps s₀ s) : NextKeeps s₀ (execCalDeadline cls i s) := by
  unfold execCalDeadline; extract_lets +onlyGivenNames z6
  have kz6 : Keeps s₀ z6 := by
    unfold z6; apply State.fresh_keeps; exact h
  clear_value z6; revert z6; refine id ?_; intro z6 kz6; extract_lets +onlyGivenNames z8; extract_lets +onlyGivenNames z9
  apply NextKeeps.next; split
  · apply State.settleRuns_keeps; apply State.setItem_keeps; exact kz6
  · exact kz6
theorem execForcedWindow_keeps {s₀ : State} (p : ℕ) {s : State} (h : Keeps s₀ s) : NextKeeps s₀ (execForcedWindow p s) := by
  unfold execForcedWindow; extract_lets +onlyGivenNames z5
  have kz5 : Keeps s₀ z5 := by
    unfold z5; apply State.fresh_keeps; exact h
  clear_value z5; revert z5; refine id ?_; intro z5 kz5; apply NextKeeps.atUnit
  · exact kz5
  · extract_lets +onlyGivenNames z7; extract_lets +onlyGivenNames z8; extract_lets +onlyGivenNames z9; split
    · extract_lets +onlyGivenNames z11
      have kz11 : Keeps s₀ z11 := by
        unfold z11; apply State.count_keeps; apply State.startStep_keeps; exact kz5
      clear_value z11; revert z11; refine id ?_; intro z11 kz11; exact kz11.same (by unfold State.view; rfl)
    · exact kz5
theorem calRunRun_keeps {s₀ : State} (c : Ctx) {s : State} (h : Keeps s₀ s) : Keeps s₀ (calRunRun c s).state := by
  unfold calRunRun; extract_lets +onlyGivenNames z5; split
  · extract_lets +onlyGivenNames z7; apply Keeps.ofError; exact h
  · extract_lets +onlyGivenNames z7; extract_lets +onlyGivenNames z8; extract_lets +onlyGivenNames z9
    have kz9 : Keeps s₀ z9 := by
      unfold z9; apply State.forEach_keeps
      · intro a10 a11 t12 h13; apply State.makeDue_keeps; exact h13
      · exact h
    clear_value z9; revert z9; refine id ?_; intro z9 kz9; extract_lets +onlyGivenNames z11; extract_lets +onlyGivenNames z12
    extract_lets +onlyGivenNames z13
    have kz13 : Keeps s₀ z13 := by
      unfold z13; exact kz9.same (by unfold State.view; rfl)
    clear_value z13; revert z13; refine id ?_; intro z13 kz13; apply Keeps.ofOk; apply State.settleRuns_keeps; exact kz13
theorem calRunCmd_keeps : CmdKeeps (calRunCmd) := by
  rw [calRunCmd]; refine ⟨fun s₀ x s h => ?_, fun s₀ x s e h => ?_, fun s₀ x s h => ?_⟩
  · rw [Cmd.run_mk]; apply calRunRun_keeps; exact h
  · rw [Cmd.refused_mk]; exact h
  · rw [Cmd.after_mk]; exact h
theorem calStatusRun_keeps {s₀ : State} (c : Ctx) {s : State} (h : Keeps s₀ s) : Keeps s₀ (calStatusRun c s).state := by
  unfold calStatusRun; extract_lets +onlyGivenNames z5; apply Keeps.ofOk; exact h
theorem calStatusCmd_keeps : CmdKeeps (calStatusCmd) := by
  rw [calStatusCmd]; refine ⟨fun s₀ x s h => ?_, fun s₀ x s e h => ?_, fun s₀ x s h => ?_⟩
  · rw [Cmd.run_mk]; apply calStatusRun_keeps; exact h
  · rw [Cmd.refused_mk]; exact h
  · rw [Cmd.after_mk]; exact h
theorem execCalRun_keeps {s₀ : State} (q : Request) {s : State} (h : Keeps s₀ s) : NextKeeps s₀ (execCalRun q s) := by
  unfold execCalRun; apply NextKeeps.next; apply runCmd_keeps
  · apply calRunCmd_keeps
  · exact h
theorem execCalStatus_keeps {s₀ : State} (q : Request) {s : State} (h : Keeps s₀ s) : NextKeeps s₀ (execCalStatus q s) := by
  unfold execCalStatus; apply NextKeeps.next; apply runCmd_keeps
  · apply calStatusCmd_keeps
  · exact h
theorem State.convert_keeps {s₀ : State} {s : State} (n : ℕ) (v : Option ℤ) (h : Keeps s₀ s) : Keeps s₀ (State.convert s n v) := by
  unfold State.convert; extract_lets +onlyGivenNames z6; extract_lets +onlyGivenNames z7; extract_lets +onlyGivenNames z8
  extract_lets +onlyGivenNames z9
  have kz9 : Keeps s₀ z9 := by
    unfold z9; split
    · extract_lets +onlyGivenNames z13; extract_lets +onlyGivenNames z14; extract_lets +onlyGivenNames z15
      apply State.set_keeps; apply State.set_keeps; exact h
    · apply State.setf_keeps; exact h
  clear_value z9; revert z9; refine id ?_; intro z9 kz9; extract_lets +onlyGivenNames z11; extract_lets +onlyGivenNames z12
  extract_lets +onlyGivenNames z13; extract_lets +onlyGivenNames z14; extract_lets +onlyGivenNames z15
  extract_lets +onlyGivenNames z16; extract_lets +onlyGivenNames z17
  have kz17 : Keeps s₀ z17 := by
    unfold z17; apply State.set_keeps; exact kz9
  clear_value z17; revert z17; refine id ?_; intro z17 kz17; split
  · exact kz17
  · apply State.raise_keeps; exact kz17
theorem execThermConversion_keeps {s₀ : State} (values : List (Option ℤ)) {s : State} (h : Keeps s₀ s) : NextKeeps s₀ (execThermConversion values s) := by
  unfold execThermConversion; extract_lets +onlyGivenNames z5
  have kz5 : Keeps s₀ z5 := by
    unfold z5; apply State.fresh_keeps; exact h
  clear_value z5; revert z5; refine id ?_; intro z5 kz5; apply NextKeeps.next; split
  · apply State.forEach_keeps
    · intro a8 a9 t10 h11; apply State.convert_keeps; exact h11
    · apply State.mark_keeps; exact kz5
  · exact kz5
theorem State.setTdc_keeps {s₀ : State} {s : State} (f : Tdc → Tdc) (h : Keeps s₀ s) : Keeps s₀ (State.setTdc s f) := by
  unfold State.setTdc; exact h.same (by unfold State.view; rfl)
theorem State.restartDiv_keeps {s₀ : State} {s : State} (i : ℕ) (h : Keeps s₀ s) : Keeps s₀ (State.restartDiv s i) := by
  unfold State.restartDiv; apply State.setTdc_keeps; exact h
theorem execEvinEdge_keeps {s₀ : State} (n : ℕ) {s : State} (h : Keeps s₀ s) : NextKeeps s₀ (execEvinEdge n s) := by
  unfold execEvinEdge; extract_lets +onlyGivenNames z5
  have kz5 : Keeps s₀ z5 := by
    unfold z5; apply State.fresh_keeps; exact h
  clear_value z5; revert z5; refine id ?_; intro z5 kz5; apply NextKeeps.atUnit
  · exact kz5
  · split
    · extract_lets +onlyGivenNames z8; extract_lets +onlyGivenNames z9
      have kz9 : Keeps s₀ z9 := by
        unfold z9; apply State.setTdc_keeps; exact kz5
      clear_value z9; revert z9; refine id ?_; intro z9 kz9; split
      · extract_lets +onlyGivenNames z12; extract_lets +onlyGivenNames z13
        have kz13 : Keeps s₀ z13 := by
          unfold z13; apply State.setTdc_keeps; exact kz9
        clear_value z13; revert z13; refine id ?_; intro z13 kz13; extract_lets +onlyGivenNames z15
        have kz15 : Keeps s₀ z15 := by
          unfold z15; split
          · exact kz13
          · apply State.count_keeps; exact kz13
        clear_value z15; revert z15; refine id ?_; intro z15 kz15; extract_lets +onlyGivenNames z17; split
        · apply State.count_keeps; exact kz15
        · extract_lets +onlyGivenNames z19
          have kz19 : Keeps s₀ z19 := by
            unfold z19; apply State.setTdc_keeps; exact kz15
          clear_value z19; revert z19; refine id ?_; intro z19 kz19; extract_lets +onlyGivenNames z21
          extract_lets +onlyGivenNames z22; extract_lets +onlyGivenNames z23; apply State.record_keeps; exact kz19
      · exact kz9
    · exact kz5
theorem State.showTdc_keeps {s₀ : State} {s : State} (h : Keeps s₀ s) : Keeps s₀ (State.showTdc s) := by
  unfold State.showTdc; extract_lets +onlyGivenNames z4; extract_lets +onlyGivenNames z5
  have kz5 : Keeps s₀ z5 := by
    unfold z5; apply State.set_keeps; apply State.set_keeps; apply State.set_keeps; exact h
  clear_value z5; revert z5; refine id ?_; intro z5 kz5; extract_lets +onlyGivenNames z7
  have kz7 : Keeps s₀ z7 := by
    unfold z7; apply State.setTime_keeps; apply State.set_keeps; apply State.set_keeps; exact kz5
  clear_value z7; revert z7; refine id ?_; intro z7 kz7; apply State.setTime_keeps; exact kz7
theorem State.endTdc_keeps {s₀ : State} {s : State} (cause : ℕ) (h : Keeps s₀ s) : Keeps s₀ (State.endTdc s cause) := by
  unfold State.endTdc; extract_lets +onlyGivenNames z5
  have kz5 : Keeps s₀ z5 := by
    unfold z5; apply State.setf_keeps; apply State.setf_keeps; exact h
  clear_value z5; revert z5; refine id ?_; intro z5 kz5; extract_lets +onlyGivenNames z7; extract_lets +onlyGivenNames z8
  have kz8 : Keeps s₀ z8 := by
    unfold z8; exact kz5.same (by unfold State.view; rfl)
  clear_value z8; revert z8; refine id ?_; intro z8 kz8; apply State.raise_keeps; exact kz8
theorem State.stopTdc_keeps {s₀ : State} {s : State} (cause : ℕ) (h : Keeps s₀ s) : Keeps s₀ (State.stopTdc s cause) := by
  unfold State.stopTdc; split
  · apply State.endTdc_keeps; exact h
  · exact h
theorem State.sample_keeps {s₀ : State} {s : State} (v : ℤ) (t : ℕ) (h : Keeps s₀ s) : Keeps s₀ (State.sample s v t) := by
  unfold State.sample; extract_lets +onlyGivenNames z6
  have kz6 : Keeps s₀ z6 := by
    unfold z6; apply State.setTdc_keeps; exact h
  clear_value z6; revert z6; refine id ?_; intro z6 kz6; extract_lets +onlyGivenNames z8
  have kz8 : Keeps s₀ z8 := by
    unfold z8; apply State.showTdc_keeps; split
    · apply State.setf_keeps; exact kz6
    · exact kz6
  clear_value z8; revert z8; refine id ?_; intro z8 kz8; split
  · apply State.endTdc_keeps; exact kz8
  · exact kz8
theorem State.dropOldA_keeps {s₀ : State} {s : State} (h : Keeps s₀ s) : Keeps s₀ (State.dropOldA s) := by
  unfold State.dropOldA; extract_lets +onlyGivenNames z4; extract_lets +onlyGivenNames z5; apply State.setTdc_keeps; exact h
theorem State.captured_keeps {s₀ : State} {s : State} (i : ℕ) (run : ℕ) (t : ℕ) (h : Keeps s₀ s) : Keeps s₀ (State.captured s i run t) := by
  unfold State.captured; split
  · apply State.sample_keeps; exact h
  · extract_lets +onlyGivenNames z11
    have kz11 : Keeps s₀ z11 := by
      unfold z11; apply State.dropOldA_keeps; exact h
    clear_value z11; revert z11; refine id ?_; intro z11 kz11; split
    · apply State.setTdc_keeps; exact kz11
    · apply State.setTdc_keeps; exact kz11
  · extract_lets +onlyGivenNames z12; extract_lets +onlyGivenNames z13
    have kz13 : Keeps s₀ z13 := by
      unfold z13; apply State.setTdc_keeps; exact h
    clear_value z13; revert z13; refine id ?_; intro z13 kz13; clear_value z12; split
    · apply State.sample_keeps; exact kz13
    · exact kz13
theorem execTdcEdge_keeps {s₀ : State} (i : ℕ) (fine : ℕ) {s : State} (h : Keeps s₀ s) : NextKeeps s₀ (execTdcEdge i fine s) := by
  unfold execTdcEdge; extract_lets +onlyGivenNames z6
  have kz6 : Keeps s₀ z6 := by
    unfold z6; apply State.fresh_keeps; exact h
  clear_value z6; revert z6; refine id ?_; intro z6 kz6; apply NextKeeps.atUnit
  · exact kz6
  · split
    · extract_lets +onlyGivenNames z9; extract_lets +onlyGivenNames z10
      have kz10 : Keeps s₀ z10 := by
        unfold z10; apply State.setTdc_keeps; exact kz6
      clear_value z10; revert z10; refine id ?_; intro z10 kz10; split
      · extract_lets +onlyGivenNames z13
        have kz13 : Keeps s₀ z13 := by
          unfold z13; apply State.count_keeps; exact kz10
        clear_value z13; revert z13; refine id ?_; intro z13 kz13; extract_lets +onlyGivenNames z15
        extract_lets +onlyGivenNames z16; extract_lets +onlyGivenNames z17; extract_lets +onlyGivenNames z18; split
        · split
          · apply State.captured_keeps; apply State.setTdc_keeps; exact kz13
          · apply State.setf_keeps; apply State.setTdc_keeps; apply State.count_keeps; exact kz13
        · exact kz13
      · exact kz10
    · exact kz6
theorem execTdcIntervalSample_keeps {s₀ : State} {s : State} (h : Keeps s₀ s) : NextKeeps s₀ (execTdcIntervalSample s) := by
  unfold execTdcIntervalSample; extract_lets +onlyGivenNames z4
  have kz4 : Keeps s₀ z4 := by
    unfold z4; apply State.fresh_keeps; exact h
  clear_value z4; revert z4; refine id ?_; intro z4 kz4; apply NextKeeps.next; split
  · exact kz4
  · split
    · split
      · apply State.sample_keeps; apply State.dropOldA_keeps; apply State.setTdc_keeps; exact kz4
      · apply State.dropOldA_keeps; apply State.setTdc_keeps; exact kz4
    · exact kz4
theorem execTdcTimeout_keeps {s₀ : State} {s : State} (h : Keeps s₀ s) : NextKeeps s₀ (execTdcTimeout s) := by
  unfold execTdcTimeout; extract_lets +onlyGivenNames z4
  have kz4 : Keeps s₀ z4 := by
    unfold z4; apply State.fresh_keeps; exact h
  clear_value z4; revert z4; refine id ?_; intro z4 kz4; apply NextKeeps.next; split
  · apply State.endTdc_keeps; exact kz4
  · exact kz4
theorem State.armTdc_keeps {s₀ : State} {s : State} (p : List Byte) (at0 : ℕ) (h : Keeps s₀ s) : Keeps s₀ (State.armTdc s p at0) := by
  unfold State.armTdc; extract_lets +onlyGivenNames z6; extract_lets +onlyGivenNames z7; extract_lets +onlyGivenNames z8
  have kz8 : Keeps s₀ z8 := by
    unfold z8; apply State.setTdc_keeps; exact h
  clear_value z8; revert z8; refine id ?_; intro z8 kz8; extract_lets +onlyGivenNames z10
  have kz10 : Keeps s₀ z10 := by
    unfold z10; apply State.restartDiv_keeps; exact kz8
  clear_value z10; revert z10; refine id ?_; intro z10 kz10; extract_lets +onlyGivenNames z12
  have kz12 : Keeps s₀ z12 := by
    unfold z12; split
    · apply State.restartDiv_keeps; exact kz10
    · exact kz10
  clear_value z12; revert z12; refine id ?_; intro z12 kz12; apply State.showTdc_keeps; apply State.set_keeps; exact kz12
theorem State.startTdc_keeps {s₀ : State} {s : State} (h : Keeps s₀ s) : Keeps s₀ (State.startTdc s) := by
  unfold State.startTdc; apply State.setTdc_keeps; apply State.setf_keeps; exact h
theorem State.tdcGo_keeps {s₀ : State} {s : State} (p : List Byte) (st : Status) (h : Keeps s₀ s) : Keeps s₀ (State.tdcGo s p st).state := by
  unfold State.tdcGo; extract_lets +onlyGivenNames z6
  have kz6 : Keeps s₀ z6 := by
    unfold z6; apply State.startTdc_keeps; apply State.armTdc_keeps; exact h
  clear_value z6; revert z6; refine id ?_; intro z6 kz6; apply Keeps.ofReply; exact kz6
theorem tdcArmRun_keeps {s₀ : State} (c : Ctx) {s : State} (h : Keeps s₀ s) : Keeps s₀ (tdcArmRun c s).state := by
  unfold tdcArmRun; extract_lets +onlyGivenNames z5; split
  · apply Keeps.ofError; exact h
  · split
    · extract_lets +onlyGivenNames z8; split
      · apply Keeps.ofError; exact h
      · apply State.tdcGo_keeps; exact h
      · split
        · apply Keeps.ofError; exact h
        · extract_lets +onlyGivenNames z14
          have kz14 : Keeps s₀ z14 := by
            unfold z14; apply State.schedule_keeps; apply State.armTdc_keeps; exact h
          clear_value z14; revert z14; refine id ?_; intro z14 kz14; apply Keeps.ofOk; exact kz14
    · apply State.tdcGo_keeps; exact h
theorem tdcArmCmd_keeps : CmdKeeps (tdcArmCmd) := by
  rw [tdcArmCmd]; refine ⟨fun s₀ x s h => ?_, fun s₀ x s e h => ?_, fun s₀ x s h => ?_⟩
  · rw [Cmd.run_mk]; apply tdcArmRun_keeps; exact h
  · rw [Cmd.refused_mk]; exact h
  · rw [Cmd.after_mk]; exact h
theorem tdcAbortRun_keeps {s₀ : State} (x0 : Ctx) {s : State} (h : Keeps s₀ s) : Keeps s₀ (tdcAbortRun x0 s).state := by
  unfold tdcAbortRun; extract_lets +onlyGivenNames z5
  have kz5 : Keeps s₀ z5 := by
    unfold z5; apply State.stopTdc_keeps; exact h
  clear_value z5; revert z5; refine id ?_; intro z5 kz5; apply Keeps.ofOk; exact kz5
theorem tdcAbortCmd_keeps : CmdKeeps (tdcAbortCmd) := by
  rw [tdcAbortCmd]; refine ⟨fun s₀ x s h => ?_, fun s₀ x s e h => ?_, fun s₀ x s h => ?_⟩
  · rw [Cmd.run_mk]; apply tdcAbortRun_keeps; exact h
  · rw [Cmd.refused_mk]; exact h
  · rw [Cmd.after_mk]; exact h
theorem tdcResultRun_keeps {s₀ : State} (x0 : Ctx) {s : State} (h : Keeps s₀ s) : Keeps s₀ (tdcResultRun x0 s).state := by
  unfold tdcResultRun; extract_lets +onlyGivenNames z5; extract_lets +onlyGivenNames z6; extract_lets +onlyGivenNames z7
  apply Keeps.ofOk; exact h
theorem tdcResultCmd_keeps : CmdKeeps (tdcResultCmd) := by
  rw [tdcResultCmd]; refine ⟨fun s₀ x s h => ?_, fun s₀ x s e h => ?_, fun s₀ x s h => ?_⟩
  · rw [Cmd.run_mk]; apply tdcResultRun_keeps; exact h
  · rw [Cmd.refused_mk]; exact h
  · rw [Cmd.after_mk]; exact h
theorem execTdcArm_keeps {s₀ : State} (q : Request) {s : State} (h : Keeps s₀ s) : NextKeeps s₀ (execTdcArm q s) := by
  unfold execTdcArm; apply NextKeeps.next; apply runCmd_keeps
  · apply tdcArmCmd_keeps
  · exact h
theorem execTdcAbort_keeps {s₀ : State} (q : Request) {s : State} (h : Keeps s₀ s) : NextKeeps s₀ (execTdcAbort q s) := by
  unfold execTdcAbort; apply NextKeeps.next; apply runCmd_keeps
  · apply tdcAbortCmd_keeps
  · exact h
theorem execTdcResult_keeps {s₀ : State} (q : Request) {s : State} (h : Keeps s₀ s) : NextKeeps s₀ (execTdcResult q s) := by
  unfold execTdcResult; apply NextKeeps.next; apply runCmd_keeps
  · apply tdcResultCmd_keeps
  · exact h
theorem execScheduledTdcStart_keeps {s₀ : State} (hh : ℕ) {s : State} (h : Keeps s₀ s) : NextKeeps s₀ (execScheduledTdcStart hh s) := by
  unfold execScheduledTdcStart; extract_lets +onlyGivenNames z5
  have kz5 : Keeps s₀ z5 := by
    unfold z5; apply State.fresh_keeps; exact h
  clear_value z5; revert z5; refine id ?_; intro z5 kz5; apply NextKeeps.next; apply State.atTime_keeps
  · intro a7 t8 h9; apply State.startTdc_keeps; exact h9
  · exact kz5
theorem State.undo_keeps {s₀ : State} {s : State} (a : Action) (cause : ℕ) (h : Keeps s₀ s) : Keeps s₀ (State.undo s a cause) := by
  unfold State.undo; split
  · apply State.unfreeze_keeps; exact h
  · apply State.stopTdc_keeps; exact h
  · apply State.snapCancel_keeps; exact h
  · apply State.proofCancel_keeps; exact h
  · exact h
theorem State.cancelAction_keeps {s₀ : State} {s : State} (stopped : Bool) (a : Action) (h : Keeps s₀ s) : Keeps s₀ (State.cancelAction s stopped a) := by
  unfold State.cancelAction; apply State.outcome_keeps; apply State.undo_keeps; apply State.dropAction_keeps; exact h
theorem State.cancelWhere_keeps {s₀ : State} {s : State} (stopped : Bool) (c : Action → Bool) (h : Keeps s₀ s) : Keeps s₀ (State.cancelWhere s stopped c) := by
  unfold State.cancelWhere; apply State.forEach_keeps
  · intro a6 a7 t8 h9; apply State.cancelAction_keeps; exact h9
  · exact h
theorem State.adjFreq_keeps {s₀ : State} {s : State} (d : ℕ) (f : ℤ) (h : Keeps s₀ s) : Keeps s₀ (State.adjFreq s d f) := by
  unfold State.adjFreq; split
  · exact h
  · extract_lets +onlyGivenNames z7
    have kz7 : Keeps s₀ z7 := by
      unfold z7; split
      · apply State.setf_keeps; exact h
      · exact h
    clear_value z7; revert z7; refine id ?_; intro z7 kz7; apply State.retuneDpll_keeps; apply State.setDpll_keeps; exact kz7
theorem State.fire_keeps {s₀ : State} {s : State} (a : Action) (t : Nat) (h : Keeps s₀ s) : ∀ u, State.fire s a t = some u → Keeps s₀ u := by
  intro u hu; unfold State.fire at hu; split at hu
  · split at hu <;> obtain rfl := Option.some.inj hu
    · exact State.epochDue_keeps (h.same (by unfold State.view; rfl))
    · exact h
  · obtain rfl := Option.some.inj hu; exact h.same (by unfold State.view; rfl)
  · obtain rfl := Option.some.inj hu; exact State.adjFreq_keeps _ _ h
  · obtain rfl := Option.some.inj hu; exact State.fireRealign_keeps _ h
  · split at hu
    · obtain rfl := Option.some.inj hu; exact State.fireSwitch_keeps _ _ h
    · cases hu
  · obtain rfl := Option.some.inj hu; exact State.startTdc_keeps h
  · split at hu
    · obtain rfl := Option.some.inj hu; exact State.fireSnapshot_keeps _ h
    · cases hu
  · split at hu
    · obtain rfl := Option.some.inj hu; exact State.proofGo_keeps _ _ _ h
    · cases hu
  · obtain rfl := Option.some.inj hu; exact h
theorem State.fireLate_keeps {s₀ : State} {s : State} (a : Action) (now : Nat) (h : Keeps s₀ s) : Keeps s₀ (State.fireLate s a now) := by
  rw [State.fireLate]; split
  · rename_i u hu; split
    · exact State.fire_keeps _ _ h _ hu
    · exact State.outcome_keeps _ _ _ (State.fire_keeps _ _ h _ hu)
  · exact State.outcome_keeps _ _ _ (State.undo_keeps _ _ h)
theorem State.reconsider_keeps {s₀ : State} {s : State} (a : Action) (h : Keeps s₀ s) : Keeps s₀ (State.reconsider s a) := by
  unfold State.reconsider; split
  · exact h
  · split
    · apply State.outcome_keeps; apply State.undo_keeps; apply State.dropAction_keeps; exact h
    · split
      · apply State.outcome_keeps; apply State.dropAction_keeps; exact h
      · apply State.fireLate_keeps; apply State.dropAction_keeps; exact h
theorem State.landAt_keeps {s₀ : State} {s : State} (d : ℕ) (cause : ℕ) (old : ℕ) (new : ℕ) (run : ℕ) (h : Keeps s₀ s) : Keeps s₀ (State.landAt s d cause old new run) := by
  unfold State.landAt; extract_lets +onlyGivenNames z9
  have kz9 : Keeps s₀ z9 := by
    unfold z9; apply State.gatesDue_keeps; exact h
  clear_value z9; revert z9; refine id ?_; intro z9 kz9; extract_lets +onlyGivenNames z11; extract_lets +onlyGivenNames z12
  extract_lets +onlyGivenNames z13; extract_lets +onlyGivenNames z14; extract_lets +onlyGivenNames z15
  have kz15 : Keeps s₀ z15 := by
    unfold z15; apply State.setDom_keeps; exact kz9
  clear_value z15; revert z15; refine id ?_; intro z15 kz15; extract_lets +onlyGivenNames z17
  have kz17 : Keeps s₀ z17 := by
    unfold z17; apply State.discontinuity_keeps; exact kz15
  clear_value z17; revert z17; refine id ?_; intro z17 kz17; extract_lets +onlyGivenNames z19
  have kz19 : Keeps s₀ z19 := by
    unfold z19; apply State.gateStep_keeps; exact kz17
  clear_value z19; revert z19; refine id ?_; intro z19 kz19; extract_lets +onlyGivenNames z21
  have kz21 : Keeps s₀ z21 := by
    unfold z21; apply State.dpllStepped_keeps; apply State.outsStepped_keeps; exact kz19
  clear_value z21; revert z21; refine id ?_; intro z21 kz21; extract_lets +onlyGivenNames z23
  have kz23 : Keeps s₀ z23 := by
    unfold z23; apply State.ptpStepped_keeps; exact kz21
  clear_value z23; revert z23; refine id ?_; intro z23 kz23; extract_lets +onlyGivenNames z25
  have kz25 : Keeps s₀ z25 := by
    unfold z25; split
    · apply State.endTdc_keeps; exact kz23
    · exact kz23
  clear_value z25; revert z25; refine id ?_; intro z25 kz25; extract_lets +onlyGivenNames z27; apply State.forEach_keeps
  · intro a28 a29 t30 h31; apply State.reconsider_keeps; exact h31
  · apply State.forEach_keeps
    · intro a28 a29 t30 h31; apply State.reconsider_keeps; exact h31
    · exact kz25
theorem State.land_keeps {s₀ : State} {s : State} (l : Landing) (h : Keeps s₀ s) : Keeps s₀ (State.land s l) := by
  unfold State.land; extract_lets +onlyGivenNames z5
  have kz5 : Keeps s₀ z5 := by
    unfold z5; split
    · apply State.outcome_keeps; exact h
    · exact h
  clear_value z5; revert z5; refine id ?_; intro z5 kz5; split
  · apply State.landAt_keeps; exact kz5
  · exact kz5
theorem execReplicaRealign_keeps {s₀ : State} {s : State} (h : Keeps s₀ s) : NextKeeps s₀ (execReplicaRealign s) := by
  unfold execReplicaRealign; extract_lets +onlyGivenNames z4
  have kz4 : Keeps s₀ z4 := by
    unfold z4; apply State.fresh_keeps; exact h
  clear_value z4; revert z4; refine id ?_; intro z4 kz4; apply NextKeeps.next; split
  · apply State.forEach_keeps
    · intro a7 a8 t9 h10; apply State.land_keeps; exact h10
    · exact kz4.same (by unfold State.view; rfl)
  · exact kz4
theorem execScheduledStep_keeps {s₀ : State} (hh : ℕ) {s : State} (h : Keeps s₀ s) : NextKeeps s₀ (execScheduledStep hh s) := by
  unfold execScheduledStep; extract_lets +onlyGivenNames z5
  have kz5 : Keeps s₀ z5 := by
    unfold z5; apply State.fresh_keeps; exact h
  clear_value z5; revert z5; refine id ?_; intro z5 kz5; apply NextKeeps.next; split
  · exact kz5
  · extract_lets +onlyGivenNames z12; extract_lets +onlyGivenNames z13
    have kz13 : Keeps s₀ z13 := by
      unfold z13; apply State.dropAction_keeps; exact kz5
    clear_value z13; revert z13; refine id ?_; intro z13 kz13; extract_lets +onlyGivenNames z15; split
    · apply State.landAt_keeps; exact kz13
    · exact kz13
theorem execScheduledFreqChange_keeps {s₀ : State} (hh : ℕ) {s : State} (h : Keeps s₀ s) : NextKeeps s₀ (execScheduledFreqChange hh s) := by
  unfold execScheduledFreqChange; extract_lets +onlyGivenNames z5
  have kz5 : Keeps s₀ z5 := by
    unfold z5; apply State.fresh_keeps; exact h
  clear_value z5; revert z5; refine id ?_; intro z5 kz5; apply NextKeeps.next; split
  · exact kz5
  · extract_lets +onlyGivenNames z12
    have kz12 : Keeps s₀ z12 := by
      unfold z12; apply State.dropAction_keeps; exact kz5
    clear_value z12; revert z12; refine id ?_; intro z12 kz12; split
    · apply State.outcome_keeps; exact kz12
    · apply State.adjFreq_keeps; exact kz12
theorem timeGetCmd_keeps : CmdKeeps (timeGetCmd) := by
  rw [timeGetCmd]; refine ⟨fun s₀ x s h => ?_, fun s₀ x s e h => ?_, fun s₀ x s h => ?_⟩
  · rw [Cmd.run_mk]; apply Keeps.ofOk; exact h
  · rw [Cmd.refused_mk]; exact h
  · rw [Cmd.after_mk]; exact h
theorem State.stepNow_keeps {s₀ : State} {s : State} (d : ℕ) (l : Landing) (st : Status) (h : Keeps s₀ s) : Keeps s₀ (State.stepNow s d l st).state := by
  unfold State.stepNow; split
  · apply Keeps.ofReply; exact h.same (by unfold State.view; rfl)
  · apply Keeps.ofReply; exact h
theorem timeStepRun_keeps {s₀ : State} (c : Ctx) {s : State} (h : Keeps s₀ s) : Keeps s₀ (timeStepRun c s).state := by
  unfold timeStepRun; extract_lets +onlyGivenNames z5; extract_lets +onlyGivenNames z6; split
  · extract_lets +onlyGivenNames z8; split
    · apply Keeps.ofError; exact h
    · apply State.stepNow_keeps; exact h
    · split
      · apply Keeps.ofError; exact h
      · apply Keeps.ofOk; apply State.schedule_keeps; exact h
  · apply State.stepNow_keeps; exact h
theorem timeStepCmd_keeps : CmdKeeps (timeStepCmd) := by
  rw [timeStepCmd]; refine ⟨fun s₀ x s h => ?_, fun s₀ x s e h => ?_, fun s₀ x s h => ?_⟩
  · rw [Cmd.run_mk]; apply timeStepRun_keeps; exact h
  · rw [Cmd.refused_mk]; exact h
  · rw [Cmd.after_mk]; exact h
theorem State.adjNow_keeps {s₀ : State} {s : State} (d : ℕ) (f : ℤ) (st : Status) (payload : List Byte) (h : Keeps s₀ s) : Keeps s₀ (State.adjNow s d f st payload).state := by
  unfold State.adjNow; split
  · apply Keeps.ofError; exact h
  · apply Keeps.ofReply; apply State.adjFreq_keeps; exact h
theorem timeAdjFreqRun_keeps {s₀ : State} (c : Ctx) {s : State} (h : Keeps s₀ s) : Keeps s₀ (timeAdjFreqRun c s).state := by
  unfold timeAdjFreqRun; extract_lets +onlyGivenNames z5; extract_lets +onlyGivenNames z6; split
  · split
    · apply Keeps.ofError; exact h
    · apply State.adjNow_keeps; exact h
    · split
      · apply Keeps.ofError; exact h
      · apply Keeps.ofOk; apply State.schedule_keeps; exact h
  · apply State.adjNow_keeps; exact h
theorem timeAdjFreqCmd_keeps : CmdKeeps (timeAdjFreqCmd) := by
  rw [timeAdjFreqCmd]; refine ⟨fun s₀ x s h => ?_, fun s₀ x s e h => ?_, fun s₀ x s h => ?_⟩
  · rw [Cmd.run_mk]; apply timeAdjFreqRun_keeps; exact h
  · rw [Cmd.refused_mk]; exact h
  · rw [Cmd.after_mk]; exact h
theorem timeScheduleListCmd_keeps : CmdKeeps (timeScheduleListCmd) := by
  rw [timeScheduleListCmd]; refine ⟨fun s₀ x s h => ?_, fun s₀ x s e h => ?_, fun s₀ x s h => ?_⟩
  · rw [Cmd.run_mk]; apply Keeps.ofOk; exact h
  · rw [Cmd.refused_mk]; exact h
  · rw [Cmd.after_mk]; exact h
theorem timeScheduleCancelRun_keeps {s₀ : State} (c : Ctx) {s : State} (h : Keeps s₀ s) : Keeps s₀ (timeScheduleCancelRun c s).state := by
  unfold timeScheduleCancelRun; split
  · apply Keeps.ofError; exact h
  · split
    · apply Keeps.ofError; exact h
    · apply Keeps.ofOk; apply State.undo_keeps; apply State.dropAction_keeps; exact h
theorem timeScheduleCancelCmd_keeps : CmdKeeps (timeScheduleCancelCmd) := by
  rw [timeScheduleCancelCmd]; refine ⟨fun s₀ x s h => ?_, fun s₀ x s e h => ?_, fun s₀ x s h => ?_⟩
  · rw [Cmd.run_mk]; apply timeScheduleCancelRun_keeps; exact h
  · rw [Cmd.refused_mk]; exact h
  · rw [Cmd.after_mk]; exact h
theorem execTimeGet_keeps {s₀ : State} (q : Request) {s : State} (h : Keeps s₀ s) : NextKeeps s₀ (execTimeGet q s) := by
  unfold execTimeGet; apply NextKeeps.next; apply runCmd_keeps
  · apply timeGetCmd_keeps
  · exact h
theorem execTimeStep_keeps {s₀ : State} (q : Request) {s : State} (h : Keeps s₀ s) : NextKeeps s₀ (execTimeStep q s) := by
  unfold execTimeStep; apply NextKeeps.next; apply runCmd_keeps
  · apply timeStepCmd_keeps
  · exact h
theorem execTimeAdjFreq_keeps {s₀ : State} (q : Request) {s : State} (h : Keeps s₀ s) : NextKeeps s₀ (execTimeAdjFreq q s) := by
  unfold execTimeAdjFreq; apply NextKeeps.next; apply runCmd_keeps
  · apply timeAdjFreqCmd_keeps
  · exact h
theorem execTimeScheduleList_keeps {s₀ : State} (q : Request) {s : State} (h : Keeps s₀ s) : NextKeeps s₀ (execTimeScheduleList q s) := by
  unfold execTimeScheduleList; apply NextKeeps.next; apply runCmd_keeps
  · apply timeScheduleListCmd_keeps
  · exact h
theorem execTimeScheduleCancel_keeps {s₀ : State} (q : Request) {s : State} (h : Keeps s₀ s) : NextKeeps s₀ (execTimeScheduleCancel q s) := by
  unfold execTimeScheduleCancel; apply NextKeeps.next; apply runCmd_keeps
  · apply timeScheduleCancelCmd_keeps
  · exact h
theorem outForceRun_keeps {s₀ : State} (c : Ctx) {s : State} (h : Keeps s₀ s) : Keeps s₀ (outForceRun c s).state := by
  unfold outForceRun; extract_lets +onlyGivenNames z5
  have kz5 : Keeps s₀ z5 := by
    unfold z5; apply State.forEach_keeps
    · intro a6 a7 t8 h9; apply State.setf_keeps; apply State.setf_keeps; exact h9
    · exact h
  clear_value z5; revert z5; refine id ?_; intro z5 kz5; apply Keeps.ofOk; exact kz5
theorem outForceCmd_keeps : CmdKeeps (outForceCmd) := by
  rw [outForceCmd]; refine ⟨fun s₀ x s h => ?_, fun s₀ x s e h => ?_, fun s₀ x s h => ?_⟩
  · rw [Cmd.run_mk]; apply outForceRun_keeps; exact h
  · rw [Cmd.refused_mk]; exact h
  · rw [Cmd.after_mk]; exact h
theorem outForceReleaseRun_keeps {s₀ : State} (c : Ctx) {s : State} (h : Keeps s₀ s) : Keeps s₀ (outForceReleaseRun c s).state := by
  unfold outForceReleaseRun; extract_lets +onlyGivenNames z5
  have kz5 : Keeps s₀ z5 := by
    unfold z5; apply State.forEach_keeps
    · intro a6 a7 t8 h9; apply State.setf_keeps; apply State.setf_keeps; exact h9
    · exact h
  clear_value z5; revert z5; refine id ?_; intro z5 kz5; apply Keeps.ofOk; exact kz5
theorem outForceReleaseCmd_keeps : CmdKeeps (outForceReleaseCmd) := by
  rw [outForceReleaseCmd]; refine ⟨fun s₀ x s h => ?_, fun s₀ x s e h => ?_, fun s₀ x s h => ?_⟩
  · rw [Cmd.run_mk]; apply outForceReleaseRun_keeps; exact h
  · rw [Cmd.refused_mk]; exact h
  · rw [Cmd.after_mk]; exact h
theorem execOutForce_keeps {s₀ : State} (q : Request) {s : State} (h : Keeps s₀ s) : NextKeeps s₀ (execOutForce q s) := by
  unfold execOutForce; apply NextKeeps.next; apply runCmd_keeps
  · apply outForceCmd_keeps
  · exact h
theorem execOutForceRelease_keeps {s₀ : State} (q : Request) {s : State} (h : Keeps s₀ s) : NextKeeps s₀ (execOutForceRelease q s) := by
  unfold execOutForceRelease; apply NextKeeps.next; apply runCmd_keeps
  · apply outForceReleaseCmd_keeps
  · exact h
theorem State.i2cStart_keeps {s₀ : State} {s : State} (k : ℕ) (h : Keeps s₀ s) : Keeps s₀ (State.i2cStart s k) := by
  unfold State.i2cStart; split
  · exact h
  · extract_lets +onlyGivenNames z6; extract_lets +onlyGivenNames z7; apply State.emit_keeps; apply State.setf_keeps
    exact h.same (by unfold State.view; rfl)
theorem State.i2cEnd_keeps {s₀ : State} {s : State} (k : ℕ) (result : ℕ) (h : Keeps s₀ s) : Keeps s₀ (State.i2cEnd s k result) := by
  unfold State.i2cEnd; apply State.setf_keeps; apply State.setf_keeps; exact h
theorem execI2cDone_keeps {s₀ : State} (k : ℕ) (ack : Bool) (value : ℕ) {s : State} (h : Keeps s₀ s) : NextKeeps s₀ (execI2cDone k ack value s) := by
  unfold execI2cDone; extract_lets +onlyGivenNames z7
  have kz7 : Keeps s₀ z7 := by
    unfold z7; apply State.fresh_keeps; exact h
  clear_value z7; revert z7; refine id ?_; intro z7 kz7; apply NextKeeps.atUnit
  · exact kz7
  · split
    · extract_lets +onlyGivenNames z10
      have kz10 : Keeps s₀ z10 := by
        unfold z10; split
        · apply State.setf_keeps; exact kz7
        · exact kz7
      clear_value z10; revert z10; refine id ?_; intro z10 kz10; apply State.i2cEnd_keeps; exact kz10
    · exact kz7
theorem execI2cBusStuck_keeps {s₀ : State} (k : ℕ) {s : State} (h : Keeps s₀ s) : NextKeeps s₀ (execI2cBusStuck k s) := by
  unfold execI2cBusStuck; extract_lets +onlyGivenNames z5
  have kz5 : Keeps s₀ z5 := by
    unfold z5; apply State.fresh_keeps; exact h
  clear_value z5; revert z5; refine id ?_; intro z5 kz5; apply NextKeeps.atUnit
  · exact kz5
  · split
    · apply State.i2cEnd_keeps; exact kz5
    · exact kz5

end Sys2Proof.Machine
end

