-- ==== Sys2Proof/Laws/KeepsPair.lean ====
section
/-! SUPPORT. What the partner pair and the performance counters keep: one lemma for each operation, in the words of Laws.Keeps. -/
namespace Sys2Proof.Machine

theorem State.setPair_keeps {s₀ : State} {s : State} (f : PairSide → PairSide) (h : Keeps s₀ s) : Keeps s₀ (State.setPair s f) := by
  unfold State.setPair; exact h.same (by unfold State.view; rfl)
theorem State.wtrCheck_keeps {s₀ : State} {s : State} (h : Keeps s₀ s) : Keeps s₀ (State.wtrCheck s) := by
  unfold State.wtrCheck; extract_lets +onlyGivenNames z4; apply State.setPair_keeps; exact h
theorem State.takeRoleGap_keeps {s₀ : State} {s : State} (new : ℕ) (cause : ℕ) (gap : ℕ) (h : Keeps s₀ s) : Keeps s₀ (State.takeRoleGap s new cause gap) := by
  unfold State.takeRoleGap; extract_lets +onlyGivenNames z7; split
  · exact h
  · extract_lets +onlyGivenNames z9
    have kz9 : Keeps s₀ z9 := by
      unfold z9; apply State.setPair_keeps; apply State.setf_keeps; exact h
    clear_value z9; revert z9; refine id ?_; intro z9 kz9; extract_lets +onlyGivenNames z11
    have kz11 : Keeps s₀ z11 := by
      unfold z11; apply State.raise_keeps; exact kz9
    clear_value z11; revert z11; refine id ?_; intro z11 kz11; apply State.outWantAll_keeps; apply State.refresh_keeps
    exact kz11
theorem State.takeRole_keeps {s₀ : State} {s : State} (new : ℕ) (cause : ℕ) (h : Keeps s₀ s) : Keeps s₀ (State.takeRole s new cause) := by
  unfold State.takeRole; apply State.takeRoleGap_keeps; exact h
theorem State.takeOver_keeps {s₀ : State} {s : State} (cause : ℕ) (h : Keeps s₀ s) : Keeps s₀ (State.takeOver s cause) := by
  unfold State.takeOver; extract_lets +onlyGivenNames z5
  have kz5 : Keeps s₀ z5 := by
    unfold z5; split
    · apply State.set_keeps; exact h
    · apply State.draw_keeps; apply State.set_keeps; exact h
  clear_value z5; revert z5; refine id ?_; intro z5 kz5; apply State.takeRoleGap_keeps; apply State.count_keeps; exact kz5
theorem State.fenceOut_keeps {s₀ : State} {s : State} (on : Bool) (h : Keeps s₀ s) : Keeps s₀ (State.fenceOut s on) := by
  unfold State.fenceOut; split
  · exact h
  · apply State.emit_keeps; apply State.setf_keeps; exact h
theorem State.beginTake_keeps {s₀ : State} {s : State} (fence : Bool) (silent : ℕ) (other : ℕ) (h : Keeps s₀ s) : Keeps s₀ (State.beginTake s fence silent other) := by
  unfold State.beginTake; split
  · apply State.setPair_keeps; apply State.fenceOut_keeps; exact h
  · apply State.takeOver_keeps; exact h
theorem State.blocked_keeps {s₀ : State} {s : State} (reason : ℕ) (h : Keeps s₀ s) : Keeps s₀ (State.blocked s reason) := by
  unfold State.blocked; apply State.raise_keeps; exact h
theorem State.checkBlocked_keeps {s₀ : State} {s : State} (h : Keeps s₀ s) : Keeps s₀ (State.checkBlocked s) := by
  unfold State.checkBlocked; extract_lets +onlyGivenNames z4; split
  · apply State.setPair_keeps; exact h
  · extract_lets +onlyGivenNames z6; clear_value z6; split
    · apply State.setPair_keeps; exact h
    · split
      · exact h
      · apply State.blocked_keeps; apply State.setPair_keeps; exact h
theorem State.holdStandby_keeps {s₀ : State} {s : State} (h : Keeps s₀ s) : Keeps s₀ (State.holdStandby s) := by
  unfold State.holdStandby; split
  · apply State.takeRole_keeps; exact h
  · exact h
theorem State.enterPair_keeps {s₀ : State} {s : State} (h : Keeps s₀ s) : Keeps s₀ (State.enterPair s) := by
  unfold State.enterPair; extract_lets +onlyGivenNames z4; extract_lets +onlyGivenNames z5
  have kz5 : Keeps s₀ z5 := by
    unfold z5; apply State.setPair_keeps; exact h
  clear_value z5; revert z5; refine id ?_; intro z5 kz5; extract_lets +onlyGivenNames z7; extract_lets +onlyGivenNames z8
  have kz8 : Keeps s₀ z8 := by
    unfold z8; apply State.setf_keeps; exact kz5
  clear_value z8; revert z8; refine id ?_; intro z8 kz8; extract_lets +onlyGivenNames z10
  have kz10 : Keeps s₀ z10 := by
    unfold z10; apply State.setf_keeps; exact kz8
  clear_value z10; revert z10; refine id ?_; intro z10 kz10; extract_lets +onlyGivenNames z12
  have kz12 : Keeps s₀ z12 := by
    unfold z12; apply State.setf_keeps; exact kz10
  clear_value z12; revert z12; refine id ?_; intro z12 kz12; extract_lets +onlyGivenNames z14
  have kz14 : Keeps s₀ z14 := by
    unfold z14; apply State.setf_keeps; exact kz12
  clear_value z14; revert z14; refine id ?_; intro z14 kz14; extract_lets +onlyGivenNames z16
  have kz16 : Keeps s₀ z16 := by
    unfold z16; apply State.refresh_keeps; apply State.takeRole_keeps; exact kz14
  clear_value z16; revert z16; refine id ?_; intro z16 kz16; apply State.outWantAll_keeps; split
  · apply State.takeRole_keeps; exact kz16
  · apply State.holdStandby_keeps; exact kz16
theorem State.enterAlone_keeps {s₀ : State} {s : State} (h : Keeps s₀ s) : Keeps s₀ (State.enterAlone s) := by
  unfold State.enterAlone; extract_lets +onlyGivenNames z4
  have kz4 : Keeps s₀ z4 := by
    unfold z4; apply State.fenceOut_keeps; exact h
  clear_value z4; revert z4; refine id ?_; intro z4 kz4; extract_lets +onlyGivenNames z6
  have kz6 : Keeps s₀ z6 := by
    unfold z6; apply State.setf_keeps; apply State.setf_keeps; exact kz4
  clear_value z6; revert z6; refine id ?_; intro z6 kz6; extract_lets +onlyGivenNames z8; extract_lets +onlyGivenNames z9
  have kz9 : Keeps s₀ z9 := by
    unfold z9; apply State.setPair_keeps; exact kz6
  clear_value z9; revert z9; refine id ?_; intro z9 kz9; apply State.outWantAll_keeps; apply State.refresh_keeps
  apply State.setPair_keeps; apply State.takeRole_keeps; exact kz9
theorem State.sendBellflower_keeps {s₀ : State} {s : State} (h : Keeps s₀ s) : Keeps s₀ (State.sendBellflower s) := by
  unfold State.sendBellflower; extract_lets +onlyGivenNames z4; extract_lets +onlyGivenNames z5
  have kz5 : Keeps s₀ z5 := by
    unfold z5; apply State.setPair_keeps; exact h
  clear_value z5; revert z5; refine id ?_; intro z5 kz5; extract_lets +onlyGivenNames z7
  have kz7 : Keeps s₀ z7 := by
    unfold z7; split
    · apply State.emit_keeps; exact kz5
    · exact kz5
  clear_value z7; revert z7; refine id ?_; intro z7 kz7; split
  · exact kz7
  · extract_lets +onlyGivenNames z10; extract_lets +onlyGivenNames z11; apply State.deviceSend_keeps; exact kz7
theorem execBellflowerSend_keeps {s₀ : State} {s : State} (h : Keeps s₀ s) : NextKeeps s₀ (execBellflowerSend s) := by
  unfold execBellflowerSend; extract_lets +onlyGivenNames z4
  have kz4 : Keeps s₀ z4 := by
    unfold z4; apply State.fresh_keeps; exact h
  clear_value z4; revert z4; refine id ?_; intro z4 kz4; extract_lets +onlyGivenNames z6; apply NextKeeps.next; split
  · apply State.sendBellflower_keeps; apply State.setPair_keeps; exact kz4
  · exact kz4
theorem State.conflicts_keeps {s₀ : State} {s : State} (hh : Heard) (h : Keeps s₀ s) : Keeps s₀ (State.conflicts s hh) := by
  unfold State.conflicts; extract_lets +onlyGivenNames z5; extract_lets +onlyGivenNames z6
  have kz6 : Keeps s₀ z6 := by
    unfold z6; split
    · apply State.raise_keeps; apply State.setf_keeps; apply State.setPair_keeps; exact h
    · exact h
  clear_value z6; revert z6; refine id ?_; intro z6 kz6; extract_lets +onlyGivenNames z8; extract_lets +onlyGivenNames z9
  have kz9 : Keeps s₀ z9 := by
    unfold z9; apply State.setPair_keeps; exact kz6
  clear_value z9; revert z9; refine id ?_; intro z9 kz9; split
  · apply State.raise_keeps; exact kz9
  · exact kz9
theorem State.showPartner_keeps {s₀ : State} {s : State} (hh : Heard) (h : Keeps s₀ s) : Keeps s₀ (State.showPartner s hh) := by
  unfold State.showPartner; extract_lets +onlyGivenNames z5
  have kz5 : Keeps s₀ z5 := by
    unfold z5; apply State.setf_keeps; apply State.setf_keeps; exact h
  clear_value z5; revert z5; refine id ?_; intro z5 kz5; extract_lets +onlyGivenNames z7
  have kz7 : Keeps s₀ z7 := by
    unfold z7; apply State.set_keeps; exact kz5
  clear_value z7; revert z7; refine id ?_; intro z7 kz7; apply State.set_keeps; exact kz7
theorem State.yieldRole_keeps {s₀ : State} {s : State} (h : Keeps s₀ s) : Keeps s₀ (State.yieldRole s) := by
  unfold State.yieldRole; extract_lets +onlyGivenNames z4; extract_lets +onlyGivenNames z5
  have kz5 : Keeps s₀ z5 := by
    unfold z5; apply State.takeRole_keeps; apply State.count_keeps; exact h
  clear_value z5; revert z5; refine id ?_; intro z5 kz5; extract_lets +onlyGivenNames z7
  have kz7 : Keeps s₀ z7 := by
    unfold z7; apply State.setPair_keeps; exact kz5
  clear_value z7; revert z7; refine id ?_; intro z7 kz7; apply State.sendBellflower_keeps; exact kz7
theorem State.react2_keeps {s₀ : State} {s : State} (hh : Heard) (h : Keeps s₀ s) : Keeps s₀ (State.react2 s hh) := by
  unfold State.react2; extract_lets +onlyGivenNames z5
  have kz5 : Keeps s₀ z5 := by
    unfold z5; split
    · apply State.fenceOut_keeps; exact h
    · exact h
  clear_value z5; revert z5; refine id ?_; intro z5 kz5; extract_lets +onlyGivenNames z7
  have kz7 : Keeps s₀ z7 := by
    unfold z7; split
    · apply State.setPair_keeps; exact kz5
    · exact kz5
  clear_value z7; revert z7; refine id ?_; intro z7 kz7; split
  · exact kz7
  · split
    · split
      · apply State.takeRole_keeps; exact kz7
      · exact kz7
    · split
      · split
        · apply State.takeRole_keeps; apply State.count_keeps; exact kz7
        · split
          · split
            · apply State.setPair_keeps; exact kz7
            · split
              · exact kz7
              · apply State.blocked_keeps; apply State.setPair_keeps; exact kz7
          · exact kz7
      · split
        · apply State.yieldRole_keeps; exact kz7
        · exact kz7
theorem State.hear_keeps {s₀ : State} {s : State} (path : ℕ) (good : Bool) (y : List Byte) (h : Keeps s₀ s) : Keeps s₀ (State.hear s path good y) := by
  unfold State.hear; split
  · extract_lets +onlyGivenNames z8; extract_lets +onlyGivenNames z9
    have kz9 : Keeps s₀ z9 := by
      unfold z9; apply State.setPair_keeps; exact h
    clear_value z9; revert z9; refine id ?_; intro z9 kz9; extract_lets +onlyGivenNames z11
    have kz11 : Keeps s₀ z11 := by
      unfold z11; split
      · exact kz9
      · apply State.raise_keeps; apply State.setf_keeps; exact kz9
    clear_value z11; revert z11; refine id ?_; intro z11 kz11; apply State.checkBlocked_keeps; apply State.wtrCheck_keeps
    apply State.react2_keeps; apply State.showPartner_keeps; apply State.conflicts_keeps; exact kz11
  · apply State.count_keeps; exact h
theorem execBellflowerReceive_keeps {s₀ : State} (path : ℕ) (bytes : List Byte) {s : State} (h : Keeps s₀ s) : NextKeeps s₀ (execBellflowerReceive path bytes s) := by
  unfold execBellflowerReceive; extract_lets +onlyGivenNames z6
  have kz6 : Keeps s₀ z6 := by
    unfold z6; apply State.fresh_keeps; exact h
  clear_value z6; revert z6; refine id ?_; intro z6 kz6; apply NextKeeps.atUnit
  · exact kz6
  · split
    · exact kz6
    · split
      · extract_lets +onlyGivenNames z10; apply State.hear_keeps; exact kz6
      · extract_lets +onlyGivenNames z10; split
        · extract_lets +onlyGivenNames z12; split
          · apply State.arrive_keeps
            · intro a14 t15 h16; apply State.hear_keeps; exact h16
            · exact kz6
          · apply State.count_keeps; apply State.arrive_keeps
            · intro a14 t15 h16; exact h16
            · exact kz6
        · exact kz6
theorem execPathSilent_keeps {s₀ : State} (path : ℕ) {s : State} (h : Keeps s₀ s) : NextKeeps s₀ (execPathSilent path s) := by
  unfold execPathSilent; extract_lets +onlyGivenNames z5
  have kz5 : Keeps s₀ z5 := by
    unfold z5; apply State.fresh_keeps; exact h
  clear_value z5; revert z5; refine id ?_; intro z5 kz5; apply NextKeeps.atUnit
  · exact kz5
  · split
    · extract_lets +onlyGivenNames z8
      have kz8 : Keeps s₀ z8 := by
        unfold z8; apply State.raise_keeps; apply State.setf_keeps; exact kz5
      clear_value z8; revert z8; refine id ?_; intro z8 kz8; apply State.checkBlocked_keeps; apply State.wtrCheck_keeps; split
      · apply State.count_keeps; exact kz8
      · exact kz8
    · exact kz5
theorem execPairInitTimeout_keeps {s₀ : State} {s : State} (h : Keeps s₀ s) : NextKeeps s₀ (execPairInitTimeout s) := by
  unfold execPairInitTimeout; extract_lets +onlyGivenNames z4
  have kz4 : Keeps s₀ z4 := by
    unfold z4; apply State.fresh_keeps; exact h
  clear_value z4; revert z4; refine id ?_; intro z4 kz4; extract_lets +onlyGivenNames z6; apply NextKeeps.next; split
  · split
    · apply State.beginTake_keeps; exact kz4
    · apply State.checkBlocked_keeps; apply State.takeRole_keeps; exact kz4
  · exact kz4
theorem execTakeover_keeps {s₀ : State} {s : State} (h : Keeps s₀ s) : NextKeeps s₀ (execTakeover s) := by
  unfold execTakeover; extract_lets +onlyGivenNames z4
  have kz4 : Keeps s₀ z4 := by
    unfold z4; apply State.fresh_keeps; exact h
  clear_value z4; revert z4; refine id ?_; intro z4 kz4; apply NextKeeps.next; split
  · split
    · apply State.beginTake_keeps; exact kz4
    · apply State.checkBlocked_keeps; exact kz4
  · exact kz4
theorem execFenceSettle_keeps {s₀ : State} {s : State} (h : Keeps s₀ s) : NextKeeps s₀ (execFenceSettle s) := by
  unfold execFenceSettle; extract_lets +onlyGivenNames z4
  have kz4 : Keeps s₀ z4 := by
    unfold z4; apply State.fresh_keeps; exact h
  clear_value z4; revert z4; refine id ?_; intro z4 kz4; apply NextKeeps.next; split
  · split
    · apply State.takeOver_keeps; exact kz4
    · exact kz4
  · exact kz4
theorem execFenceInFall_keeps {s₀ : State} {s : State} (h : Keeps s₀ s) : NextKeeps s₀ (execFenceInFall s) := by
  unfold execFenceInFall; extract_lets +onlyGivenNames z4
  have kz4 : Keeps s₀ z4 := by
    unfold z4; apply State.fresh_keeps; exact h
  clear_value z4; revert z4; refine id ?_; intro z4 kz4; extract_lets +onlyGivenNames z6
  have kz6 : Keeps s₀ z6 := by
    unfold z6; apply State.setPair_keeps; exact kz4
  clear_value z6; revert z6; refine id ?_; intro z6 kz6; apply NextKeeps.next; split
  · extract_lets +onlyGivenNames z9
    have kz9 : Keeps s₀ z9 := by
      unfold z9; apply State.takeRole_keeps; apply State.setf_keeps; exact kz6
    clear_value z9; revert z9; refine id ?_; intro z9 kz9; apply State.checkBlocked_keeps; apply State.forEach_keeps
    · intro a11 a12 t13 h14; apply State.emit_keeps; apply State.keepLine_keeps; apply State.setOutState_keeps; exact h14
    · exact kz9
  · exact kz6
theorem execFenceInRise_keeps {s₀ : State} {s : State} (h : Keeps s₀ s) : NextKeeps s₀ (execFenceInRise s) := by
  unfold execFenceInRise; extract_lets +onlyGivenNames z4
  have kz4 : Keeps s₀ z4 := by
    unfold z4; apply State.fresh_keeps; exact h
  clear_value z4; revert z4; refine id ?_; intro z4 kz4; extract_lets +onlyGivenNames z6
  have kz6 : Keeps s₀ z6 := by
    unfold z6; apply State.setPair_keeps; exact kz4
  clear_value z6; revert z6; refine id ?_; intro z6 kz6; apply NextKeeps.next; split
  · extract_lets +onlyGivenNames z9
    have kz9 : Keeps s₀ z9 := by
      unfold z9; apply State.setf_keeps; exact kz6
    clear_value z9; revert z9; refine id ?_; intro z9 kz9; split
    · apply State.takeRole_keeps; exact kz9
    · exact kz9
  · exact kz6
theorem execTakeReqTimeout_keeps {s₀ : State} {s : State} (h : Keeps s₀ s) : NextKeeps s₀ (execTakeReqTimeout s) := by
  unfold execTakeReqTimeout; extract_lets +onlyGivenNames z4
  have kz4 : Keeps s₀ z4 := by
    unfold z4; apply State.fresh_keeps; exact h
  clear_value z4; revert z4; refine id ?_; intro z4 kz4; apply NextKeeps.next; split
  · split
    · apply State.blocked_keeps; apply State.setPair_keeps; exact kz4
    · exact kz4
  · exact kz4
theorem execPairWtrExpiry_keeps {s₀ : State} {s : State} (h : Keeps s₀ s) : NextKeeps s₀ (execPairWtrExpiry s) := by
  unfold execPairWtrExpiry; extract_lets +onlyGivenNames z4
  have kz4 : Keeps s₀ z4 := by
    unfold z4; apply State.wtrCheck_keeps; apply State.fresh_keeps; exact h
  clear_value z4; revert z4; refine id ?_; intro z4 kz4; apply NextKeeps.next; split
  · split
    · apply State.setPair_keeps; exact kz4
    · exact kz4
  · exact kz4
theorem State.setVerdict_keeps {s₀ : State} {s : State} (new : ℕ) (findings : ℕ) (h : Keeps s₀ s) : Keeps s₀ (State.setVerdict s new findings) := by
  unfold State.setVerdict; extract_lets +onlyGivenNames z6; extract_lets +onlyGivenNames z7
  have kz7 : Keeps s₀ z7 := by
    unfold z7; apply State.setf_keeps; apply State.setf_keeps; exact h
  clear_value z7; revert z7; refine id ?_; intro z7 kz7; split
  · exact kz7
  · apply State.raise_keeps; exact kz7
theorem execHealthReport_keeps {s₀ : State} {s : State} (h : Keeps s₀ s) : NextKeeps s₀ (execHealthReport s) := by
  unfold execHealthReport; extract_lets +onlyGivenNames z4
  have kz4 : Keeps s₀ z4 := by
    unfold z4; apply State.fresh_keeps; exact h
  clear_value z4; revert z4; refine id ?_; intro z4 kz4; extract_lets +onlyGivenNames z6; apply NextKeeps.next; split
  · extract_lets +onlyGivenNames z8; extract_lets +onlyGivenNames z9
    have kz9 : Keeps s₀ z9 := by
      unfold z9; apply State.set_keeps; exact kz4
    clear_value z9; revert z9; refine id ?_; intro z9 kz9; extract_lets +onlyGivenNames z11; extract_lets +onlyGivenNames z12
    have kz12 : Keeps s₀ z12 := by
      unfold z12; exact kz9.same (by unfold State.view; rfl)
    clear_value z12; revert z12; refine id ?_; intro z12 kz12; extract_lets +onlyGivenNames z14
    have kz14 : Keeps s₀ z14 := by
      unfold z14; apply State.set_keeps; exact kz12
    clear_value z14; revert z14; refine id ?_; intro z14 kz14; extract_lets +onlyGivenNames z16
    have kz16 : Keeps s₀ z16 := by
      unfold z16; apply State.set_keeps; apply State.set_keeps; exact kz14
    clear_value z16; revert z16; refine id ?_; intro z16 kz16; extract_lets +onlyGivenNames z18; apply State.checkBlocked_keeps
    apply State.wtrCheck_keeps; apply State.setVerdict_keeps; exact kz16
  · exact kz4
theorem execScrubPass_keeps {s₀ : State} (bad : Bool) {s : State} (h : Keeps s₀ s) : NextKeeps s₀ (execScrubPass bad s) := by
  unfold execScrubPass; extract_lets +onlyGivenNames z5
  have kz5 : Keeps s₀ z5 := by
    unfold z5; apply State.fresh_keeps; exact h
  clear_value z5; revert z5; refine id ?_; intro z5 kz5; apply NextKeeps.next; split
  · extract_lets +onlyGivenNames z8
    have kz8 : Keeps s₀ z8 := by
      unfold z8; apply State.mark_keeps; exact kz5
    clear_value z8; revert z8; refine id ?_; intro z8 kz8; apply State.tested_keeps; exact kz8.same (by unfold State.view; rfl)
  · exact kz5
theorem execCellTest_keeps {s₀ : State} (failing : List ℕ) {s : State} (h : Keeps s₀ s) : NextKeeps s₀ (execCellTest failing s) := by
  unfold execCellTest; extract_lets +onlyGivenNames z5
  have kz5 : Keeps s₀ z5 := by
    unfold z5; apply State.fresh_keeps; exact h
  clear_value z5; revert z5; refine id ?_; intro z5 kz5; apply NextKeeps.next; split
  · extract_lets +onlyGivenNames z8; extract_lets +onlyGivenNames z9; extract_lets +onlyGivenNames z10
    have kz10 : Keeps s₀ z10 := by
      unfold z10; exact kz5.same (by unfold State.view; rfl)
    clear_value z10; revert z10; refine id ?_; intro z10 kz10; apply State.tested_keeps
    exact kz10.same (by unfold State.view; rfl)
  · exact kz5
theorem execCrossCheck_keeps {s₀ : State} {s : State} (h : Keeps s₀ s) : NextKeeps s₀ (execCrossCheck s) := by
  unfold execCrossCheck; extract_lets +onlyGivenNames z4
  have kz4 : Keeps s₀ z4 := by
    unfold z4; apply State.fresh_keeps; exact h
  clear_value z4; revert z4; refine id ?_; intro z4 kz4; apply NextKeeps.next; split
  · extract_lets +onlyGivenNames z7
    have kz7 : Keeps s₀ z7 := by
      unfold z7; apply State.mark_keeps; exact kz4
    clear_value z7; revert z7; refine id ?_; intro z7 kz7; extract_lets +onlyGivenNames z9; extract_lets +onlyGivenNames z10
    extract_lets +onlyGivenNames z11; apply State.tested_keeps; split
    · apply State.mark_keeps; exact kz7
    · exact kz7
  · exact kz4
theorem execFenceLoopTest_keeps {s₀ : State} (readback : Bool) {s : State} (h : Keeps s₀ s) : NextKeeps s₀ (execFenceLoopTest readback s) := by
  unfold execFenceLoopTest; extract_lets +onlyGivenNames z5
  have kz5 : Keeps s₀ z5 := by
    unfold z5; apply State.fresh_keeps; exact h
  clear_value z5; revert z5; refine id ?_; intro z5 kz5; apply NextKeeps.next; split
  · extract_lets +onlyGivenNames z8
    have kz8 : Keeps s₀ z8 := by
      unfold z8; apply State.mark_keeps; exact kz5
    clear_value z8; revert z8; refine id ?_; intro z8 kz8; extract_lets +onlyGivenNames z10; apply State.tested_keeps
    exact kz8.same (by unfold State.view; rfl)
  · exact kz5
theorem State.pairReply_keeps {s₀ : State} {s : State} (act : ℕ) (h : Keeps s₀ s) : Keeps s₀ (State.pairReply s act).state := by
  unfold State.pairReply; apply Keeps.ofOk; exact h
theorem pairTakeRun_keeps {s₀ : State} (c : Ctx) {s : State} (h : Keeps s₀ s) : Keeps s₀ (pairTakeRun c s).state := by
  unfold pairTakeRun; extract_lets +onlyGivenNames z5; split
  · apply Keeps.ofError; exact h
  · split
    · apply State.pairReply_keeps; exact h
    · split
      · split
        · apply State.pairReply_keeps; apply State.beginTake_keeps; exact h
        · apply State.pairReply_keeps; apply State.setPair_keeps; exact h
      · split
        · apply State.pairReply_keeps; apply State.beginTake_keeps; exact h
        · apply Keeps.ofError; exact h
theorem pairTakeCmd_keeps : CmdKeeps (pairTakeCmd) := by
  rw [pairTakeCmd]; refine ⟨fun s₀ x s h => ?_, fun s₀ x s e h => ?_, fun s₀ x s h => ?_⟩
  · rw [Cmd.run_mk]; apply pairTakeRun_keeps; exact h
  · rw [Cmd.refused_mk]; exact h
  · rw [Cmd.after_mk]; exact h
theorem pairYieldRun_keeps {s₀ : State} (c : Ctx) {s : State} (h : Keeps s₀ s) : Keeps s₀ (pairYieldRun c s).state := by
  unfold pairYieldRun; split
  · apply Keeps.ofOk; apply State.setPair_keeps; exact h
  · apply Keeps.ofError; exact h
theorem pairYieldCmd_keeps : CmdKeeps (pairYieldCmd) := by
  rw [pairYieldCmd]; refine ⟨fun s₀ x s h => ?_, fun s₀ x s e h => ?_, fun s₀ x s h => ?_⟩
  · rw [Cmd.run_mk]; apply pairYieldRun_keeps; exact h
  · rw [Cmd.refused_mk]; exact h
  · rw [Cmd.after_mk]; exact h
theorem pairStatusCmd_keeps : CmdKeeps (pairStatusCmd) := by
  rw [pairStatusCmd]; refine ⟨fun s₀ x s h => ?_, fun s₀ x s e h => ?_, fun s₀ x s h => ?_⟩
  · rw [Cmd.run_mk]; apply Keeps.ofOk; exact h
  · rw [Cmd.refused_mk]; exact h
  · rw [Cmd.after_mk]; exact h
theorem execPairTake_keeps {s₀ : State} (q : Request) {s : State} (h : Keeps s₀ s) : NextKeeps s₀ (execPairTake q s) := by
  unfold execPairTake; apply NextKeeps.next; apply runCmd_keeps
  · apply pairTakeCmd_keeps
  · exact h
theorem execPairYield_keeps {s₀ : State} (q : Request) {s : State} (h : Keeps s₀ s) : NextKeeps s₀ (execPairYield q s) := by
  unfold execPairYield; apply NextKeeps.next; apply runCmd_keeps
  · apply pairYieldCmd_keeps
  · exact h
theorem execPairStatus_keeps {s₀ : State} (q : Request) {s : State} (h : Keeps s₀ s) : NextKeeps s₀ (execPairStatus q s) := by
  unfold execPairStatus; apply NextKeeps.next; apply runCmd_keeps
  · apply pairStatusCmd_keeps
  · exact h
theorem State.perfCount_keeps {s₀ : State} {s : State} (n : ℕ) (h : Keeps s₀ s) : Keeps s₀ (State.perfCount s n) := by
  unfold State.perfCount; extract_lets +onlyGivenNames z5; extract_lets +onlyGivenNames z6; extract_lets +onlyGivenNames z7
  extract_lets +onlyGivenNames z8; extract_lets +onlyGivenNames z9
  have kz9 : Keeps s₀ z9 := by
    unfold z9; apply State.set_keeps; exact h
  clear_value z9; revert z9; refine id ?_; intro z9 kz9; split
  · exact kz9.same (by unfold State.view; rfl)
  · exact kz9
theorem State.perfTick_keeps {s₀ : State} {s : State} (h : Keeps s₀ s) : Keeps s₀ (State.perfTick s) := by
  unfold State.perfTick; split
  · extract_lets +onlyGivenNames z5
    have kz5 : Keeps s₀ z5 := by
      unfold z5; apply State.wrap_keeps; exact h
    clear_value z5; revert z5; refine id ?_; intro z5 kz5; extract_lets +onlyGivenNames z7; extract_lets +onlyGivenNames z8
    have kz8 : Keeps s₀ z8 := by
      unfold z8; apply State.forEach_keeps
      · intro a9 a10 t11 h12; apply State.perfCount_keeps; exact h12
      · exact kz5
    clear_value z8; revert z8; refine id ?_; intro z8 kz8; exact kz8.same (by unfold State.view; rfl)
  · exact h.same (by unfold State.view; rfl)
theorem execPerfOverflow_keeps {s₀ : State} (n : ℕ) (address : ℕ) (after : ℕ) {s : State} (h : Keeps s₀ s) : NextKeeps s₀ (execPerfOverflow n address after s) := by
  unfold execPerfOverflow; extract_lets +onlyGivenNames z7
  have kz7 : Keeps s₀ z7 := by
    unfold z7; apply State.fresh_keeps; exact h
  clear_value z7; revert z7; refine id ?_; intro z7 kz7; apply NextKeeps.atUnit
  · exact kz7
  · split
    · exact kz7
    · extract_lets +onlyGivenNames z14; extract_lets +onlyGivenNames z15
      have kz15 : Keeps s₀ z15 := by
        unfold z15; exact kz7.same (by unfold State.view; rfl)
      clear_value z15; revert z15; refine id ?_; intro z15 kz15; split
      · apply State.count_keeps; exact kz15
      · extract_lets +onlyGivenNames z18; extract_lets +onlyGivenNames z19; apply State.signal_keeps; apply State.setf_keeps
        apply State.set_keeps; exact kz15
theorem State.clearOvf_keeps {s₀ : State} {s : State} (n : ℕ) (h : Keeps s₀ s) : Keeps s₀ (State.clearOvf s n) := by
  unfold State.clearOvf; extract_lets +onlyGivenNames z5
  have kz5 : Keeps s₀ z5 := by
    unfold z5; apply State.set_keeps; apply State.setf_keeps; exact h
  clear_value z5; revert z5; refine id ?_; intro z5 kz5; exact kz5.same (by unfold State.view; rfl)
theorem perfSelectRun_keeps {s₀ : State} (c : Ctx) {s : State} (h : Keeps s₀ s) : Keeps s₀ (perfSelectRun c s).state := by
  unfold perfSelectRun; extract_lets +onlyGivenNames z5; extract_lets +onlyGivenNames z6
  have kz6 : Keeps s₀ z6 := by
    unfold z6; apply State.set_keeps; apply State.set_keeps; exact h
  clear_value z6; revert z6; refine id ?_; intro z6 kz6; extract_lets +onlyGivenNames z8
  have kz8 : Keeps s₀ z8 := by
    unfold z8; split
    · apply State.clearOvf_keeps; apply State.set_keeps; exact kz6
    · exact kz6
  clear_value z8; revert z8; refine id ?_; intro z8 kz8; apply Keeps.ofOk; exact kz8
theorem perfSelectCmd_keeps : CmdKeeps (perfSelectCmd) := by
  rw [perfSelectCmd]; refine ⟨fun s₀ x s h => ?_, fun s₀ x s e h => ?_, fun s₀ x s h => ?_⟩
  · rw [Cmd.run_mk]; apply perfSelectRun_keeps; exact h
  · rw [Cmd.refused_mk]; exact h
  · rw [Cmd.after_mk]; exact h
theorem perfReadRun_keeps {s₀ : State} (c : Ctx) {s : State} (h : Keeps s₀ s) : Keeps s₀ (perfReadRun c s).state := by
  unfold perfReadRun; apply Keeps.ofOk; exact h
theorem perfReadCmd_keeps : CmdKeeps (perfReadCmd) := by
  rw [perfReadCmd]; refine ⟨fun s₀ x s h => ?_, fun s₀ x s e h => ?_, fun s₀ x s h => ?_⟩
  · rw [Cmd.run_mk]; apply perfReadRun_keeps; exact h
  · rw [Cmd.refused_mk]; exact h
  · rw [Cmd.after_mk]; exact h
theorem execPerfSelect_keeps {s₀ : State} (q : Request) {s : State} (h : Keeps s₀ s) : NextKeeps s₀ (execPerfSelect q s) := by
  unfold execPerfSelect; apply NextKeeps.next; apply runCmd_keeps
  · apply perfSelectCmd_keeps
  · exact h
theorem execPerfRead_keeps {s₀ : State} (q : Request) {s : State} (h : Keeps s₀ s) : NextKeeps s₀ (execPerfRead q s) := by
  unfold execPerfRead; apply NextKeeps.next; apply runCmd_keeps
  · apply perfReadCmd_keeps
  · exact h

end Sys2Proof.Machine
end

