-- ==== Sys2Proof/Laws/KeepsPower.lean ====
section
/-! SUPPORT. What power keep: one lemma for each operation, in the words of Laws.Keeps. -/
namespace Sys2Proof.Machine

theorem State.resetWords_keeps {s₀ : State} {s : State} (n : Nat) (h : Keeps s₀ s) : Keeps s₀ (State.resetWords s n) := by
  refine h.words (fun w => Words.filterMap_wf _ _ w fun p hp q hq => ?_) rfl rfl; split at hq
  · split at hq
    · cases hq
    · rename_i hk; obtain rfl := Option.some.inj hq; exact ⟨rfl, hk⟩
  · obtain rfl := Option.some.inj hq; exact ⟨rfl, w.2 _ hp⟩
theorem State.loadFw_keeps {s₀ : State} {s : State} (rws : Bool) (test : ℕ → Bool) (h : Keeps s₀ s) : Keeps s₀ (State.loadFw s rws test) := by
  unfold State.loadFw; apply State.forEach_keeps
  · intro a6 a7 t8 h9; split
    · extract_lets +onlyGivenNames z15; extract_lets +onlyGivenNames z16; apply State.set_keeps; exact h9
    · exact h9
  · exact h
theorem State.stopEngines_keeps {s₀ : State} {s : State} (es : List ℕ) (h : Keeps s₀ s) : Keeps s₀ (State.stopEngines s es) := by
  unfold State.stopEngines; extract_lets +onlyGivenNames z5; extract_lets +onlyGivenNames z6
  have kz6 : Keeps s₀ z6 := by
    unfold z6; split
    · apply State.proofAbort_keeps; exact h
    · exact h
  clear_value z6; revert z6; refine id ?_; intro z6 kz6; extract_lets +onlyGivenNames z8
  have kz8 : Keeps s₀ z8 := by
    unfold z8; apply State.forEach_keeps
    · intro a9 a10 t11 h12; apply State.setEngine_keeps; exact h12
    · exact kz6
  clear_value z8; revert z8; refine id ?_; intro z8 kz8; split
  · apply State.servoDown_keeps; exact kz8
  · exact kz8
theorem State.runEngines_keeps {s₀ : State} {s : State} (es : List ℕ) (h : Keeps s₀ s) : Keeps s₀ (State.runEngines s es) := by
  unfold State.runEngines; extract_lets +onlyGivenNames z5; extract_lets +onlyGivenNames z6
  have kz6 : Keeps s₀ z6 := by
    unfold z6; split
    · exact h.same (by unfold State.view; rfl)
    · exact h
  clear_value z6; revert z6; refine id ?_; intro z6 kz6; apply State.forEach_keeps
  · intro a8 a9 t10 h11; apply State.setEngine_keeps; exact h11
  · exact kz6
theorem State.setIslands_keeps {s₀ : State} {s : State} (n : ℕ) (v : ℕ) (h : Keeps s₀ s) : Keeps s₀ (State.setIslands s n v) := by
  unfold State.setIslands; apply State.forEach_keeps
  · intro a6 a7 t8 h9; apply State.set_keeps; exact h9
  · exact h
theorem State.portsChanged_keeps {s₀ : State} {s : State} (ps : List ℕ) (h : Keeps s₀ s) : Keeps s₀ (State.portsChanged s ps) := by
  unfold State.portsChanged; apply State.forEach_keeps
  · intro a5 a6 t7 h8; apply State.portRecheck_keeps; exact h8
  · exact h
theorem State.cutPcie_keeps {s₀ : State} {s : State} (h : Keeps s₀ s) : Keeps s₀ (State.cutPcie s) := by
  unfold State.cutPcie; extract_lets +onlyGivenNames t
  have kt : Keeps s₀ t := by
    unfold t; apply State.setf_keeps; apply State.setf_keeps; apply State.setf_keeps; exact h
  clear_value t; revert t; refine id ?_; intro t kt; refine kt.words (fun w => ?_) ?_ ?_
  · exact Words.filter_wf _ _ w
  · unfold State.view; rfl
  · rfl
theorem State.cutPipes_keeps {s₀ : State} {s : State} (n : ℕ) (h : Keeps s₀ s) : Keeps s₀ (State.cutPipes s n) := by
  unfold State.cutPipes; extract_lets +onlyGivenNames z5; extract_lets +onlyGivenNames z6
  have kz6 : Keeps s₀ z6 := by
    unfold z6; apply State.portsChanged_keeps; apply State.internalDrops_keeps; exact h
  clear_value z6; revert z6; refine id ?_; intro z6 kz6; extract_lets +onlyGivenNames z8; extract_lets +onlyGivenNames z9
  have kz9 : Keeps s₀ z9 := by
    unfold z9; exact kz6.same (by unfold State.view; rfl)
  clear_value z9; revert z9; refine id ?_; intro z9 kz9; apply State.forEach_keeps
  · intro a11 a12 t13 h14; apply State.setSide_keeps; exact h14
  · exact kz9
theorem State.cutTables_keeps {s₀ : State} {s : State} (h : Keeps s₀ s) : Keeps s₀ (State.cutTables s) := by
  unfold State.cutTables; exact h.same (by unfold State.view; rfl)
theorem State.failSnapshots_keeps {s₀ : State} {s : State} (h : Keeps s₀ s) : Keeps s₀ (State.failSnapshots s) := by
  unfold State.failSnapshots; apply State.forEach_keeps
  · intro a4 a5 t6 h7; apply State.deviceFault_keeps; apply State.failDeferred_keeps; exact h7
  · exact h
theorem State.cutBuffer_keeps {s₀ : State} {s : State} (h : Keeps s₀ s) : Keeps s₀ (State.cutBuffer s) := by
  unfold State.cutBuffer; extract_lets +onlyGivenNames z4
  have kz4 : Keeps s₀ z4 := by
    unfold z4; apply State.cutFrames_keeps; exact h
  clear_value z4; revert z4; refine id ?_; intro z4 kz4; exact kz4.same (by unfold State.view; rfl)
theorem State.cutLanes_keeps {s₀ : State} {s : State} (n : ℕ) (h : Keeps s₀ s) : Keeps s₀ (State.cutLanes s n) := by
  unfold State.cutLanes; apply State.forEach_keeps
  · intro a5 a6 t7 h8; extract_lets +onlyGivenNames z9
    have kz9 : Keeps s₀ z9 := by
      unfold z9; apply State.linkDown_keeps; apply State.linkInvalid_keeps; apply State.stopLanes_keeps; exact h8
    clear_value z9; revert z9; refine id ?_; intro z9 kz9; extract_lets +onlyGivenNames z11
    have kz11 : Keeps s₀ z11 := by
      unfold z11; apply State.forEach_keeps
      · intro a12 a13 t14 h15; apply State.laneUncal_keeps; exact h15
      · exact kz9
    clear_value z11; revert z11; refine id ?_; intro z11 kz11; exact kz11.same (by unfold State.view; rfl)
  · apply State.internalDrops_keeps; exact h
theorem State.cutTime_keeps {s₀ : State} {s : State} (h : Keeps s₀ s) : Keeps s₀ (State.cutTime s) := by
  unfold State.cutTime; extract_lets +onlyGivenNames t
  have kt : Keeps s₀ t := by
    unfold t; apply State.stopTdc_keeps; apply State.cancelWhere_keeps; exact h
  clear_value t; revert t; refine id ?_; intro t kt; extract_lets +onlyGivenNames u
  have ku : Keeps s₀ u := by
    unfold u; apply State.forEach_keep
    · exact kt
    · intro i v kv; split
      · apply State.setOutState_keeps; apply State.emit_keeps; exact kv
      · apply State.setOutState_keeps; exact kv
  clear_value u; revert u; refine id ?_; intro u ku; extract_lets +onlyGivenNames v
  have kv : Keeps s₀ v := by
    unfold v; apply State.forEach_keep
    · exact ku
    · intro i w kw; apply State.setLevel_keeps; apply State.setDpll_keeps; exact kw
  clear_value v; revert v; refine id ?_; intro v kv
  refine kv.of rfl fun j => { j with domains := ?_, ledger := ?_, outputs := ?_, selectors := ?_, dplls := ?_ }
  · exact (List.length_map _).trans j.domains
  · exact List.length_replicate
  · exact List.length_replicate
  · exact List.length_replicate
  · exact List.length_replicate
theorem State.cutWatch_keeps {s₀ : State} {s : State} (h : Keeps s₀ s) : Keeps s₀ (State.cutWatch s) := by
  unfold State.cutWatch; extract_lets +onlyGivenNames z4
  have kz4 : Keeps s₀ z4 := by
    unfold z4; apply State.forEach_keeps
    · intro a5 a6 t7 h8; apply State.releaseActions_keeps; exact h8
    · exact h
  clear_value z4; revert z4; refine id ?_; intro z4 kz4; exact kz4.same (by unfold State.view; rfl)
theorem State.cutEngines_keeps {s₀ : State} {s : State} (h : Keeps s₀ s) : Keeps s₀ (State.cutEngines s) := by
  unfold State.cutEngines; extract_lets +onlyGivenNames t
  have kt : Keeps s₀ t := by
    unfold t; apply State.cutWatch_keeps; apply State.stopEngines_keeps; exact h
  clear_value t; revert t; refine id ?_; intro t kt; apply State.set_keeps; apply State.set_keeps
  exact kt.of rfl fun j => { j with instances := List.length_replicate }
theorem State.cutDomain_keeps {s₀ : State} {s : State} (n : ℕ) (h : Keeps s₀ s) : Keeps s₀ (State.cutDomain s n) := by
  unfold State.cutDomain; extract_lets +onlyGivenNames z5
  have kz5 : Keeps s₀ z5 := by
    unfold z5; apply State.cutPipes_keeps; exact h
  clear_value z5; revert z5; refine id ?_; intro z5 kz5; extract_lets +onlyGivenNames z7; extract_lets +onlyGivenNames z8
  have kz8 : Keeps s₀ z8 := by
    unfold z8; apply State.channelLeave_keeps; exact h
  clear_value z8; revert z8; refine id ?_; intro z8 kz8; extract_lets +onlyGivenNames z10; extract_lets +onlyGivenNames z11
  have kz11 : Keeps s₀ z11 := by
    unfold z11; apply State.channelLeave_keeps; exact h
  clear_value z11; revert z11; refine id ?_; intro z11 kz11; extract_lets +onlyGivenNames z13; extract_lets +onlyGivenNames z14
  have kz14 : Keeps s₀ z14 := by
    unfold z14; split
    · apply State.cutPcie_keeps; exact h
    · apply State.cutEngines_keeps; exact h
    · apply State.stopEngines_keeps; exact h
    · apply State.failSnapshots_keeps; apply State.cutTables_keeps; apply State.cutPipes_keeps; exact h
    · exact kz5.same (by unfold State.view; rfl)
    · apply State.cutBuffer_keeps; exact h
    · apply State.cutUpper_keeps; exact h
    · exact kz8.same (by unfold State.view; rfl)
    · exact kz11.same (by unfold State.view; rfl)
    · apply State.cutTime_keeps; exact h
    · exact h.same (by unfold State.view; rfl)
    · split
      · apply State.cutLanes_keeps; exact h
      · exact h
  clear_value z14; revert z14; refine id ?_; intro z14 kz14; extract_lets +onlyGivenNames z16; extract_lets +onlyGivenNames z17
  have kz17 : Keeps s₀ z17 := by
    unfold z17; apply State.setIslands_keeps; apply State.resetWords_keeps; exact kz14
  clear_value z17; revert z17; refine id ?_; intro z17 kz17; extract_lets +onlyGivenNames z19
  have kz19 : Keeps s₀ z19 := by
    unfold z19; apply State.forEach_keeps
    · intro a20 a21 t22 h23; apply State.set_keeps; exact h23
    · exact kz17
  clear_value z19; revert z19; refine id ?_; intro z19 kz19; split
  · apply State.poolCheck_keeps; exact kz19
  · exact kz19
theorem State.startTime_keeps {s₀ : State} {s : State} (h : Keeps s₀ s) : Keeps s₀ (State.startTime s) := by
  unfold State.startTime; extract_lets +onlyGivenNames add x
  have kx : Keeps s₀ x := by
    unfold x; split
    · exact h
    · exact State.forEach_keep _ _ h fun d t k => State.count_keeps _ _ _ _ k
  clear_value x; revert x; refine id ?_; intro x kx; extract_lets +onlyGivenNames ck bt t
  have kt : Keeps s₀ t := kx.of rfl fun j => { j with domains := (List.length_map _).trans j.domains }
  clear_value t; revert t; refine id ?_; intro t kt; extract_lets +onlyGivenNames z11; extract_lets +onlyGivenNames z12
  have kz12 : Keeps s₀ z12 := by
    unfold z12; apply State.forEach_keeps
    · intro a13 a14 t15 h16; apply State.setLevel_keeps; apply State.openLoop_keeps; apply State.setf_keeps; exact h16
    · exact kt
  clear_value z12; revert z12; refine id ?_; intro z12 kz12; apply State.outWantAll_keeps; apply State.forEach_keeps
  · intro a14 a15 t16 h17; apply State.prepare_keeps; exact h17
  · exact kz12
theorem State.startDomain_keeps {s₀ : State} {s : State} (n : ℕ) (h : Keeps s₀ s) : Keeps s₀ (State.startDomain s n) := by
  unfold State.startDomain; extract_lets +onlyGivenNames z5
  have kz5 : Keeps s₀ z5 := by
    unfold z5; apply State.loadFw_keeps; apply State.setIslands_keeps; exact h
  clear_value z5; revert z5; refine id ?_; intro z5 kz5; split
  · apply State.runEngines_keeps; exact kz5
  · apply State.poolCheck_keeps; apply State.moveK_keeps; exact kz5
  · apply State.pfcCheckAll_keeps; apply State.poolCheck_keeps; apply State.moveK_keeps; exact kz5
  · apply State.retiredCheck_keeps; apply State.setf_keeps; exact kz5
  · apply State.retiredCheck_keeps; apply State.setf_keeps; exact kz5
  · apply State.startTime_keeps; exact kz5
  · split
    · apply State.poolCheck_keeps; apply State.forEach_keeps
      · intro a15 a16 t17 h18; extract_lets +onlyGivenNames z19; extract_lets +onlyGivenNames z20
        have kz20 : Keeps s₀ z20 := by
          unfold z20; apply State.setf_keeps; apply State.set_keeps; exact h18
        clear_value z20; revert z20; refine id ?_; intro z20 kz20; apply State.linkFix_keeps; apply State.startLanes_keeps
        apply State.setSide_keeps; exact kz20
      · exact kz5
    · exact kz5
theorem State.setPd_keeps {s₀ : State} {s : State} (n : ℕ) (v : ℕ) (h : Keeps s₀ s) : Keeps s₀ (State.setPd s n v) := by
  unfold State.setPd; extract_lets +onlyGivenNames z6
  have kz6 : Keeps s₀ z6 := by
    unfold z6; apply State.setf_keeps; exact h
  clear_value z6; revert z6; refine id ?_; intro z6 kz6; exact kz6.same (by unfold State.view; rfl)
theorem State.beginOff_keeps {s₀ : State} {s : State} (n : ℕ) (h : Keeps s₀ s) : Keeps s₀ (State.beginOff s n) := by
  unfold State.beginOff; extract_lets +onlyGivenNames z5
  have kz5 : Keeps s₀ z5 := by
    unfold z5; apply State.cancelWhere_keeps; exact h
  clear_value z5; revert z5; refine id ?_; intro z5 kz5; extract_lets +onlyGivenNames z7
  have kz7 : Keeps s₀ z7 := by
    unfold z7; apply State.setPd_keeps; exact kz5
  clear_value z7; revert z7; refine id ?_; intro z7 kz7; extract_lets +onlyGivenNames z9
  have kz9 : Keeps s₀ z9 := by
    unfold z9; split
    · apply State.stopEngines_keeps; exact kz7
    · split
      · apply State.stopEngines_keeps; exact kz7
      · exact kz7
  clear_value z9; revert z9; refine id ?_; intro z9 kz9; extract_lets +onlyGivenNames z11
  have kz11 : Keeps s₀ z11 := by
    unfold z11; apply State.portsChanged_keeps; exact kz9
  clear_value z11; revert z11; refine id ?_; intro z11 kz11; split
  · apply State.refresh_keeps; apply State.pfcCheckAll_keeps; apply State.poolCheck_keeps; apply State.moveK_keeps; exact kz11
  · apply State.refresh_keeps; exact kz11
theorem pwrSetRun_keeps {s₀ : State} (c : Ctx) {s : State} (h : Keeps s₀ s) : Keeps s₀ (pwrSetRun c s).state := by
  unfold pwrSetRun; split
  · apply Keeps.ofError; exact h
  · apply Keeps.ofOk; apply State.forEach_keeps
    · intro a9 a10 t11 h12; apply State.beginOff_keeps; exact h12
    · apply State.forEach_keeps
      · intro a9 a10 t11 h12; apply State.setPd_keeps; exact h12
      · exact h
theorem pwrSetCmd_keeps : CmdKeeps (pwrSetCmd) := by
  rw [pwrSetCmd]; refine ⟨fun s₀ x s h => ?_, fun s₀ x s e h => ?_, fun s₀ x s h => ?_⟩
  · rw [Cmd.run_mk]; apply pwrSetRun_keeps; exact h
  · rw [Cmd.refused_mk]; exact h
  · rw [Cmd.after_mk]; split
    · apply State.beginOff_keeps; exact h
    · exact h
theorem execPwrSet_keeps {s₀ : State} (q : Request) {s : State} (h : Keeps s₀ s) : NextKeeps s₀ (execPwrSet q s) := by
  unfold execPwrSet; apply NextKeeps.next; apply runCmd_keeps
  · apply pwrSetCmd_keeps
  · exact h
theorem execPowerUpComplete_keeps {s₀ : State} (pd : ℕ) {s : State} (h : Keeps s₀ s) : NextKeeps s₀ (execPowerUpComplete pd s) := by
  unfold execPowerUpComplete; extract_lets +onlyGivenNames z5
  have kz5 : Keeps s₀ z5 := by
    unfold z5; apply State.fresh_keeps; exact h
  clear_value z5; revert z5; refine id ?_; intro z5 kz5; apply NextKeeps.atUnit
  · exact kz5
  · split
    · apply State.refresh_keeps; apply State.portsChanged_keeps; apply State.startDomain_keeps; apply State.setPd_keeps
      exact kz5
    · exact kz5
theorem execPowerDownComplete_keeps {s₀ : State} (pd : ℕ) (frames : List ℕ) {s : State} (h : Keeps s₀ s) : NextKeeps s₀ (execPowerDownComplete pd frames s) := by
  unfold execPowerDownComplete; extract_lets +onlyGivenNames z6
  have kz6 : Keeps s₀ z6 := by
    unfold z6; apply State.fresh_keeps; exact h
  clear_value z6; revert z6; refine id ?_; intro z6 kz6; apply NextKeeps.atUnit
  · exact kz6
  · split
    · extract_lets +onlyGivenNames z9
      have kz9 : Keeps s₀ z9 := by
        unfold z9; split
        · apply State.forEach_keeps
          · intro a11 a12 t13 h14; apply State.stat_keeps; exact h14
          · exact kz6
        · exact kz6
      clear_value z9; revert z9; refine id ?_; intro z9 kz9; apply State.refresh_keeps; apply State.portsChanged_keeps
      apply State.cutDomain_keeps; apply State.setPd_keeps; exact kz9
    · exact kz6
theorem State.resumeCalendars_keeps {s₀ : State} {s : State} (h : Keeps s₀ s) : Keeps s₀ (State.resumeCalendars s) := by
  unfold State.resumeCalendars; apply State.forEach_keeps
  · intro a4 a5 t6 h7; split
    · extract_lets +onlyGivenNames z13; apply State.setTime_keeps; apply State.setGate_keeps; exact h7
    · exact h7
  · exact h
theorem execTableRefillDone_keeps {s₀ : State} {s : State} (h : Keeps s₀ s) : NextKeeps s₀ (execTableRefillDone s) := by
  unfold execTableRefillDone; extract_lets +onlyGivenNames z4
  have kz4 : Keeps s₀ z4 := by
    unfold z4; apply State.fresh_keeps; exact h
  clear_value z4; revert z4; refine id ?_; intro z4 kz4; apply NextKeeps.next; split
  · extract_lets +onlyGivenNames z7; extract_lets +onlyGivenNames z8
    have kz8 : Keeps s₀ z8 := by
      unfold z8; exact kz4.same (by unfold State.view; rfl)
    clear_value z8; revert z8; refine id ?_; intro z8 kz8; extract_lets +onlyGivenNames z10
    have kz10 : Keeps s₀ z10 := by
      unfold z10; apply State.resumeCalendars_keeps; exact kz8
    clear_value z10; revert z10; refine id ?_; intro z10 kz10; apply State.refresh_keeps; apply State.portsChanged_keeps
    exact kz10
  · exact kz4
theorem State.islandFault_keeps {s₀ : State} {s : State} (kind : ℕ) (i : ℕ) (h : Keeps s₀ s) : Keeps s₀ (State.islandFault s kind i) := by
  unfold State.islandFault; apply State.draw_keeps; apply State.raise_keeps; apply State.deviceFault_keeps
  apply State.mark_keeps; exact h
theorem execCrossingFifoError_keeps {s₀ : State} (i : ℕ) {s : State} (h : Keeps s₀ s) : NextKeeps s₀ (execCrossingFifoError i s) := by
  unfold execCrossingFifoError; extract_lets +onlyGivenNames z5
  have kz5 : Keeps s₀ z5 := by
    unfold z5; apply State.fresh_keeps; exact h
  clear_value z5; revert z5; refine id ?_; intro z5 kz5; apply NextKeeps.atUnit
  · exact kz5
  · apply State.islandFault_keeps; apply State.count_keeps; exact kz5
theorem State.stopTime_keeps {s₀ : State} {s : State} (h : Keeps s₀ s) : Keeps s₀ (State.stopTime s) := by
  unfold State.stopTime; extract_lets +onlyGivenNames z4
  have kz4 : Keeps s₀ z4 := by
    unfold z4; apply State.stopTdc_keeps; apply State.cancelWhere_keeps; exact h
  clear_value z4; revert z4; refine id ?_; intro z4 kz4; extract_lets +onlyGivenNames z6
  have kz6 : Keeps s₀ z6 := by
    unfold z6; split
    · apply State.servoDown_keeps; exact kz4
    · exact kz4
  clear_value z6; revert z6; refine id ?_; intro z6 kz6; exact kz6.same (by unfold State.view; rfl)
theorem State.islandDrops_keeps {s₀ : State} {s : State} (i : ℕ) (h : Keeps s₀ s) : Keeps s₀ (State.islandDrops s i) := by
  unfold State.islandDrops; split
  · apply State.cutFrames_keeps; exact h
  · apply State.pfcCheckAll_keeps; apply State.poolCheck_keeps; apply State.moveK_keeps; apply State.cutUpper_keeps; exact h
  · apply State.internalDrops_keeps; exact h
theorem execIslandLockLoss_keeps {s₀ : State} (i : ℕ) {s : State} (h : Keeps s₀ s) : NextKeeps s₀ (execIslandLockLoss i s) := by
  unfold execIslandLockLoss; extract_lets +onlyGivenNames z5
  have kz5 : Keeps s₀ z5 := by
    unfold z5; apply State.fresh_keeps; exact h
  clear_value z5; revert z5; refine id ?_; intro z5 kz5; apply NextKeeps.atUnit
  · exact kz5
  · split
    · exact kz5
    · extract_lets +onlyGivenNames z8
      have kz8 : Keeps s₀ z8 := by
        unfold z8; split
        · apply State.stopTime_keeps; exact kz5
        · exact kz5
      clear_value z8; revert z8; refine id ?_; intro z8 kz8; extract_lets +onlyGivenNames z10
      have kz10 : Keeps s₀ z10 := by
        unfold z10; apply State.count_keeps; apply State.setf_keeps; exact kz8
      clear_value z10; revert z10; refine id ?_; intro z10 kz10; extract_lets +onlyGivenNames z12
      extract_lets +onlyGivenNames z13
      have kz13 : Keeps s₀ z13 := by
        unfold z13; apply State.answerQueued_keeps; apply State.stopEngines_keeps; exact kz10
      clear_value z13; revert z13; refine id ?_; intro z13 kz13; extract_lets +onlyGivenNames z15
      have kz15 : Keeps s₀ z15 := by
        unfold z15; apply State.islandDrops_keeps; exact kz13
      clear_value z15; revert z15; refine id ?_; intro z15 kz15; extract_lets +onlyGivenNames z17
      have kz17 : Keeps s₀ z17 := by
        unfold z17; split
        · apply State.forEach_keeps
          · intro a19 a20 t21 h22; apply State.linkDown_keeps; exact h22
          · exact kz15
        · apply State.portsChanged_keeps; exact kz15
      clear_value z17; revert z17; refine id ?_; intro z17 kz17; extract_lets +onlyGivenNames z19
      extract_lets +onlyGivenNames z20
      have kz20 : Keeps s₀ z20 := by
        unfold z20; split
        · exact kz17.same (by unfold State.view; rfl)
        · exact kz17
      clear_value z20; revert z20; refine id ?_; intro z20 kz20; apply State.refresh_keeps; apply State.islandFault_keeps
      exact kz20
theorem State.restartTime_keeps {s₀ : State} {s : State} (h : Keeps s₀ s) : Keeps s₀ (State.restartTime s) := by
  unfold State.restartTime; extract_lets +onlyGivenNames z4
  have kz4 : Keeps s₀ z4 := by
    unfold z4; apply State.forEach_keeps
    · intro a5 a6 t7 h8; extract_lets +onlyGivenNames z9
      have kz9 : Keeps s₀ z9 := by
        unfold z9; apply State.setf_keeps; apply State.openLoop_keeps; exact h8
      clear_value z9; revert z9; refine id ?_; intro z9 kz9; apply State.setf_keeps; apply State.setLevel_keeps
      apply State.setDpll_keeps; exact kz9
    · exact h
  clear_value z4; revert z4; refine id ?_; intro z4 kz4; extract_lets +onlyGivenNames z6
  have kz6 : Keeps s₀ z6 := by
    unfold z6; apply State.forEach_keeps
    · intro a7 a8 t9 h10; apply State.deselect_keeps; exact h10
    · exact kz4
  clear_value z6; revert z6; refine id ?_; intro z6 kz6; apply State.forEach_keeps
  · intro a8 a9 t10 h11; extract_lets +onlyGivenNames z12; extract_lets +onlyGivenNames z13; extract_lets +onlyGivenNames z14
    apply State.discontinuity_keeps; apply State.setDom_keeps; exact h11
  · exact kz6
theorem execIslandRestart_keeps {s₀ : State} (i : ℕ) {s : State} (h : Keeps s₀ s) : NextKeeps s₀ (execIslandRestart i s) := by
  unfold execIslandRestart; extract_lets +onlyGivenNames z5
  have kz5 : Keeps s₀ z5 := by
    unfold z5; apply State.fresh_keeps; exact h
  clear_value z5; revert z5; refine id ?_; intro z5 kz5; apply NextKeeps.atUnit
  · exact kz5
  · split
    · exact kz5
    · extract_lets +onlyGivenNames z8
      have kz8 : Keeps s₀ z8 := by
        unfold z8; split
        · apply State.setIslands_keeps; exact kz5
        · apply State.set_keeps; exact kz5
      clear_value z8; revert z8; refine id ?_; intro z8 kz8; extract_lets +onlyGivenNames z10
      have kz10 : Keeps s₀ z10 := by
        unfold z10; apply State.runEngines_keeps; exact kz8
      clear_value z10; revert z10; refine id ?_; intro z10 kz10; extract_lets +onlyGivenNames z12
      have kz12 : Keeps s₀ z12 := by
        unfold z12; split
        · apply State.restartTime_keeps; exact kz10
        · split
          · apply State.refillAll_keeps; apply State.pfcCheckAll_keeps; apply State.poolCheck_keeps; apply State.moveK_keeps
            exact kz10
          · exact kz10
      clear_value z12; revert z12; refine id ?_; intro z12 kz12; apply State.refresh_keeps; apply State.portsChanged_keeps
      exact kz12

end Sys2Proof.Machine
end

