-- ==== Sys2Proof/Laws/KeepsBoot.lean ====
section
/-! SUPPORT. What start-up, the ledger and the queue monitors keep: one lemma for each operation, in the words of Laws.Keeps. -/
namespace Sys2Proof.Machine

theorem State.assignLeases_keeps {s₀ : State} {s : State} (owner : ℕ → ℕ) (h : Keeps s₀ s) : Keeps s₀ (State.assignLeases s owner) := by
  unfold State.assignLeases; split
  · exact h
  · apply State.forEach_keeps
    · intro a6 a7 t8 h9; apply State.setOwner_keeps; exact h9
    · exact h.same (by unfold State.view; rfl)
theorem State.e0Start_keeps {s₀ : State} {s : State} (h : Keeps s₀ s) : Keeps s₀ (State.e0Start s) := by
  unfold State.e0Start; split
  · exact h
  · apply State.refresh_keeps; apply State.runEngines_keeps; apply State.setIslands_keeps; exact h
theorem State.coldReset_keeps {s₀ : State} {s : State} (hold pref : Bool) (cause : Nat) (h : Keeps s₀ s) : Keeps s₀ (State.coldReset s hold pref cause) := by
  unfold State.coldReset; extract_lets +onlyGivenNames quiet x y z t
  have kt : Keeps s₀ t := h.of rfl fun j =>
    ⟨Words.filter_wf _ _ j.words, j.flash, rfl, rfl, rfl, rfl, rfl, rfl, rfl, Nat.zero_le _, Nat.zero_le _, Nat.zero_le _, Nat.zero_le _⟩
  clear_value t; revert t; refine id ?_; intro t kt; extract_lets +onlyGivenNames z13
  have kz13 : Keeps s₀ z13 := by
    unfold z13; apply State.set_keeps; apply State.set_keeps; exact kt
  clear_value z13; revert z13; refine id ?_; intro z13 kz13; extract_lets +onlyGivenNames z15
  have kz15 : Keeps s₀ z15 := by
    unfold z15; apply State.setf_keeps; exact kz13
  clear_value z15; revert z15; refine id ?_; intro z15 kz15; extract_lets +onlyGivenNames z17
  have kz17 : Keeps s₀ z17 := by
    unfold z17; apply State.set_keeps; exact kz15
  clear_value z17; revert z17; refine id ?_; intro z17 kz17; split
  · apply State.assignLeases_keeps; exact kz17
  · exact kz17
theorem execColdReset_keeps {s₀ : State} (straps : Option (Bool × Bool)) {s : State} (h : Keeps s₀ s) : NextKeeps s₀ (execColdReset straps s) := by
  unfold execColdReset; apply NextKeeps.next; split
  · apply State.coldReset_keeps; exact h
  · split
    · split
      · apply State.coldReset_keeps; exact h
      · apply State.fresh_keeps; exact h
    · apply State.fresh_keeps; exact h
theorem State.warmReset_keeps {s₀ : State} {s : State} (cause : Nat) (h : Keeps s₀ s) : Keeps s₀ (State.warmReset s cause) := by
  unfold State.warmReset; extract_lets +onlyGivenNames a
  have ka : Keeps s₀ a := by
    unfold a; split
    · exact State.takeRole_keeps _ _ h
    · exact h
  clear_value a; revert a; refine id ?_; intro a ka; extract_lets +onlyGivenNames b
  have kb : Keeps s₀ b := State.setVerdict_keeps _ _ ka
  clear_value b; revert b; refine id ?_; intro b kb; extract_lets +onlyGivenNames keep; extract_lets +onlyGivenNames c
  have kc : Keeps s₀ c := State.cancelWhere_keeps _ _ kb
  clear_value c; revert c; refine id ?_; intro c kc; extract_lets +onlyGivenNames d
  have kd : Keeps s₀ d := State.stopEngines_keeps _ kc
  clear_value d; revert d; refine id ?_; intro d kd; extract_lets +onlyGivenNames off; extract_lets +onlyGivenNames e
  have ke : Keeps s₀ e := by
    unfold e; apply State.forEach_keep
    · exact kd
    · intro n u ku; apply State.cutDomain_keeps; apply State.setPd_keeps; exact ku
  clear_value e; revert e; refine id ?_; intro e ke; extract_lets +onlyGivenNames kept; extract_lets +onlyGivenNames p q r u f
  have kf : Keeps s₀ f := ke.of rfl fun j => { j with
    engines := by
      show (List.map _ e.engines.zipIdx).length = 12
      rw [List.length_map, List.length_zipIdx]; exact j.engines
    keptPcie := Nat.zero_le _, keptInband := Nat.zero_le _ }
  clear_value f; revert f; refine id ?_; intro f kf; extract_lets +onlyGivenNames z24
  have kz24 : Keeps s₀ z24 := by
    unfold z24; apply State.portsChanged_keeps; apply State.set_keeps; apply State.set_keeps; exact kf
  clear_value z24; revert z24; refine id ?_; intro z24 kz24; apply State.refresh_keeps; exact kz24
theorem execWarmReset_keeps {s₀ : State} (pin : Bool) {s : State} (h : Keeps s₀ s) : NextKeeps s₀ (execWarmReset pin s) := by
  unfold execWarmReset; extract_lets +onlyGivenNames z5
  have kz5 : Keeps s₀ z5 := by
    unfold z5; apply State.fresh_keeps; exact h
  clear_value z5; revert z5; refine id ?_; intro z5 kz5; apply NextKeeps.next; split
  · apply State.warmReset_keeps; exact kz5
  · split
    · split
      · apply State.warmReset_keeps; exact kz5
      · exact kz5
    · exact kz5
theorem execPerstAssert_keeps {s₀ : State} {s : State} (h : Keeps s₀ s) : NextKeeps s₀ (execPerstAssert s) := by
  unfold execPerstAssert; extract_lets +onlyGivenNames z4
  have kz4 : Keeps s₀ z4 := by
    unfold z4; apply State.fresh_keeps; exact h
  clear_value z4; revert z4; refine id ?_; intro z4 kz4; extract_lets +onlyGivenNames z6; extract_lets +onlyGivenNames z7
  have kz7 : Keeps s₀ z7 := by
    unfold z7; apply State.set_keeps; exact kz4.same (by unfold State.view; rfl)
  clear_value z7; revert z7; refine id ?_; intro z7 kz7; apply NextKeeps.next; split
  · apply State.refresh_keeps; apply State.cutPcie_keeps; exact kz7
  · exact kz7
theorem execPerstDeassert_keeps {s₀ : State} {s : State} (h : Keeps s₀ s) : NextKeeps s₀ (execPerstDeassert s) := by
  unfold execPerstDeassert; extract_lets +onlyGivenNames z4
  have kz4 : Keeps s₀ z4 := by
    unfold z4; apply State.fresh_keeps; exact h
  clear_value z4; revert z4; refine id ?_; intro z4 kz4; apply NextKeeps.next; exact kz4.same (by unfold State.view; rfl)
theorem execPcieLinkUp_keeps {s₀ : State} {s : State} (h : Keeps s₀ s) : NextKeeps s₀ (execPcieLinkUp s) := by
  unfold execPcieLinkUp; extract_lets +onlyGivenNames z4
  have kz4 : Keeps s₀ z4 := by
    unfold z4; apply State.fresh_keeps; exact h
  clear_value z4; revert z4; refine id ?_; intro z4 kz4; apply NextKeeps.next; split
  · apply State.refresh_keeps; exact kz4.same (by unfold State.view; rfl)
  · exact kz4
theorem execPcieLinkDown_keeps {s₀ : State} {s : State} (h : Keeps s₀ s) : NextKeeps s₀ (execPcieLinkDown s) := by
  unfold execPcieLinkDown; extract_lets +onlyGivenNames z4
  have kz4 : Keeps s₀ z4 := by
    unfold z4; apply State.fresh_keeps; exact h
  clear_value z4; revert z4; refine id ?_; intro z4 kz4; apply NextKeeps.next; apply State.refresh_keeps
  exact kz4.same (by unfold State.view; rfl)
theorem execColdBootCount_keeps {s₀ : State} (readable programs : Bool) {s : State} (h : Keeps s₀ s) : NextKeeps s₀ (execColdBootCount readable programs s) := by
  unfold execColdBootCount; extract_lets +onlyGivenNames t
  have kt : Keeps s₀ t := State.e0Start_keeps (State.fresh_keeps h)
  clear_value t; revert t; refine id ?_; intro t kt; apply NextKeeps.next; split
  · exact kt
  split
  · apply State.set_keeps; exact kt.flash (fun w => journalNext_wf _ w) rfl
  · apply State.set_keeps; exact kt.same (by unfold State.view; rfl)
theorem State.setFlash_keeps {s₀ s : State} {m : List Host.Cell} (hm : Flash.wf s.boot.flash → Flash.wf m) (h : Keeps s₀ s) : Keeps s₀ (s.setFlash m) := by
  unfold State.setFlash; exact h.flash hm (by unfold State.view; rfl)
theorem primaryFlash_wf (m : List Host.Cell) (c : Nat) (b : List Byte) (primary trial : Nat) (w : Flash.wf m) : Flash.wf (primaryFlash m c b primary trial) := by
  unfold primaryFlash; exact Flash.writeAll_wf _ _ _ (Flash.erase_wf _ _ _ w)
theorem stagedFlash_wf (m : List Host.Cell) (kind slot : Nat) (erase : Bool) (offset : Nat) (data : List Byte) (w : Flash.wf m) : Flash.wf (stagedFlash m kind slot erase offset data) := by
  unfold stagedFlash; apply Flash.program_wf; split
  · exact Flash.erase_wf _ _ _ w
  · exact w
theorem State.setPrimary_keeps {s₀ : State} {s : State} (primary trial : Nat) (h : Keeps s₀ s) : Keeps s₀ (State.setPrimary s primary trial) := by
  unfold State.setPrimary; split
  · exact h
  · rename_i c b hc
    generalize hm : primaryFlash s.boot.flash c b primary trial = m
    extract_lets +onlyGivenNames z
    have kz : Keeps s₀ z := by
      unfold z; refine State.set_keeps _ _ ?_; refine State.setFlash_keeps (fun w => ?_) h; rw [← hm]
      exact primaryFlash_wf _ _ _ _ _ w
    clear_value z; revert z; refine id ?_; intro z kz; split
    · exact kz.same (by unfold State.view; rfl)
    · exact kz
theorem State.holdBoot_keeps {s₀ : State} {s : State} (mode : ℕ) (h : Keeps s₀ s) : Keeps s₀ (State.holdBoot s mode) := by
  unfold State.holdBoot; extract_lets +onlyGivenNames z5; extract_lets +onlyGivenNames z6
  have kz6 : Keeps s₀ z6 := by
    unfold z6; exact h.same (by unfold State.view; rfl)
  clear_value z6; revert z6; refine id ?_; intro z6 kz6; extract_lets +onlyGivenNames z8
  have kz8 : Keeps s₀ z8 := by
    unfold z8; apply State.assignLeases_keeps; apply State.set_keeps; apply State.set_keeps; apply State.set_keeps; exact kz6
  clear_value z8; revert z8; refine id ?_; intro z8 kz8; apply State.refresh_keeps; apply State.raiseSb_keeps; exact kz8
theorem execBootHeaderRead_keeps {s₀ : State} {s : State} (h : Keeps s₀ s) : NextKeeps s₀ (execBootHeaderRead s) := by
  unfold execBootHeaderRead; extract_lets +onlyGivenNames z4
  have kz4 : Keeps s₀ z4 := by
    unfold z4; apply State.e0Start_keeps; apply State.fresh_keeps; exact h
  clear_value z4; revert z4; refine id ?_; intro z4 kz4; apply NextKeeps.next; split
  · exact kz4
  · split
    · apply State.holdBoot_keeps; exact kz4
    · split
      · apply State.holdBoot_keeps; exact kz4
      · extract_lets +onlyGivenNames z13; extract_lets +onlyGivenNames z14
        have kz14 : Keeps s₀ z14 := by
          unfold z14; exact kz4.same (by unfold State.view; rfl)
        clear_value z14; revert z14; refine id ?_; intro z14 kz14; extract_lets +onlyGivenNames z16; apply State.set_keeps
        apply State.set_keeps; exact kz14
theorem State.bootPower_keeps {s₀ : State} {s : State} (h : Keeps s₀ s) : Keeps s₀ (State.bootPower s) := by
  unfold State.bootPower; extract_lets +onlyGivenNames z4; apply State.forEach_keeps
  · intro a5 a6 t7 h8; apply State.setPd_keeps; exact h8
  · exact h
theorem State.loadConfig_keeps {s₀ : State} {s : State} (cfg : List (ℕ × Word)) (ids : ℕ × ℕ × ℕ) (found : Bool) (h : Keeps s₀ s) : Keeps s₀ (State.loadConfig s cfg ids found) := by
  unfold State.loadConfig; extract_lets +onlyGivenNames z7; extract_lets +onlyGivenNames z8; extract_lets +onlyGivenNames z9
  have kz9 : Keeps s₀ z9 := by
    unfold z9; exact h.same (by unfold State.view; rfl)
  clear_value z9; revert z9; refine id ?_; intro z9 kz9; split
  · exact kz9
  · extract_lets +onlyGivenNames z12; extract_lets +onlyGivenNames z13
    have kz13 : Keeps s₀ z13 := by
      unfold z13; split
      · split
        · apply State.loadFw_keeps; exact kz9
        · apply State.set_keeps; exact kz9
      · exact kz9
    clear_value z13; revert z13; refine id ?_; intro z13 kz13; extract_lets +onlyGivenNames z15
    extract_lets +onlyGivenNames z16
    have kz16 : Keeps s₀ z16 := by
      unfold z16; split
      · apply State.loadFw_keeps; exact kz13.same (by unfold State.view; rfl)
      · exact kz13
    clear_value z16; revert z16; refine id ?_; intro z16 kz16; extract_lets +onlyGivenNames z18
    have kz18 : Keeps s₀ z18 := by
      unfold z18; apply State.setf_keeps; apply State.setf_keeps; exact kz16
    clear_value z18; revert z18; refine id ?_; intro z18 kz18; extract_lets +onlyGivenNames z20
    extract_lets +onlyGivenNames z21
    have kz21 : Keeps s₀ z21 := by
      unfold z21; apply State.assignLeases_keeps; exact kz18
    clear_value z21; revert z21; refine id ?_; intro z21 kz21; split
    · exact kz21
    · split
      · apply State.enterPair_keeps; exact kz21
      · apply State.enterAlone_keeps; exact kz21
theorem State.selectImages_keeps {s₀ : State} {s : State} (cfg : List (ℕ × Word)) (ids : ℕ × ℕ × ℕ) (copy : ℕ) (h : Keeps s₀ s) : Keeps s₀ (State.selectImages s cfg ids copy) := by
  unfold State.selectImages; extract_lets +onlyGivenNames z7; extract_lets +onlyGivenNames z8; extract_lets +onlyGivenNames z9
  extract_lets +onlyGivenNames z10; extract_lets +onlyGivenNames z11; extract_lets +onlyGivenNames z12
  extract_lets +onlyGivenNames z13; extract_lets +onlyGivenNames z14; extract_lets +onlyGivenNames z15
  extract_lets +onlyGivenNames z16
  have kz16 : Keeps s₀ z16 := by
    unfold z16; apply State.holdStandby_keeps; apply State.set_keeps; apply State.set_keeps; exact h
  clear_value z16; revert z16; refine id ?_; intro z16 kz16; extract_lets +onlyGivenNames z18; extract_lets +onlyGivenNames z19
  have kz19 : Keeps s₀ z19 := by
    unfold z19; exact kz16.same (by unfold State.view; rfl)
  clear_value z19; revert z19; refine id ?_; intro z19 kz19; extract_lets +onlyGivenNames z21; extract_lets +onlyGivenNames z22
  have kz22 : Keeps s₀ z22 := by
    unfold z22; unfold z21; apply State.forEach_keeps
    · intro a23 a24 t25 h26; apply State.setEngine_keeps; exact h26
    · apply State.forEach_keeps
      · intro a23 a24 t25 h26; apply State.setEngine_keeps; exact h26
      · exact kz19
  clear_value z22; revert z22; refine id ?_; intro z22 kz22; extract_lets +onlyGivenNames z24; extract_lets +onlyGivenNames z25
  have kz25 : Keeps s₀ z25 := by
    unfold z25; split
    · exact kz22.same (by unfold State.view; rfl)
    · exact kz22
  clear_value z25; revert z25; refine id ?_; intro z25 kz25; extract_lets +onlyGivenNames z27; extract_lets +onlyGivenNames z28
  have kz28 : Keeps s₀ z28 := by
    unfold z28; apply State.bootPower_keeps; apply State.loadConfig_keeps; exact kz25
  clear_value z28; revert z28; refine id ?_; intro z28 kz28; extract_lets +onlyGivenNames z30; extract_lets +onlyGivenNames z31
  have kz31 : Keeps s₀ z31 := by
    unfold z31; split
    · exact kz28.same (by unfold State.view; rfl)
    · exact kz28
  clear_value z31; revert z31; refine id ?_; intro z31 kz31; apply State.refresh_keeps; apply State.raise_keeps; exact kz31
theorem execImageSelection_keeps {s₀ : State} (cfg : ConfigBody) {s : State} (h : Keeps s₀ s) : NextKeeps s₀ (execImageSelection cfg s) := by
  unfold execImageSelection; extract_lets +onlyGivenNames z5
  have kz5 : Keeps s₀ z5 := by
    unfold z5; apply State.fresh_keeps; exact h
  clear_value z5; revert z5; refine id ?_; intro z5 kz5; apply NextKeeps.next; split
  · exact kz5
  · split
    · exact kz5
    · apply State.selectImages_keeps; exact kz5
theorem State.loadBody_keeps {s₀ : State} {s : State} (kind : ℕ) (slot : ℕ) (h : Keeps s₀ s) : Keeps s₀ (State.loadBody s kind slot) := by
  unfold State.loadBody; extract_lets +onlyGivenNames z6; extract_lets +onlyGivenNames z7
  exact h.same (by unfold State.view; rfl)
theorem State.startImage_keeps {s₀ : State} {s : State} (kind : ℕ) (slot : ℕ) (h : Keeps s₀ s) : Keeps s₀ (State.startImage s kind slot) := by
  unfold State.startImage; extract_lets +onlyGivenNames z6; extract_lets +onlyGivenNames z7
  have kz7 : Keeps s₀ z7 := by
    unfold z7; apply State.set_keeps; apply State.loadBody_keeps; exact h
  clear_value z7; revert z7; refine id ?_; intro z7 kz7; extract_lets +onlyGivenNames z9; extract_lets +onlyGivenNames z10
  have kz10 : Keeps s₀ z10 := by
    unfold z10; exact kz7.same (by unfold State.view; rfl)
  clear_value z10; revert z10; refine id ?_; intro z10 kz10; extract_lets +onlyGivenNames z12
  have kz12 : Keeps s₀ z12 := by
    unfold z12; apply State.forEach_keeps
    · intro a13 a14 t15 h16; apply State.setEngine_keeps; exact h16
    · exact kz10
  clear_value z12; revert z12; refine id ?_; intro z12 kz12; extract_lets +onlyGivenNames z14
  have kz14 : Keeps s₀ z14 := by
    unfold z14; apply State.runEngines_keeps; exact kz12
  clear_value z14; revert z14; refine id ?_; intro z14 kz14; extract_lets +onlyGivenNames z16; extract_lets +onlyGivenNames z17
  have kz17 : Keeps s₀ z17 := by
    unfold z17; split
    · exact kz14.same (by unfold State.view; rfl)
    · exact kz14
  clear_value z17; revert z17; refine id ?_; intro z17 kz17; extract_lets +onlyGivenNames z19
  have kz19 : Keeps s₀ z19 := by
    unfold z19; split
    · exact kz17
    · apply State.set_keeps; exact kz17
  clear_value z19; revert z19; refine id ?_; intro z19 kz19; apply State.refresh_keeps; exact kz19
theorem State.stopImage_keeps {s₀ : State} {s : State} (kind : ℕ) (h : Keeps s₀ s) : Keeps s₀ (State.stopImage s kind) := by
  unfold State.stopImage; apply State.refresh_keeps; apply State.set_keeps; apply State.stopEngines_keeps; exact h
theorem execImageLoadDone_keeps {s₀ : State} (kind : ℕ) {s : State} (h : Keeps s₀ s) : NextKeeps s₀ (execImageLoadDone kind s) := by
  unfold execImageLoadDone; extract_lets +onlyGivenNames z5
  have kz5 : Keeps s₀ z5 := by
    unfold z5; apply State.fresh_keeps; exact h
  clear_value z5; revert z5; refine id ?_; intro z5 kz5; apply NextKeeps.next; split
  · split
    · split
      · apply State.startImage_keeps; exact kz5
      · exact kz5
    · exact kz5
  · exact kz5
theorem State.startCalendar_keeps {s₀ : State} (p : List Byte) {s : State} (h : Keeps s₀ s) : Keeps s₀ (State.startCalendar p s) := by
  unfold State.startCalendar; extract_lets +onlyGivenNames z5; extract_lets +onlyGivenNames z6; split
  · apply State.commitGate_keeps; apply State.stageCalendar_keeps; exact h
  · apply State.setGate_keeps; exact h
theorem execHardwareTablesLoaded_keeps {s₀ : State} (entries : List (ℕ × ℕ × ℕ × List Byte)) (calendars : List (List Byte)) {s : State} (h : Keeps s₀ s) : NextKeeps s₀ (execHardwareTablesLoaded entries calendars s) := by
  unfold execHardwareTablesLoaded; extract_lets +onlyGivenNames z6
  have kz6 : Keeps s₀ z6 := by
    unfold z6; apply State.fresh_keeps; exact h
  clear_value z6; revert z6; refine id ?_; intro z6 kz6; apply NextKeeps.next; split
  · extract_lets +onlyGivenNames z9; extract_lets +onlyGivenNames z10; extract_lets +onlyGivenNames z11
    extract_lets +onlyGivenNames z12; extract_lets +onlyGivenNames z13
    have kz13 : Keeps s₀ z13 := by
      unfold z13; exact kz6.same (by unfold State.view; rfl)
    clear_value z13; revert z13; refine id ?_; intro z13 kz13; extract_lets +onlyGivenNames z15
    have kz15 : Keeps s₀ z15 := by
      unfold z15; apply State.newEpoch_keeps; exact kz13
    clear_value z15; revert z15; refine id ?_; intro z15 kz15; extract_lets +onlyGivenNames z17
    have kz17 : Keeps s₀ z17 := by
      unfold z17; apply State.forEach_keeps
      · intro a18 a19 t20 h21; apply State.startCalendar_keeps; exact h21
      · exact kz15
    clear_value z17; revert z17; refine id ?_; intro z17 kz17; apply State.refresh_keeps; apply State.portsChanged_keeps
    exact kz17
  · exact kz6
theorem execEngineWatchdogExpiry_keeps {s₀ : State} (e : ℕ) {s : State} (h : Keeps s₀ s) : NextKeeps s₀ (execEngineWatchdogExpiry e s) := by
  unfold execEngineWatchdogExpiry; extract_lets +onlyGivenNames z5
  have kz5 : Keeps s₀ z5 := by
    unfold z5; apply State.fresh_keeps; exact h
  clear_value z5; revert z5; refine id ?_; intro z5 kz5; apply NextKeeps.atUnit
  · exact kz5
  · split
    · apply State.refresh_keeps; apply State.answerQueued_keeps; apply State.mark_keeps; apply State.setEngine_keeps
      apply State.stopEngines_keeps; exact kz5
    · exact kz5
theorem execEngineRestart_keeps {s₀ : State} (e : ℕ) {s : State} (h : Keeps s₀ s) : NextKeeps s₀ (execEngineRestart e s) := by
  unfold execEngineRestart; extract_lets +onlyGivenNames z5
  have kz5 : Keeps s₀ z5 := by
    unfold z5; apply State.fresh_keeps; exact h
  clear_value z5; revert z5; refine id ?_; intro z5 kz5; apply NextKeeps.atUnit
  · exact kz5
  · extract_lets +onlyGivenNames z7; split
    · apply State.refresh_keeps; apply State.raise_keeps; apply State.runEngines_keeps; exact kz5
    · exact kz5
theorem fwStageRun_keeps {s₀ : State} (c : Ctx) {s : State} (h : Keeps s₀ s) : Keeps s₀ (fwStageRun c s).state := by
  unfold fwStageRun; split
  · apply Keeps.ofError; apply State.draw_keeps; exact h
  · apply Keeps.ofLater; exact h
theorem fwStageCmd_keeps : CmdKeeps (fwStageCmd) := by
  rw [fwStageCmd]; refine ⟨fun s₀ x s h => ?_, fun s₀ x s e h => ?_, fun s₀ x s h => ?_⟩
  · rw [Cmd.run_mk]; apply fwStageRun_keeps; exact h
  · rw [Cmd.refused_mk]; exact h
  · rw [Cmd.after_mk]; exact h
theorem execFwStage_keeps {s₀ : State} (q : Request) {s : State} (h : Keeps s₀ s) : NextKeeps s₀ (execFwStage q s) := by
  unfold execFwStage; apply NextKeeps.next; apply runCmd_keeps
  · apply fwStageCmd_keeps
  · exact h
theorem State.staged_keeps {s₀ : State} {s : State} (kind : ℕ) (slot : ℕ) (erase : Bool) (offset : ℕ) (data : List Byte) (h : Keeps s₀ s) : Keeps s₀ (State.staged s kind slot erase offset data) := by
  unfold State.staged; extract_lets +onlyGivenNames z9
  have kz9 : Keeps s₀ z9 := by
    unfold z9; apply State.setFlash_keeps
    · intro a10; refine stagedFlash_wf _ _ _ _ _ _ (by assumption)
    · exact h
  clear_value z9; revert z9; refine id ?_; intro z9 kz9; split
  · exact kz9.same (by unfold State.view; rfl)
  · exact kz9
theorem State.passSlot_keeps {s₀ : State} {s : State} (kind : ℕ) (slot : ℕ) (h : Keeps s₀ s) : Keeps s₀ (State.passSlot s kind slot) := by
  unfold State.passSlot; split
  · exact h
  · exact h.same (by unfold State.view; rfl)
theorem execFlashOperationDone_keeps {s₀ : State} (ok : Bool) {s : State} (h : Keeps s₀ s) : NextKeeps s₀ (execFlashOperationDone ok s) := by
  unfold execFlashOperationDone; extract_lets +onlyGivenNames z5
  have kz5 : Keeps s₀ z5 := by
    unfold z5; apply State.fresh_keeps; exact h
  clear_value z5; revert z5; refine id ?_; intro z5 kz5; apply NextKeeps.next; split
  · exact kz5
  · split
    · split
      · exact kz5
      · split
        · apply State.deviceFault_keeps; apply State.failDeferred_keeps; exact kz5
        · extract_lets +onlyGivenNames z24
          have kz24 : Keeps s₀ z24 := by
            unfold z24; apply State.staged_keeps; exact kz5
          clear_value z24; revert z24; refine id ?_; intro z24 kz24; extract_lets +onlyGivenNames z26
          extract_lets +onlyGivenNames z27
          have kz27 : Keeps s₀ z27 := by
            unfold z27; split
            · apply State.passSlot_keeps; exact kz24
            · exact kz24
          clear_value z27; revert z27; refine id ?_; intro z27 kz27; apply State.answerDeferred_keeps; exact kz27
    · exact kz5
theorem State.endTrial_keeps {s₀ : State} {s : State} (kind : ℕ) (h : Keeps s₀ s) : Keeps s₀ (State.endTrial s kind) := by
  unfold State.endTrial; exact h.same (by unfold State.view; rfl)
theorem fwActivateRun_keeps {s₀ : State} (c : Ctx) {s : State} (h : Keeps s₀ s) : Keeps s₀ (fwActivateRun c s).state := by
  unfold fwActivateRun; extract_lets +onlyGivenNames z5; extract_lets +onlyGivenNames z6; extract_lets +onlyGivenNames z7
  have kz7 : Keeps s₀ z7 := by
    unfold z7; apply State.setPrimary_keeps; exact h
  clear_value z7; revert z7; refine id ?_; intro z7 kz7; extract_lets +onlyGivenNames z9
  have kz9 : Keeps s₀ z9 := by
    unfold z9; apply State.endTrial_keeps; exact kz7
  clear_value z9; revert z9; refine id ?_; intro z9 kz9; split
  · apply Keeps.ofLater; apply State.stopImage_keeps; exact kz9
  · apply Keeps.ofOk; exact kz9
theorem fwActivateCmd_keeps : CmdKeeps (fwActivateCmd) := by
  rw [fwActivateCmd]; refine ⟨fun s₀ x s h => ?_, fun s₀ x s e h => ?_, fun s₀ x s h => ?_⟩
  · rw [Cmd.run_mk]; apply fwActivateRun_keeps; exact h
  · rw [Cmd.refused_mk]; exact h
  · rw [Cmd.after_mk]; exact h
theorem execFwActivate_keeps {s₀ : State} (q : Request) {s : State} (h : Keeps s₀ s) : NextKeeps s₀ (execFwActivate q s) := by
  unfold execFwActivate; apply NextKeeps.next; apply runCmd_keeps
  · apply fwActivateCmd_keeps
  · exact h
theorem fwConfirmRun_keeps {s₀ : State} (c : Ctx) {s : State} (h : Keeps s₀ s) : Keeps s₀ (fwConfirmRun c s).state := by
  unfold fwConfirmRun; extract_lets +onlyGivenNames z5; extract_lets +onlyGivenNames z6
  have kz6 : Keeps s₀ z6 := by
    unfold z6; apply State.setPrimary_keeps; exact h
  clear_value z6; revert z6; refine id ?_; intro z6 kz6; apply Keeps.ofOk; apply State.endTrial_keeps; exact kz6
theorem fwConfirmCmd_keeps : CmdKeeps (fwConfirmCmd) := by
  rw [fwConfirmCmd]; refine ⟨fun s₀ x s h => ?_, fun s₀ x s e h => ?_, fun s₀ x s h => ?_⟩
  · rw [Cmd.run_mk]; apply fwConfirmRun_keeps; exact h
  · rw [Cmd.refused_mk]; exact h
  · rw [Cmd.after_mk]; exact h
theorem execFwActivateConfirm_keeps {s₀ : State} (q : Request) {s : State} (h : Keeps s₀ s) : NextKeeps s₀ (execFwActivateConfirm q s) := by
  unfold execFwActivateConfirm; apply NextKeeps.next; apply runCmd_keeps
  · apply fwConfirmCmd_keeps
  · exact h
theorem execImageActivationDone_keeps {s₀ : State} {s : State} (h : Keeps s₀ s) : NextKeeps s₀ (execImageActivationDone s) := by
  unfold execImageActivationDone; extract_lets +onlyGivenNames z4
  have kz4 : Keeps s₀ z4 := by
    unfold z4; apply State.fresh_keeps; exact h
  clear_value z4; revert z4; refine id ?_; intro z4 kz4; apply NextKeeps.next; split
  · exact kz4
  · split
    · split
      · apply State.answerDeferred_keeps; apply State.startImage_keeps; exact kz4
      · exact kz4
    · exact kz4
theorem execTrialReverted_keeps {s₀ : State} (kind : ℕ) {s : State} (h : Keeps s₀ s) : NextKeeps s₀ (execTrialReverted kind s) := by
  unfold execTrialReverted; extract_lets +onlyGivenNames z5
  have kz5 : Keeps s₀ z5 := by
    unfold z5; apply State.fresh_keeps; exact h
  clear_value z5; revert z5; refine id ?_; intro z5 kz5; apply NextKeeps.next; split
  · exact kz5
  · extract_lets +onlyGivenNames z12; split
    · extract_lets +onlyGivenNames z14; extract_lets +onlyGivenNames z15
      have kz15 : Keeps s₀ z15 := by
        unfold z15; apply State.setPrimary_keeps; exact kz5
      clear_value z15; revert z15; refine id ?_; intro z15 kz15; extract_lets +onlyGivenNames z17
      have kz17 : Keeps s₀ z17 := by
        unfold z17; apply State.endTrial_keeps; exact kz15
      clear_value z17; revert z17; refine id ?_; intro z17 kz17; extract_lets +onlyGivenNames z19
      have kz19 : Keeps s₀ z19 := by
        unfold z19; split
        · exact kz17
        · apply State.startImage_keeps; apply State.stopImage_keeps; exact kz17
      clear_value z19; revert z19; refine id ?_; intro z19 kz19; apply State.raise_keeps; exact kz19
    · exact kz5
theorem execLedgerAnchor_keeps {s₀ : State} (r : ℕ) {s : State} (h : Keeps s₀ s) : NextKeeps s₀ (execLedgerAnchor r s) := by
  unfold execLedgerAnchor; extract_lets +onlyGivenNames z5
  have kz5 : Keeps s₀ z5 := by
    unfold z5; apply State.fresh_keeps; exact h
  clear_value z5; revert z5; refine id ?_; intro z5 kz5; extract_lets +onlyGivenNames z7; apply NextKeeps.atUnit
  · exact kz5
  · split
    · apply State.forEach_keeps
      · intro a9 a10 t11 h12; apply State.anchor_keeps; exact h12
      · exact kz5
    · exact kz5
theorem execRingGap_keeps {s₀ : State} (r : ℕ) {s : State} (h : Keeps s₀ s) : NextKeeps s₀ (execRingGap r s) := by
  unfold execRingGap; extract_lets +onlyGivenNames z5
  have kz5 : Keeps s₀ z5 := by
    unfold z5; apply State.fresh_keeps; exact h
  clear_value z5; revert z5; refine id ?_; intro z5 kz5; apply NextKeeps.atUnit
  · exact kz5
  · apply State.ringResume_keeps; exact kz5
theorem execFifoGap_keeps {s₀ : State} (p : ℕ) {s : State} (h : Keeps s₀ s) : NextKeeps s₀ (execFifoGap p s) := by
  unfold execFifoGap; extract_lets +onlyGivenNames z5
  have kz5 : Keeps s₀ z5 := by
    unfold z5; apply State.fresh_keeps; exact h
  clear_value z5; revert z5; refine id ?_; intro z5 kz5; apply NextKeeps.atUnit
  · exact kz5
  · split
    · apply State.fifoGap_keeps; exact kz5
    · exact kz5
theorem State.ledgerDoorbell_keeps {s₀ : State} {s : State} (r : ℕ) (v : ℕ) (h : Keeps s₀ s) : Keeps s₀ (State.ledgerDoorbell s r v) := by
  unfold State.ledgerDoorbell; split
  · apply State.ringError_keeps; apply State.setf_keeps; exact h
  · apply State.setLedger_keeps; exact h
theorem State.qmonLoss_keeps {s₀ : State} {s : State} (n : ℕ) (h : Keeps s₀ s) : Keeps s₀ (State.qmonLoss s n) := by
  unfold State.qmonLoss; split
  · exact h
  · extract_lets +onlyGivenNames z6
    have kz6 : Keeps s₀ z6 := by
      unfold z6; apply State.count_keeps; exact h
    clear_value z6; revert z6; refine id ?_; intro z6 kz6; extract_lets +onlyGivenNames z8; extract_lets +onlyGivenNames z9
    extract_lets +onlyGivenNames z10
    have kz10 : Keeps s₀ z10 := by
      unfold z10; exact kz6.same (by unfold State.view; rfl)
    clear_value z10; revert z10; refine id ?_; intro z10 kz10; split
    · apply State.raise_keeps; exact kz10
    · exact kz10
theorem State.qmonPut_keeps {s₀ : State} {s : State} (r : List Byte) (h : Keeps s₀ s) : Keeps s₀ (State.qmonPut s r) := by
  unfold State.qmonPut; extract_lets +onlyGivenNames z5; extract_lets +onlyGivenNames z6; apply State.setf_keeps
  apply State.emit_keeps; exact h
theorem State.qmonGap_keeps {s₀ : State} {s : State} (h : Keeps s₀ s) : Keeps s₀ (State.qmonGap s) := by
  unfold State.qmonGap; split
  · extract_lets +onlyGivenNames z5; extract_lets +onlyGivenNames z6
    have kz6 : Keeps s₀ z6 := by
      unfold z6; apply State.qmonPut_keeps; apply State.draw_keeps; apply State.draw_keeps; exact h
    clear_value z6; revert z6; refine id ?_; intro z6 kz6; exact kz6.same (by unfold State.view; rfl)
  · exact h
theorem State.qmonRecords_keeps {s₀ : State} {s : State} (t : ℕ) (h : Keeps s₀ s) : Keeps s₀ (State.qmonRecords s t) := by
  unfold State.qmonRecords; extract_lets +onlyGivenNames z5; extract_lets +onlyGivenNames z6
  have kz6 : Keeps s₀ z6 := by
    unfold z6; apply State.qmonGap_keeps; exact h
  clear_value z6; revert z6; refine id ?_; intro z6 kz6; extract_lets +onlyGivenNames z8; extract_lets +onlyGivenNames z9
  extract_lets +onlyGivenNames z10; extract_lets +onlyGivenNames z11
  have kz11 : Keeps s₀ z11 := by
    unfold z11; apply State.forEach_keeps
    · intro a12 a13 t14 h15; apply State.qmonPut_keeps; exact h15
    · exact kz6
  clear_value z11; revert z11; refine id ?_; intro z11 kz11; extract_lets +onlyGivenNames z13
  have kz13 : Keeps s₀ z13 := by
    unfold z13; apply State.forEach_keeps
    · intro a14 a15 t16 h17; apply State.setSide_keeps; exact h17
    · exact kz11
  clear_value z13; revert z13; refine id ?_; intro z13 kz13; extract_lets +onlyGivenNames z15
  have kz15 : Keeps s₀ z15 := by
    unfold z15; apply State.qmonLoss_keeps; exact kz13
  clear_value z15; revert z15; refine id ?_; intro z15 kz15; split
  · exact kz15
  · apply State.signal_keeps; exact kz15
theorem execQmonSample_keeps {s₀ : State} {s : State} (h : Keeps s₀ s) : NextKeeps s₀ (execQmonSample s) := by
  unfold execQmonSample; extract_lets +onlyGivenNames z4
  have kz4 : Keeps s₀ z4 := by
    unfold z4; apply State.fresh_keeps; exact h
  clear_value z4; revert z4; refine id ?_; intro z4 kz4; extract_lets +onlyGivenNames z6; apply NextKeeps.next; split
  · apply State.qmonRecords_keeps; exact kz4.same (by unfold State.view; rfl)
  · exact kz4
theorem State.qmonDoorbell_keeps {s₀ : State} {s : State} (v : ℕ) (h : Keeps s₀ s) : Keeps s₀ (State.qmonDoorbell s v) := by
  unfold State.qmonDoorbell; split
  · apply State.ringError_keeps; apply State.setf_keeps; exact h
  · apply State.qmonGap_keeps; exact h.same (by unfold State.view; rfl)
theorem State.qmonEnable_keeps {s₀ : State} {s : State} (h : Keeps s₀ s) : Keeps s₀ (State.qmonEnable s) := by
  unfold State.qmonEnable; apply State.qmonGap_keeps; extract_lets +onlyGivenNames z4
  have kz4 : Keeps s₀ z4 := by
    unfold z4; apply State.setf_keeps; exact h
  clear_value z4; revert z4; refine id ?_; intro z4 kz4; exact kz4.same (by unfold State.view; rfl)

end Sys2Proof.Machine
end

