-- ==== Sys2Proof/Laws/KeepsWrites.lean ====
section
/-! SUPPORT. What reads and writes of the register map keep: one lemma for each operation, in the words of Laws.Keeps. -/
namespace Sys2Proof.Machine

theorem State.afterRead_keeps {s₀ : State} {s : State} (path : ℕ) (k : ℕ) (h : Keeps s₀ s) : Keeps s₀ (State.afterRead s path k) := by
  unfold State.afterRead; split
  · exact h.same (by unfold State.view; rfl)
  · split
    · extract_lets +onlyGivenNames z8; apply State.set_keeps; exact h
    · split
      · apply State.setf_keeps; exact h
      · split
        · split
          · exact h
          · apply State.set_keeps; exact h
        · exact h
theorem State.readWord_keeps {s₀ : State} {s : State} (path : ℕ) (k : ℕ) (h : Keeps s₀ s) : Keeps s₀ (State.readWord s path k).2 := by
  unfold State.readWord; dsimp -zeta -zetaHave only; apply State.afterRead_keeps; exact h
theorem State.readWords_keeps {s₀ : State} {s : State} (path : Nat) (l : List Nat) (h : Keeps s₀ s) : Keeps s₀ (State.readWords s path l).2 := by
  induction l generalizing s with
  | nil => exact h
  | cons k ks ih =>
    rw [State.readWords]; split
    · exact ih (State.readWord_keeps path k h)
    · exact ih h
theorem paramReadRun_keeps {s₀ : State} (c : Ctx) {s : State} (h : Keeps s₀ s) : Keeps s₀ (paramReadRun c s).state := by
  unfold paramReadRun; extract_lets +onlyGivenNames z5
  have kz5 : Keeps s₀ z5.2 := by
    unfold z5; apply State.readWords_keeps; exact h
  clear_value z5; revert z5; refine id ?_; intro z5 kz5; apply Keeps.ofOk; exact kz5
theorem paramReadCmd_keeps : CmdKeeps (paramReadCmd) := by
  rw [paramReadCmd]; refine ⟨fun s₀ x s h => ?_, fun s₀ x s e h => ?_, fun s₀ x s h => ?_⟩
  · rw [Cmd.run_mk]; apply paramReadRun_keeps; exact h
  · rw [Cmd.refused_mk]; exact h
  · rw [Cmd.after_mk]; exact h
theorem paramReadBlockRun_keeps {s₀ : State} (c : Ctx) {s : State} (h : Keeps s₀ s) : Keeps s₀ (paramReadBlockRun c s).state := by
  unfold paramReadBlockRun; extract_lets +onlyGivenNames z5
  have kz5 : Keeps s₀ z5.2 := by
    unfold z5; apply State.readWords_keeps; exact h
  clear_value z5; revert z5; refine id ?_; intro z5 kz5; apply Keeps.ofOk; exact kz5
theorem paramReadBlockCmd_keeps : CmdKeeps (paramReadBlockCmd) := by
  rw [paramReadBlockCmd]; refine ⟨fun s₀ x s h => ?_, fun s₀ x s e h => ?_, fun s₀ x s h => ?_⟩
  · rw [Cmd.run_mk]; apply paramReadBlockRun_keeps; exact h
  · rw [Cmd.refused_mk]; exact h
  · rw [Cmd.after_mk]; exact h
theorem execParamRead_keeps {s₀ : State} (q : Request) {s : State} (h : Keeps s₀ s) : NextKeeps s₀ (execParamRead q s) := by
  unfold execParamRead; apply NextKeeps.next; apply runCmd_keeps
  · apply paramReadCmd_keeps
  · exact h
theorem execParamReadBlock_keeps {s₀ : State} (q : Request) {s : State} (h : Keeps s₀ s) : NextKeeps s₀ (execParamReadBlock q s) := by
  unfold execParamReadBlock; apply NextKeeps.next; apply runCmd_keeps
  · apply paramReadBlockCmd_keeps
  · exact h
theorem execBar0Read_keeps {s₀ : State} (offset : ℕ) {s : State} (h : Keeps s₀ s) : NextKeeps s₀ (execBar0Read offset s) := by
  unfold execBar0Read; extract_lets +onlyGivenNames z5
  have kz5 : Keeps s₀ z5 := by
    unfold z5; apply State.fresh_keeps; exact h
  clear_value z5; revert z5; refine id ?_; intro z5 kz5; extract_lets +onlyGivenNames z7; split
  · apply NextKeeps.next; exact kz5
  · split
    · apply NextKeeps.next; apply State.emit_keeps; exact kz5
    · split
      · extract_lets +onlyGivenNames z11
        have kz11 : Keeps s₀ z11.2 := by
          unfold z11; apply State.readWord_keeps; exact kz5
        clear_value z11; revert z11; refine id ?_; intro z11 kz11; apply NextKeeps.next; apply State.emit_keeps; exact kz11
      · apply NextKeeps.next; apply State.emit_keeps; exact kz5
theorem State.enableRefused_keeps {s₀ : State} {s : State} (k : ℕ) (v : ℕ) (h : Keeps s₀ s) : Keeps s₀ (State.enableRefused s k v) := by
  unfold State.enableRefused; split
  · exact h
  · apply State.ringError_keeps; split
    · apply State.setf_keeps; exact h
    · exact h
theorem State.doorbellRefused_keeps {s₀ : State} {s : State} (ctrl : ℕ) (ring : ℕ) (h : Keeps s₀ s) : Keeps s₀ (State.doorbellRefused s ctrl ring) := by
  unfold State.doorbellRefused; apply State.ringError_keeps; apply State.setf_keeps; apply State.setf_keeps; exact h
theorem State.commandDoorbell_keeps {s₀ : State} {s : State} (v : ℕ) (h : Keeps s₀ s) : Keeps s₀ (State.commandDoorbell s v) := by
  unfold State.commandDoorbell; split
  · apply State.doorbellRefused_keeps; exact h
  · exact h.same (by unfold State.view; rfl)
theorem State.replyDoorbell_keeps {s₀ : State} {s : State} (v : ℕ) (h : Keeps s₀ s) : Keeps s₀ (State.replyDoorbell s v) := by
  unfold State.replyDoorbell; split
  · apply State.doorbellRefused_keeps; exact h
  · exact h.same (by unfold State.view; rfl)
theorem State.eventDoorbell_keeps {s₀ : State} {s : State} (v : ℕ) (h : Keeps s₀ s) : Keeps s₀ (State.eventDoorbell s v) := by
  unfold State.eventDoorbell; split
  · apply State.doorbellRefused_keeps; exact h
  · apply State.flushHostLost_keeps; exact h.same (by unfold State.view; rfl)
theorem State.p80Doorbell_keeps {s₀ : State} {s : State} (r : ℕ) (v : ℕ) (h : Keeps s₀ s) : Keeps s₀ (State.p80Doorbell s r v) := by
  unfold State.p80Doorbell; extract_lets +onlyGivenNames z6; extract_lets +onlyGivenNames z7; split
  · apply State.doorbellRefused_keeps; exact h
  · exact h.same (by unfold State.view; rfl)
theorem State.commandRingOn_keeps {s₀ : State} {s : State} (h : Keeps s₀ s) : Keeps s₀ (State.commandRingOn s) := by
  unfold State.commandRingOn; apply State.setf_keeps; exact h.same (by unfold State.view; rfl)
theorem State.replyRingOn_keeps {s₀ : State} {s : State} (h : Keeps s₀ s) : Keeps s₀ (State.replyRingOn s) := by
  unfold State.replyRingOn; apply State.setf_keeps; exact h.same (by unfold State.view; rfl)
theorem State.eventRingOn_keeps {s₀ : State} {s : State} (h : Keeps s₀ s) : Keeps s₀ (State.eventRingOn s) := by
  unfold State.eventRingOn; apply State.flushHostLost_keeps; apply State.setf_keeps; exact h.same (by unfold State.view; rfl)
theorem State.p80RingOn_keeps {s₀ : State} {s : State} (r : ℕ) (h : Keeps s₀ s) : Keeps s₀ (State.p80RingOn s r) := by
  unfold State.p80RingOn; extract_lets +onlyGivenNames z5
  have kz5 : Keeps s₀ z5 := by
    unfold z5; apply State.setf_keeps; exact h
  clear_value z5; revert z5; refine id ?_; intro z5 kz5; exact kz5.same (by unfold State.view; rfl)
theorem State.afterCmd_keeps {s₀ : State} {s : State} (k : ℕ) (v : ℕ) (on : Bool) (h : Keeps s₀ s) : Keeps s₀ (State.afterCmd s k v on) := by
  unfold State.afterCmd; extract_lets +onlyGivenNames z7; split
  · apply State.commandDoorbell_keeps; exact h
  · split
    · apply State.replyDoorbell_keeps; exact h
    · split
      · apply State.eventDoorbell_keeps; exact h
      · split
        · apply State.p80Doorbell_keeps; exact h
        · split
          · exact h
          · split
            · apply State.commandRingOn_keeps; exact h
            · split
              · apply State.replyRingOn_keeps; exact h
              · split
                · apply State.eventRingOn_keeps; exact h
                · split
                  · apply State.p80RingOn_keeps; exact h
                  · exact h
theorem State.keyWritten_keeps {s₀ : State} {s : State} (n : ℕ) (h : Keeps s₀ s) : Keeps s₀ (State.keyWritten s n) := by
  unfold State.keyWritten; split
  · apply State.setf_keeps; exact h
  · split
    · apply State.setf_keeps; exact h
    · exact h
theorem State.restartTx_keeps {s₀ : State} {s : State} (l : Lane) (h : Keeps s₀ s) : Keeps s₀ (State.restartTx s l) := by
  unfold State.restartTx; split
  · exact h
  · apply State.txStart_keeps; exact h
theorem State.afterLane_keeps {s₀ : State} {s : State} (l : Lane) (x : ℕ) (v : ℕ) (h : Keeps s₀ s) : Keeps s₀ (State.afterLane s l x v) := by
  unfold State.afterLane; split
  · apply State.txeqWritten_keeps; exact h
  · split
    · apply State.ctleWritten_keeps; exact h
    · split
      · extract_lets +onlyGivenNames z10
        have kz10 : Keeps s₀ z10 := by
          unfold z10; split
          · apply State.restartTx_keeps; exact h
          · exact h
        clear_value z10; revert z10; refine id ?_; intro z10 kz10; split
        · apply State.restartRx_keeps; exact kz10
        · exact kz10
      · split
        · split
          · apply State.marginStart_keeps; exact h
          · exact h
        · exact h
theorem State.afterStack_keeps {s₀ : State} {s : State} (k : ℕ) (old : ℕ) (h : Keeps s₀ s) : Keeps s₀ (State.afterStack s k old) := by
  unfold State.afterStack; split
  · apply State.chEnCleared_keeps; exact h
  · split
    · apply State.retiredCheck_keeps; exact h
    · exact h
theorem State.ptpFollow_keeps {s₀ : State} {s : State} (d : ℕ) (h : Keeps s₀ s) : Keeps s₀ (State.ptpFollow s d) := by
  unfold State.ptpFollow; extract_lets +onlyGivenNames z5; apply State.showSlave_keeps; apply State.forEach_keeps
  · intro a6 a7 t8 h9; split
    · split
      · apply State.setPtpState_keeps; exact h9
      · exact h9
    · apply State.setPtpState_keeps; exact h9
  · exact h
theorem State.afterRef_keeps {s₀ : State} {s : State} (i : ℕ) (x : ℕ) (old : ℕ) (h : Keeps s₀ s) : Keeps s₀ (State.afterRef s i x old) := by
  unfold State.afterRef; split
  · split
    · apply State.refWritten_keeps; exact h
    · exact h
  · split
    · extract_lets +onlyGivenNames z9; extract_lets +onlyGivenNames z10
      have kz10 : Keeps s₀ z10 := by
        unfold z10; split
        · apply State.forEach_keeps
          · intro a12 a13 t14 h15; apply State.restartTx_keeps; exact h15
          · exact h
        · exact h
      clear_value z10; revert z10; refine id ?_; intro z10 kz10; split
      · apply State.setQl_keeps; exact kz10.same (by unfold State.view; rfl)
      · exact kz10
    · exact h
theorem State.afterDpll_keeps {s₀ : State} {s : State} (i : ℕ) (x : ℕ) (v : ℕ) (old : ℕ) (h : Keeps s₀ s) : Keeps s₀ (State.afterDpll s i x v old) := by
  unfold State.afterDpll; split
  · split
    · apply State.clearUser_keeps; exact h
    · exact h
  · split
    · apply State.retuneDpll_keeps; exact h
    · exact h
theorem State.afterOut_keeps {s₀ : State} {s : State} (i : ℕ) (x : ℕ) (old : ℕ) (h : Keeps s₀ s) : Keeps s₀ (State.afterOut s i x old) := by
  unfold State.afterOut; split
  · extract_lets +onlyGivenNames z8
    have kz8 : Keeps s₀ z8 := by
      unfold z8; apply State.showPending_keeps; exact h
    clear_value z8; revert z8; refine id ?_; intro z8 kz8; split
    · apply State.outWant_keeps; exact kz8
    · exact kz8
  · split
    · apply State.showPending_keeps; exact h
    · exact h
theorem State.afterPair_keeps {s₀ : State} {s : State} (k : ℕ) (old : ℕ) (h : Keeps s₀ s) : Keeps s₀ (State.afterPair s k old) := by
  unfold State.afterPair; split
  · exact h
  · split
    · split
      · apply State.enterPair_keeps; exact h
      · apply State.enterAlone_keeps; exact h
    · split
      · apply State.pathB_keeps; exact h
      · exact h
theorem State.resetWritten_keeps {s₀ : State} {s : State} (v : ℕ) (h : Keeps s₀ s) : Keeps s₀ (State.resetWritten s v) := by
  unfold State.resetWritten; split
  · exact h
  · exact h.same (by unfold State.view; rfl)
theorem State.afterWrite_keeps {s₀ : State} {s : State} (k : ℕ) (v : ℕ) (old : ℕ) (h : Keeps s₀ s) : Keeps s₀ (State.afterWrite s k v old) := by
  unfold State.afterWrite; extract_lets +onlyGivenNames z7; extract_lets +onlyGivenNames z8; extract_lets +onlyGivenNames z9
  split
  · split
    · apply State.resetWritten_keeps; exact h
    · exact h
  · apply State.afterCmd_keeps; exact h
  · split
    · apply State.keyWritten_keeps; exact h
    · exact h
  · apply State.afterLane_keeps; exact h
  · apply State.afterLane_keeps; exact h
  · split
    · apply State.linkCtrl_keeps; exact h
    · exact h
  · split
    · apply State.mergeInit_keeps; exact h
    · exact h
  · apply State.pfcCheck_keeps; exact h
  · split
    · apply State.fdbFlush_keeps; exact h
    · exact h
  · split
    · apply State.moveK_keeps; apply State.poolCheck_keeps; exact h
    · exact h
  · apply State.afterStack_keeps; exact h
  · split
    · apply State.shaperWritten_keeps; exact h
    · exact h
  · split
    · apply State.qmonDoorbell_keeps; exact h
    · split
      · apply State.qmonEnable_keeps; exact h
      · exact h
  · split
    · exact h
    · split
      · apply State.ledgerDoorbell_keeps; exact h
      · split
        · apply State.ledgerEnable_keeps; exact h
        · exact h
  · split
    · split
      · apply State.ptpFollow_keeps; exact h
      · exact h
    · split
      · apply State.ptpFollow_keeps; exact h
      · exact h
  · apply State.afterRef_keeps; exact h
  · apply State.afterDpll_keeps; exact h
  · apply State.afterOut_keeps; exact h
  · split
    · apply State.restartDiv_keeps; exact h
    · exact h
  · apply State.afterPair_keeps; exact h
  · split
    · apply State.clearOvf_keeps; exact h
    · exact h
  · split
    · apply State.i2cStart_keeps; exact h
    · exact h
  · exact h
theorem State.writeWord_keeps {s₀ : State} {s : State} (k : ℕ) (v : ℕ) (h : Keeps s₀ s) : Keeps s₀ (State.writeWord s k v) := by
  unfold State.writeWord; extract_lets +onlyGivenNames z6; split
  · split
    · exact h
    · apply State.typeWritten_keeps; exact h
  · apply State.afterWrite_keeps; apply State.set_keeps; exact h
theorem State.bar0Discard_keeps {s₀ : State} {s : State} (offset : ℕ) (e : Err) (h : Keeps s₀ s) : Keeps s₀ (State.bar0Discard s offset e) := by
  unfold State.bar0Discard; split
  · extract_lets +onlyGivenNames z7
    have kz7 : Keeps s₀ z7 := by
      unfold z7; apply State.count_keeps; exact h
    clear_value z7; revert z7; refine id ?_; intro z7 kz7; split
    · apply State.raise_keeps; exact kz7.same (by unfold State.view; rfl)
    · exact kz7
  · extract_lets +onlyGivenNames z7
    have kz7 : Keeps s₀ z7 := by
      unfold z7; apply State.count_keeps; exact h
    clear_value z7; revert z7; refine id ?_; intro z7 kz7; split
    · apply State.raise_keeps; exact kz7.same (by unfold State.view; rfl)
    · exact kz7
theorem State.msixWrite_keeps {s₀ : State} {s : State} (offset : ℕ) (bytes : ℕ) (v : ℕ) (h : Keeps s₀ s) : Keeps s₀ (State.msixWrite s offset bytes v) := by
  unfold State.msixWrite; extract_lets +onlyGivenNames z7; extract_lets +onlyGivenNames z8; extract_lets +onlyGivenNames z9
  split
  · exact h
  · split
    · apply State.set_keeps; exact h
    · extract_lets +onlyGivenNames z12
      have kz12 : Keeps s₀ z12 := by
        unfold z12; apply State.set_keeps; exact h
      clear_value z12; revert z12; refine id ?_; intro z12 kz12; extract_lets +onlyGivenNames z14; split
      · apply State.msix_keeps; apply State.setf_keeps; exact kz12
      · exact kz12
theorem State.bar0Write_keeps {s₀ : State} {s : State} (offset : ℕ) (bytes : ℕ) (v : ℕ) (h : Keeps s₀ s) : Keeps s₀ (State.bar0Write s offset bytes v) := by
  unfold State.bar0Write; split
  · exact h
  · extract_lets +onlyGivenNames z8
    have kz8 : Keeps s₀ z8 := by
      unfold z8; apply State.active_keeps; exact h
    clear_value z8; revert z8; refine id ?_; intro z8 kz8; extract_lets +onlyGivenNames z10; split
    · apply State.msixWrite_keeps; exact kz8
    · split
      · exact kz8
      · split
        · apply State.writeWord_keeps; exact kz8
        · apply State.bar0Discard_keeps; split
          · apply State.enableRefused_keeps; exact kz8
          · exact kz8
theorem State.paramEntry_keeps {s₀ : State} {s : State} (m : Master) (k : ℕ) (v : ℕ) (h : Keeps s₀ s) : Keeps s₀ (State.paramEntry s m k v) := by
  unfold State.paramEntry; split
  · apply State.writeWord_keeps; exact h
  · split
    · apply State.enableRefused_keeps; exact h
    · exact h
theorem State.writeVia_keeps {s₀ : State} {s : State} (path : WritePath) (k : ℕ) (v : ℕ) (h : Keeps s₀ s) : Keeps s₀ (State.writeVia s path k v) := by
  unfold State.writeVia; split
  · apply State.paramEntry_keeps; exact h
  · apply State.bar0Write_keeps; exact h
theorem State.writeEntriesIn_keeps {s₀ : State} {s : State} (m : Master) (es : List ParamEntry) (h : Keeps s₀ s) : Keeps s₀ (State.writeEntriesIn s m es).2 := by
  unfold State.writeEntriesIn; apply Keeps.foldl_snd
  · dsimp -zeta -zetaHave only; exact h
  · intro a6 a7 h8; dsimp -zeta -zetaHave only; apply State.writeWord_keeps; exact h8
theorem paramWriteCmd_keeps : CmdKeeps (paramWriteCmd) := by
  rw [paramWriteCmd]; refine ⟨fun s₀ x s h => ?_, fun s₀ x s e h => ?_, fun s₀ x s h => ?_⟩
  · rw [Cmd.run_mk]; apply Keeps.ofOk; apply State.writeEntriesIn_keeps; exact h
  · rw [Cmd.refused_mk]; split
    · split
      · apply State.enableRefused_keeps; exact h
      · exact h
    · exact h
  · rw [Cmd.after_mk]; exact h
theorem paramRmwRun_keeps {s₀ : State} (c : Ctx) {s : State} (h : Keeps s₀ s) : Keeps s₀ (paramRmwRun c s).state := by
  unfold paramRmwRun; extract_lets +onlyGivenNames z5
  have kz5 : Keeps s₀ z5.2 := by
    unfold z5; apply State.writeEntriesIn_keeps; exact h
  clear_value z5; revert z5; refine id ?_; intro z5 kz5; apply Keeps.ofOk; exact kz5
theorem paramRmwCmd_keeps : CmdKeeps (paramRmwCmd) := by
  rw [paramRmwCmd]; refine ⟨fun s₀ x s h => ?_, fun s₀ x s e h => ?_, fun s₀ x s h => ?_⟩
  · rw [Cmd.run_mk]; apply paramRmwRun_keeps; exact h
  · rw [Cmd.refused_mk]; split
    · split
      · apply State.enableRefused_keeps; exact h
      · exact h
    · exact h
  · rw [Cmd.after_mk]; exact h
theorem execParamWrite_keeps {s₀ : State} (q : Request) {s : State} (h : Keeps s₀ s) : NextKeeps s₀ (execParamWrite q s) := by
  unfold execParamWrite; apply NextKeeps.next; apply runCmd_keeps
  · apply paramWriteCmd_keeps
  · exact h
theorem execParamRmw_keeps {s₀ : State} (q : Request) {s : State} (h : Keeps s₀ s) : NextKeeps s₀ (execParamRmw q s) := by
  unfold execParamRmw; apply NextKeeps.next; apply runCmd_keeps
  · apply paramRmwCmd_keeps
  · exact h
theorem execRegisterWrite_keeps {s₀ : State} (path : WritePath) (addr : ℕ) (value : Word) {s : State} (h : Keeps s₀ s) : NextKeeps s₀ (execRegisterWrite path addr value s) := by
  unfold execRegisterWrite; apply NextKeeps.next; split
  · apply State.paramEntry_keeps; apply State.fresh_keeps; exact h
  · apply State.bar0Write_keeps; apply State.fresh_keeps; exact h
theorem execCmdDbCmd_keeps {s₀ : State} (path : WritePath) (value : Word) {s : State} (h : Keeps s₀ s) : NextKeeps s₀ (execCmdDbCmd path value s) := by
  unfold execCmdDbCmd; apply NextKeeps.next; apply State.writeVia_keeps; apply State.fresh_keeps; exact h
theorem execCmdDbRpl_keeps {s₀ : State} (path : WritePath) (value : Word) {s : State} (h : Keeps s₀ s) : NextKeeps s₀ (execCmdDbRpl path value s) := by
  unfold execCmdDbRpl; apply NextKeeps.next; apply State.writeVia_keeps; apply State.fresh_keeps; exact h
theorem execCmdDbEvt_keeps {s₀ : State} (path : WritePath) (value : Word) {s : State} (h : Keeps s₀ s) : NextKeeps s₀ (execCmdDbEvt path value s) := by
  unfold execCmdDbEvt; apply NextKeeps.next; apply State.writeVia_keeps; apply State.fresh_keeps; exact h
theorem execRingEnable_keeps {s₀ : State} (path : WritePath) (ring : RingId) (value : Word) {s : State} (h : Keeps s₀ s) : NextKeeps s₀ (execRingEnable path ring value s) := by
  unfold execRingEnable; apply NextKeeps.next; split
  · apply State.writeVia_keeps; apply State.fresh_keeps; exact h
  · apply State.fresh_keeps; exact h
theorem execDevResetCold_keeps {s₀ : State} (path : WritePath) {s : State} (h : Keeps s₀ s) : NextKeeps s₀ (execDevResetCold path s) := by
  unfold execDevResetCold; apply NextKeeps.next; apply State.writeVia_keeps; apply State.fresh_keeps; exact h
theorem execDevResetWarm_keeps {s₀ : State} (path : WritePath) {s : State} (h : Keeps s₀ s) : NextKeeps s₀ (execDevResetWarm path s) := by
  unfold execDevResetWarm; apply NextKeeps.next; apply State.writeVia_keeps; apply State.fresh_keeps; exact h
theorem execSecKeyWrite_keeps {s₀ : State} (path : WritePath) (word : ℕ) (value : Word) {s : State} (h : Keeps s₀ s) : NextKeeps s₀ (execSecKeyWrite path word value s) := by
  unfold execSecKeyWrite; apply NextKeeps.atUnit
  · apply State.fresh_keeps; exact h
  · apply State.writeVia_keeps; apply State.fresh_keeps; exact h
theorem execSecLock_keeps {s₀ : State} (path : WritePath) {s : State} (h : Keeps s₀ s) : NextKeeps s₀ (execSecLock path s) := by
  unfold execSecLock; apply NextKeeps.next; apply State.writeVia_keeps; apply State.fresh_keeps; exact h
theorem execHlaneRestartTx_keeps {s₀ : State} (path : WritePath) (lane : Lane) {s : State} (h : Keeps s₀ s) : NextKeeps s₀ (execHlaneRestartTx path lane s) := by
  unfold execHlaneRestartTx; apply NextKeeps.next; split
  · apply State.writeVia_keeps; apply State.fresh_keeps; exact h
  · apply State.fresh_keeps; exact h
theorem execHlaneRestartRx_keeps {s₀ : State} (path : WritePath) (lane : Lane) {s : State} (h : Keeps s₀ s) : NextKeeps s₀ (execHlaneRestartRx path lane s) := by
  unfold execHlaneRestartRx; apply NextKeeps.next; split
  · apply State.writeVia_keeps; apply State.fresh_keeps; exact h
  · apply State.fresh_keeps; exact h
theorem execMarginStart_keeps {s₀ : State} (path : WritePath) (lane : Lane) (target : ℕ) {s : State} (h : Keeps s₀ s) : NextKeeps s₀ (execMarginStart path lane target s) := by
  unfold execMarginStart; apply NextKeeps.next; split
  · apply State.writeVia_keeps; apply State.fresh_keeps; exact h
  · apply State.fresh_keeps; exact h
theorem execMacPortTypeWrite_keeps {s₀ : State} (path : WritePath) (p : ℕ) (value : Word) {s : State} (h : Keeps s₀ s) : NextKeeps s₀ (execMacPortTypeWrite path p value s) := by
  unfold execMacPortTypeWrite; apply NextKeeps.atUnit
  · apply State.fresh_keeps; exact h
  · apply State.writeVia_keeps; apply State.fresh_keeps; exact h
theorem execFdbFlush_keeps {s₀ : State} (path : WritePath) (value : Word) {s : State} (h : Keeps s₀ s) : NextKeeps s₀ (execFdbFlush path value s) := by
  unfold execFdbFlush; apply NextKeeps.next; apply State.writeVia_keeps; apply State.fresh_keeps; exact h
theorem execP80RingDb_keeps {s₀ : State} (path : WritePath) (r : ℕ) (value : Word) {s : State} (h : Keeps s₀ s) : NextKeeps s₀ (execP80RingDb path r value s) := by
  unfold execP80RingDb; apply NextKeeps.atUnit
  · apply State.fresh_keeps; exact h
  · apply State.writeVia_keeps; apply State.fresh_keeps; exact h
theorem execCarrelPoolWrite_keeps {s₀ : State} (path : WritePath) (value : Word) {s : State} (h : Keeps s₀ s) : NextKeeps s₀ (execCarrelPoolWrite path value s) := by
  unfold execCarrelPoolWrite; apply NextKeeps.next; apply State.writeVia_keeps; apply State.fresh_keeps; exact h
theorem execStackRetiredWrite_keeps {s₀ : State} (path : WritePath) (c : ℕ) (entry : ℕ) (value : Word) {s : State} (h : Keeps s₀ s) : NextKeeps s₀ (execStackRetiredWrite path c entry value s) := by
  unfold execStackRetiredWrite; apply NextKeeps.atUnit
  · apply State.fresh_keeps; exact h
  · apply State.writeVia_keeps; apply State.fresh_keeps; exact h
theorem execStackChEnClear_keeps {s₀ : State} (path : WritePath) (value : Word) {s : State} (h : Keeps s₀ s) : NextKeeps s₀ (execStackChEnClear path value s) := by
  unfold execStackChEnClear; apply NextKeeps.next; apply State.writeVia_keeps; apply State.fresh_keeps; exact h
theorem execQmonDb_keeps {s₀ : State} (path : WritePath) (value : Word) {s : State} (h : Keeps s₀ s) : NextKeeps s₀ (execQmonDb path value s) := by
  unfold execQmonDb; apply NextKeeps.next; apply State.writeVia_keeps; apply State.fresh_keeps; exact h
theorem execLedgerRingDb_keeps {s₀ : State} (path : WritePath) (r : ℕ) (value : Word) {s : State} (h : Keeps s₀ s) : NextKeeps s₀ (execLedgerRingDb path r value s) := by
  unfold execLedgerRingDb; apply NextKeeps.atUnit
  · apply State.fresh_keeps; exact h
  · apply State.writeVia_keeps; apply State.fresh_keeps; exact h
theorem execPcsLinkRemeasure_keeps {s₀ : State} (path : WritePath) (p : ℕ) (value : Word) {s : State} (h : Keeps s₀ s) : NextKeeps s₀ (execPcsLinkRemeasure path p value s) := by
  unfold execPcsLinkRemeasure; apply NextKeeps.atUnit
  · apply State.fresh_keeps; exact h
  · apply State.writeVia_keeps; apply State.fresh_keeps; exact h
theorem execPcsLinkAccept_keeps {s₀ : State} (path : WritePath) (p : ℕ) (value : Word) {s : State} (h : Keeps s₀ s) : NextKeeps s₀ (execPcsLinkAccept path p value s) := by
  unfold execPcsLinkAccept; apply NextKeeps.atUnit
  · apply State.fresh_keeps; exact h
  · apply State.writeVia_keeps; apply State.fresh_keeps; exact h
theorem execClearOffset_keeps {s₀ : State} (path : WritePath) (d : ℕ) (value : Word) {s : State} (h : Keeps s₀ s) : NextKeeps s₀ (execClearOffset path d value s) := by
  unfold execClearOffset; apply NextKeeps.atUnit
  · apply State.fresh_keeps; exact h
  · apply State.writeVia_keeps; apply State.fresh_keeps; exact h
theorem execTxPlaneWrite_keeps {s₀ : State} (path : WritePath) (p : ℕ) (value : Word) {s : State} (h : Keeps s₀ s) : NextKeeps s₀ (execTxPlaneWrite path p value s) := by
  unfold execTxPlaneWrite; apply NextKeeps.atUnit
  · apply State.fresh_keeps; exact h
  · apply State.writeVia_keeps; apply State.fresh_keeps; exact h
theorem execPairModeSet_keeps {s₀ : State} (path : WritePath) (value : Word) {s : State} (h : Keeps s₀ s) : NextKeeps s₀ (execPairModeSet path value s) := by
  unfold execPairModeSet; apply NextKeeps.next; apply State.writeVia_keeps; apply State.fresh_keeps; exact h
theorem execPerfOvfClear_keeps {s₀ : State} (path : WritePath) (n : ℕ) (value : Word) {s : State} (h : Keeps s₀ s) : NextKeeps s₀ (execPerfOvfClear path n value s) := by
  unfold execPerfOvfClear; apply NextKeeps.atUnit
  · apply State.fresh_keeps; exact h
  · apply State.writeVia_keeps; apply State.fresh_keeps; exact h
theorem execI2cGo_keeps {s₀ : State} (path : WritePath) (k : ℕ) (value : Word) {s : State} (h : Keeps s₀ s) : NextKeeps s₀ (execI2cGo path k value s) := by
  unfold execI2cGo; apply NextKeeps.atUnit
  · apply State.fresh_keeps; exact h
  · apply State.writeVia_keeps; apply State.fresh_keeps; exact h

end Sys2Proof.Machine
end

