-- ==== Sys2Proof/Laws/KeepsTransport.lean ====
section
/-! SUPPORT. What the transports keep: one lemma for each operation, in the words of Laws.Keeps. -/
namespace Sys2Proof.Machine

theorem cmdOf_keeps (op : Nat) (p : List Byte) (c : Cmd) (h : cmdOf op p = some c) : CmdKeeps c := by
  unfold cmdOf at h; split at h
  · obtain rfl := Option.some.inj h; exact nopCmd_keeps
  · obtain rfl := Option.some.inj h; exact sessionOpenCmd_keeps
  · obtain rfl := Option.some.inj h; exact sessionCloseCmd_keeps
  · obtain rfl := Option.some.inj h; exact identityGetCmd_keeps
  · obtain rfl := Option.some.inj h; exact paramReadCmd_keeps
  · obtain rfl := Option.some.inj h; exact paramWriteCmd_keeps
  · obtain rfl := Option.some.inj h; exact paramRmwCmd_keeps
  · obtain rfl := Option.some.inj h; exact paramReadBlockCmd_keeps
  · obtain rfl := Option.some.inj h; exact tableStageCmd_keeps _
  · obtain rfl := Option.some.inj h; exact tableCommitCmd_keeps
  · obtain rfl := Option.some.inj h; exact epochStatusCmd_keeps
  · obtain rfl := Option.some.inj h; exact timeGetCmd_keeps
  · obtain rfl := Option.some.inj h; exact timeStepCmd_keeps
  · obtain rfl := Option.some.inj h; exact timeAdjFreqCmd_keeps
  · obtain rfl := Option.some.inj h; split
    · exact timeScheduleCancelCmd_keeps
    · exact timeScheduleListCmd_keeps
  · obtain rfl := Option.some.inj h; exact refForceCmd_keeps
  · obtain rfl := Option.some.inj h; exact refReleaseCmd_keeps
  · obtain rfl := Option.some.inj h; exact refClearWtrCmd_keeps
  · obtain rfl := Option.some.inj h; exact outRealignCmd_keeps
  · obtain rfl := Option.some.inj h; exact outOwnCmd_keeps
  · obtain rfl := Option.some.inj h; split
    · exact outForceReleaseCmd_keeps
    · exact outForceCmd_keeps
  · obtain rfl := Option.some.inj h; exact gateLoadCmd_keeps _
  · obtain rfl := Option.some.inj h; exact gateSwitchCmd_keeps
  · obtain rfl := Option.some.inj h; exact pairTakeCmd_keeps
  · obtain rfl := Option.some.inj h; exact pairYieldCmd_keeps
  · obtain rfl := Option.some.inj h; exact pairStatusCmd_keeps
  · obtain rfl := Option.some.inj h; exact pwrSetCmd_keeps
  · obtain rfl := Option.some.inj h; exact pwrPlanCmd_keeps
  · obtain rfl := Option.some.inj h; exact calRunCmd_keeps
  · obtain rfl := Option.some.inj h; exact calStatusCmd_keeps
  · obtain rfl := Option.some.inj h; split
    · exact tdcAbortCmd_keeps
    · exact tdcArmCmd_keeps
  · obtain rfl := Option.some.inj h; exact tdcResultCmd_keeps
  · obtain rfl := Option.some.inj h; exact statSnapshotCmd_keeps
  · obtain rfl := Option.some.inj h; exact fwStageCmd_keeps
  · obtain rfl := Option.some.inj h; split
    · exact fwConfirmCmd_keeps
    · exact fwActivateCmd_keeps
  · obtain rfl := Option.some.inj h; exact watchSetCmd_keeps _
  · obtain rfl := Option.some.inj h; split
    · exact proofAbortCmd_keeps
    · exact proofStartCmd_keeps
  · obtain rfl := Option.some.inj h; exact perfSelectCmd_keeps
  · obtain rfl := Option.some.inj h; exact perfReadCmd_keeps
  · obtain rfl := Option.some.inj h; exact leaseTakeCmd_keeps
  · obtain rfl := Option.some.inj h; exact leaseSeizeCmd_keeps
  · obtain rfl := Option.some.inj h; exact leaseDropCmd_keeps
  · cases h
theorem State.markerWrong_keeps {s₀ : State} {s : State} (q : Request) (b : List Byte) (h : Keeps s₀ s) : Keeps s₀ (State.markerWrong s q b) := by
  unfold State.markerWrong; split
  · extract_lets +onlyGivenNames z10
    have kz10 : Keeps s₀ z10 := by
      unfold z10; apply State.count_keeps; exact h
    clear_value z10; revert z10; refine id ?_; intro z10 kz10; exact kz10.same (by unfold State.view; rfl)
  · apply State.count_keeps; exact h
  · apply State.replyPcie_keeps; apply State.count_keeps; exact h
theorem State.receivePacket_keeps {s₀ : State} {s : State} (q : Request) (b : List Byte) (h : Keeps s₀ s) : Keeps s₀ (State.receivePacket s q b).1 := by
  unfold State.receivePacket; extract_lets +onlyGivenNames z6; extract_lets +onlyGivenNames z7; extract_lets +onlyGivenNames z8
  split
  · dsimp -zeta -zetaHave only; apply State.markerWrong_keeps; exact h
  · split
    · apply State.accept_keeps; exact h
    · split
      · dsimp -zeta -zetaHave only; apply State.fail_keeps; exact h
      · split
        · dsimp -zeta -zetaHave only; apply State.fail_keeps; exact h
        · split
          · dsimp -zeta -zetaHave only; apply State.fail_keeps; exact h
          · apply State.accept_keeps; exact h
theorem State.runAccepted_keeps {s₀ : State} {s : State} (x : ReplyTo × List Byte) (h : Keeps s₀ s) : Keeps s₀ (State.runAccepted s x) :=
  afterAccept_keeps _ (cmdOf_keeps _) _ _ _ h
theorem State.acceptEntries_keeps {s₀ : State} {s : State} (size : Nat) (l : List RingEntry) (h : Keeps s₀ s) : Keeps s₀ (State.acceptEntries s size l).1 := by
  induction l generalizing s with
  | nil => exact h
  | cons e es ih =>
    unfold State.acceptEntries; extract_lets cons t a r; exact ih (State.receivePacket_keeps _ _ (State.setf_keeps _ _ _ _ h))
theorem execCommandFetch_keeps {s₀ : State} (entries : List RingEntry) {s : State} (h : Keeps s₀ s) : NextKeeps s₀ (execCommandFetch entries s) := by
  unfold execCommandFetch; extract_lets +onlyGivenNames z5
  have kz5 : Keeps s₀ z5 := by
    unfold z5; apply State.fresh_keeps; exact h
  clear_value z5; revert z5; refine id ?_; intro z5 kz5; extract_lets +onlyGivenNames z7; extract_lets +onlyGivenNames z8; split
  · extract_lets +onlyGivenNames z10
    have kz10 : Keeps s₀ z10.1 := by
      unfold z10; apply State.acceptEntries_keeps; exact kz5
    clear_value z10; revert z10; refine id ?_; intro z10 kz10; apply NextKeeps.next; apply Keeps.foldl
    · exact kz10
    · intro t12 a13 h14; apply State.runAccepted_keeps; exact h14
  · apply NextKeeps.next; exact kz5
theorem State.inband_keeps {s₀ : State} {s : State} (p : ℕ) (d : List Byte) (h : Keeps s₀ s) : Keeps s₀ (State.inband s p d) := by
  unfold State.inband; extract_lets +onlyGivenNames z6; extract_lets +onlyGivenNames z7; extract_lets +onlyGivenNames z8
  extract_lets +onlyGivenNames z9; split
  · apply State.count_keeps; exact h
  · split
    · extract_lets +onlyGivenNames z12; apply State.fail_keeps; exact h
    · extract_lets +onlyGivenNames z12
      have kz12 : Keeps s₀ z12.1 := by
        unfold z12; apply State.receivePacket_keeps; exact h
      clear_value z12; revert z12; refine id ?_; intro z12 kz12; split
      · exact kz12
      · apply State.runAccepted_keeps; exact kz12
theorem execInbandControlFrame_keeps {s₀ : State} (port : ℕ) (frame : List Byte) {s : State} (h : Keeps s₀ s) : NextKeeps s₀ (execInbandControlFrame port frame s) := by
  unfold execInbandControlFrame; extract_lets +onlyGivenNames z6
  have kz6 : Keeps s₀ z6 := by
    unfold z6; apply State.fresh_keeps; exact h
  clear_value z6; revert z6; refine id ?_; intro z6 kz6; apply NextKeeps.atUnit
  · exact kz6
  · apply State.arrive_keeps
    · intro a8 t9 h10; apply State.inband_keeps; exact h10
    · exact kz6
theorem State.spiBytes_keeps {s₀ : State} {s : State} (n : ℕ) (h : Keeps s₀ s) : Keeps s₀ (State.spiBytes s n) := by
  unfold State.spiBytes; exact h.same (by unfold State.view; rfl)
theorem State.sbCheck_keeps {s₀ : State} (n : Nat) {s : State} (h : Keeps s₀ s) : Keeps s₀ (State.sbCheck n s) := by
  induction n generalizing s with
  | zero => exact h
  | succ n ih =>
    unfold State.sbCheck; split
    · exact h
    split
    · extract_lets r a
      have ka : Keeps s₀ a.1 := State.receivePacket_keeps _ _ (h.same (by unfold State.view; rfl))
      exact ih (ka.same (by unfold State.view; rfl))
    · exact h
theorem execReqWrite_keeps {s₀ : State} (packet : List Byte) {s : State} (h : Keeps s₀ s) : NextKeeps s₀ (execReqWrite packet s) := by
  unfold execReqWrite; extract_lets +onlyGivenNames z5
  have kz5 : Keeps s₀ z5 := by
    unfold z5; apply State.spiBytes_keeps; apply State.fresh_keeps; exact h
  clear_value z5; revert z5; refine id ?_; intro z5 kz5; extract_lets +onlyGivenNames z7; apply NextKeeps.next; split
  · apply State.markerWrong_keeps; exact kz5
  · split
    · extract_lets +onlyGivenNames z10; apply State.fail_keeps; exact kz5
    · apply State.sbCheck_keeps; exact kz5.same (by unfold State.view; rfl)
theorem execSidebandCommandStart_keeps {s₀ : State} {s : State} (h : Keeps s₀ s) : NextKeeps s₀ (execSidebandCommandStart s) := by
  unfold execSidebandCommandStart; extract_lets +onlyGivenNames z4
  have kz4 : Keeps s₀ z4 := by
    unfold z4; apply State.sbCheck_keeps; apply State.fresh_keeps; exact h
  clear_value z4; revert z4; refine id ?_; intro z4 kz4; split
  · apply NextKeeps.next; exact kz4
  · split
    · apply NextKeeps.next; apply State.runAccepted_keeps; exact kz4.same (by unfold State.view; rfl)
    · apply NextKeeps.next; exact kz4
theorem execStatusRead_keeps {s₀ : State} {s : State} (h : Keeps s₀ s) : NextKeeps s₀ (execStatusRead s) := by
  unfold execStatusRead; extract_lets +onlyGivenNames z4
  have kz4 : Keeps s₀ z4 := by
    unfold z4; apply State.spiBytes_keeps; apply State.fresh_keeps; exact h
  clear_value z4; revert z4; refine id ?_; intro z4 kz4; extract_lets +onlyGivenNames z6
  have kz6 : Keeps s₀ z6 := by
    unfold z6; apply State.emit_keeps; exact kz4
  clear_value z6; revert z6; refine id ?_; intro z6 kz6; apply NextKeeps.next; exact kz6.same (by unfold State.view; rfl)
theorem State.attnAfter_keeps {s₀ : State} {s : State} (h : Keeps s₀ s) : Keeps s₀ (State.attnAfter s) := by
  unfold State.attnAfter; split
  · exact h
  · apply State.emit_keeps; exact h
theorem execReplyRead_keeps {s₀ : State} (clocked : ℕ) {s : State} (h : Keeps s₀ s) : NextKeeps s₀ (execReplyRead clocked s) := by
  unfold execReplyRead; extract_lets +onlyGivenNames z5
  have kz5 : Keeps s₀ z5 := by
    unfold z5; apply State.spiBytes_keeps; apply State.fresh_keeps; exact h
  clear_value z5; revert z5; refine id ?_; intro z5 kz5; split
  · apply NextKeeps.next; apply State.emit_keeps; exact kz5
  · extract_lets +onlyGivenNames z13
    have kz13 : Keeps s₀ z13 := by
      unfold z13; apply State.emit_keeps; exact kz5
    clear_value z13; revert z13; refine id ?_; intro z13 kz13; apply NextKeeps.next; split
    · apply State.sbPromote_keeps; apply State.attnAfter_keeps; exact kz13.same (by unfold State.view; rfl)
    · exact kz13
theorem execEventRead_keeps {s₀ : State} {s : State} (clocked : Nat) (h : Keeps s₀ s) : NextKeeps s₀ (execEventRead clocked s) := by
  unfold execEventRead; extract_lets +onlyGivenNames t
  have kt : Keeps s₀ t := by
    unfold t; apply State.spiBytes_keeps; apply State.fresh_keeps; exact h
  clear_value t; revert t; refine id ?_; intro t kt; split
  · exact NextKeeps.next (State.emit_keeps _ kt)
  · rename_i b rest hb
    generalize hu : t.emit _ = u
    have hs : u.ctl.sbEvents = b :: rest := by rw [← hu]; exact hb
    have ku : Keeps s₀ u := hu ▸ State.emit_keeps _ kt
    dsimp only; apply NextKeeps.next; split
    · apply State.attnAfter_keeps; apply State.flushSbLost_keeps; refine ku.of rfl fun j => { j with events := ?_ }
      have k := j.events
      rw [hs] at k; exact Nat.le_trans (Nat.le_succ _) k
    · exact ku
theorem execSpiInvalidCommand_keeps {s₀ : State} (b : ℕ) {s : State} (h : Keeps s₀ s) : NextKeeps s₀ (execSpiInvalidCommand b s) := by
  unfold execSpiInvalidCommand; extract_lets +onlyGivenNames z5
  have kz5 : Keeps s₀ z5 := by
    unfold z5; apply State.spiBytes_keeps; apply State.fresh_keeps; exact h
  clear_value z5; revert z5; refine id ?_; intro z5 kz5; extract_lets +onlyGivenNames z7
  have kz7 : Keeps s₀ z7 := by
    unfold z7; apply State.count_keeps; exact kz5
  clear_value z7; revert z7; refine id ?_; intro z7 kz7; apply NextKeeps.next; split
  · exact kz5
  · exact kz7.same (by unfold State.view; rfl)
theorem execChainTimeout_keeps {s₀ : State} (via : Via) {s : State} (h : Keeps s₀ s) : NextKeeps s₀ (execChainTimeout via s) := by
  unfold execChainTimeout; extract_lets +onlyGivenNames z5
  have kz5 : Keeps s₀ z5 := by
    unfold z5; apply State.fresh_keeps; exact h
  clear_value z5; revert z5; refine id ?_; intro z5 kz5; apply NextKeeps.next; split
  · exact kz5
  · split
    · apply State.endChain_keeps; exact kz5
    · exact kz5
theorem execAuthLockoutEnd_keeps {s₀ : State} (via : Via) {s : State} (h : Keeps s₀ s) : NextKeeps s₀ (execAuthLockoutEnd via s) := by
  unfold execAuthLockoutEnd; extract_lets +onlyGivenNames z5
  have kz5 : Keeps s₀ z5 := by
    unfold z5; apply State.fresh_keeps; exact h
  clear_value z5; revert z5; refine id ?_; intro z5 kz5; apply NextKeeps.next; split
  · exact kz5
  · split
    · apply State.setTransport_keeps
      · intro a13 a14; exact a14
      · exact kz5
    · exact kz5
theorem execHostSilent_keeps {s₀ : State} {s : State} (h : Keeps s₀ s) : NextKeeps s₀ (execHostSilent s) := by
  unfold execHostSilent; extract_lets +onlyGivenNames z4
  have kz4 : Keeps s₀ z4 := by
    unfold z4; apply State.fresh_keeps; exact h
  clear_value z4; revert z4; refine id ?_; intro z4 kz4; apply NextKeeps.next; split
  · apply State.raiseSb_keeps; exact kz4.same (by unfold State.view; rfl)
  · exact kz4
theorem execSbSilent_keeps {s₀ : State} {s : State} (h : Keeps s₀ s) : NextKeeps s₀ (execSbSilent s) := by
  unfold execSbSilent; extract_lets +onlyGivenNames z4
  have kz4 : Keeps s₀ z4 := by
    unfold z4; apply State.fresh_keeps; exact h
  clear_value z4; revert z4; refine id ?_; intro z4 kz4; apply NextKeeps.next; split
  · apply State.raiseHost_keeps; exact kz4.same (by unfold State.view; rfl)
  · exact kz4
theorem execMailboxReplyDeadline_keeps {s₀ : State} (q : Request) (opcode : Nat) (completed : Bool) {s : State} (h : Keeps s₀ s) :
    NextKeeps s₀ (execMailboxReplyDeadline q opcode completed s) := by
  unfold execMailboxReplyDeadline; extract_lets +onlyGivenNames a
  have ka : Keeps s₀ a := State.fresh_keeps h
  clear_value a; revert a; refine id ?_; intro a ka; extract_lets; apply NextKeeps.next; split
  · exact serve_keeps _ (cmdOf_keeps opcode) _ _ _ ka
  · exact ka

end Sys2Proof.Machine
end

