-- ==== Sys2Proof/Laws/KeepsExec.lean ====
section
/-! SUPPORT. What every command and the tick keep: one lemma for each operation, in the words of Laws.Keeps. -/
namespace Sys2Proof.Machine

theorem exec_keeps {s₀ : State} (i : Instr) {s : State} (h : Keeps s₀ s) : NextKeeps s₀ (exec i s) := by
  unfold exec; split
  · apply execNop_keeps; exact h
  · apply execSessionOpen_keeps; exact h
  · apply execSessionClose_keeps; exact h
  · apply execIdentityGet_keeps; exact h
  · apply execParamRead_keeps; exact h
  · apply execParamWrite_keeps; exact h
  · apply execParamRmw_keeps; exact h
  · apply execParamReadBlock_keeps; exact h
  · apply execTableStageWrite_keeps; exact h
  · apply execTableStageClear_keeps; exact h
  · apply execTableStageDiscard_keeps; exact h
  · apply execTableCommit_keeps; exact h
  · apply execEpochStatus_keeps; exact h
  · apply execTimeGet_keeps; exact h
  · apply execTimeStep_keeps; exact h
  · apply execTimeAdjFreq_keeps; exact h
  · apply execTimeScheduleList_keeps; exact h
  · apply execTimeScheduleCancel_keeps; exact h
  · apply execRefForce_keeps; exact h
  · apply execRefRelease_keeps; exact h
  · apply execRefClearWtr_keeps; exact h
  · apply execOutRealign_keeps; exact h
  · apply execOutOwn_keeps; exact h
  · apply execOutForce_keeps; exact h
  · apply execOutForceRelease_keeps; exact h
  · apply execGateLoad_keeps; exact h
  · apply execGateLoadCheckOnly_keeps; exact h
  · apply execGateSwitch_keeps; exact h
  · apply execPairTake_keeps; exact h
  · apply execPairYield_keeps; exact h
  · apply execPairStatus_keeps; exact h
  · apply execPwrSet_keeps; exact h
  · apply execPwrPlan_keeps; exact h
  · apply execCalRun_keeps; exact h
  · apply execCalStatus_keeps; exact h
  · apply execTdcArm_keeps; exact h
  · apply execTdcAbort_keeps; exact h
  · apply execTdcResult_keeps; exact h
  · apply execStatSnapshot_keeps; exact h
  · apply execFwStage_keeps; exact h
  · apply execFwActivate_keeps; exact h
  · apply execFwActivateConfirm_keeps; exact h
  · apply execWatchSetWrite_keeps; exact h
  · apply execWatchSetClear_keeps; exact h
  · apply execWatchSetRelease_keeps; exact h
  · apply execProofRunStart_keeps; exact h
  · apply execProofRunAbort_keeps; exact h
  · apply execPerfSelect_keeps; exact h
  · apply execPerfRead_keeps; exact h
  · apply execLeaseTake_keeps; exact h
  · apply execLeaseSeize_keeps; exact h
  · apply execLeaseDrop_keeps; exact h
  · apply execRegisterWrite_keeps; exact h
  · apply execCmdDbCmd_keeps; exact h
  · apply execCommandFetch_keeps; exact h
  · apply execCmdDbRpl_keeps; exact h
  · apply execCmdDbEvt_keeps; exact h
  · apply execRingEnable_keeps; exact h
  · apply execInbandControlFrame_keeps; exact h
  · apply execReqWrite_keeps; exact h
  · apply execStatusRead_keeps; exact h
  · apply execReplyRead_keeps; exact h
  · apply execEventRead_keeps; exact h
  · apply execSpiInvalidCommand_keeps; exact h
  · apply execSidebandCommandStart_keeps; exact h
  · apply execChainTimeout_keeps; exact h
  · apply execAuthLockoutEnd_keeps; exact h
  · apply execHostSilent_keeps; exact h
  · apply execSbSilent_keeps; exact h
  · apply execEngineWatchdogExpiry_keeps; exact h
  · apply execMailboxReplyDeadline_keeps; exact h
  · apply execEngineRestart_keeps; exact h
  · apply execColdReset_keeps; exact h
  · apply execWarmReset_keeps; exact h
  · apply execDevResetCold_keeps; exact h
  · apply execDevResetWarm_keeps; exact h
  · apply execPerstAssert_keeps; exact h
  · apply execPerstDeassert_keeps; exact h
  · apply execPcieLinkUp_keeps; exact h
  · apply execColdBootCount_keeps; exact h
  · apply execBootHeaderRead_keeps; exact h
  · apply execImageSelection_keeps; exact h
  · apply execImageLoadDone_keeps; exact h
  · apply execHardwareTablesLoaded_keeps; exact h
  · apply execTableRefillDone_keeps; exact h
  · apply execPowerUpComplete_keeps; exact h
  · apply execPowerDownComplete_keeps; exact h
  · apply execFlashOperationDone_keeps; exact h
  · apply execImageActivationDone_keeps; exact h
  · apply execTrialReverted_keeps; exact h
  · apply execSecKeyWrite_keeps; exact h
  · apply execSecLock_keeps; exact h
  · apply execIslandLockLoss_keeps; exact h
  · apply execIslandRestart_keeps; exact h
  · apply execCrossingFifoError_keeps; exact h
  · apply execBufMemFault_keeps; exact h
  · apply execReplicaRealign_keeps; exact h
  · apply execLaneSignalDetect_keeps; exact h
  · apply execLaneClockStable_keeps; exact h
  · apply execLaneLock_keeps; exact h
  · apply execLaneLockLost_keeps; exact h
  · apply execDeskewRetry_keeps; exact h
  · apply execLaneReceiveSleep_keeps; exact h
  · apply execLaneWake_keeps; exact h
  · apply execCtleAdaptStep_keeps; exact h
  · apply execEyeRefresh_keeps; exact h
  · apply execHlaneRestartTx_keeps; exact h
  · apply execHlaneRestartRx_keeps; exact h
  · apply execMarginStart_keeps; exact h
  · apply execMarginDone_keeps; exact h
  · apply execTimingMarkEvaluation_keeps; exact h
  · apply execMacPortTypeWrite_keeps; exact h
  · apply execPortLinkUp_keeps; exact h
  · apply execPortLinkDown_keeps; exact h
  · apply execFrameReceive_keeps; exact h
  · apply execFdbLearn_keeps; exact h
  · apply execFdbAgeOut_keeps; exact h
  · apply execFdbFlush_keeps; exact h
  · apply execHostFrameSubmit_keeps; exact h
  · apply execP80RingDb_keeps; exact h
  · apply execEgressFrameStart_keeps; exact h
  · apply execCopyDeparture_keeps; exact h
  · apply execPfcXoffRefresh_keeps; exact h
  · apply execPauseFrameReceive_keeps; exact h
  · apply execPfcFrameReceive_keeps; exact h
  · apply execPauseQuantaExpiry_keeps; exact h
  · apply execPauseWatchdogTrip_keeps; exact h
  · apply execPauseIgnoreEnd_keeps; exact h
  · apply execLpiEntry_keeps; exact h
  · apply execMergeVerifyTimer_keeps; exact h
  · apply execSpeedStepEvaluate_keeps; exact h
  · apply execStepTlvReceive_keeps; exact h
  · apply execStepRetune_keeps; exact h
  · apply execStepProposalTimeout_keeps; exact h
  · apply execScheduledSnapshot_keeps; exact h
  · apply execStatSnapshotDone_keeps; exact h
  · apply execEpochCommitted_keeps; exact h
  · apply execEpochRetired_keeps; exact h
  · apply execEpochDrainSlow_keeps; exact h
  · apply execMirrorResume_keeps; exact h
  · apply execCarrelPoolWrite_keeps; exact h
  · apply execPagePackTimer_keeps; exact h
  · apply execPageWriteDone_keeps; exact h
  · apply execPageReadDone_keeps; exact h
  · apply execStackChainAbandoned_keeps; exact h
  · apply execDdrTrainingDone_keeps; exact h
  · apply execDqsDriftTrack_keeps; exact h
  · apply execStackRetiredWrite_keeps; exact h
  · apply execStackChEnClear_keeps; exact h
  · apply execAuditPass_keeps; exact h
  · apply execQmonSample_keeps; exact h
  · apply execQmonDb_keeps; exact h
  · apply execGateActive_keeps; exact h
  · apply execGateRestart_keeps; exact h
  · apply execScheduledGateSwitch_keeps; exact h
  · apply execFrerResetTimer_keeps; exact h
  · apply execLatentTest_keeps; exact h
  · apply execLatentBaseReset_keeps; exact h
  · apply execWatchEvaluate_keeps; exact h
  · apply execScheduledProofStart_keeps; exact h
  · apply execProbeSend_keeps; exact h
  · apply execProbeReflect_keeps; exact h
  · apply execEchoReceive_keeps; exact h
  · apply execSlotEnd_keeps; exact h
  · apply execScheduledStep_keeps; exact h
  · apply execScheduledFreqChange_keeps; exact h
  · apply execScheduledRealign_keeps; exact h
  · apply execScheduledTdcStart_keeps; exact h
  · apply execLedgerAnchor_keeps; exact h
  · apply execLedgerRingDb_keeps; exact h
  · apply execRingGap_keeps; exact h
  · apply execFifoGap_keeps; exact h
  · apply execEvinEdge_keeps; exact h
  · apply execTdcEdge_keeps; exact h
  · apply execTdcIntervalSample_keeps; exact h
  · apply execTdcTimeout_keeps; exact h
  · apply execPtpMessageReceive_keeps; exact h
  · apply execPtpMessageSend_keeps; exact h
  · apply execSyncReceiptTimeout_keeps; exact h
  · apply execAnnounceReceiptTimeout_keeps; exact h
  · apply execDdmtdReading_keeps; exact h
  · apply execLinkMeasurementComplete_keeps; exact h
  · apply execPcsLinkRemeasure_keeps; exact h
  · apply execPcsLinkAccept_keeps; exact h
  · apply execRefEvaluate_keeps; exact h
  · apply execRefFailure_keeps; exact h
  · apply execRefMonitorPass_keeps; exact h
  · apply execWtrExpiry_keeps; exact h
  · apply execDisagreeClear_keeps; exact h
  · apply execSwitchMeasurementEnd_keeps; exact h
  · apply execDpllLock_keeps; exact h
  · apply execDpllUnlock_keeps; exact h
  · apply execHoldoverEstimateWrite_keeps; exact h
  · apply execHoldoverStore_keeps; exact h
  · apply execClearOffset_keeps; exact h
  · apply execTxPlaneWrite_keeps; exact h
  · apply execEsmcInfoSend_keeps; exact h
  · apply execEsmcReceive_keeps; exact h
  · apply execEsmcTimeout_keeps; exact h
  · apply execOutputDriveChange_keeps; exact h
  · apply execOutRealigned_keeps; exact h
  · apply execTodMessageStart_keeps; exact h
  · apply execSensorSample_keeps; exact h
  · apply execCalStepStart_keeps; exact h
  · apply execCalStepComplete_keeps; exact h
  · apply execCalDeadline_keeps; exact h
  · apply execForcedWindow_keeps; exact h
  · apply execBellflowerSend_keeps; exact h
  · apply execBellflowerReceive_keeps; exact h
  · apply execPathSilent_keeps; exact h
  · apply execPairInitTimeout_keeps; exact h
  · apply execTakeover_keeps; exact h
  · apply execFenceSettle_keeps; exact h
  · apply execFenceInFall_keeps; exact h
  · apply execFenceInRise_keeps; exact h
  · apply execTakeReqTimeout_keeps; exact h
  · apply execPairWtrExpiry_keeps; exact h
  · apply execPairModeSet_keeps; exact h
  · apply execHealthReport_keeps; exact h
  · apply execScrubPass_keeps; exact h
  · apply execCellTest_keeps; exact h
  · apply execCrossCheck_keeps; exact h
  · apply execFenceLoopTest_keeps; exact h
  · apply execPerfOverflow_keeps; exact h
  · apply execPerfOvfClear_keeps; exact h
  · apply execThermConversion_keeps; exact h
  · apply execI2cGo_keeps; exact h
  · apply execI2cDone_keeps; exact h
  · apply execI2cBusStuck_keeps; exact h
  · apply execBar0Read_keeps; exact h
  · apply execHeadAgeExpiry_keeps; exact h
  · apply execPcieLinkDown_keeps; exact h
  · apply execLpiTransmitExit_keeps; exact h
  · apply execMsixModerationTimer_keeps; exact h
  · apply execIgmpMldSnooping_keeps; exact h
theorem State.timeTick_keeps {s₀ : State} {s : State} (h : Keeps s₀ s) : Keeps s₀ (State.timeTick s) := by
  unfold State.timeTick; extract_lets +onlyGivenNames x t
  have kt : Keeps s₀ t := h.of rfl fun j => { j with domains := (List.length_map _).trans j.domains }
  clear_value t; revert t; refine id ?_; intro t kt; apply State.forEach_keeps
  · intro a7 a8 t9 h10; apply State.outTick_keeps; exact h10
  · apply State.forEach_keeps
    · intro a7 a8 t9 h10; apply State.slewTick_keeps; exact h10
    · exact kt
theorem State.aged_keeps {s₀ : State} {s : State} (h : Keeps s₀ s) : Keeps s₀ (State.aged s) := by
  unfold State.aged; exact h.same (by unfold State.view; rfl)
theorem State.mirrorTick_keeps {s₀ : State} {s : State} (h : Keeps s₀ s) : Keeps s₀ (State.mirrorTick s) := by
  unfold State.mirrorTick; apply State.forEach_keeps
  · intro a4 a5 t6 h7; apply State.mirrorCheck_keeps; exact h7
  · exact h
theorem State.tick_keeps {s₀ : State} {s : State} (h : Keeps s₀ s) : Keeps s₀ (State.tick s) := by
  unfold State.tick; extract_lets +onlyGivenNames z4
  have kz4 : Keeps s₀ z4 := by
    unfold z4; apply State.aged_keeps; apply State.fresh_keeps; exact h
  clear_value z4; revert z4; refine id ?_; intro z4 kz4; extract_lets +onlyGivenNames z6
  have kz6 : Keeps s₀ z6 := by
    unfold z6; split
    · apply State.timeTick_keeps; exact kz4
    · exact kz4
  clear_value z6; revert z6; refine id ?_; intro z6 kz6; extract_lets +onlyGivenNames z8
  have kz8 : Keeps s₀ z8 := by
    unfold z8; split
    · apply State.drainOne_keeps; exact kz6
    · exact kz6
  clear_value z8; revert z8; refine id ?_; intro z8 kz8; apply State.flushReady_keeps; apply State.perfTick_keeps
  apply State.mirrorTick_keeps; exact kz8

end Sys2Proof.Machine
end

