-- ==== Sys2Proof/Laws/Session.lean ====
section
/-! SUPPORT. What a Mivik request comes to: refused by the first step of R58 that fails, or run. -/
namespace Sys2Proof.Machine
open Sys2Proof.Safety

theorem finish_lastPacket (c : Cmd) (m : Mailbox) (t : ReplyTo) (body : List Byte) (u v : State) (x : Ctx)
    (h : lastPacket c t body u = some (x, v)) : c.finish m t body u = c.execute m x v := by
  unfold lastPacket at h
  unfold Cmd.finish
  split at h
  · rename_i hc
    simp only [Option.some.injEq, Prod.mk.injEq] at h
    obtain ⟨rfl, rfl⟩ := h
    simp only [hc]
  · rename_i ch hc
    simp only [hc]
    split at h
    · rename_i h0
      simp only [Option.some.injEq, Prod.mk.injEq] at h
      obtain ⟨rfl, rfl⟩ := h
      rw [if_pos h0]
    · rename_i h0
      split at h
      · cases h
      · rename_i hl
        simp only [Bool.or_eq_true, not_or, Bool.not_eq_true] at hl
        simp only [Option.some.injEq, Prod.mk.injEq] at h
        obtain ⟨rfl, rfl⟩ := h
        rw [if_neg h0, if_neg (by simp [hl.1]), if_neg (by simp [hl.2])]

/-- A request that has arrived, of a command that the lookup finds, goes through steps 7 to 10. -/
theorem serve_arrived {c : Cmd} {q : Request} {s u : State} {x : Ctx} (h : arrived c q s = some (x, u))
    (find : List Byte → Option Cmd) (m : Mailbox)
    (hf : ∀ v t body, s.fresh.accept c.opcode q = (v, some (t, body)) → find (v.joined t body) = some c) :
    serve find m c.opcode q s.fresh = c.execute m x u := by
  unfold arrived at h
  split at h
  · cases h
  · split at h
    · cases h
    · rename_i v t body ha
      split at h
      · cases h
      · rename_i hg
        simp only [Bool.or_eq_true, bne_iff_ne, ne_eq, not_or, Decidable.not_not, Bool.not_eq_true] at hg
        unfold serve
        simp only [ha]
        unfold afterAccept
        rw [hf v t body ha]
        simp only
        rw [if_neg (by simp [hg.1, hg.2]), if_neg (by simp [hg.2])]
        exact finish_lastPacket c m t body _ u x h

theorem arrived_slot {c : Cmd} {q : Request} {s u : State} {x : Ctx} (h : arrived c q s = some (x, u)) :
    s.fresh.slotFree (some c) (replyToOf q c.opcode none) = true := by
  unfold arrived at h
  split at h
  · cases h
  · rename_i hs
    simpa using hs

/-- A request that has arrived goes through steps 7 to 10. -/
theorem runCmd_arrived {c : Cmd} {q : Request} {s u : State} {x : Ctx} (h : arrived c q s = some (x, u)) :
    runCmd c q s = c.execute .replies x u := by
  unfold runCmd
  rw [if_pos (arrived_slot h)]
  exact serve_arrived h (fun _ => some c) .replies (fun _ _ _ _ => rfl)

/-- A refused request is answered with the first error, and leaves behind what its command says a refusal leaves. -/
theorem runCmd_refused {c : Cmd} {q : Request} {s u : State} {x : Ctx} {e : Err} (h : arrived c q s = some (x, u))
    (he : refusal c x u = some e) : runCmd c q s = (c.refused x u e).fail x.dest true e := by
  rw [runCmd_arrived h]
  unfold Cmd.execute
  unfold refusal at he
  rw [he]

theorem served_arrived {c : Cmd} {q : Request} {s u : State} {x : Ctx} (h : served c q s = some (x, u)) :
    arrived c q s = some (x, u) ∧ refusal c x u = none := by
  unfold served at h
  split at h
  · rename_i y v hv
    split at h
    · rename_i hn
      simp only [Option.some.injEq, Prod.mk.injEq] at h
      obtain ⟨rfl, rfl⟩ := h
      exact ⟨hv, by simpa using hn⟩
    · cases h
  · cases h

/-- A served request runs its command, and its outcome is answered. -/
theorem runCmd_served {c : Cmd} {q : Request} {s u : State} {x : Ctx} (h : served c q s = some (x, u)) :
    runCmd c q s = match c.run x u with
      | .reply st payload t => c.after x (t.deliver x.dest true st payload)
      | .later job t => t.putOff x.dest job
      | .error e t => t.fail x.dest true e := by
  obtain ⟨ha, hr⟩ := served_arrived h
  rw [runCmd_arrived ha]
  unfold Cmd.execute
  unfold refusal at hr
  first | (rw [hr]; done) | (rw [hr]; cases c.run x u <;> rfl)

/-- A served request whose command answers. -/
theorem runCmd_reply {c : Cmd} {q : Request} {s u t : State} {x : Ctx} {st : Status} {p : List Byte}
    (h : served c q s = some (x, u)) (hr : c.run x u = .reply st p t) :
    runCmd c q s = c.after x (t.deliver x.dest true st p) := by
  rw [runCmd_served h, hr]

/-- What the checks of a served request gave. -/
theorem served_passes {c : Cmd} {q : Request} {s u : State} {x : Ctx} (h : served c q s = some (x, u)) :
    c.notReady x u = none ∧ c.check x u = none ∧ u.replyFits x.dest (c.size x u) = true ∧
      u.leaseErr x.master (c.leases x u) = none ∧ c.locked x u = none := by
  have hr := (served_arrived h).2
  unfold refusal firstErr at hr
  simp only [List.findSome?_eq_none_iff, List.mem_cons, List.not_mem_nil, or_false, id] at hr
  refine ⟨hr _ (.inl rfl), hr _ (.inr (.inl rfl)), ?_, hr _ (.inr (.inr (.inr (.inl rfl)))), hr _ (.inr (.inr (.inr (.inr rfl))))⟩
  have h3 := hr _ (.inr (.inr (.inl rfl)))
  unfold errIf at h3
  simpa using h3

end Sys2Proof.Machine
end

