-- ==== Sys2Proof/Laws/Writes.lean ====
section
/-! SUPPORT. A write that lands: the word it sets, and the operation of its block that follows; and a frame that is taken. -/
namespace Sys2Proof.Machine

/-- A write that lands by either path is the write of one word. -/
theorem writeVia_lands {path : WritePath} {k v : Nat} {s : State} (h : Safety.lands path k v s = true) :
    s.fresh.writeVia path k v = (Safety.pathState path s).writeWord k v := by
  cases path with
  | command m =>
    simp only [Safety.lands, Option.isNone_iff_eq_none] at h
    simp only [State.writeVia, State.paramEntry, Safety.pathState, h]
  | bar0 bytes =>
    simp only [Safety.lands, Bool.and_eq_true, decide_eq_true_eq, beq_iff_eq, Option.isNone_iff_eq_none, Bool.not_eq_true'] at h
    obtain ⟨⟨⟨⟨⟨⟨⟨h1, h2⟩, h3⟩, h4⟩, h5⟩, h6⟩, h7⟩, h8⟩ := h
    have hu : s.fresh.bar0Up = true := h1
    simp only [State.writeVia, State.bar0Write, Safety.pathState]
    rw [if_neg (by rw [hu, decide_eq_false (Nat.not_le.2 h2)]; decide)]
    simp only [h3, h6, h7, h4, h5, h8, Bool.false_eq_true, if_false, bne_self_eq_false, Bool.or_false]
/-- A write that lands on any word but a port type: the word is set, and the hardware behind it follows. -/
theorem writeWord_landed {path : WritePath} {k v : Nat} {s : State} (h : ¬ (blockOf k = 0x0C ∧ indexOf k = 0)) :
    (Safety.pathState path s).writeWord k v = (Safety.landed path k v s).afterWrite k v (s.get k) := by
  have hg : (Safety.pathState path s).get k = s.get k := by cases path <;> rfl
  unfold State.writeWord Safety.landed
  extract_lets +onlyGivenNames n
  rw [if_neg (by simpa using h), hg]
theorem blockOf_shelf {b i x : Nat} (hi : i < 4096) (hx : x < 4096) : blockOf (shelf b i x) = b := by
  unfold blockOf shelf; omega
theorem instOf_shelf {b i x : Nat} (hi : i < 4096) (hx : x < 4096) : instOf (shelf b i x) = i := by
  unfold instOf shelf; omega
theorem indexOf_shelf {b i x : Nat} (hx : x < 4096) : indexOf (shelf b i x) = x := by
  unfold indexOf shelf; omega
/-- The write of a word that lands sets it, and the hardware behind it follows. -/
theorem writeVia_landed {path : WritePath} {k v : Nat} {s : State} (h : Safety.lands path k v s = true)
    (hb : ¬ (blockOf k = 0x0C ∧ indexOf k = 0)) :
    s.fresh.writeVia path k v = (Safety.landed path k v s).afterWrite k v (s.get k) := by
  rw [writeVia_lands h, writeWord_landed hb]

/-- A frame that arrives whole goes to the row that takes it, once mirrored; one not of the row's kind goes the way of every frame. -/
theorem arrive_taken {p : Nat} {frame d : List Byte} {s u : State} (h : Safety.taken p frame s = some (d, u))
    (mine : List Byte → State → Bool) (f : List Byte → State → State) : s.arrive p frame mine f =
      if mine d u then f d (u.mirrorTaken p d frame.length) else u.good p d frame.length := by
  unfold Safety.taken at h
  unfold State.arrive
  split at h
  · rename_i hc
    rw [if_pos hc]
    simp only at h ⊢
    split at h
    · cases h
    · rename_i he
      simp only [Option.some.injEq, Prod.mk.injEq] at h
      rw [if_neg he, ← h.2, ← h.1]
  · cases h

end Sys2Proof.Machine
end

