-- ==== Sys2Proof/Laws/Results.lean ====
section
/-! SUPPORT. What the effect of a command answers in each of its ways to succeed, once for each command that has several. -/
namespace Sys2Proof.Machine
open Sys2Proof.Safety

/-! ### TableCommandsStageAndCommit -/

/-- TABLE_COMMIT with nothing in its way: what it does without SCHEDULED, late, and scheduled. -/
theorem tableCommitRun_free (u : State) (x : Ctx) (ho : u.fwd.other = none)
    (hg : (u.commitBlocks (u64 x.p 0)).contains 0x1D → u.gateBusy u.adminPorts = none) :
    ((u8 x.p 8).testBit 0 = false → ∀ t, t = u.now (u8 x.p 9) + u.f Reg.catEpochCfg 0 17 * ns16 →
      tableCommitRun x u = .ok (toLe 4 (u.f Reg.catEpochCurrent 0 32 + 1) ++ timeBytes t)
        (u.freeze (u.commitBlocks (u64 x.p 0)) (u8 x.p 9) t)) ∧
    ((u8 x.p 8).testBit 0 = true → u.due (u8 x.p 9) (timeAt x.p 12) = .late →
      tableCommitRun x u = .reply .late (toLe 4 (u.f Reg.catEpochCurrent 0 32 + 1) ++ timeBytes (u.now (u8 x.p 9)))
        ((u.freeze (u.commitBlocks (u64 x.p 0)) (u8 x.p 9) (u.now (u8 x.p 9))).epochDue)) ∧
    ((u8 x.p 8).testBit 0 = true → u.due (u8 x.p 9) (timeAt x.p 12) = .scheduled → u.actionsFull = false →
      tableCommitRun x u = .ok (toLe 4 (u.f Reg.catEpochCurrent 0 32 + 1) ++ timeBytes (timeAt x.p 12))
        ((u.freeze (u.commitBlocks (u64 x.p 0)) (u8 x.p 9) (timeAt x.p 12)).schedule 0x0201 x.dest.tag (ownerCode x.master)
          (u8 x.p 9) (timeAt x.p 12) x.p)) := by
  have hg' : (if (u.commitBlocks (u64 x.p 0)).contains 0x1D then u.gateBusy u.adminPorts else none) = none := by
    split
    · exact hg ‹_›
    · rfl
  refine ⟨fun hf t ht => ?_, fun hf hl => ?_, fun hf hl ha => ?_⟩
  · unfold tableCommitRun
    extract_lets +onlyGivenNames bs dom t' reply
    rw [ho, hg', hf, ht]; rfl
  · unfold tableCommitRun
    extract_lets +onlyGivenNames bs dom t' reply
    rw [ho, hg']
    split
    · rename_i h; cases h
    · rename_i h; cases h
    · rw [hf, if_pos rfl, show u.due dom t' = .late from hl]
  · unfold tableCommitRun
    extract_lets +onlyGivenNames bs dom t' reply
    rw [ho, hg']
    split
    · rename_i h; cases h
    · rename_i h; cases h
    · rw [hf, if_pos rfl, show u.due dom t' = .scheduled from hl, ha]; rfl

/-! ### TimeCommandsStepAndSchedule -/

/-- TIME_STEP in each of its ways to succeed. -/
theorem timeStepRun_cases (u : State) (x : Ctx) :
    ((u8 x.p 1).testBit 0 = false → timeStepRun x u = u.stepNow (u8 x.p 0) (stepOf x.p) .ok) ∧
    ((u8 x.p 1).testBit 0 = true → u.due (u8 x.p 0) (timeAt x.p 4) = .late →
      timeStepRun x u = u.stepNow (u8 x.p 0) (stepOf x.p) .late) ∧
    ((u8 x.p 1).testBit 0 = true → u.due (u8 x.p 0) (timeAt x.p 4) = .scheduled → u.actionsFull = false →
      timeStepRun x u = .ok ((stepOf x.p).stepReply (timeAt x.p 4) (u.dom (u8 x.p 0)).gen)
        (u.schedule 0x0301 x.dest.tag (ownerCode x.master) (u8 x.p 0) (timeAt x.p 4) x.p)) := by
  refine ⟨fun hf => ?_, fun hf hl => ?_, fun hf hl ha => ?_⟩
  · unfold timeStepRun
    extract_lets +onlyGivenNames d l
    rw [hf, if_neg Bool.false_ne_true]
  · unfold timeStepRun
    extract_lets +onlyGivenNames d l
    rw [hf, if_pos rfl]
    extract_lets +onlyGivenNames t
    rw [show u.due d t = .late from hl]
  · unfold timeStepRun
    extract_lets +onlyGivenNames d l
    rw [hf, if_pos rfl]
    extract_lets +onlyGivenNames t
    rw [show u.due d t = .scheduled from hl, ha]; rfl
/-- TIME_ADJ_FREQ in each of its ways to succeed. -/
theorem timeAdjFreqRun_cases (u : State) (x : Ctx) :
    ((u8 x.p 1).testBit 0 = false → u.steered (u8 x.p 0) = false →
      timeAdjFreqRun x u = .ok [] (u.adjFreq (u8 x.p 0) (adjOf x.p))) ∧
    ((u8 x.p 1).testBit 0 = true → u.due (u8 x.p 0) (timeAt x.p 4) = .late → u.steered (u8 x.p 0) = false →
      timeAdjFreqRun x u = .reply .late (timeBytes (u.now (u8 x.p 0))) (u.adjFreq (u8 x.p 0) (adjOf x.p))) ∧
    ((u8 x.p 1).testBit 0 = true → u.due (u8 x.p 0) (timeAt x.p 4) = .scheduled → u.actionsFull = false →
      timeAdjFreqRun x u = .ok [] (u.schedule 0x0302 x.dest.tag (ownerCode x.master) (u8 x.p 0) (timeAt x.p 4) x.p)) := by
  refine ⟨fun hf hs => ?_, fun hf hl hs => ?_, fun hf hl ha => ?_⟩
  · unfold timeAdjFreqRun
    extract_lets +onlyGivenNames d t
    rw [hf, if_neg Bool.false_ne_true]
    unfold State.adjNow
    rw [show u.steered d = false from hs]; rfl
  · unfold timeAdjFreqRun
    extract_lets +onlyGivenNames d t
    rw [hf, if_pos rfl, show u.due d t = .late from hl]
    unfold State.adjNow
    simp only
    rw [show u.steered d = false from hs]; rfl
  · unfold timeAdjFreqRun
    extract_lets +onlyGivenNames d t
    rw [hf, if_pos rfl, show u.due d t = .scheduled from hl, ha]; rfl
/-- A step that executes at once. -/
theorem State.stepNow_real (u : State) (d : Nat) (l : Landing) (st : Status) (h : l.real = true) :
    u.stepNow d l st = .reply st (l.stepReply (u.landingTime d).1 (u.landingTime d).2)
      { u with clock := { u.clock with landings := u.clock.landings ++ [l] } } := by
  unfold State.stepNow; rw [h]; rfl
theorem State.stepNow_unreal (u : State) (d : Nat) (l : Landing) (st : Status) (h : l.real = false) :
    u.stepNow d l st = .reply st (l.stepReply (u.now d) (u.dom d).gen) u := by
  unfold State.stepNow; rw [h]; rfl
/-- TIME_SCHEDULE, cancel, in time. -/
theorem timeScheduleCancelRun_ok (u : State) (x : Ctx) (a : Action) (h : u.action (u16 x.p 2) = some a)
    (ht : u.now a.dom + 2000 * ns16 ≤ a.t) : timeScheduleCancelRun x u = .ok [] ((u.dropAction a.handle).undo a 3) := by
  unfold timeScheduleCancelRun
  rw [h]
  simp only
  rw [if_neg (Nat.not_lt.2 ht)]

/-! ### ReferenceAndOutputCommandsAct -/

/-- OUT_REALIGN in each of its ways to succeed. -/
theorem outRealignRun_cases (u : State) (x : Ctx) :
    ((u8 x.p 1).testBit 0 = false → outRealignRun x u = .ok (u.realignReply x.p) (u.fireRealign x.p)) ∧
    ((u8 x.p 1).testBit 0 = true → u.due (u8 x.p 0) (timeAt x.p 8) = .late →
      outRealignRun x u = .reply .late (u.realignReply x.p ++ timeBytes (u.now (u8 x.p 0))) (u.fireRealign x.p)) ∧
    ((u8 x.p 1).testBit 0 = true → u.due (u8 x.p 0) (timeAt x.p 8) = .scheduled → u.actionsFull = false →
      outRealignRun x u = .ok (u.realignReply x.p)
        (u.schedule 0x0500 x.dest.tag (ownerCode x.master) (u8 x.p 0) (timeAt x.p 8) x.p)) := by
  refine ⟨fun hf => ?_, fun hf hl => ?_, fun hf hl ha => ?_⟩
  · unfold outRealignRun
    extract_lets +onlyGivenNames d reply
    rw [hf, if_neg Bool.false_ne_true]
  · unfold outRealignRun
    extract_lets +onlyGivenNames d reply
    rw [hf, if_pos rfl]
    extract_lets +onlyGivenNames t
    rw [show u.due d t = .late from hl]
  · unfold outRealignRun
    extract_lets +onlyGivenNames d reply
    rw [hf, if_pos rfl]
    extract_lets +onlyGivenNames t
    rw [show u.due d t = .scheduled from hl, ha]; rfl
/-- The force is recorded in the status of the selector. -/
theorem State.recordForce_forced (u : State) (sel r : Nat) (h : r < 256) : (u.recordForce sel r).forcedRef sel = r := by
  have e : (u.setf (Reg.refselSelStatus (0x100 + sel)) 40 8 r).f (Reg.refselSelStatus (0x100 + sel)) 40 8 = r := by
    rw [State.f_setf_self _ _ (by decide)]; exact Nat.mod_eq_of_lt h
  unfold State.recordForce State.forcedRef
  extract_lets +onlyGivenNames t
  split
  · refine Eq.trans (State.f_congr (s := _) (t := t) (State.get_congr (by rfl) _) 40 8) ?_
    exact e
  · exact e

/-! ### GateCommandsLoadAndSwitch -/

/-- GATE_SWITCH in each of its ways to succeed. -/
theorem gateSwitchRun_cases (u : State) (x : Ctx) (hb : u.gateBusy (switchPorts x.p) = none) :
    ((u8 x.p 10).testBit 0 = false →
      gateSwitchRun x u = .ok (u.switchReply x.p (u.now (u8 x.p 11))) (u.fireSwitch x.p (u.now (u8 x.p 11)))) ∧
    ((u8 x.p 10).testBit 0 = true → u.due (u8 x.p 11) (timeAt x.p 12) = .late →
      gateSwitchRun x u = .reply .late (u.switchReply x.p (u.now (u8 x.p 11)) ++ timeBytes (u.now (u8 x.p 11)))
        (u.fireSwitch x.p (u.now (u8 x.p 11)))) ∧
    ((u8 x.p 10).testBit 0 = true → u.due (u8 x.p 11) (timeAt x.p 12) = .scheduled → u.actionsFull = false →
      gateSwitchRun x u = .ok (u.switchReply x.p (timeAt x.p 12))
        (u.schedule 0x0601 x.dest.tag (ownerCode x.master) (u8 x.p 11) (timeAt x.p 12) x.p)) := by
  refine ⟨fun hf => ?_, fun hf hl => ?_, fun hf hl ha => ?_⟩
  · unfold gateSwitchRun
    extract_lets +onlyGivenNames d
    rw [hb]; simp only
    rw [hf, if_neg Bool.false_ne_true]
  · unfold gateSwitchRun
    extract_lets +onlyGivenNames d
    rw [hb]; simp only
    rw [hf, if_pos rfl, show u.due d (timeAt x.p 12) = .late from hl]
  · unfold gateSwitchRun
    extract_lets +onlyGivenNames d
    rw [hb]; simp only
    rw [hf, if_pos rfl, show u.due d (timeAt x.p 12) = .scheduled from hl, ha]; rfl
/-- The gate waits of a load whose checks came to a result with gates. -/
theorem State.loadWaits_good (u : State) (p : List Byte) (code : Nat) (h : code = 0 ∨ code = 6) :
    u.loadWaits p code = ((u.loadCalendar p).waits.flatMap (toLe 8), u) := by
  unfold State.loadWaits
  rw [if_pos (by rcases h with h | h <;> simp [h])]
/-- The gate waits of a load that failed an earlier check: free values. -/
theorem State.loadWaits_bad (u : State) (p : List Byte) (code : Nat) (h : code ≠ 0) (h6 : code ≠ 6) :
    u.loadWaits p code = ((List.range 3).flatMap (fun i => toLe 8 (Config.openWait (u.drawn + i))), u.draw.draw.draw) := by
  unfold State.loadWaits
  rw [if_neg (by simp [h, h6])]
/-- A served GATE_LOAD passes every check of R261. -/
theorem gateLoad_passes {x : Ctx} {u : State} (h : (gateLoadCmd false).check x u = none) : (u.loadCheck x.p).1 = 0 := by
  simp only [gateLoadCmd, firstErr, List.findSome?_eq_none_iff, List.mem_cons, List.not_mem_nil, or_false, id] at h
  have h2 := h _ (.inr (.inr (.inr (.inr (.inr rfl)))))
  unfold errIf at h2
  split at h2
  · cases h2
  · rename_i h3
    simpa using h3

/-! ### PairAndPowerCommandsAct -/

/-- PAIR_TAKE in each of its ways to succeed. -/
theorem pairTakeRun_cases (u : State) (x : Ctx) (h3 : u.role ≠ 3) :
    (u.role = 2 → pairTakeRun x u = u.pairReply 0) ∧
    (u.role ≠ 2 → u.partnerActive = true → u8 x.p 0 = 1 → pairTakeRun x u = (u.beginTake true 4 4).pairReply 2) ∧
    (u.role ≠ 2 → u.partnerActive = true → u8 x.p 0 ≠ 1 →
      pairTakeRun x u = (u.setPair (fun y => { y with takeReq := some (y.takeReq.getD u.ticks) })).pairReply 1) ∧
    (u.role ≠ 2 → u.partnerActive = false → u.verdict = 0 ∨ u8 x.p 0 = 1 →
      pairTakeRun x u = (u.beginTake u.bothSilent 4 4).pairReply (if u.bothSilent then 2 else 3)) := by
  refine ⟨fun h => ?_, fun h ha hf => ?_, fun h ha hf => ?_, fun h ha hv => ?_⟩ <;> unfold pairTakeRun <;>
    extract_lets +onlyGivenNames force <;> rw [if_neg h3]
  · rw [if_pos h]
  · have hf' : force = true := by simp [force, hf]
    rw [if_neg h, ha, if_pos rfl, hf', if_pos rfl]
  · have hf' : force = false := by simp [force, hf]
    rw [if_neg h, ha, if_pos rfl, hf', if_neg Bool.false_ne_true]
  · have hc : (decide (u.verdict = 0) || force) = true := by
      rcases hv with hv | hv <;> simp [force, hv]
    rw [if_neg h, ha, if_neg Bool.false_ne_true, if_pos (by simpa using hc)]
/-- PAIR_YIELD accepted. -/
theorem pairYieldRun_ok (u : State) (x : Ctx) (h : u.partnerIn 1 = true) (hv : u.partnerVerdict = 0) :
    pairYieldRun x u = .ok [] (u.setPair (fun y => { y with offer := some (u32 x.p 0) })) := by
  unfold pairYieldRun
  rw [if_pos (by simp [h, hv])]

/-! ### CalibrationAndTdcCommandsAct -/

/-- CAL_RUN with a run to spare. -/
theorem calRunRun_ok (u : State) (x : Ctx) (h : u.cal.runs.length < 8) (items due : List Nat) (v : State)
    (hi : items = (u.scopeItems (u8 x.p 0) (u8 x.p 1)).getD []) (hd : due = items.filter (fun k => u.itemState k == 1))
    (hv : v = u.forEach due (fun k t => t.makeDue k)) :
    calRunRun x u = .ok (toLe 4 (v.cal.lastRun + 1) ++ toLe 2 due.length)
      (State.settleRuns { v with cal := { v.cal with lastRun := v.cal.lastRun + 1, runs := v.cal.runs ++
        [⟨v.cal.lastRun + 1, items.filter (fun k => v.itemState k != 3), 0, (items.filter (fun k => u.itemState k == 3)).length⟩] } }
        0xFFFF false) := by
  subst hi hd hv
  unfold calRunRun
  extract_lets +onlyGivenNames items due
  rw [if_neg (Nat.not_le.2 h)]
/-- TDC_ARM in each of its ways to succeed. -/
theorem tdcArmRun_cases (u : State) (x : Ctx) (h1 : u.tdcPhase ≠ 1) (h2 : u.tdcPhase ≠ 2) :
    ((u8 x.p 10).testBit 0 = false → tdcArmRun x u = u.tdcGo x.p .ok) ∧
    ((u8 x.p 10).testBit 0 = true → u.due (u8 x.p 3) (timeAt x.p 20) = .late → tdcArmRun x u = u.tdcGo x.p .late) ∧
    ((u8 x.p 10).testBit 0 = true → u.due (u8 x.p 3) (timeAt x.p 20) = .scheduled → u.actionsFull = false →
      ∀ v, v = (u.armTdc x.p (timeAt x.p 20)).schedule 0x0A00 x.dest.tag (ownerCode x.master) (u8 x.p 3) (timeAt x.p 20) x.p →
      tdcArmRun x u = .ok (toLe 4 v.tdc.number ++ timeBytes (timeAt x.p 20)) v) := by
  have hp : ¬ ((decide (u.tdcPhase = 1) || decide (u.tdcPhase = 2)) = true) := by simp [h1, h2]
  refine ⟨fun hf => ?_, fun hf hl => ?_, fun hf hl ha v hv => ?_⟩
  · unfold tdcArmRun
    extract_lets +onlyGivenNames d
    rw [if_neg (by simpa using hp), hf, if_neg Bool.false_ne_true]
  · unfold tdcArmRun
    extract_lets +onlyGivenNames d
    rw [if_neg (by simpa using hp), hf, if_pos rfl]
    extract_lets +onlyGivenNames t
    rw [show u.due d t = .late from hl]
  · subst hv
    unfold tdcArmRun
    extract_lets +onlyGivenNames d
    rw [if_neg (by simpa using hp), hf, if_pos rfl]
    extract_lets +onlyGivenNames t
    rw [show u.due d t = .scheduled from hl, ha]; rfl

/-! ### LeaseCommandsMoveBlocks -/

theorem State.owner_congr {s t : State} (h1 : s.get Reg.cmdLeaseOwnerLo = t.get Reg.cmdLeaseOwnerLo)
    (h2 : s.get Reg.cmdLeaseOwnerHi = t.get Reg.cmdLeaseOwnerHi) (b : Nat) : s.owner b = t.owner b := by
  unfold State.owner; rw [State.f_congr h1, State.f_congr h2]
/-- The holder of a block after one lease is set. -/
theorem State.owner_setOwner (s : State) (a b o : Nat) (ha : a < 64) (hb : b < 64) (ho : o < 4) :
    (s.setOwner a o).owner b = if b = a then o else s.owner b := by
  have hne : Reg.cmdLeaseOwnerHi ≠ Reg.cmdLeaseOwnerLo := by decide
  unfold State.setOwner State.owner
  by_cases h1 : a < 32 <;> by_cases h2 : b < 32 <;> simp only [h1, h2, if_true, if_false]
  · by_cases h : b = a
    · subst h; rw [State.f_setf_self _ _ (by omega), if_pos rfl]; exact Nat.mod_eq_of_lt ho
    · rw [State.f_setf_apart _ _ (by omega) (by omega), if_neg h]
  · rw [State.f_setf_ne _ _ _ _ _ _ hne, if_neg (by omega)]
  · rw [State.f_setf_ne _ _ _ _ _ _ hne.symm, if_neg (by omega)]
  · by_cases h : b = a
    · subst h; rw [State.f_setf_self _ _ (by omega), if_pos rfl]; exact Nat.mod_eq_of_lt ho
    · rw [State.f_setf_apart _ _ (by omega) (by omega), if_neg h]
/-- The holder of a block after the leases of a list are set. -/
theorem State.owner_setOwners (l : List Nat) (s : State) (b o : Nat) (hl : ∀ a ∈ l, a < 64) (hb : b < 64) (ho : o < 4) :
    (s.forEach l (fun a t => t.setOwner a o)).owner b = if b ∈ l then o else s.owner b := by
  induction l generalizing s with
  | nil => simp
  | cons a l ih =>
    rw [State.forEach_cons, ih _ (fun c hc => hl c (List.mem_cons_of_mem _ hc)),
      State.owner_setOwner _ _ _ _ (hl a List.mem_cons_self) hb ho]
    by_cases h1 : b ∈ l <;> by_cases h2 : b = a <;> simp [h1, h2]
theorem State.setGate_fwd (s : State) (p : Nat) (g : Gates → Gates) : (s.setGate p g).fwd = s.fwd := by
  unfold State.setGate; extract_lets +onlyGivenNames x y; rw [State.setf_fwd]
theorem State.owner_setGate (s : State) (p : Nat) (g : Gates → Gates) (b : Nat) : (s.setGate p g).owner b = s.owner b := by
  unfold State.setGate; extract_lets +onlyGivenNames x y
  have h : y.words = s.words := rfl
  have h1 : Reg.cmdLeaseOwnerLo ≠ Reg.gateStatus p := by unfold Reg.cmdLeaseOwnerLo Reg.gateStatus shelf; omega
  have h2 : Reg.cmdLeaseOwnerHi ≠ Reg.gateStatus p := by unfold Reg.cmdLeaseOwnerHi Reg.gateStatus shelf; omega
  exact State.owner_congr ((State.get_setf_ne y _ _ _ h1).trans (State.get_congr h _))
    ((State.get_setf_ne y _ _ _ h2).trans (State.get_congr h _)) b
theorem State.owner_discardStaged (s : State) (a b : Nat) : (s.discardStaged a).owner b = s.owner b := by
  unfold State.discardStaged
  extract_lets +onlyGivenNames f t
  have h : t.owner b = s.owner b := rfl
  split
  · refine State.forEach_keeps (fun u => u.owner b = s.owner b) _ _ (fun p _ u hu => ?_) t h
    exact (State.owner_setGate u p _ b).trans hu
  · exact h
/-- The blocks a request names lie below 64. -/
theorem Ctx.blocks_lt (x : Ctx) : ∀ b ∈ x.blocks, b < 64 := by
  intro b hb
  unfold Ctx.blocks bitsSet at hb
  exact List.mem_range.1 (List.mem_of_mem_filter hb)
theorem ownerCode_lt (m : Master) : ownerCode m < 4 := by cases m <;> decide
/-- LEASE_TAKE of blocks nobody else holds. -/
theorem leaseTakeRun_ok (u : State) (x : Ctx) (h : ∀ b ∈ x.blocks, u.owner b = 0 ∨ u.owner b = ownerCode x.master) (moved : List Nat)
    (v : State) (hm : moved = x.blocks.filter (fun b => u.owner b == 0))
    (hv : v = (u.forEach moved (fun b t => t.setOwner b (ownerCode x.master))).leaseChange x.master moved (ownerCode x.master) 0) :
    leaseTakeRun x u = .ok v.ownerBytes v := by
  subst hm hv
  unfold leaseTakeRun
  extract_lets +onlyGivenNames me
  have hn : x.blocks.find? (fun b => u.owner b != 0 && u.owner b != me) = none := by
    rw [List.find?_eq_none]; intro b hb
    rcases h b hb with h | h
    · simp [h]
    · simp [h, me]
  rw [hn]
/-- LEASE_SEIZE of blocks that may be seized. -/
theorem leaseSeizeRun_ok (u : State) (x : Ctx) (h : ∀ b ∈ x.blocks, u.maySeize x.master b = true) (lost moved : List Nat)
    (v w z : State) (hl : lost = x.blocks.filter (fun b => u.owner b == ownerCode (otherMaster x.master)))
    (hm : moved = x.blocks.filter (fun b => u.owner b != ownerCode x.master))
    (hv : v = (u.forEach lost (fun b t => t.discardStaged b)).forEach moved (fun b t => t.setOwner b (ownerCode x.master)))
    (hw : w = match otherMaster x.master with
      | .host => (v.loseChain .pcie lost).loseChain .inband lost
      | .sideband => v.loseChain .sideband lost)
    (hz : z = (if lost.contains 3 then w.stopStage (otherMaster x.master) x.master else w).leaseChange x.master moved
      (ownerCode x.master) 2) :
    leaseSeizeRun x u = .ok (z.ownerBytes ++ toLe 2 (lost.map u.stagedAreas).sum ++ toLe 2 (z.actionsOn moved)) z := by
  subst hz hw hv hm hl
  unfold leaseSeizeRun
  extract_lets +onlyGivenNames m me
  have hn : x.blocks.find? (fun b => !u.maySeize m b) = none := by
    rw [List.find?_eq_none]; intro b hb
    simp [m, h b hb]
  rw [hn] <;> rfl
/-- LEASE_DROP of held blocks. -/
theorem leaseDropRun_ok (u : State) (x : Ctx) (h : ∀ b ∈ x.blocks, u.owner b = ownerCode x.master) (v z : State)
    (hv : v = u.forEach x.blocks (fun b t => (t.discardStaged b).setOwner b 0)) (hz : z = v.leaseChange x.master x.blocks 0 1) :
    leaseDropRun x u = .ok (z.ownerBytes ++ toLe 2 (x.blocks.map u.stagedAreas).sum ++ toLe 2 (z.actionsOn x.blocks)) z := by
  subst hz hv
  unfold leaseDropRun
  extract_lets +onlyGivenNames me
  have hn : x.blocks.find? (fun b => u.owner b != me) = none := by
    rw [List.find?_eq_none]; intro b hb
    simp [me, h b hb]
  rw [hn]

/-! ### OutForceSetsPins -/

/-- One pin of GPIO_FORCE set. -/
def forcePin (force : Bool) (levels n : Nat) (s : State) : State :=
  (s.setf Reg.gpioForce n 1 (bit force)).setf Reg.gpioForce (32 + n) 1 (bit (force && levels.testBit n))

/-! ### FlashAndSnapshotCommandsAct -/

/-- STAT_SNAPSHOT in each of its ways to succeed. -/
theorem statSnapshotRun_cases (u : State) (x : Ctx) (h : u.snapBusy = none) :
    ((u8 x.p 1).testBit 0 = true →
      statSnapshotRun x u = .later (.snapshot false) ((u.snapTake (u8 x.p 0) (u.now (u8 x.p 0)) false).snapCapture)) ∧
    ((u8 x.p 1).testBit 0 = false → u.due (u8 x.p 0) (timeAt x.p 4) = .late →
      statSnapshotRun x u = .later (.snapshot true) ((u.snapTake (u8 x.p 0) (u.now (u8 x.p 0)) false).snapCapture)) ∧
    ((u8 x.p 1).testBit 0 = false → u.due (u8 x.p 0) (timeAt x.p 4) = .scheduled → u.actionsFull = false →
      ∀ v, v = u.snapTake (u8 x.p 0) (timeAt x.p 4) true →
      statSnapshotRun x u = .ok (v.snapBytes v.snap.bank)
        (v.schedule 0x0B00 x.dest.tag (ownerCode x.master) (u8 x.p 0) (timeAt x.p 4) x.p)) := by
  refine ⟨fun hf => ?_, fun hf hl => ?_, fun hf hl ha v hv => ?_⟩
  · unfold statSnapshotRun
    extract_lets +onlyGivenNames d t
    rw [h]; simp only
    rw [hf, if_pos rfl]
  · unfold statSnapshotRun
    extract_lets +onlyGivenNames d t
    rw [h]; simp only
    rw [hf, if_neg Bool.false_ne_true, show u.due d t = .late from hl]
  · subst hv
    unfold statSnapshotRun
    extract_lets +onlyGivenNames d t
    rw [h]; simp only
    rw [hf, if_neg Bool.false_ne_true, show u.due d t = .scheduled from hl]; simp only
    rw [ha]; rfl
/-- FW_ACTIVATE in its two ways. -/
theorem fwActivateRun_cases (u : State) (x : Ctx) (v : State)
    (hv : v = u.setPrimary (setBits u.primaryNow.1 (u8 x.p 0 - 1) 1 (u8 x.p 1)) (setBits u.primaryNow.2 (u8 x.p 0 - 1) 1 (u8 x.p 3))) :
    (u8 x.p 2 ≠ 1 → fwActivateRun x u = .ok [] (v.endTrial (u8 x.p 0))) ∧
    (u8 x.p 2 = 1 → fwActivateRun x u = .later (.activate (u8 x.p 0) (u8 x.p 1))
      ((v.endTrial (u8 x.p 0)).stopImage (u8 x.p 0))) := by
  rw [hv]
  refine ⟨fun h => ?_, fun h => ?_⟩ <;> unfold fwActivateRun <;> dsimp only
  · rw [if_neg h]
  · rw [if_pos h]
theorem runCmd_later {c : Cmd} {q : Request} {s u t : State} {x : Ctx} {j : Job}
    (h : Safety.served c q s = some (x, u)) (hr : c.run x u = .later j t) : runCmd c q s = t.putOff x.dest j := by
  rw [runCmd_served h, hr]

/-! ### WatchProofAndPerfCommandsAct -/

/-- PROOF_RUN, start, in each of its ways to succeed. -/
theorem proofStartRun_cases (u : State) (x : Ctx) (h : u.proof = 0) (v : State) (hv : v = u.setf Reg.proofState 32 32 (u.proofRun + 1)) :
    ((u8 x.p 1).testBit 0 = false → proofStartRun x u = .ok (toLe 4 v.proofRun ++ timeBytes (v.now (u8 x.p 2)))
      (v.proofGo (u8 x.p 2) (v.now (u8 x.p 2)) (maskSlots x.p))) ∧
    ((u8 x.p 1).testBit 0 = true → u.due (u8 x.p 2) (timeAt x.p 4) = .late →
      proofStartRun x u = .reply .late (toLe 4 v.proofRun ++ timeBytes (v.now (u8 x.p 2)))
        (v.proofGo (u8 x.p 2) (v.now (u8 x.p 2)) (maskSlots x.p))) ∧
    ((u8 x.p 1).testBit 0 = true → u.due (u8 x.p 2) (timeAt x.p 4) = .scheduled → u.actionsFull = false →
      proofStartRun x u = .ok (toLe 4 (v.setf Reg.proofState 0 8 1).proofRun ++ timeBytes (timeAt x.p 4))
        ((v.setf Reg.proofState 0 8 1).schedule 0x0D01 x.dest.tag (ownerCode x.master) (u8 x.p 2) (timeAt x.p 4) x.p)) := by
  subst hv
  have hn : (u.proof != 0) = false := by rw [h]; rfl
  refine ⟨fun hf => ?_, fun hf hl => ?_, fun hf hl ha => ?_⟩
  · unfold proofStartRun
    extract_lets +onlyGivenNames d t num reply
    rw [hn, if_neg Bool.false_ne_true, hf, if_neg Bool.false_ne_true]
  · unfold proofStartRun
    extract_lets +onlyGivenNames d t num reply
    rw [hn, if_neg Bool.false_ne_true, hf, if_pos rfl, show u.due d t = .late from hl]
  · unfold proofStartRun
    extract_lets +onlyGivenNames d t num reply
    rw [hn, if_neg Bool.false_ne_true, hf, if_pos rfl, show u.due d t = .scheduled from hl, ha]; rfl

end Sys2Proof.Machine
end

