-- ==== Sys2Proof/Tests/Slice0.lean ====
section
/-! SUPPORT. Witnesses for the hypotheses of the statements, ill-formed operands that the checks refuse, and small checks of one step.
Expected results are worked out by hand from the rules named. -/
namespace Sys2Proof.Tests
set_option Elab.async false
open Sys2Proof Sys2Proof.Machine Sys2Proof.Safety

/-- A machine that has started in NORMAL: every domain on, every island running, every engine serving, the host holding every
lease, its command, reply and event rings enabled. -/
def up : State :=
  let s := { State.reset with
    engines := List.replicate 12 ⟨true, true, false, 0⟩
    ctl := { State.reset.ctl with leasesAssigned := true }
    boot := { State.reset.boot with countKnown := true, linkUp := true, timeStarted := true } }
  let s := ((s.set Reg.pwrState 0xAAAAAAAA).set Reg.devState 1).set Reg.cmdLeaseOwnerLo 0x5555555555555555
  let s := ((s.set Reg.cmdLeaseOwnerHi 0x5555555555555555).set Reg.cmdRplrCtrl 0x80000004).set Reg.cmdEvtrCtrl 0x80000004
  s.forEach (List.range 22) (fun i s => s.set (Reg.clkIslStatus i) 1)
/-- A request of a class on the PCIe rings with its payload. -/
def rq (cls : Nat) (payload : List Nat) : Request :=
  { via := .pcie, version := 1, flags := 0x80 + cls, tag := 7, seq := 1, payload := payload.map (BitVec.ofNat 8), buf := 0x10000,
    slot := 0, port := 0, src := 0, vlan := none, status := 0 }
/-- A 4-byte little-endian field. -/
def le4 (n : Nat) : List Nat := [n % 256, n / 256 % 256, n / 65536 % 256, n / 16777216 % 256]
/-- An 8-byte little-endian field. -/
def le8 (n : Nat) : List Nat := le4 (n % 2 ^ 32) ++ le4 (n / 2 ^ 32)
/-- A time of a payload: whole ns and s. -/
def tm (ns sec : Nat) : List Nat := [0, 0] ++ le4 ns ++ le4 sec ++ [0, 0]
/-- `up` with every pipeline filled and ports 0 and 1 of type 3 linked, ready and enabled, their lanes LOCKED. -/
def upLink : State :=
  let s := { up with boot := { up.boot with pipeFilled := 63, tablesLoaded := true } }
  s.forEach [0, 1] (fun p s => ((((s.set (Reg.macPortType p) 3).set (Reg.macCfg p) 0x3).set (Reg.macLinkStatus p) 0x303).setPortReady p
    true).setf (laneKey (.hl p) 5) 0 4 4)
/-- A frame with its destination, source and what follows, padded, with its FCS. -/
def fr (dst src : Nat) (body : List Nat) : List Byte :=
  let d := toBe 6 dst ++ toBe 6 src ++ (body ++ List.replicate (48 - body.length) 0).map (BitVec.ofNat 8)
  d ++ fcs d false
/-- A Mivik packet with its CRC. -/
def pk (flags opcode : Nat) (payload : List Nat) : List Byte :=
  let b := header 1 flags opcode 7 payload.length 0 1 ++ payload.map (BitVec.ofNat 8)
  b ++ toLe 4 (crc32c b)
/-- The first bytes of a header: primary slots 0, a count of 50 and trial bits. -/
def headBytes (trial : Nat) : List Byte := [0x48, 0x58, 0x42, 0x48, 1, 0xFF, 0xFF, 0xFF, 1, 0, 0, 0, 50, 0, trial].map (BitVec.ofNat 8)
/-- Header copy 0 in force with trial bits, and image 1 in slot 1 passed by a FINAL. -/
def upHeader (trial : Nat) : State :=
  { up with boot := { up.boot with headerCopy := some 0, header := headBytes trial, checked := [(1, 1)] } }
/-- `up` with edge lane 0 and its port 32, of type 3, in a receive state. -/
def upLane (rx : Nat) : State := (up.set (Reg.macPortType 32) 3).setf (laneKey (.el 0) 5) 0 4 rx
/-- The state after a command, the same state where it stops. -/
def after (c : Instr) (s : State) : State := match exec c s with | .next t => t | _ => s
/-- `upLink` at a late instant as one of a pair, in a role, path B on port 0, the partner heard on path A in a role or not at all. -/
def upTwo (role partner : Nat) (heard : Bool) : State :=
  let s := ((((upLink.setf Reg.pairCfg 0 2 1).setf Reg.pairCfg 8 8 0).setf Reg.pairCfg 3 1 1).setf Reg.pairState 8 4 role).setf Reg.pairState 20 4 0xA
  let s := s.setf Reg.healthReport 0 8 0
  let h : Option Heard := if heard then some ⟨2 ^ 40, partner, 0, 0, 0, 0, 0, 1000, 0, 0⟩ else none
  { s.setPair (fun x => { x with heardA := h, last := h, activeAt := if partner = 2 then some (2 ^ 40) else none }) with ticks := 2 ^ 40, health := { s.health with reported := some (2 ^ 40) } }
/-- A transmit entry of P80: length, port, flags. -/
def entryOf (n port fl : Nat) : List Byte := zeros 8 ++ toLe 2 n ++ toLe 1 port ++ toLe 1 fl ++ toLe 4 9
/-- `upLink` with the transmit ring of P80 enabled and one entry in it. -/
def upHost : State :=
  let s := upLink.set (Reg.p80RingCtrl 8) 0x80000004
  { s with rings := { s.rings with counts := s.rings.counts.set 8 1 } }
/-- `upHost` with room in the queues of port 0. -/
def upBuf : State := upHost.forEach (List.range 8) (fun q s => (s.setf (Reg.bufQCfg 0 q) 0 19 10).setf (Reg.bufQCfg 0 q) 38 19 1000)
/-- `upBuf` with a frame of the host's for port 0 in a queue. -/
def upQueued (q : Nat) : State := after (.hostFrameSubmit (entryOf 60 0 q) (List.replicate 60 1)) upBuf

/-- A request whose payload is one byte too long. -/
def badRq : Request := { rq 0 [] with payload := List.replicate 4077 0 }
/-- A request with one field out of its range. -/
def badFields : List Request :=
  [{ rq 0 [] with version := 256 }, { rq 0 [] with flags := 256 }, { rq 0 [] with tag := 65536 }, { rq 0 [] with status := 65536 }, { rq 0 [] with seq := 2 ^ 32 }] ++
  [badRq, { rq 0 [] with buf := 2 ^ 64 }, { rq 0 [] with slot := 65536 }, { rq 0 [] with port := 83 }, { rq 0 [] with src := 2 ^ 48 }, { rq 0 [] with vlan := some (2 ^ 32) }]
theorem test_wf_request : badFields.all (fun q => !q.ok) = true ∧ (rq 0 []).ok = true := by decide +kernel
theorem test_wf_commands : commandRows.all (fun r => !(r.2 badRq).ok && (r.2 (rq 0 [])).ok) = true ∧
  (Instr.mailboxReplyDeadline badRq 0 false).ok = false := by decide +kernel
/-- Operands one past the last that exists, for the bounds of the rows (part 1). -/
def pastTheEnd1 : List Instr :=
  [.registerWrite (.bar0 8) 268435456 0, .registerWrite (.command .host) 4294967296 0, .registerWrite (.bar0 0) 0 0,
   .registerWrite (.bar0 9) 0 0, .cmdDbCmd (.bar0 9) 0, .commandFetch [⟨0, 65536, []⟩], .cmdDbRpl (.bar0 9) 0,
   .cmdDbEvt (.bar0 9) 0, .ringEnable (.bar0 9) .command 0, .ringEnable (.bar0 8) (.p80 10) 0, .ringEnable (.bar0 8)
   (.ledger 4) 0, .inbandControlFrame 80 [], .spiInvalidCommand 256, .spiInvalidCommand 1, .spiInvalidCommand 4,
   .engineWatchdogExpiry 12, .mailboxReplyDeadline (rq 0 []) 65536 false, .engineRestart 12, .devResetCold (.bar0 9),
   .devResetWarm (.bar0 9)]
theorem test_wf_past_the_end_1 : pastTheEnd1.all (fun c => !c.ok) = true := by decide +kernel
/-- Operands one past the last that exists, for the bounds of the rows (part 2). -/
def pastTheEnd2 : List Instr :=
  [.imageLoadDone 0, .imageLoadDone 3, .powerUpComplete 16, .powerDownComplete 16 [], .powerDownComplete 4 [83], .trialReverted 0, .trialReverted 4,
   .secKeyWrite (.bar0 8) 16 0, .secKeyWrite (.bar0 9) 0 0, .secLock (.bar0 9), .islandLockLoss 22, .islandRestart 22,
   .crossingFifoError 22, .bufMemFault 3 false none [], .laneSignalDetect (.hl 32), .laneSignalDetect (.el 48),
   .laneClockStable (.hl 32) 0, .laneClockStable (.el 48) 0, .laneLock 80 [], .laneLockLost (.hl 32) .clock,
   .laneLockLost (.el 48) .signal, .auditPass [262144] [], .auditPass [] [262144], .imageSelection ⟨[], (65536, 0, 0)⟩,
   .imageSelection ⟨[], (0, 65536, 0)⟩, .imageSelection ⟨[], (0, 0, 65536)⟩]
theorem test_wf_past_the_end_2 : pastTheEnd2.all (fun c => !c.ok) = true := by decide +kernel
/-- Operands one past the last that exists, for the bounds of the rows (part 3). -/
def pastTheEnd3 : List Instr :=
  [.deskewRetry 80, .laneReceiveSleep 80, .laneWake 80, .ctleAdaptStep (.hl 32) false, .ctleAdaptStep (.el 48) false,
   .eyeRefresh (.hl 32) [] [] 0, .eyeRefresh (.el 48) [] [] 0, .hlaneRestartTx (.bar0 9) (.hl 0), .hlaneRestartTx
   (.bar0 8) (.hl 32), .hlaneRestartTx (.bar0 8) (.el 48), .hlaneRestartRx (.bar0 9) (.hl 0), .hlaneRestartRx (.bar0
   8) (.hl 32), .hlaneRestartRx (.bar0 8) (.el 48), .marginStart (.bar0 9) (.hl 0) 0, .marginStart (.bar0 8) (.hl 32)
   0, .marginStart (.bar0 8) (.el 48) 0, .marginDone (.hl 32) [], .marginDone (.el 48) [], .timingMarkEvaluation 80,
   .macPortTypeWrite (.bar0 8) 83 0]
theorem test_wf_past_the_end_3 : pastTheEnd3.all (fun c => !c.ok) = true := by decide +kernel
/-- Operands one past the last that exists, for the bounds of the rows (part 4). -/
def pastTheEnd4 : List Instr :=
  [.macPortTypeWrite (.bar0 9) 0 0, .portLinkUp 80 0, .portLinkDown 80 0, .frameReceive 83 [] ⟨false, false, false, 0,
   0, 0, 0, 0, false⟩ [], .fdbFlush (.bar0 9) 0, .p80RingDb (.bar0 8) 10 0, .p80RingDb (.bar0 9) 0 0,
   .egressFrameStart 83 0, .copyDeparture 83, .pfcXoffRefresh 80 0, .pauseFrameReceive 80 0, .pfcFrameReceive 80 0 [],
   .pauseQuantaExpiry 80 0, .pauseWatchdogTrip 80 0, .pauseIgnoreEnd 80 0, .lpiEntry 80 false, .mergeVerifyTimer 80
   false, .speedStepEvaluate 80 0 0 0 0, .stepTlvReceive 80 0 0 false, .stepRetune 80]
theorem test_wf_past_the_end_4 : pastTheEnd4.all (fun c => !c.ok) = true := by decide +kernel
/-- Operands one past the last that exists, for the bounds of the rows (part 5). -/
def pastTheEnd5 : List Instr :=
  [.stepProposalTimeout 80, .mirrorResume 8, .carrelPoolWrite (.bar0 9) 0, .pagePackTimer 83 0, .pagePackTimer 0 8,
   .pageWriteDone 83 0 0 false, .pageWriteDone 0 8 0 false, .pageReadDone 83 0 0 false, .pageReadDone 0 8 0 false,
   .ddrTrainingDone 2 0 0 0 0, .dqsDriftTrack 2, .stackRetiredWrite (.bar0 8) 2 0 0, .stackRetiredWrite (.bar0 8) 0
   4096 0, .stackRetiredWrite (.bar0 9) 0 0 0, .stackChEnClear (.bar0 9) 0, .qmonDb (.bar0 9) 0, .gateActive 80,
   .gateRestart 80, .frerResetTimer 8192, .latentTest 8192]
theorem test_wf_past_the_end_5 : pastTheEnd5.all (fun c => !c.ok) = true := by decide +kernel
/-- Operands one past the last that exists, for the bounds of the rows (part 6). -/
def pastTheEnd6 : List Instr :=
  [.latentBaseReset 8192, .probeReflect 80 [], .echoReceive 80 [], .ledgerAnchor 4, .ledgerRingDb (.bar0 8) 4 0,
   .ledgerRingDb (.bar0 9) 0 0, .ringGap 4, .fifoGap 80, .evinEdge 8, .tdcEdge 30 0, .ptpMessageReceive 80 [] ⟨false,
   none, false, none, [], none, none, none⟩, .ptpMessageSend 8 0 0 [] ⟨false, none, false, none, [], none, none,
   none⟩, .ptpMessageSend 0 80 0 [] ⟨false, none, false, none, [], none, none, none⟩, .syncReceiptTimeout 8,
   .announceReceiptTimeout 8 0 ⟨false, none, false, none, [], none, none, none⟩, .announceReceiptTimeout 0 80 ⟨false,
   none, false, none, [], none, none, none⟩, .ddmtdReading (.island 4) 0 0 0, .ddmtdReading (.rx (.hl 32)) 0 0 0,
   .ddmtdReading (.tx (.el 48)) 0 0 0, .linkMeasurementComplete 80]
theorem test_wf_past_the_end_6 : pastTheEnd6.all (fun c => !c.ok) = true := by decide +kernel
/-- Operands one past the last that exists, for the bounds of the rows (part 7). -/
def pastTheEnd7 : List Instr :=
  [.pcsLinkRemeasure (.bar0 8) 80 0, .pcsLinkRemeasure (.bar0 9) 0 0, .pcsLinkAccept (.bar0 8) 80 0, .pcsLinkAccept
   (.bar0 9) 0 0, .refFailure 32 false, .refMonitorPass 32, .wtrExpiry 32, .disagreeClear 10 0, .disagreeClear 0 32,
   .switchMeasurementEnd 10 0, .dpllLock 10, .dpllUnlock 10 0, .holdoverEstimateWrite 10, .holdoverStore 8,
   .clearOffset (.bar0 8) 8 0, .clearOffset (.bar0 9) 0 0, .txPlaneWrite (.bar0 8) 80 0, .txPlaneWrite (.bar0 9) 0 0,
   .esmcInfoSend 80, .esmcReceive 80 []]
theorem test_wf_past_the_end_7 : pastTheEnd7.all (fun c => !c.ok) = true := by decide +kernel
/-- Operands one past the last that exists, for the bounds of the rows (part 8). -/
def pastTheEnd8 : List Instr :=
  [.esmcTimeout 80, .outputDriveChange 18, .outRealigned 18, .todMessageStart 2, .calStepStart (.entry 80),
   .calStepStart (.txIdle 80), .calStepStart (.rxIdle 80), .calStepStart (.channel 2 4), .calStepComplete (.item 3 18)
   [], .forcedWindow 80, .bellflowerReceive 2 [], .pathSilent 2, .pairModeSet (.bar0 9) 0, .perfOverflow 64 0 0,
   .perfOvfClear (.bar0 8) 64 0, .perfOvfClear (.bar0 9) 0 0, .i2cGo (.bar0 8) 4 0, .i2cGo (.bar0 9) 0 0, .i2cDone 4
   false 0, .i2cBusStuck 4]
theorem test_wf_past_the_end_8 : pastTheEnd8.all (fun c => !c.ok) = true := by decide +kernel
/-- Operands one past the last that exists, for the bounds of the rows (part 9). -/
def pastTheEnd9 : List Instr :=
  [.bar0Read 268435456, .headAgeExpiry 83 0, .headAgeExpiry 0 8, .lpiTransmitExit 80, .msixModerationTimer 64]
theorem test_wf_past_the_end_9 : pastTheEnd9.all (fun c => !c.ok) = true := by decide +kernel
theorem test_wf_parts : RingEntry.ok ⟨2 ^ 64, 0, []⟩ = false ∧ RingEntry.ok ⟨0, 65536, []⟩ = false ∧ CalGap.ok (.sleep 80 false) = false ∧
  CalGap.ok (.channel 6 0) = false ∧ CalStep.ok (.lane 80 false) = false ∧ CalStep.ok (.item 3 17) = true := by decide +kernel

/-! ### IdleStepIsOneTick -/
theorem test_reset_idles : State.reset.pending = [] := by decide

/-! ### EveryStepKeepsInvariant -/
theorem test_reset_steps : ∃ t, step State.reset = .next t := ⟨_, rfl⟩

/-! ### RefusedRequestOnlyAnswers -/
theorem test_refused_rows : (∃ r ∈ commandRows, r.1.opcode = 0) ∧ (arrived nopCmd (rq 1 [1]) up).any (fun a => (refusal nopCmd a.1 a.2).isSome) = true ∧
    nopCmd.opcode ∉ [0x0101, 0x0102] := by decide +kernel

/-! ### SessionCommandsAnswer -/
theorem test_served_nop : (served nopCmd (rq 1 []) up).isSome = true := by decide +kernel
theorem test_served_session_open : (served sessionOpenCmd (rq 1 [255, 0, 0, 0]) up).any (fun a => a.2.boot.countKnown) = true := by
  decide +kernel
theorem test_served_session_close : (served sessionCloseCmd (rq 1 []) up).isSome = true := by decide +kernel
theorem test_served_identity_get : (served identityGetCmd (rq 1 []) up).isSome = true := by decide +kernel

/-! ### ParamCommandsReadAndWrite -/
theorem test_served_param_read : (served paramReadCmd (rq 1 [0, 0, 0, 0]) up).isSome = true := by decide +kernel
theorem test_served_param_read_block : (served paramReadBlockCmd (rq 2 [0, 0, 0, 0, 1, 0, 0, 0]) up).isSome = true := by decide +kernel
theorem test_served_param_write : (served paramWriteCmd (rq 1 (le4 0x34000000 ++ le4 0 ++ le8 1)) up).isSome = true := by
  decide +kernel
theorem test_served_param_rmw : (served paramRmwCmd (rq 1 (le4 0x34000000 ++ le4 0 ++ le8 1 ++ le8 1)) up).isSome = true := by
  decide +kernel

/-! ### TableCommandsStageAndCommit -/
/-- A stage of one FDB entry or of one multicast entry cleared. -/
theorem test_served_table_stage_clear : (served (tableStageCmd 1) (rq 2 [0x10, 0, 1, 0, 0, 0, 0, 0, 1, 0, 0, 0]) up).isSome = true := by
  decide +kernel
theorem test_served_table_stage_discard : (served (tableStageCmd 2) (rq 2 [0x10, 0, 2, 0, 0, 0, 0, 0, 0, 0, 0, 0]) up).isSome = true := by
  decide +kernel
theorem test_served_epoch_status : (served epochStatusCmd (rq 1 []) up).isSome = true := by decide +kernel
theorem test_served_table_stage_write : (served (tableStageCmd 0) (rq 2 ([0x12, 0, 0, 0, 0, 0, 0, 0, 1, 0, 0, 0] ++ List.replicate 32 0)) up).isSome = true := by
  decide +kernel
/-- `up` with a cleared catalogue key staged. -/
def upStaged : State := { up with fwd := { up.fwd with staged := [⟨0x10, 0, 5, none⟩] } }
theorem test_served_table_commit : (served tableCommitCmd (rq 1 (le8 0x10000 ++ [0, 0, 0, 0] ++ le8 0 ++ le4 0)) upStaged).any
    (fun a => a.2.fwd.other.isNone && (a.2.gateBusy a.2.adminPorts).isNone) = true := by decide +kernel
theorem test_served_table_commit_at (late : Bool) : (served tableCommitCmd (rq 1 (le8 0x10000 ++ [1, 0, 0, 0] ++ le4 0 ++ le4 (if late then 0 else 9) ++ le4 0))
    upStaged).any (fun a => a.2.fwd.other.isNone && (a.2.gateBusy a.2.adminPorts).isNone && !a.2.actionsFull &&
      a.2.due 0 (timeAt a.1.p 12) == (if late then .late else .scheduled)) = true := by cases late <;> decide +kernel

/-! ### TimeCommandsStepAndSchedule -/
theorem test_served_time_get : (served timeGetCmd (rq 1 [0xFF]) up).isSome = true := by decide +kernel
theorem test_served_time_step : ∀ n ∈ [0, 5], (served timeStepCmd (rq 1 ([0, 0, 0, 0] ++ le8 0 ++ le4 0 ++ le8 n ++ le4 0)) up).any
    (fun a => !(u8 a.1.p 1).testBit 0 && (stepOf a.1.p).real == (n != 0)) = true := by decide +kernel
theorem test_served_time_step_at : ∀ n ∈ [0, 5], ∀ ns ∈ [1999, 2000], (served timeStepCmd (rq 1 ([0, 1, 0, 0] ++ tm ns 0 ++ le8 n ++
    le4 0)) up).any (fun a => !a.2.actionsFull && a.2.due 0 (timeAt a.1.p 4) == (if ns = 1999 then .late else .scheduled)) = true := by
  decide +kernel
theorem test_served_time_adj_freq : (served timeAdjFreqCmd (rq 1 (List.replicate 20 0)) up).any (fun a => !a.2.steered 0) = true := by
  decide +kernel
theorem test_served_time_adj_freq_at : ∀ ns ∈ [1999, 2000], (served timeAdjFreqCmd (rq 1 ([0, 1, 0, 0] ++ tm ns 0 ++ le4 7)) up).any
    (fun a => !a.2.actionsFull && !a.2.steered 0 && a.2.due 0 (timeAt a.1.p 4) == (if ns = 1999 then .late else .scheduled)) = true := by
  decide +kernel
theorem test_served_time_schedule_list : (served timeScheduleListCmd (rq 1 [0, 0, 0, 0]) up).isSome = true := by decide +kernel
theorem test_served_time_schedule_cancel : (served timeScheduleCancelCmd (rq 1 [1, 0, 1, 0])
    (up.schedule 0x0302 7 1 0 (10 ^ 12) [])).any (fun a => (a.2.action 1).any (fun b => decide (a.2.now b.dom + 2000 * ns16 ≤ b.t))) = true := by
  decide +kernel

/-! ### ReferenceAndOutputCommandsAct -/
/-- `up` with reference 0 in the given state and selector 0 on a reference. -/
def upRef (st sel on : Nat) : State :=
  (((up.setf (Reg.refselRefCfg 0) 63 1 1).setf (Reg.refselRefStatus 0) 40 4 st).setf (Reg.refselSelStatus 0x100) 36 4 sel).setf
    (Reg.refselSelStatus 0x100) 56 8 on
/-- Each way REF_FORCE can go: reference 0 qualified or not, the selector in NONE, on another reference, on it, or switching. -/
theorem test_served_ref_force : ∀ c ∈ [(4, 1, 5), (4, 0, 255), (2, 2, 255), (2, 1, 5), (4, 1, 0)],
    (served refForceCmd (rq 1 [0, 0, 0, 0]) (upRef c.1 c.2.1 c.2.2)).any (fun a =>
      let w := a.2.recordForce 0 0
      w.refQualified 0 == (c.1 == 4) && w.selState 0 == c.2.1 && w.selected 0 == c.2.2 && decide ((w.sel 0).holdUntil ≤ w.ticks)) = true := by
  decide +kernel
theorem test_served_ref_release : (served refReleaseCmd (rq 1 [0, 0, 0, 0]) (up.setf (Reg.refselSelStatus 0x100) 40 8 3)).isSome = true := by
  decide +kernel
theorem test_served_ref_clear_wtr : (served refClearWtrCmd (rq 1 [1, 0, 0, 0]) (upRef 3 0 255)).isSome = true := by decide +kernel
theorem test_served_out_own : (served outOwnCmd (rq 0 [1, 0, 0, 1]) up).isSome = true := by decide +kernel
theorem test_served_out_realign : (served outRealignCmd (rq 1 (List.replicate 20 0)) up).isSome = true := by decide +kernel
theorem test_served_out_realign_at : ∀ ns ∈ [1999, 2000], (served outRealignCmd (rq 1 ([0, 1, 0, 0, 0, 0, 0, 0] ++ tm ns 0)) up).any
    (fun a => !a.2.actionsFull && a.2.due 0 (timeAt a.1.p 8) == (if ns = 1999 then .late else .scheduled)) = true := by decide +kernel

/-! ### GateCommandsLoadAndSwitch -/
/-- A calendar that opens every gate, with the flags given, of so many ns, from base 0. -/
def openLoad (flags cycle : Nat) : List Nat := [0, flags, 0, 0, 0, 0, 0, 0] ++ le4 cycle ++ tm 0 0
/-- `up` with port 0 of type 1. -/
def upPort : State := up.set (Reg.macPortType 0) 1
theorem test_served_gate_load : (served (gateLoadCmd false) (rq 2 (openLoad 1 1000)) upPort).isSome = true := by decide +kernel
theorem test_served_gate_load_check : ∀ c ∈ [1000, 999], (served (gateLoadCmd true) (rq 2 (openLoad 3 c)) upPort).any
    (fun a => (a.2.loadCheck a.1.p).1 == (if c = 999 then 3 else 0)) = true := by decide +kernel
/-- `up` with an open calendar loaded for port 0. -/
def upLoaded : State := up.stageCalendar 0 0 1000 0 ⟨0, 0, 1000, [], [0, 0, 0], 0⟩
theorem test_served_gate_switch : (served gateSwitchCmd (rq 1 ([1] ++ List.replicate 23 0)) upLoaded).any
    (fun a => (a.2.gateBusy (switchPorts a.1.p)).isNone) = true := by decide +kernel
theorem test_served_gate_switch_at : ∀ ns ∈ [1999, 2000], (served gateSwitchCmd (rq 1 ([1] ++ List.replicate 9 0 ++ [1, 0] ++ tm ns 0)) upLoaded).any
    (fun a => (a.2.gateBusy (switchPorts a.1.p)).isNone && !a.2.actionsFull &&
      a.2.due 0 (timeAt a.1.p 12) == (if ns = 1999 then .late else .scheduled)) = true := by decide +kernel

/-! ### PairAndPowerCommandsAct -/
/-- `up` as one of a pair, in a role, with the partner healthy and heard on path A in a role, or not heard. -/
def upPair (role partner : Nat) (heard : Bool) : State :=
  let s := ((up.setf Reg.pairCfg 0 2 1).setf Reg.pairState 8 4 role).setf Reg.pairState 20 2 (if heard then 2 else 1)
  let h : Option Heard := if heard then some ⟨0, partner, 0, 0, 0, 0, 0, 1000, 0, 0⟩ else none
  s.setPair (fun x => { x with heardA := h, last := h })
/-- The ways of PAIR_TAKE: in ACTIVE; with an active partner, forced and not; with none, forced. -/
theorem test_served_pair_take : (served pairTakeCmd (rq 0 [0, 0, 0, 0]) (upPair 2 1 true)).any (fun a => a.2.role == 2) = true ∧
    (∀ f ∈ [0, 1], (served pairTakeCmd (rq 0 [f, 0, 0, 0]) (upPair 1 2 true)).any (fun a => a.2.role == 1 && a.2.partnerActive) = true) ∧
    (∀ h ∈ [true, false], (served pairTakeCmd (rq 0 [1, 0, 0, 0]) (upPair 1 1 h)).any
      (fun a => a.2.role == 1 && !a.2.partnerActive && a.2.bothSilent == !h) = true) := by
  decide +kernel
theorem test_served_pair_yield : (served pairYieldCmd (rq 0 [60, 0, 0, 0]) (upPair 2 1 true)).any
    (fun a => a.2.partnerIn 1 && a.2.partnerVerdict == 0) = true := by decide +kernel
theorem test_served_pair_status : (served pairStatusCmd (rq 0 []) up).isSome = true := by decide +kernel
/-- PWR_SET that turns PD15 off, and one that turns PD1 off. -/
theorem test_served_pwr_set : (served pwrSetCmd (rq 1 [0, 0x80, 0, 0]) up).any (fun a => (a.2.setBusy a.1.p).isNone && !(setOff a.1.p).contains 1) = true ∧
    (served pwrSetCmd (rq 1 [2, 0, 0, 0]) up).any (fun a => (a.2.setBusy a.1.p).isNone && (setOff a.1.p).contains 1 && a.2.pd 1 == 2) = true := by
  decide +kernel
theorem test_served_pwr_plan : (served pwrPlanCmd (rq 1 [0, 0, 0, 0]) up).isSome = true := by decide +kernel

/-! ### CalibrationAndTdcCommandsAct -/
theorem test_served_cal_run : (served calRunCmd (rq 1 [5, 0, 0, 0]) up).any (fun a => decide (a.2.cal.runs.length < 8)) = true := by decide +kernel
theorem test_served_cal_status : (served calStatusCmd (rq 1 [3, 0, 0, 0]) up).isSome = true := by decide +kernel
/-- TDC_ARM in TIME mode on EVIN0 with a grid of 1 ms. -/
def armBytes (flags : Nat) (t : List Nat) : List Nat :=
  [0, 0, 0, 0] ++ le4 10 ++ [1, 0, flags, 0] ++ le8 (1000000 * 65536) ++ t
theorem test_served_tdc_arm : (served tdcArmCmd (rq 1 (armBytes 0 (List.replicate 12 0))) up).any
    (fun a => a.2.tdcPhase == 0 && !(u8 a.1.p 10).testBit 0) = true := by decide +kernel
theorem test_served_tdc_arm_at : ∀ ns ∈ [1999, 2000], (served tdcArmCmd (rq 1 (armBytes 1 (tm ns 0))) up).any
    (fun a => a.2.tdcPhase == 0 && !a.2.actionsFull && a.2.due 0 (timeAt a.1.p 20) == (if ns = 1999 then .late else .scheduled)) = true := by
  decide +kernel
theorem test_served_tdc_abort : (served tdcAbortCmd (rq 1 (3 :: List.replicate 31 0)) (up.setf Reg.tdcState 0 4 2)).isSome = true := by
  decide +kernel
theorem test_served_tdc_result : (served tdcResultCmd (rq 1 []) up).isSome = true := by decide +kernel

/-! ### LeaseCommandsMoveBlocks -/
/-- Blocks 0x34 and 0x03 with a holder. -/
def upLease (o : Nat) : State := (up.setOwner 0x34 o).setOwner 3 o
theorem test_served_lease_take : ∀ o ∈ [0, 1], (served leaseTakeCmd (rq 1 (le8 (2 ^ 0x34 + 2 ^ 3))) (upLease o)).any
    (fun a => a.1.blocks == [3, 0x34] && a.1.blocks.all (fun b => a.2.owner b == 0 || a.2.owner b == ownerCode a.1.master)) = true := by
  decide +kernel
theorem test_served_lease_seize : (served leaseSeizeCmd (rq 0 (le8 (2 ^ 0x34 + 2 ^ 3))) { upLease 2 with ticks := 200000000000 }).any
    (fun a => a.1.blocks.all (fun b => a.2.maySeize a.1.master b && a.2.owner b == ownerCode (otherMaster a.1.master))) = true := by
  decide +kernel
theorem test_served_lease_drop : (served leaseDropCmd (rq 1 (le8 (2 ^ 0x34 + 2 ^ 3))) (upLease 1)).any
    (fun a => a.1.blocks.all (fun b => a.2.owner b == ownerCode a.1.master)) = true := by
  decide +kernel

/-! ### OutForceSetsPins -/
theorem test_served_out_force : (served outForceCmd (rq 0 (le4 0x80000001 ++ le4 1 ++ [0, 0, 0, 0])) (up.set Reg.gpioDir 0xFFFFFFFF)).isSome = true := by
  decide +kernel
theorem test_served_out_force_release : (served outForceReleaseCmd (rq 0 (le4 0x80000001 ++ le4 0 ++ [1, 0, 0, 0])) up).isSome = true := by
  decide +kernel

/-! ### FlashAndSnapshotCommandsAct -/
theorem test_served_stat_snapshot : (served statSnapshotCmd (rq 2 (0 :: 1 :: List.replicate 14 0)) up).any (fun a => a.2.snapBusy.isNone) = true ∧
    ∀ ns ∈ [1999, 2000], (served statSnapshotCmd (rq 2 ([0, 0, 0, 0] ++ tm ns 0)) up).any (fun a => a.2.snapBusy.isNone &&
      !a.2.actionsFull && a.2.due 0 (timeAt a.1.p 4) == (if ns = 1999 then .late else .scheduled)) = true := by decide +kernel
theorem test_served_fw_stage : (served fwStageCmd (rq 2 ([1, 1, 0, 0] ++ le4 0 ++ le4 4 ++ [1, 2, 3, 4])) up).any
    (fun a => !a.2.staging) = true := by decide +kernel
set_option maxRecDepth 100000 in
theorem test_served_fw_activate : ∀ now ∈ [0, 1], (served fwActivateCmd (rq 2 [1, 1, now, 1]) (upHeader 0)).isSome = true := by decide +kernel
set_option maxRecDepth 100000 in
theorem test_served_fw_confirm : (served fwConfirmCmd (rq 2 [1, 1, 0, 2]) (upHeader 1)).isSome = true := by decide +kernel

/-! ### WatchProofAndPerfCommandsAct -/
/-- A watch entry with every field at its least, no recovery function and no pin. -/
def watchBytes : List Nat := [0, 0, 1, 0, 0, 0, 1, 0] ++ le4 0 ++ le4 100 ++ [10, 0, 0, 0] ++ le4 0 ++ le4 1 ++ le4 0 ++ le4 1 ++
  [255, 255, 255, 0] ++ le4 0 ++ le4 0
theorem test_served_watch_set : ∀ op ∈ [0, 1, 2], (served (watchSetCmd op) (rq 1 ([op, 0, 0, 0, 1, 0, 0, 0] ++
    (if op = 0 then watchBytes else []))) up).isSome = true := by decide +kernel
/-- PROOF_RUN, start, of slot 0. -/
def proofBytes (flags : Nat) (t : List Nat) : List Nat := [0, flags, 0, 0] ++ t ++ (1 :: List.replicate 31 0)
theorem test_served_proof_start : (served proofStartCmd (rq 1 (proofBytes 0 (List.replicate 12 0))) (up.setf (slotKey 0 0) 63 1 1)).any
    (fun a => a.2.proof == 0) = true ∧ ∀ ns ∈ [1999, 2000], (served proofStartCmd (rq 1 (proofBytes 1 (tm ns 0)))
      (up.setf (slotKey 0 0) 63 1 1)).any (fun a => a.2.proof == 0 && !a.2.actionsFull &&
        a.2.due 0 (timeAt a.1.p 4) == (if ns = 1999 then .late else .scheduled)) = true := by decide +kernel
theorem test_served_proof_abort : (served proofAbortCmd (rq 1 [1, 0, 0, 0]) (up.setf Reg.proofState 0 8 2)).isSome = true := by decide +kernel
theorem test_served_perf_select : ∀ clear ∈ [0, 1], (served perfSelectCmd (rq 1 ([3, clear, 0, 0, 0, 0, 0, 0] ++ le8 (2 ^ 63) ++ le8 7)) up).isSome = true := by
  decide +kernel
theorem test_served_perf_read : (served perfReadCmd (rq 1 (le8 5)) up).isSome = true := by decide +kernel

/-! ### RegisterWriteChangesOneWord -/
theorem test_lands_register_write : lands (.command .host) Reg.catCfg 0 up = true ∧ lands (.bar0 8) Reg.catCfg 0 up = true ∧
    plainBlocks.contains (blockOf Reg.catCfg) = true := by decide +kernel
theorem test_refused_register_write : (up.fresh.writeErr false .sideband Reg.catCfg 0).isSome = true ∧
    ringRefused Reg.catCfg (up.landing Reg.catCfg 0) = none := by decide +kernel
/-- A BAR0 write without the lease, and one of a read-only word. -/
theorem test_discarded_register_write : (∀ o ∈ [0, 1], ∀ k ∈ [Reg.catCfg, Reg.devUid], (o = 0 ∨ k = Reg.devUid) →
    (((up.setOwner 0x10 o).fresh.active .host).writeErr true .host k 0).any (fun e => (e.st == .lease) == (o == 0 && k == Reg.catCfg)) = true) ∧
    ∀ k ∈ [Reg.catCfg, Reg.devUid], up.bar0Up && decide (bar0Offset k < 2 ^ 28) && bar0Mark (bar0Offset k) == k && bar0Offset k % 8 == 0 &&
      !msixWord k && !userPage k && (ringRefused k (up.landing k 0)).isNone = true := by decide +kernel

/-! ### DoorbellAndRingWritesAct -/
theorem test_lands_doorbells : ∀ v ∈ [0, 1, 16, 17, 65535], ∀ k ∈ [Reg.cmdDbCmd, Reg.cmdDbRpl, Reg.cmdDbEvt, Reg.p80RingDb 0, Reg.p80RingDb 9,
    Reg.qmonDb, Reg.ledgerRingDb 0], lands (.bar0 8) k v up = true := by decide +kernel
theorem test_lands_rings : ∀ x ∈ [(RingId.command, 0x80000004), (.reply, 4), (.event, 4), (.p80 0, 0x8B000004), (.qmon, 0x80000008),
    (.ledger 3, 0x80000008)], lands (.bar0 8) (ringCtrl x.1) x.2 up && ringExists x.1 = true := by decide +kernel

/-! ### SystemWritesAct -/
theorem test_lands_system : lands (.command .host) Reg.devReset 0xC0 up = true ∧ lands (.bar0 8) Reg.devReset 0xA0 up = true ∧
    (∀ n ∈ [0, 1, 2, 3, 15], lands (.command .host) (Reg.secKeyW n) 5 up = true) ∧
    lands (.command .host) Reg.secCtrl (setBits (up.get Reg.secCtrl) 0 1 1) up = true ∧ lands (.bar0 8) Reg.bufPoolCfg 64 up = true ∧
    (∀ e ∈ [0, 4095], ∀ c ∈ [0, 1], lands (.bar0 8) (retiredKey c e) (2 ^ 63) up = true) ∧ lands (.command .host) Reg.stackCfg (setBits (up.get Reg.stackCfg) 0 2 0) up = true ∧
    lands (.command .host) Reg.fdbFlush (2 ^ 32) up = true := by decide +kernel
theorem test_lands_pair_perf_i2c : lands (.command .host) Reg.pairCfg (setBits (up.get Reg.pairCfg) 0 2 1) up = true ∧
    up.f Reg.pairCfg 0 2 ≠ (landed (.command .host) Reg.pairCfg (setBits (up.get Reg.pairCfg) 0 2 1) up).f Reg.pairCfg 0 2 ∧
    (∀ v ∈ [0, 1], ∀ n ∈ [0, 63], lands (.command .host) (Reg.perfStatus n) v up = true) ∧
    (∀ k ∈ [0, 3], lands (.command .host) (Reg.i2cXfer (0x100 + k)) (setBits 0 63 1 1) up = true) := by decide +kernel

/-! ### LaneAndPlaneWritesAct -/
theorem test_lands_lanes : (∀ l ∈ [Lane.hl 0, .hl 31, .el 0, .el 47], ∀ v ∈ [1, 2], laneExists l && lands (.command .host) (laneKey l 6) v up &&
    lands (.bar0 8) (laneKey l 0x12) ((5 + v) % 16 + 16) up = true) ∧ (∀ p ∈ [0, 79], lands (.command .host) (Reg.macPortType p) 0 up &&
    lands (.bar0 8) (Reg.pcsLinkCtrl p) 1 up && lands (.bar0 8) (Reg.pcsLinkCtrl p) 2 up && lands (.bar0 8) (Reg.refselPortCfg (0x200 + p)) 0 up = true) ∧
    (∀ d ∈ [0, 7], lands (.command .host) (Reg.dpllCtrl d) 1 up = true) := by decide +kernel

/-! ### PacketTransportsServe -/
/-- `up` with the command ring enabled and two entries waiting. -/
def upRing : State :=
  let s := up.set Reg.cmdCmdrCtrl 0x80000004
  { s with ctl := { s.ctl with cmdProd := 2 } }
theorem test_fetch_one : (upRing.bar0Up && upRing.b Reg.cmdCmdrCtrl 31 &&
    (upRing.fresh.acceptEntries (upRing.ringSize Reg.cmdCmdrCtrl 4)
      ([⟨0x1000, 20, pk 0x81 0 []⟩].take
        (min 2 (upRing.replyFree - upRing.ctl.outstanding)))).2.length == 1) = true := by decide +kernel
/-- `upLink` with in-band control at address 0xAA on port 0, and, where on, the port enabled. -/
def upInband (on : Bool) : State := (upLink.set Reg.cmdInbandMac 0xAA).set Reg.cmdInbandPortsLo (bit on)
/-- An in-band IDENTITY_GET. -/
def inbandIdentity : List Byte := fr 0xAA 0xBB ([0x88, 0xB5] ++ (pk 0x81 3 []).map BitVec.toNat)
theorem test_inband_other : (taken 0 (fr 0x0A 0xBB [0x12, 0x34]) upLink.fresh).any (fun x => !x.2.isInband x.1) = true := by decide +kernel
theorem test_inband_taken : ∀ on ∈ [true, false], (taken 0 inbandIdentity (upInband on).fresh).any (fun x =>
    x.2.isInband x.1 && x.2.inbandPort 0 == on && x.2.serves 1 && hasMarker (x.1.drop 14) && decide (x.2.ctl.inbandOut < 16) &&
    (x.2.receivePacket { blankRequest .inband with port := 0, src := be48 x.1 6 } (x.1.drop 14)).2.isSome) = true := by
  decide +kernel
theorem test_inband_busy : (taken 0 inbandIdentity { upInband true with ctl := { (upInband true).ctl with inbandOut := 16 } }).any (fun x =>
    x.2.isInband x.1 && x.2.inbandPort 0 && x.2.serves 1 && hasMarker (x.1.drop 14) && decide (16 ≤ x.2.ctl.inbandOut)) = true := by
  decide +kernel
theorem test_sideband_start : (up.sbCheck 8).ctl.sbAccepted = [] ∧ (({ up with ctl := { up.ctl with sbReq := [pk 0x81 0 []] } } : State).fresh.sbCheck 8).ctl.sbAccepted.any
    (fun x => (cmdOf x.1.opcode x.2).isSome) = true ∧ up.sbSlots = 0 := by decide +kernel

/-! ### TimersAndEnginesAct -/
/-- `up` with a chain in progress on the PCIe rings, 100 ms old. -/
def upChain : State :=
  let t := replyToOf (rq 1 []) 0x0101 none
  { up.setSession .pcie (fun ses => { ses with chain := some ⟨0x0101, 7, [], false, false, 0, t⟩ }) with ticks := 125000001 }
theorem test_chain_old : ((upChain.transport .pcie).session.chain.any (fun c => decide (c.last + 125000000 < upChain.ticks))) = true := by
  decide +kernel
theorem test_engine_stopped : let s := { up.setEngine 7 (fun g => { g with running := false, restarts := 1 }) with words := (up.set Reg.fwOpRun 0).words }
    ((s.engine 7).selected && !(s.engine 7).running && (s.engine 7).restarts != 0 && s.engineHost 7 && s.imageLoaded 7 && (s.engine 5).running) = true := by
  decide +kernel
theorem test_mailbox_late : ∀ q ∈ [rq 1 [5, 0, 0, 0]], (arrived calRunCmd q up).any (fun a => (refusal calRunCmd a.1 a.2).isNone) &&
    (cmdOf 0x0900 (up.fresh.joined (replyToOf q 0x0900 none) q.payload)).isSome = true := by decide +kernel
theorem test_bar0_words : (up.bar0Up && msixWord (bar0Mark (bar0Offset 0x43FE000)) && defined (bar0Mark (bar0Offset Reg.catCfg)) &&
    !msixWord (bar0Mark (bar0Offset Reg.catCfg)) && up.on (pdOfWord (bar0Mark (bar0Offset Reg.catCfg))) &&
    !defined (bar0Mark (8 * 511)) && !msixWord (bar0Mark (8 * 511))) = true := by decide +kernel

/-! ### ResetsAct -/
theorem test_reset_codes_due : ∀ b ∈ [true, false], ({ up with boot := { up.boot with resetDue := some (b, 0) } } : State).boot.resetDue = some (b, 0) ∧
    0 ≤ up.ticks := by decide +kernel

/-! ### StartUpStepsAct -/
theorem test_cold_boot_counts : (State.reset.fresh.e0Start).boot.countKnown = false ∧ (State.reset.fresh.e0Start).serves 0 = true ∧
    (State.reset.fresh.e0Start).boot.stage = 0 ∧ headerNow (State.reset.fresh.e0Start).boot.flash = none ∧
    (State.reset.fresh.e0Start).b Reg.devStraps 0 = false ∧ ((State.reset.set Reg.devStraps 1).fresh.e0Start).b Reg.devStraps 0 = true ∧
    ((State.reset.set Reg.devStraps 1).fresh.e0Start).serves 0 = true := by decide +kernel
/-- The flash with a valid header copy 0: the bytes between its first 15 and its CRC are erased. -/
def upFlash : State := up.setFlash (Flash.writeAll (Flash.writeAll [] 0 (headBytes 0)) 4092 (toLe 4 2209058286))
theorem test_flash_header : headerAt upFlash.boot.flash 0 = headBytes 0 ++ List.replicate 4077 0xFF ++ toLe 4 2209058286 := by
  show Flash.slice _ 0 (15 + 4077 + 4) = _
  rw [Flash.slice_add, Flash.slice_add, Flash.slice_erased _ (0 + 15) 4077 (by decide +kernel)]; rfl
set_option maxRecDepth 100000 in
theorem test_header_code : headerCode (headBytes 0 ++ List.replicate 4077 0xFF ++ toLe 4 2209058286) = 1 := by decide +kernel
theorem test_header_erased : headerAt upFlash.boot.flash 1 = List.replicate 4096 0xFF :=
  Flash.slice_erased _ _ _ (by decide +kernel)
theorem test_boot_header_valid : headerNow upFlash.boot.flash = some 0 ∧ 256 ≤ upFlash.boot.flashMib := by
  have h : headerCode (List.replicate 4096 0xFF) = 3 := by decide +kernel
  exact ⟨by simp only [headerNow, test_flash_header, test_header_erased, test_header_code, h]; rfl, by decide +kernel⟩
/-- `up` with a whole operational image of 16 body bytes in slot 0, its entries at offset 0; the unit is unsecured. -/
def upImage : State :=
  let body := List.replicate 16 (7 : Byte)
  let h := ([0x48, 0x58, 0x49, 0x4D, 1, 1, 1, 0, 5, 0, 0, 0, 0, 0, 1, 0, 1, 0, 1, 0, 16, 0, 0, 0, 0].map (BitVec.ofNat 8)) ++
    zeros 7 ++ sha384 body ++
    (List.range 12).flatMap (fun e => toLe 4 (if (kindEngines 1).contains e then 0 else 0xFFFFFFFF))
  up.setFlash (Flash.writeAll [] (slotPlace 1 0).1 (h ++ List.replicate 128 (0xFF : Byte) ++ body))
set_option maxRecDepth 100000 in
theorem test_image_passes : upImage.slotCode [] 1 0 = 1 := by decide +kernel
/-- `up` while its images wait to be loaded. -/
def upLoading : State :=
  { (up.set Reg.fwOpRun (0xFF * 2 ^ 48)).set Reg.fwTimeRun (0xFF * 2 ^ 48) with
    boot := { up.boot with headerCopy := some 0, stage := 2, opSlot := some 0, timeSlot := some 1, tablesLoaded := false } }
theorem test_image_steps : up.serves 0 = true ∧
    (∀ kind ∈ [1, 2], upLoading.on 2 = true ∧ upLoading.runningSlot kind = 0xFF ∧ upLoading.serves 0 = true ∧
      (if kind = 1 then upLoading.boot.opSlot else upLoading.boot.timeSlot).isSome = true) ∧
    (upLoading.on 4 && upLoading.on 6 && !upLoading.boot.tablesLoaded && upLoading.boot.stage == 2 && upLoading.serves 0) = true ∧
    (upLink.on 5 && upLink.boot.tablesLoaded && upLink.serves 8) = true := by decide +kernel
theorem test_images_selectable : let s : State := { up with boot := { up.boot with headerCopy := some 0, stage := 1 } }
    s.boot.headerCopy = some 0 ∧ s.boot.stage = 1 ∧ s.serves 0 = true := by decide +kernel

/-! ### PowerAndFlashEventsAct -/
theorem test_power_ends : (∀ n ∈ [1, 7, 14], (up.setPd n 1).pd n = 1 ∧ (requires n).all (up.setPd n 1).on = true) ∧
    (∀ n ∈ [1, 7, 15], (up.setPd n 3).pd n = 3 ∧ ∀ m < 16, n ∈ requires m → (up.setPd n 3).pd m = 0) := by decide +kernel
/-- `up` with a FW_STAGE and a FW_ACTIVATE open. -/
def upOpen (final : Bool) : State :=
  let t := replyToOf (rq 2 []) 0x0C00 none
  { up with ctl := { up.ctl with deferred := [⟨t, .flash 2 1 true final 0 [1], true, false⟩, ⟨t, .activate 1 1, true, false⟩] } }
theorem test_flash_open : ∀ f ∈ [true, false], ((upOpen f).ctl.deferred.find? Deferred.stages).isSome = true ∧ (upOpen f).serves 0 = true ∧
    ((upOpen f).ctl.deferred.find? Deferred.activates).isSome = true ∧ (upOpen f).on 2 = true := by decide +kernel
set_option maxRecDepth 100000 in
theorem test_trial_over : ∀ kind ∈ [1, 2, 3], let s : State := { upHeader 7 with ticks := 2 ^ 40, boot := { (upHeader 7).boot with trialAt := [(kind, 0)] } }
    s.serves 0 = true ∧ s.primaryNow.2.testBit (kind - 1) = true ∧ s.f Reg.fwTrialS 0 32 * 1250000000 ≤ s.ticks := by decide +kernel

/-! ### IslandAndMemoryFaultsAct -/
theorem test_islands : (∀ i ∈ [0, 4, 5, 14, 17, 18, 21], up.islandUp i = true) ∧
    (∀ i ∈ [0, 4, 5, 14, 18, 21], (up.setf (Reg.clkIslStatus i) 0 2 0).islandUp i = false ∧ (up.setf (Reg.clkIslStatus i) 0 2 0).on (islandPd i) = true) ∧
    up.timeUp = true ∧ up.ticks % 1024 = 0 := by decide +kernel

/-! ### LaneStatesMove -/
theorem test_lane_states : laneExists (.el 0) = true ∧ laneExists (.hl 31) = true ∧ (∀ x ∈ [1, 2, 4, 5, 6], (upLane x).rxState (.el 0) = x) ∧
    (upLane 2).f (laneKey (.el 0) 3) 8 2 = 0 ∧ ((upLane 2).setf (laneKey (.el 0) 3) 8 2 2).f (laneKey (.el 0) 3) 8 2 ≠ 0 := by decide +kernel
theorem test_alignment_losses : let s := (upLane 4).setf (laneKey (.el 0) 0) 8 4 2
    s.rxState (.el 0) = 4 ∧ s.alignmentLost (.el 0) (List.replicate 16 false) = true ∧
    s.alignmentLost (.el 0) (List.replicate 15 false) = false := by decide +kernel
/-- Port 0 of type 9 over its four lanes in ALIGN. -/
def upFour : State := (up.set (Reg.macPortType 0) 9).forEach [0, 1, 2, 3] (fun i s => s.setf (laneKey (.hl i) 5) 0 4 3)
theorem test_port_lanes : (∀ x ∈ [3, 6], (upLane x).portLanes 32 ≠ [] ∧ ∀ l ∈ (upLane x).portLanes 32, (upLane x).rxState l = x) ∧
    1 < (upFour.portLanes 0).length ∧ ∀ l ∈ upFour.portLanes 0, upFour.rxState l = 3 := by decide +kernel
theorem test_lane_sleeps : lowestLane 32 = .el 0 ∧ (let s := ((upLane 4).set (Reg.macLinkStatus 32) 3).set (Reg.pwrPlanP 32) 2; s.codeInUse 32 ∈ [1, 3, 4, 5] ∧ s.rxState (.el 0) = 4 ∧ s.b (Reg.pwrPlanP 32) 1 = true ∧ s.rxTiming (.el 0) = false ∧
    (s.set (Reg.pwrPlanP 32) 0).b (Reg.pwrPlanP 32) 1 = false) := by decide +kernel

/-! ### LaneMeasuresAndPortLinksAct -/
theorem test_lane_measures : let s := (upLane 4).setf (laneKey (.el 0) 3) 8 2 2
    s.rxState (.el 0) = 4 ∧ s.f (laneKey (.el 0) 3) 8 2 = 2 ∧ s.rxTiming (.el 0) = false ∧ (upLane 1).rxState (.el 0) ≠ 4 ∧
    (s.setf (laneKey (.el 0) 0x13) 0 8 1).f (laneKey (.el 0) 0x13) 0 8 = 1 ∧ s.f (laneKey (.el 0) 0x13) 0 8 ≠ 1 ∧
    ((s.set Reg.healthSelftest 0xFF).set Reg.pairCfg 1 |>.setf Reg.pairState 8 4 1).selfTest 2 = true := by decide +kernel
theorem test_port_links : let s := upLane 4
    s.portType 32 ≠ 0 ∧ (∀ l ∈ s.portLanes 32, s.rxState l = 4) ∧ s.b (Reg.macLinkStatus 32) 8 = false ∧
    s.on (portPd 32) = true ∧ s.islandUp (portIsland 32) = true ∧ s.timingMarks 32 = (false, false) ∧
    (s.setf (laneKey (.el 0) 1) 9 2 1).timingMarks 32 = (true, false) := by
  decide +kernel

/-! ### FramesReceivedAndLearned -/
/-- No report of the PCS. -/
def clean : PcsReport := ⟨false, false, false, 0, 0, 0, 0, 0, false⟩
theorem test_frames_taken : let f := fr 0x010203040506 0x0A0B0C0D0E0F [0x08, 0]
    upLink.hears 0 = true ∧
    upLink.rxErr 0 f.length clean f = 0 ∧ upLink.rxErr 0 59 clean (f.take 59) ≠ 0 ∧ up.hears 0 = false := by decide +kernel
/-- A state with an address to learn on port 3. -/
def upLearn (tables : Tables) (learned : List Learned) : State :=
  { upLink with fwd := { upLink.fwd with learnQueue := [(5, 3, 0)], tables := tables, learned := learned } }
theorem test_learn_cases :
    (assoc (upLearn { Tables.empty with fdb := [(5, [])] } []).fwd.tables.fdb 5).isSome = true ∧
    (assoc (upLearn .empty []).fwd.tables.fdb 5) = none ∧ (upLearn .empty []).fwd.learned.find? (fun x => x.key == 5) = none ∧
    (∀ p ∈ [2, 3], (⟨5, [(0, some (0, p))], 0, false⟩ : Learned).final = some (0, p)) := by decide +kernel
theorem test_snoops : up.serves 10 = true ∧ (0x01005E000001 : Nat).testBit 40 = true := by decide +kernel
theorem test_host_frames : (upHost.on 1 && upHost.b (Reg.p80RingCtrl 8) 31) = true ∧ upHost.f (Reg.p80RingDev 8) 0 16 ≠ upHost.rings.counts.getD 8 0 ∧
    upHost.rings.nextIn ≤ 60 * upHost.ticks ∧ upHost.portReady 0 = true ∧ upHost.portReady 2 = false ∧ 60 ≤ upHost.f (Reg.macMaxFrame 0) 0 14 - 4 ∧
    u8 (entryOf 60 127 0) 10 = 127 ∧ u16 (entryOf 60 127 0) 8 = 60 := by decide +kernel

/-! ### EgressSendsAndReleases -/
/-- A state ready for the next frame of port 0. -/
def ready (s : State) : State := s.fresh.epochDue.egressReady 0
theorem test_sends_next : ((ready (upQueued 6)).side 0).sending = none ∧ (ready (upQueued 6)).strict 0 = some 6 ∧ (ready (upQueued 2)).strict 0 = none ∧
    ((ready (upQueued 2)).choose 0).2 = some 2 ∧ ((ready upLink).choose 0).2 = none ∧ (ready upLink).strict 0 = none ∧
    ((ready (upQueued 2)).side 0).preempted = none := by decide +kernel
/-- A frame of 500 bytes of queue 2 being sent by port 0 for 200 ticks, with preemption active and, for q below 8, another copy of
it in queue q; or preempted there. -/
def upSending (preempted : Bool) (q : Nat) : State :=
  let s := after (.egressFrameStart 0 0) (after (.hostFrameSubmit (entryOf 500 0 2) (List.replicate 500 1)) upBuf)
  let s := s.setSide 0 (fun x => if preempted then { x with sending := none, preempted := x.sending } else x)
  let s := { s with ticks := 200 }
  (match (s.side 0).sending with
    | some t => if q = 8 then s else s.setQ 0 q { s.q 0 q with copies := [t.copy] }
    | none => s).setf (Reg.macMergeStatus 0) 0 4 3
theorem test_preempts : let s := ready (upSending false 6)
    (s.side 0).sending.any (fun t => s.cutPoint 0 t == some 200) = true ∧ s.strict 0 = some 6 ∧ (s.side 0).preempted = none ∧
    (let r := ready (upSending false 8); (r.side 0).sending.any (fun t => r.cutPoint 0 t == none) = true ∧ r.strict 0 = none) := by
  decide +kernel
theorem test_resumes : let s := ready (upSending true 8)
    (s.side 0).sending = none ∧ s.strict 0 = none ∧ (s.side 0).preempted.any (fun t =>
      s.portSends 0 && s.gateFits 0 t.queue (t.left + s.overhead 0)) = true := by decide +kernel

/-! ### FlowControlAndLpiAct -/
theorem test_pfc_refresh : (bitsSet 4 7).filter (fun k => upBuf.b (Reg.pauseStatus 0) (8 + k) && decide (upBuf.f (Reg.pfcWmP 0 k) 0 18 < upBuf.pfcCells 0 k)) = [] := by
  decide +kernel
theorem test_pauses : upLink.receives 0 = true ∧ (upLink.setf (Reg.pauseStatus 0) 16 1 1).b (Reg.pauseStatus 0) 16 = true ∧
    (bitsSet 3 7).filter (fun k => (upLink.setf (Reg.pauseStatus 0) 0 7 1).b (Reg.pauseStatus 0) k) = [0] ∧
    (∀ m ∈ [0xFF, 1], (if m = 0xFF then (if ((0x101 : Nat).testBit 8) then 0x100 else 0) else maskOf ((bitsSet m 7).filter (fun k => (0x101 : Nat).testBit k))) ≠ 0) ∧
    ((upLink.setSide 0 (fun x => { x with ignoring := 0x101 })).side 0).ignoring = 0x101 := by decide +kernel
theorem test_lpi_ready : let s := (upLink.setf (laneKey (lowestLane 0) 5) 4 4 2).set (Reg.pwrPlanP 0) 1
    lpiType (s.codeInUse 0) = true ∧ s.b (Reg.pwrPlanP 0) 0 = true ∧ s.txTiming (lowestLane 0) = false ∧ s.portReady 0 = true ∧
    s.portIdle 0 = true ∧ s.txState (lowestLane 0) = 2 ∧ (upQueued 6).portIdle 0 = false := by decide +kernel
theorem test_merge_states : ∀ st ∈ [1, 2], (upLink.setf (Reg.macMergeStatus 0) 0 4 st).f (Reg.macMergeStatus 0) 0 4 = st ∧
    upLink.b (Reg.macLinkStatus 0) 8 = true ∧ (upLink.setf (Reg.macMergeCfg 0) 24 4 3).f (Reg.macMergeCfg 0) 24 4 = 3 := by decide +kernel
theorem test_pfc_refreshed : let s := ((upQueued 2).setf (Reg.pauseStatus 0) 10 1 1).set (Reg.pfcWmP 0 2) 0
    let s : State := { s with buf := { s.buf with frames := s.buf.frames.map (fun f => { f with port := 0, prio := 2 }) } }
    (bitsSet 4 7).filter (fun k => s.b (Reg.pauseStatus 0) (8 + k) && decide (s.f (Reg.pfcWmP 0 k) 0 18 < s.pfcCells 0 k)) = [2] := by decide +kernel

/-! ### SpeedStepsAct -/
/-- Port 32 of type 4 at 10 Gb/s, ready, with stepping allowed at once, its load marks 10 and 80 % and its depth mark 5 cells. -/
def upStep (step : Nat) : State :=
  let s := (((upLink.set (Reg.macPortType 32) 4).set (Reg.macCfg 32) 3).set (Reg.macLinkStatus 32) 0x303).setPortReady 32 true
  let s := (s.set Reg.macStepTlv 0x123456).set (Reg.pwrPlanP 32) 0xFF
  let s := ((s.set (Reg.macStepCfg 32) (5 * 2 ^ 32 + 80 * 2 ^ 24 + 10 * 2 ^ 16)).setf (Reg.macStepStatus 32) 4 4 step)
  { s with ticks := 2 ^ 60 }
theorem test_step_may : let s := upStep 0
    (s.maySteps 32 && s.dwelt 32 && decide (s.f (Reg.macStepStatus 32) 4 4 < 2) && (s.side 32).stepCode == 0xFF && s.portReady 32) = true ∧
    speedOf (s.codeInUse 32) < speedOf (s.portType 32) ∧ s.lowestSpeed 32 < speedOf (s.codeInUse 32) ∧ 5 < s.f (Reg.macStepCfg 32) 16 8 ∧
    s.f (Reg.macStepCfg 32) 24 8 < 90 ∧ (s.side 32).stepRefused = none ∧
    (List.range 8).any (fun q => decide (s.f (Reg.macStepCfg 32) 32 16 ≤ s.occ 32 q)) = false ∧
    (List.range 8).any (fun q => decide ((s.setf (Reg.macStepCfg 32) 32 16 0).f (Reg.macStepCfg 32) 32 16 ≤ s.occ 32 q)) = true := by decide +kernel
theorem test_step_tlv : (upStep 0).f Reg.macStepTlv 0 32 ≠ 0 ∧ (upStep 0).agreesStep 32 4 true = true ∧ (upStep 0).agreesStep 32 2 true = true ∧
    (upStep 0).agreesStep 32 2 false = false ∧ (∀ st ∈ [0, 2], (upStep st).f (Reg.macStepStatus 32) 4 4 = st) := by
  decide +kernel
theorem test_step_agreed : let s := (upStep 2).setSide 32 (fun x => { x with stepSent := true, stepHeard := true, stepCode := 2 })
    (s.side 32).stepSent = true ∧ (s.side 32).stepHeard = true ∧ (s.side 32).stepCode ≠ 0xFF ∧ ((upStep 2).side 32).stepHeard = false := by decide +kernel

/-! ### ScheduledActionsExecute -/
/-- `upLink` with one action that is due. -/
def upDue (opcode : Nat) (data : List Nat) : State :=
  { upLink with clock := { upLink.clock with actions := [⟨1, opcode, 7, 1, 0, 0, data.map (BitVec.ofNat 8)⟩] } }
theorem test_actions_due : (∀ op ∈ [0x0601, 0x0B00, 0x0D01, 0x0500, 0x0A00, 0x0301, 0x0302], ((upDue op []).dueAction 1 op).isSome = true) ∧
    (upDue 0 []).dueAction 2 0x0601 = none ∧ (upDue 0x0601 [1, 0, 0]).switchReady [] = true ∧ upLink.on 4 = true ∧ upLink.proofUp = true ∧
    ((upDue 0x0B00 []).setf Reg.pwrState 8 2 0).on 4 = false ∧
    ((upDue 0x0D01 []).setEngine 10 (fun g => { g with running := false })).proofUp = false ∧
    (stepOf ((zeros 16) ++ [1] ++ zeros 7)).real = true ∧ (stepOf (zeros 24)).real = false ∧
    ((upDue 0x0302 []).dropAction 1).steered 0 = false ∧ (((upDue 0x0302 []).setf Reg.devTdLevel 0 4 2).dropAction 1).steered 0 = true := by decide +kernel

/-! ### EpochsSnapshotsMirrorsAct -/
/-- `upLink` with another epoch, pending or draining. -/
def upEpoch (st t since : Nat) (slow : Bool) : State :=
  { upLink with ticks := 2 ^ 40, fwd := { upLink.fwd with other := some ⟨st, 3, 0, t, [], [], since, slow⟩, tables := { Tables.empty with mirr := [(0, [1, 0, 2] ++ zeros 9 ++ [5] ++ zeros 35)] } } }
theorem test_epochs : 0 ≤ (upEpoch 1 0 0 false).now 0 ∧ (upEpoch 1 (2 ^ 90) 0 false).now 0 < 2 ^ 90 ∧ (upEpoch 2 0 0 false).framesOf 3 = 0 ∧
    0 + (upEpoch 2 0 0 false).f Reg.catEpochCfg 32 16 * 1250000 < (upEpoch 2 0 0 false).ticks ∧
    (let s : State := { upQueued 2 with buf := { (upQueued 2).buf with frames := (upQueued 2).buf.frames.map (fun f => { f with epoch := 3 }) } }
     s.framesOf 3 ≠ 0) := by decide +kernel
theorem test_snapshots : ∀ b ∈ [true, false], let s : State := { up with snap := { up.snap with captured := some [(0, 5)], scheduled := b } }
    s.snap.captured = some [(0, 5)] ∧ (s.fresh.fillBank s.snap.bank [(0, 5)]).snap.scheduled = b := by decide +kernel
theorem test_mirrors : let s := (upEpoch 2 0 0 false).setf (Reg.mirrStatus 0) 0 2 2
    (assoc s.fwd.tables.mirr 0).any (fun e => !(u8 e 0).testBit 1 && decide (s.occ (u8 e 1) (u8 e 2) < u16 e 12) &&
      decide ((s.mirror 0).high + u16 e 14 * 1250000 ≤ s.ticks)) = true ∧
    s.f (Reg.mirrStatus 0) 0 2 = 2 ∧ u16 (zeros 48) 12 ≤ s.occ 0 0 := by decide +kernel

/-! ### StacksAuditAndMonitoringAct -/
/-- Queue 2 of port 0 spilling into channel 0: a copy of two cells in its tail, a page under write, and one being read. -/
def upSpill : State :=
  let g : Page := { ch := 0, num := 5, parts := [(1, 2)], newest := none }
  let c : Copy := { frame := 0, serial := 1, cells := 2, on := 2, pages := 0, writing := 0, seg := 1, lent := false, len := 300, mirror := none
                    sample := none, kind := 0, polDrop := false, frerElim := false, untag := false, ts := none, cut := false }
  let s : State := { upBuf with ticks := 2 ^ 40, buf := { upBuf.buf with trainedOrg := [(0, 1)], abandoned := [(2, 5, [])] } }
  let s := ((s.setf (Reg.stackChStatus 1) 0 4 2).setf Reg.stackCfg 0 1 1).setf (Reg.stackQCfg 0x100 2) 63 1 1
  let s := (s.set Reg.auditCfg 1).set Reg.qmonRingCtrl 0x80000004
  s.setQ 0 2 { Queue.reset with copies := [c], chain := [g], writing := [{ g with num := 6 }], state := 1, reads := 1 }
theorem test_spills : (upSpill.q 0 2).state = 1 ∧ upSpill.maySpill 0 2 = true ∧ upSpill.packDue 0 2 = true ∧ (upSpill.q 0 2).writing ≠ [] ∧
    upSpill.nextChannel = some 0 ∧ upSpill.pageFree 0 7 = true ∧ upSpill.spillUp = true ∧ (upSpill.q 0 2).chain ≠ [] ∧
    upSpill.channelUp 0 = true ∧ (upSpill.q 0 2).reads ≠ 0 ∧ upSpill.buf.abandoned = [(2, 5, [])] := by decide +kernel
theorem test_trains : let s := upSpill.setf (Reg.stackChStatus 2) 0 4 1
    s.on 9 = true ∧ s.islandUp 13 = true ∧ s.channel 1 = 1 ∧ s.f (Reg.stackChOrg 2) 0 8 = 0 ∧ s.channel 0 = 2 ∧ assoc s.buf.trainedOrg 0 ≠ some 0 ∧
    (s.setf (Reg.stackChOrg 2) 0 8 1).f (Reg.stackChOrg 2) 0 8 = 1 := by decide +kernel
theorem test_audits : upSpill.b Reg.auditCfg 0 = true ∧ upSpill.spillUp = true ∧ upSpill.buf.auditTick = none ∧ upSpill.b Reg.qmonRingCtrl 31 = true ∧
    upSpill.on 4 = true ∧ upSpill.timeUp = true ∧ upSpill.qmon.sampled ≠ some upSpill.qmonInstant := by decide +kernel

/-! ### GatesRecoveryAndWatchAct -/
/-- `up` at a late instant with recovery function 3, LATENT_EN set and every period 0, whose last frame passed at the start, a
committed calendar at port 0 and one held at port 1. -/
def upRecovers : State :=
  let k : Calendar := ⟨0, 0, 1000, [0], [0, 0, 0], 0⟩
  let e : List Byte := [8] ++ zeros 47
  let s : State := { up with ticks := 2 ^ 40, fwd := { up.fwd with tables := { Tables.empty with rcvy := [(3, e)] } } }
  let s : State := { s.set Reg.devReady (2 ^ 19) with red := { s.red with lastPass := [(3, 0)] } }
  (s.setGate 0 (fun x => { x with committed := some (k, 0, 0) })).setGate 1 (fun x => { x with hold := some (0, 0), oper := some k })
theorem test_recovers : (upRecovers.gate 0).committed.isSome = true ∧ 0 ≤ upRecovers.now 0 ∧ (upRecovers.gate 1).hold = some (0, 0) ∧
    (upRecovers.gate 1).oper.isSome = true ∧ (upRecovers.rcvy 3).any (fun e => decide (u16 e 4 ≤ (upRecovers.ticks - 0) / msTicks) && (u8 e 0).testBit 3 &&
      decide ((upRecovers.latentSince 3).2 + u16 e 24 * msTicks ≤ upRecovers.ticks) &&
      decide ((upRecovers.latentSince 3).1 + u32 e 28 * msTicks ≤ upRecovers.ticks) &&
      decide (upRecovers.latentValue 3 e - (assoc upRecovers.red.latentBase 3).getD 0 ≤ (u16 e 22 : Int)) &&
      decide ((u16 e 22 : Int) < upRecovers.latentValue 3 e + 1)) = true ∧ assoc upRecovers.red.lastPass 3 = some 0 ∧
    upRecovers.serves 5 = true ∧ upRecovers.watchUp = true ∧ upRecovers.red.evaluated = none := by decide +kernel

/-! ### ProofRunsAct -/
/-- `upLink` with a proof run in its slot 0 of 100 probes, so many of them sent. -/
def upProof (sent : Nat) : State :=
  let s := (upLink.set Reg.proofState (7 * 2 ^ 32 + 2)).set Reg.cmdInbandMac 0x0A
  { s with ticks := 2 ^ 40, red := { s.red with probesSent := sent, slotStart := 2 ^ 40 - sent * 2 ^ 21 } }
/-- A probe (1) or an echo (2) of run 7, slot 0. -/
def probe (kind : Nat) : List Byte := fr 0x0A 0xBB ([0x88, 0xB6, 0x1D, 0x9F, 1, kind] ++ le4 7 ++ [0, 0] ++ List.replicate 50 0)
set_option maxRecDepth 100000 in
theorem test_proof_sends : (upProof 0).proof = 2 ∧ (upProof 0).proofUp = true ∧ 0 < (upProof 0).slotProbes 0 ∧
    (upProof 0).red.slotStart + 0 * (upProof 0).f (slotKey 0 2) 18 20 * 1250 ≤ (upProof 0).ticks ∧ (upProof 0).portReady 82 = false ∧
    ((upProof 0).setPortReady 82 true).portReady 82 = true ∧ (upProof 100).red.probesSent = (upProof 100).slotProbes 0 ∧
    (upProof 100).red.slotStart + (upProof 100).slotTicks 0 ≤ (upProof 100).ticks := by decide +kernel
set_option maxRecDepth 100000 in
theorem test_proof_frames : (taken 0 (probe 1) (upProof 0).fresh).any (fun x => x.2.isProbe x.1 && u8 x.1 (probeOff x.1 + 3) == 1) = true ∧
    (taken 0 (fr 0x0A 0xBB [0x12, 0x34]) (upProof 0).fresh).any (fun x => !x.2.isProbe x.1) = true ∧
    (taken 0 (probe 2) (((upProof 0).setf (slotKey 0 2) 0 18 1).fresh)).any (fun x =>
      let v := x.2.mirrorTaken 0 x.1 (probe 2).length; let y := x.1.drop (probeOff x.1)
      x.2.isProbe x.1 && u8 y 2 == 1 && u8 y 3 == 2 && v.proof == 2 && v.proofUp && u32 y 4 == v.proofRun && u8 y 8 == v.proofSlot &&
      decide (u8 y 9 < 8) && decide (v.ticks < v.red.slotStart + v.slotTicks v.proofSlot)) = true := by decide +kernel

/-! ### LedgerFollowsItsRules -/
/-- `up` with ledger ring 0 enabled and every domain selected, and so many records lost. -/
def upLedger (lost : Nat) : State :=
  let s := ((up.set (Reg.ledgerRingCtrl 0) 0x80000004).set (Reg.ledgerRingSel 0) (2 ^ 40 - 1)).set Reg.ledgerEvinEn 0xFF
  (s.setLedger 0 (fun l => { l with lost := lost }))
theorem test_ledger_runs : (upLedger 0).ledgerOn 0 = true ∧ (upLedger 0).timeUp = true ∧ ((upLedger 0).ledgerRing 0).lost = 0 ∧
    (upLedger 0).on 1 = true ∧ ((upLedger 5).ledgerRing 0).lost ≠ 0 ∧ 16 ≤ (upLedger 5).ledgerFree 0 := by decide +kernel
/-- A record of port 3, of a kind that ring 0 takes, that a servo engine takes, or that no ring takes. -/
def gapAt (kind : Nat) (engine : Bool) (full : Bool) : State :=
  let s := upLedger 0
  let s := if full then s.setLedger 0 (fun l => { l with lost := 1 }) else s
  s.setFifo 3 { s.fifo 3 with gap := some { first := ⟨kind, ⟨0, 0, 0, 0⟩, 0, 3, 0, 0, false, 0, engine⟩, count := 2, lastSeq := 1 }, held := [] }
theorem test_gap_taken : ((gapAt 3 false false).fifo 3).gap.isSome = true ∧ ((gapAt 3 false false).fifo 3).held = [] ∧
    ((gapAt 3 false false).setFifo 3 { (gapAt 3 false false).fifo 3 with gap := none }).ringFor 3 0 = some 0 ∧
    ((gapAt 3 false false).ringResume 0).ledgerRoom 0 1 = true ∧
    ∀ full ∈ [true, false], (((gapAt 3 false full).set (Reg.ledgerRingCtrl 0) (0x80000000 * (1 - bit full))).ringFor 3 0).isNone = full := by
  decide +kernel
/-- A ring whose entries are all unconsumed, so that it cannot resume. -/
def gapFull : State :=
  let s := gapAt 3 false true
  s.set (Reg.ledgerRingProd 0) (2 ^ s.f (Reg.ledgerRingCtrl 0) 0 5)
theorem test_gap_lost : gapFull.ringFor 3 0 = some 0 ∧ (gapFull.ringResume 0).ledgerRoom 0 1 = false := by decide +kernel
/-- A rising edge on EVIN2: the first, one close after another, and one that a divider by 2 holds back. -/
def upEvin (div : Nat) (last : Option Nat) : State :=
  let s := (upLedger 0).set (Reg.tdcInCfg 2) div
  let s := { s with ticks := 5000 }
  match last with | some t => s.setTdc (fun x => { x with evLast := [(2, t)] }) | none => s
theorem test_evin_edges : (upEvin 0 none).b Reg.ledgerEvinEn 2 = true ∧ ((upEvin 2 none).divide 2 (upEvin 2 none).tdc.evDivs).1 = false ∧
    ((upEvin 0 none).divide 2 (upEvin 0 none).tdc.evDivs).1 = true ∧ assoc (upEvin 0 (some 4000)).tdc.evLast 2 = some 4000 ∧
    5000 < 4000 + 1250 ∧ assoc (upEvin 0 none).tdc.evLast 2 = none := by decide +kernel

/-! ### TdcMeasures -/
/-- A measurement that runs on EVIN0 in a mode, with an edge of B waiting and, where paired, one of A. -/
def upTdc (mode div : Nat) (start line : Nat) (paired : Bool) : State :=
  let s := ((up.setf Reg.tdcState 0 4 2).set (Reg.tdcInCfg 0) div).setTdc (fun x => { x with
    mode := mode, a := 0, b := 1, grid := 0, start := start, lines := [line, line], edgesB := [(0, 0)],
    edgesA := if paired then [(0, 0)] else [] })
  { s with ticks := 2 ^ 42 }
theorem test_tdc_edges : (upTdc 0 0 0 0 true).timeUp = true ∧ (upTdc 0 0 0 0 true).armed 0 = true ∧ (upTdc 0 0 0 0 true).inputLive 0 = true ∧
    ((upTdc 0 2 0 0 true).divide 0 (upTdc 0 2 0 0 true).tdc.divs).1 = false ∧
    ((upTdc 0 0 0 0 true).divide 0 (upTdc 0 0 0 0 true).tdc.divs).1 = true ∧ (upTdc 0 0 0 0 true).tdcPhase = 2 ∧
    (upTdc 0 0 0 0 true).tdc.lines.getD (upTdc 0 0 0 0 true).tdc.next 0 ≤ (upTdc 0 0 0 0 true).ticks ∧
    (upTdc 0 0 0 (2 ^ 43) true).ticks < (upTdc 0 0 0 (2 ^ 43) true).tdc.lines.getD (upTdc 0 0 0 (2 ^ 43) true).tdc.next 0 := by decide +kernel
theorem test_tdc_pairs : (upTdc 1 0 0 0 true).tdc.partner 0 = some (0, 0) ∧ (upTdc 1 0 0 0 false).tdc.partner 0 = none ∧
    (upTdc 1 0 0 0 true).tdc.mode = 1 ∧ 0 + (upTdc 1 0 0 0 true).tdc.grid ≤ (upTdc 1 0 0 0 true).runNow (upTdc 1 0 0 0 true).tdc.dom ∧
    (upTdc 1 0 0 0 true).tdc.lastTick + (upTdc 1 0 0 0 true).tdc.timeout * 1250000000 ≤ (upTdc 1 0 0 0 true).ticks := by decide +kernel

/-! ### PtpPortsAct -/
/-- `upLink` with PTP instance 0 in engine mode on port 0 at a late instant; the engine may have reached its rate. -/
def upPtp (full : Bool) : State :=
  let s := (upLink.set (Reg.ptpInstCfg 0x3F0) (2 ^ 62)).set (Reg.ptpPortCfg (ptpPort 0 0)) (2 ^ 63)
  let s := { s.set (Reg.ptpInstStatus 0x3F0) 0 with ticks := 2 ^ 42 }
  if full then { s with ptp := { s.ptp with second := [2 ^ 42, 2 ^ 42], handled := [50000, 0] } } else s
/-- A Sync (0) or Announce (11) message. -/
def ptpMsg (kind : Nat) : List Byte := fr 0x011B19000000 0xBB ([0x88, 0xF7, kind, 2, 0, 64] ++ List.replicate 60 0)
theorem test_ptp_taken : (∀ kind ∈ [0, 11], (taken 0 (ptpMsg kind) (upPtp false).fresh).any (fun x =>
      let v := x.2.mirrorTaken 0 x.1 (ptpMsg kind).length
      (x.2.ptpTaken (x.2.parsed 0 x.1) x.1 0).isSome && v.ptpTaken (v.parsed 0 x.1) x.1 0 == some 0 && v.instRuns 0 && (v.handle 0).1 &&
      (u8 x.1 (v.parsed 0 x.1).ptpOff % 16 == kind)) = true) ∧
    ((taken 0 (ptpMsg 0) (upPtp true).fresh).any (fun x =>
      let v := x.2.mirrorTaken 0 x.1 (ptpMsg 0).length
      v.ptpTaken (v.parsed 0 x.1) x.1 0 == some 0 && v.instRuns 0 && !(v.handle 0).1)) = true ∧
    ((taken 0 (fr 0x0A 0xBB [0x12, 0x34]) (upPtp false).fresh).any (fun x => (x.2.ptpTaken (x.2.parsed 0 x.1) x.1 0).isNone)) = true := by
  decide +kernel
theorem test_ptp_timeouts : (upPtp false).ptpOn 0 0 = true ∧ (upPtp false).slavePort 0 < 80 ∧ (upPtp false).instRuns 0 = true ∧
    ((upPtp false).inst 0).last = none ∧ ((upPtp false).inst 0).timedOut = none ∧
    assoc (upPtp false).ptp.announced (ptpPort 0 0) = none := by decide +kernel

/-! ### PhaseDetectorsAndLinksAct -/
/-- `upLink` with link 0 MEASURING, its calibration current and its readings settled, VALID before where told, its path delay served
by instance 0 where told and far from the last one. -/
def upMeasure (valid served accept : Bool) : State :=
  let s := ((upLink.setf (Reg.pcsLinkState 0) 0 4 1).setf (Reg.calLaneState (calLane (upLink.refLane 0))) 0 8 0x22)
  let s := ((s.setReadings (.rx (s.rxRef 0)) 1000).setReadings (.tx (lowestLane 0)) 1000).setReadings (.island (portIsland 0 - 14)) 1000
  let s := (s.setf (Reg.pcsLinkState 0) 16 8 255).setf (Reg.pcsLinkCfg 0) 32 1 (bit accept)
  let s := s.setf (Reg.calItemState (0x230 + (portIsland 0 - 14))) 0 4 2
  let s := if served then ((s.set (Reg.ptpInstCfg 0x3F0) (2 ^ 62)).set (Reg.ptpPortCfg (ptpPort 0 0)) (2 ^ 63)).set (Reg.ptpPortDelay 0) (2 ^ 60) else s
  if valid then { s with link := { s.link with valid := [0] } } else s
theorem test_readings_run : up.detectorUp (.island 0) = true ∧ up.readings (.island 0) = 0 ∧
    (up.setReadings (.island 0) 5).readings (.island 0) ≠ 0 ∧
    (up.setReadings (.island 0) 5).f Reg.timeDdmtdCfg 16 16 * 65536 < (2 ^ 40 : Int).natAbs * 1000 := by decide +kernel
theorem test_links_measured : ∀ valid ∈ [true, false], ∀ served ∈ [true, false], ∀ accept ∈ [true, false], ∀ u, u = upMeasure valid served accept →
    u.linkState 0 = 1 ∧ u.linkSettled 0 = true ∧ u.staleRx 0 = false ∧ u.staleTx 0 = false ∧
    (u.engineInstance 0).all (fun i => decide (min 255 (2 ^ u.f (Reg.ptpServoCfg (0x3F0 + i)) 36 4) ≤ u.f (Reg.pcsLinkState 0) 16 8)) = true ∧
    (u.linkDelay 0).isSome = served ∧ u.link.valid.contains 0 = valid ∧
    (served = true → u.f (Reg.pcsLinkCfg 0) 0 32 * 65536 < ((signed 64 ((u.linkDelay 0).getD 0)) - signed 64 (u.get (Reg.pcsLinkLast 0))).natAbs * 1000) ∧
    (u.setf (Reg.pcsLinkState 0) 14 1 1).b (Reg.pcsLinkCfg 0) 32 = accept := by
  intro valid hv served hs accept ha u hu
  subst hu
  revert valid hv served hs accept ha
  decide +kernel

/-! ### ReferencesAreSelected -/
/-- `up` at a late instant with reference 20 in a state and selector 0 SWITCHING to it, a mark against reference 21 since an instant. -/
def upSelect (state : Nat) (since : Option Nat) : State :=
  let s := (up.setf (Reg.refselRefStatus 20) 40 4 state).setSelStatus 0 0xFF 20 2
  { s.setSel 0 (fun x => { x with marks := [(21, since)] }) with ticks := 2 ^ 50 }
theorem test_refs_judged : (upSelect 2 none).selects = true ∧ (upSelect 2 none).rested 18 1250000 = true ∧ (upSelect 2 none).timeUp = true ∧
    (upSelect 2 none).refState 20 = 2 ∧ (upSelect 3 none).refState 20 = 3 := by decide +kernel
theorem test_refs_selected : (upSelect 4 none).selState 0 = 2 ∧
    ((upSelect 4 none).sel 0).since + (upSelect 4 none).f (Reg.dpllSwitchCfg 0) 48 16 * 1250000 ≤ (upSelect 4 none).ticks ∧
    (upSelect 4 none).refQualified ((upSelect 4 none).target 0) = true ∧
    ((upSelect 4 (some 0)).sel 0).marks.find? (fun m => m.1 == 21) = some (21, some 0) ∧
    0 + (upSelect 4 (some 0)).f (Reg.refselSelCfg 0x100) 16 16 * 1250000000 ≤ (upSelect 4 (some 0)).ticks ∧
    (upSelect 4 none).markHolds 0 21 = false := by decide +kernel

/-! ### LoopsLockAndHold -/
/-- `up` at a late instant with loop 0 closed at a level, calm since the start, and a frequency history. -/
def upLoop (level : Nat) : State :=
  let s := ((up.setf (Reg.dpllStatus 0) 60 4 level).setf Reg.devTdLevel 0 4 2).setf (Reg.dpllCfg 0) 0 32 1
  { s.setDpll 0 (fun x => { x with live := true, pending := 0, calmAt := some 0, hist := [(0, 5), (2 ^ 49, 7)], wroteAt := some 0 }) with ticks := 2 ^ 50 }
theorem test_loops_lock : (upLoop 1).selects = true ∧ (upLoop 1).level 0 = 1 ∧ (upLoop 1).f (Reg.dpllCfg 0) 48 8 * 1250000000 ≤ (upLoop 1).ticks ∧
    (upLoop 2).level 0 = 2 ∧ (upLoop 2).timeUp = true ∧ (upLoop 2).tdLevel 0 = 2 ∧ assoc (upLoop 2).boot.storedTick 0 = none ∧
    (∀ phi ∈ [(0 : Int), 2 ^ 40], ∀ v, v = (upLoop 2).loopReading 0 0 phi → ∀ e, e = signed 64 (v.get (Reg.dpllPhaseErr 0)) →
      (phi = 0 → e.natAbs * 1000 ≤ v.f (Reg.dpllCfg 0) 0 32 * 65536) ∧ (phi ≠ 0 → v.f (Reg.dpllCfg 0) 0 32 * 65536 < e.natAbs * 1000)) := by
  refine ⟨by decide +kernel, by decide +kernel, by decide +kernel, by decide +kernel, by decide +kernel, by decide +kernel, by decide +kernel, ?_⟩
  intro phi h v hv e he
  subst hv
  subst he
  revert phi
  decide +kernel
theorem test_holdover_written : ∀ v, v = (upLoop 2).setDpll 0 (fun x => { x with wroteAt := some (upLoop 2).ticks }) →
    ∀ b, b = v.ticks - v.f (Reg.dpllHoCfg 0) 32 16 * 1250000 →
    max (b - v.f (Reg.dpllHoCfg 0) 48 16 * 1250000000) (((v.dpll 0).hist.head?.map (·.1)).getD b) < b := by
  intro v hv b hb
  subst hv
  subst hb
  decide +kernel

/-! ### EsmcKeepsLevels -/
/-- `upLink` at a late instant with ESMC on on port 0 or off, a PDU heard at the start. -/
def upEsmc (on : Bool) : State :=
  let s := upLink.set (Reg.refselPortCfg 0x200) (bit on * (2 ^ 61 + 2 ^ 60))
  { s with ticks := 2 ^ 40, ref := { s.ref with heard := [(0, 0)] } }
/-- An ESMC information PDU of level 4. -/
def esmcPdu : List Byte := fr 0x0180C2000002 0xBB [0x88, 0x09, 0x0A, 0, 0x19, 0xA7, 0, 1, 0x10, 0, 0, 0, 1, 0, 4, 4]
theorem test_esmc_runs : (upEsmc true).selects = true ∧ (upEsmc true).b (Reg.refselPortCfg 0x200) 61 = true ∧ (upEsmc true).portReady 0 = true ∧
    assoc (upEsmc true).ref.esmcSent 0 = none ∧ assoc (upEsmc true).ref.heard 0 = some 0 ∧ 0 + 6250000000 ≤ (upEsmc true).ticks := by decide +kernel
theorem test_esmc_taken : (∀ on ∈ [true, false], (taken 0 esmcPdu (upEsmc on).fresh).any (fun x =>
      let v := x.2.mirrorTaken 0 x.1 esmcPdu.length
      esmcValid x.1 && v.selects && (v.b (Reg.refselPortCfg 0x200) 60 == on)) = true) ∧
    (taken 0 (fr 0x0A 0xBB [0x12, 0x34]) (upEsmc true).fresh).any (fun x => !esmcValid x.1) = true := by decide +kernel

/-! ### OutputsFollowTheirSources -/
/-- `up` with output 0 owned, driven or not, a slew or a step under way; outputs 8 and 16, at 1 Hz from domain 0, driven, whose next pulse
comes within the lead, in a format of the message, with the UTC offset valid or not. -/
def upOut (driven own : Nat) (slew : Option Int) (fmt flags : Nat) : State :=
  let s := (((up.setf (Reg.outCfg 0) 60 2 own).setOutState 0 driven).setOutState 8 1).setOutState 16 1
  let s := (s.setOutp 0 (fun x => { x with slew := slew, doneAt := some 0, startAt := some 0 })).setOutp 8 (fun x =>
    { x with cfg := 1, phase := 0, offset := 0 })
  ((s.setOutp 16 (fun x => { x with pulse := 1000 * 2 ^ 16 + fmt * 2 ^ 56 })).setInst 0 (fun x => { x with flags := flags })).setf
    (Reg.ptpInstCfg 0x3F0) 62 2 1
theorem test_outs_drive : (upOut 0 1 none 0 0).timeUp = true ∧ (upOut 0 1 none 0 0).islandUp 20 = true ∧ (upOut 0 1 none 0 0).outDesired 0 = 1 ∧
    (upOut 0 1 none 0 0).outState 0 ≠ 1 ∧ (upOut 1 0 none 0 0).outDesired 0 ≠ 1 ∧ (upOut 1 0 none 0 0).outState 0 = 1 ∧
    ((upOut 0 1 none 0 0).outp 0).startAt = some 0 ∧ ((upOut 0 1 (some 0) 0 0).outp 0).slew = some 0 ∧
    ((upOut 0 1 none 0 0).outp 0).doneAt = some 0 := by decide +kernel
theorem test_tod_starts : ∀ x ∈ [(0, 0), (1, 4), (1, 0)], ∀ u, u = upOut 0 1 none x.1 x.2 → ∀ pulse, pulse = gridAt 1 (u.outp 8).phase (u.outTime 8 + 1) →
    u.linkedPps 16 = 8 ∧ u.islandUp 20 = true ∧ u.outState 16 = 1 ∧ u.outState 8 = 1 ∧ u.outGrid 8 = true ∧ u.outFreq 8 = 1 ∧
    pulse - u.outTime 8 ≤ bits (u.outp 16).pulse 16 16 * 1000000 * ns16 ∧ (u.outp 16).described ≠ some pulse ∧
    bits (u.outp 16).pulse 56 8 = x.1 ∧ ((u.todUtc 16 (u.outSource 8)).2 / 4 % 2 = 1 ↔ x.2 = 4) := by
  intro x hx u hu pulse hp
  subst hu
  subst hp
  revert x
  decide +kernel

/-! ### CalibrationStepsAct -/
/-- `upLink` at a late instant with port 0 idle or its direction asleep, a calendar of one entry with CAL in force, and a step in progress
where told; the item of port 0's lane due, its deadline passed. -/
def upCal (rx tx : Nat) (step : Option Bool) : State :=
  let s := ((upLink.setf (laneKey (.hl 0) 5) 0 4 rx).setf (laneKey (.hl 0) 5) 4 4 tx).setf (Reg.calPortCfg 0) 16 1 1
  let k : Calendar := ⟨0, 0, 10000000 * 65536, [2 ^ 39 + 10000000], [0, 0, 0], 0⟩
  let s := s.setGate 0 (fun x => { x with oper := some k })
  let s := { s with ticks := 2 ^ 40, cal := { s.cal with deadlines := [(itemOf 1 0, 0)] } }
  let s := s.setf (itemPlace (itemOf 1 0)).1 (itemPlace (itemOf 1 0)).2 4 2
  match step with | some f => { s with cal := { s.cal with running := [(0, f), (1, f)], background := [itemOf 2 0] } } | none => s
theorem test_cal_starts : (upCal 4 2 none).calRuns = true ∧ (upCal 4 2 none).rested 17 12500000 = true ∧ (upCal 4 2 none).mayStep 0 true = true ∧
    (upCal 4 2 none).mayStep 0 false = true ∧ (upCal 4 2 none).txIdle 0 = true ∧ (upCal 4 2 none).calEntryOffers 0 = true ∧
    (upCal 4 2 none).txGap 0 = true ∧ (upCal 4 2 none).rxGap 0 = true ∧ (upCal 4 3 none).sleepGap 0 true = true ∧
    (upCal 5 2 none).sleepGap 0 false = true ∧ (upCal 4 2 none).b (Reg.calPortCfg 0) 16 = true ∧
    ((upCal 4 2 none).side 0).sending = none ∧ itemOf 1 0 ∈ (upCal 4 2 none).laneItems 0 true ∧ (upCal 4 2 none).itemState (itemOf 1 0) = 2 ∧
    assoc (upCal 4 2 none).cal.deadlines (itemOf 1 0) = some 0 ∧ assoc (upCal 4 2 none).cal.forced 0 = none ∧
    itemOf 1 0 ∈ (upCal 4 2 none).calItems ∧ (upCal 4 2 none).wants (itemOf 2 0) = true ∧ itemOf 2 0 ∉ (upCal 4 2 none).cal.background := by
  decide +kernel
theorem test_cal_completes : (∀ tx ∈ [true, false], (upCal 4 2 (some false)).stepOver (2 * 0 + bit tx) = true ∧
      ((upCal 4 2 (some false)).calStep (2 * 0 + bit tx)).isSome = true) ∧ (upCal 4 2 (some false)).mayStart 0 = false ∧
    itemOf 2 0 ∈ (upCal 4 2 (some false)).cal.background ∧ (upCal 4 2 (some false)).stepOver (1024 + itemOf 2 0) = true ∧
    (∀ u, u = ({ upQueued 5 with cal := { (upQueued 5).cal with running := [(1, false)] }, ticks := 2 ^ 40 } : State) →
      u.mayStart 0 = true ∧ u.calStep 1 = some false ∧ u.stepOver 1 = true ∧ u.timeUp = true) := by
  refine ⟨by decide +kernel, by decide +kernel, by decide +kernel, by decide +kernel, fun u hu => ?_⟩
  subst hu
  decide +kernel

/-! ### PairWatchesItsPartner -/
/-- A bellflower's frame, whole or with its FCS bad. -/
def bell (good : Bool) : List Byte :=
  let d := fr 0x0A 0xBB ([0x88, 0xB6, 0xF1, 0xB7] ++ List.replicate 62 0)
  if good then d else d.dropLast ++ [(d.getLast?.getD 0) + 1]
theorem test_pair_hears : (upTwo 1 2 true).pairMode = true ∧ (upTwo 1 2 true).mode ≠ 3 ∧ (upTwo 1 2 true).pair.sentAt = none ∧
    (upTwo 1 2 true).f Reg.pairCfg 8 8 = 0 ∧ (upTwo 1 2 true).pathState 1 ≠ 0 ∧
    (taken 0 (bell true) (upTwo 1 2 true).fresh).any (fun x => x.2.isBellflower 0 x.1) = true ∧
    (taken 0 (fr 0x0A 0xBB [0x12, 0x34]) (upTwo 1 2 true).fresh).any (fun x => !x.2.isBellflower 0 x.1) = true ∧
    (∀ d ∈ [bell true, fr 0x0A 0xBB [0x12, 0x34]], crc32 (d.take (d.length - 4)) = leNat (d.drop (d.length - 4))) ∧
    crc32 ((bell false).take ((bell false).length - 4)) ≠ leNat ((bell false).drop ((bell false).length - 4)) := by decide +kernel
theorem test_pair_silent : (upTwo 1 2 true).pathState 1 = 2 ∧ (upTwo 1 2 true).pathLive 1 = false ∧
    (∀ partner ∈ [1, 2], (((upTwo 1 partner true).setf Reg.pairState 22 2 1).raise 0xD01 (toLe 1 1 ++ [0])).partnerActive = (partner == 2)) := by
  decide +kernel
theorem test_pair_takes : (∀ role ∈ [0, 1], ∀ heard ∈ [true, false], (upTwo role 1 heard).role = role ∧ (upTwo role 1 heard).pair.settle = none ∧
    (upTwo role 1 heard).pair.initSince + (upTwo role 1 heard).f Reg.pairTimers 32 16 * (if (upTwo role 1 heard).preferred then 1 else 2) * 1250000 ≤
      (upTwo role 1 heard).ticks ∧ ((upTwo role 1 heard).setf Reg.pairState 0 1 1).mayTake = true ∧
    ((upTwo role 1 heard).setf Reg.pairState 0 1 1).bothSilent = !heard ∧ (upTwo role 2 true).mayTake = false) := by decide +kernel

/-! ### FenceAndPairTimersAct -/
/-- `upTwo` in a role with the fence settling, a request to take standing or not, and the wait to restore under way since the start. -/
def upFence (role : Nat) (req : Bool) : State :=
  ((upTwo role 2 true).setf Reg.pairState 0 1 1).setf Reg.pairCfg 2 1 1 |>.setPair (fun x =>
    { x with settle := some (0, 1), takeReq := if req then some 0 else none, wtrSince := some 0 })
theorem test_fence_moves : (upFence 1 true).pairMode = true ∧ (upFence 1 true).f Reg.pairTimers 16 16 * 1250 ≤ (upFence 1 true).ticks ∧
    ((upFence 3 true).setf Reg.pairState 25 1 0).role = 3 ∧ ((upFence 1 true).setf Reg.pairState 25 1 0).role ≠ 3 ∧ up.pairMode = false ∧
    (upFence 1 true).threePeriods ≤ (upFence 1 true).ticks ∧ (upFence 1 false).wtrCheck.pair.wtrSince = some 0 ∧
    (upFence 1 false).wtrCheck.f Reg.pairCfg 16 16 * 1250000000 ≤ (upFence 1 false).wtrCheck.ticks ∧
    (upFence 1 false).wtrCheck.pair.takeReq = none := by decide +kernel

/-! ### HealthTestsAct -/
/-- `upTwo` in STANDBY, every self-test enabled, two loops locked whose frequencies differ. -/
def upHealth : State :=
  let s := ((upTwo 1 2 true).set Reg.healthSelftest 0x1F).setf (Reg.dpllStatus 0) 60 4 2
  ((s.setf (Reg.dpllStatus 1) 60 4 2).setf (Reg.dpllStatus 1) 0 32 (2 ^ 31 - 1)).setf Reg.healthCfg 24 8 1 |>.setf Reg.healthCfg 0 10 0
theorem test_health_runs : upHealth.serves 6 = true ∧ (upHealth.health.reported.all (fun t => decide (t + upHealth.f Reg.healthCfg 0 10 * 1250000 ≤ upHealth.ticks))) = true ∧
    (∀ i ∈ [0, 1, 3, 4], upHealth.selfTest i = true) ∧ (∀ k ∈ [(21, 12500000000), (19, 1250000000), (20, 1250000000)], upHealth.rested k.1 k.2 = true) ∧
    1600 ≤ upHealth.cellsPresent ∧ 16 ≤ upHealth.cellsFree ∧ upHealth.timeUp = true ∧ upHealth.level 0 = 2 ∧ upHealth.level 1 = 2 ∧
    upHealth.selected 0 = upHealth.selected 1 ∧
    upHealth.f Reg.healthCfg 24 8 * 2 ^ 40 < (upHealth.dpllFreq 0 - upHealth.dpllFreq 1).natAbs * 1000000000 := by decide +kernel

/-! ### CountersSensorsAndBusesAct -/
/-- `up` with counter 3 of a port event or another wrapped, a sample standing or not, and bus 2 in a transfer, of a read where told. -/
def upPerf (code valid : Nat) (read : Bool) : State :=
  let s := ((up.setf (Reg.perfSel 3) 40 8 code).setf (Reg.perfStatus 3) 0 1 valid).setf (Reg.i2cStatus 0x102) 8 1 1
  { s with perf := { s.perf with wrapped := [(3, 7)] }, boot := { s.boot with i2cReads := if read then [2] else [] } }
theorem test_counters_run : (∀ code ∈ [1, 0x40], ∀ valid ∈ [0, 1], ∀ read ∈ [true, false], (upPerf code valid read).perf.wrapped.find? (fun x => x.1 == 3) = some (3, 7) ∧
    (upPerf code valid read).b (Reg.perfStatus 3) 0 = (valid == 1) ∧ (upPerf code valid read).f (Reg.perfSel 3) 40 8 = code ∧
    (upPerf code valid read).rested 16 1250000 = true ∧ (upPerf code valid read).i2cBusy 2 = true ∧
    (upPerf code valid read).boot.i2cReads.contains 2 = read) := by decide +kernel

/-! ### PairStatusReportsFourWords -/
theorem test_pair_status_served : (served pairStatusCmd (rq 0 []) up).isSome = true ∧ (arrived pairStatusCmd (rq 0 [1]) up).any (fun a => a.1.p.length == 1) = true := by
  decide +kernel

/-! ### RefusedCopyIsCounted -/
theorem test_copy_refused : 2 ≤ upHost.pd 4 ∧ upHost.admits 0 2 1 false = false := by decide +kernel

/-! ### PerstAndPcieLinkAct -/
theorem test_perst_and_link : (up.on 1 && up.islandUp 4 && !up.boot.perstLow) = true ∧ State.reset.on 1 = false ∧
    (up.on 1 && up.islandUp 4 && !(after .perstAssert up).boot.perstLow) = false := by decide +kernel

/-! ### TimeGetReportsDomains -/
theorem test_time_get_served : (served timeGetCmd (rq 1 [0x81]) up).isSome = true ∧ (∀ p ∈ [[], [0]], (arrived timeGetCmd (rq 1 p) up).any
    (fun a => (timeGetCmd.notReady a.1 a.2).isNone && a.1.p.length == p.length) = true) := by decide +kernel

/-! ### PrecodingLosesNothing -/
/-- `up` with high lane 0 in a PAM4 mode and both precoding bits as told. -/
def upPam (pre : Nat) : State := (up.setf (laneKey (.hl 0) 0) 4 4 1).setf (laneKey (.hl 0) 1) 5 2 (3 * pre)
theorem test_pam_sends : ∀ pre ∈ [0, 1], (upPam pre).pam4 (.hl 0) = true ∧ (upPam pre).b (laneKey (.hl 0) 1) 6 = (pre == 1) ∧
    (upPam pre).b (laneKey (.hl 0) 1) 5 = (pre == 1) ∧
    (upPam pre).txSymbols (.hl 0) [true, false, false, true] = (if pre = 1 then [3, 2] else [3, 1]) := by decide +kernel

end Sys2Proof.Tests
end

section
/-! PROOF. Every command completes in every state (O6), and so the block runs for ever and keeps its invariant (O7). -/
namespace Sys2Proof.Machine
open Sys2Proof.Safety

/-! ### Completion: an arm is one answer, or a choice between answers -/

theorem execCommandFetch_completes (l : List RingEntry) (s : State) : ∃ t, execCommandFetch l s = .next t := by
  unfold execCommandFetch; extract_lets; split <;> exact ⟨_, rfl⟩
theorem execReplyRead_completes (n : Nat) (s : State) : ∃ t, execReplyRead n s = .next t := by
  unfold execReplyRead; extract_lets; split <;> exact ⟨_, rfl⟩
theorem execEventRead_completes (n : Nat) (s : State) : ∃ t, execEventRead n s = .next t := by
  unfold execEventRead; extract_lets; split <;> exact ⟨_, rfl⟩
theorem execSidebandCommandStart_completes (s : State) : ∃ t, execSidebandCommandStart s = .next t := by
  unfold execSidebandCommandStart; extract_lets; split
  · exact ⟨_, rfl⟩
  · split <;> exact ⟨_, rfl⟩
theorem execHostFrameSubmit_completes (entry frame : List Byte) (s : State) : ∃ t, execHostFrameSubmit entry frame s = .next t := by
  unfold execHostFrameSubmit; extract_lets; split <;> exact ⟨_, rfl⟩
theorem execCalStepComplete_completes (w : CalStep) (l : List (Int × Int)) (s : State) : ∃ t, execCalStepComplete w l s = .next t := by
  cases w <;> exact ⟨_, rfl⟩
theorem execBar0Read_completes (offset : Nat) (s : State) : ∃ t, execBar0Read offset s = .next t := by
  unfold execBar0Read; extract_lets; split
  · exact ⟨_, rfl⟩
  · split
    · exact ⟨_, rfl⟩
    · split <;> exact ⟨_, rfl⟩
theorem execIgmpMldSnooping_completes (fid mac : Nat) (dest : Option (Nat × Nat)) (s : State) :
    ∃ t, execIgmpMldSnooping fid mac dest s = .next t := by
  unfold execIgmpMldSnooping; extract_lets; split
  · split <;> exact ⟨_, rfl⟩
  · exact ⟨_, rfl⟩

/-- Eight rows choose between several answers; every other row has one answer, whatever its operands and the state. -/
theorem exec_completes (c : Instr) (s : State) : ∃ t, exec c s = .next t := by
  cases c with
  | commandFetch l => exact execCommandFetch_completes l s
  | replyRead n => exact execReplyRead_completes n s
  | eventRead n => exact execEventRead_completes n s
  | sidebandCommandStart => exact execSidebandCommandStart_completes s
  | hostFrameSubmit entry frame => exact execHostFrameSubmit_completes entry frame s
  | calStepComplete w l => exact execCalStepComplete_completes w l s
  | bar0Read offset => exact execBar0Read_completes offset s
  | igmpMldSnooping fid mac dest => exact execIgmpMldSnooping_completes fid mac dest s
  | _ => exact ⟨_, rfl⟩

/-- Settles O6: by cases on the row of the table. -/
theorem everyCommandCompletes : Obligations.EveryCommandCompletes := exec_completes

/-! ### Steps and runs -/

/-- The invariant speaks of what stands behind the queue, not of the queue. -/
theorem Inv.queue {s : State} (i : Inv s) (l : List Instr) : Inv { s with pending := l } := { i with words := i.words }

/-- A step answers a state that keeps the invariant, with the front of the queue taken. -/
theorem step_completes {s : State} (i : Inv s) : ∃ t, step s = .next t ∧ Inv t ∧ t.pending = s.pending.tail := by
  unfold step
  split
  · next hq =>
    have k : Keeps s s.tick := State.tick_keeps (.refl s)
    exact ⟨_, rfl, k.inv i, k.queue.trans (by rw [hq]; rfl)⟩
  · next c rest hq =>
    obtain ⟨t, ht⟩ := exec_completes c { s with pending := rest }
    have k : Keeps { s with pending := rest } t := exec_keeps c (.refl _) t ht
    exact ⟨t, ht, k.inv (Inv.queue i rest), k.queue.trans (by rw [hq]; rfl)⟩

/-- The runs of the core unfold by their first step. -/
theorem run_succ {s t : State} (n : Nat) (h : step s = .next t) : core.run (n + 1) s = core.run n t := by
  have hc : core.step s = .next t := h
  simp only [Host.Core.run, hc]

/-- Settles O7: by induction on the number of steps, each of which completes, keeps the invariant and takes the front command. -/
theorem runsNeverStop : Obligations.RunsNeverStop := by
  intro n
  induction n with
  | zero => exact fun s i => ⟨s, rfl, i, rfl⟩
  | succ n ih =>
    intro s i
    obtain ⟨t, hst, it, ht⟩ := step_completes i
    obtain ⟨u, hu, iu, hq⟩ := ih t it
    refine ⟨u, (run_succ n hst).trans hu, iu, ?_⟩
    rw [hq, ht, List.drop_tail]

end Sys2Proof.Machine
end

section
/-! PROOF. The reset state (O3). -/
namespace Sys2Proof.Machine
open Sys2Proof.Safety

/-! ### The reset state (R29, R98, R119) -/

theorem State.get_reset (k : Nat) : State.reset.get k = (resetWord k).toNat := rfl
/-- PWR_STATE of the reset state has domain 0 on, the others off. -/
theorem get_reset_pwrState : State.reset.get Reg.pwrState = 2 := by decide +kernel
theorem State.pd_reset {n : Nat} (hn : n ≠ 0) : State.reset.pd n = 0 := by
  have h : 2 < 2 ^ (2 * n) := (by omega : 2 < 2 * n + 1).trans_le (Nat.lt_two_pow_self (n := 2 * n))
  unfold State.pd State.f bits
  rw [if_neg hn, get_reset_pwrState, Nat.shiftRight_eq_div_pow, Nat.div_eq_of_lt h, Nat.zero_mod]

/-- Settles O3: the reset state lists no word, so that every word reads its row's reset value. -/
theorem resetHoldsSpecValues : Obligations.ResetHoldsSpecValues := by
  refine ⟨State.get_reset, fun n _ => ?_, by decide, rfl, rfl, by decide, ?_⟩
  · split
    · next h => rw [h]; rfl
    · next h => exact State.pd_reset h
  · show bits (State.reset.get Reg.pwrBootOn) 0 16 = _
    rw [State.get_reset]; rfl

end Sys2Proof.Machine
end

section
/-! PROOF. The write of a parameter word: what a plain word holds after it, and what a refused write leaves (O21). -/
namespace Sys2Proof.Machine
open Sys2Proof.Safety

/-! ### Masks -/

/-- A word mixed bit by bit: the new one where the mask is set. -/
theorem testBit_mix (old new mask i : Nat) :
    (mix old new mask).testBit i = if mask.testBit i then new.testBit i else old.testBit i := by
  unfold mix
  rw [Nat.testBit_or, Nat.testBit_xor, Nat.testBit_and, Nat.testBit_and]
  cases mask.testBit i <;> cases old.testBit i <;> simp

/-! ### What a write leaves in a plain word (R27, R28) -/

/-- A block that is not plain is not the block of a plain word. -/
theorem plain_ne {k b : Nat} (h : plainBlocks.contains (blockOf k) = true) (hb : plainBlocks.contains b = false) : blockOf k ≠ b := by
  rintro rfl; rw [h] at hb; cases hb

theorem State.landing_plain (s : State) {k : Nat} (v : Nat) (h : plainBlocks.contains (blockOf k) = true) :
    s.landing k v = mix (mix (s.get k) v (writeMask k)) 0 (v &&& clearMask k) := by
  have h5 : blockOf k ≠ 0x05 := plain_ne h rfl
  have hk : keyWord k = false := by
    rw [Bool.eq_false_iff]; intro hc
    rw [keyWord, Bool.and_eq_true, decide_eq_true_eq, decide_eq_true_eq] at hc
    unfold Reg.secKeyW shelf at hc
    unfold blockOf at h5
    omega
  have hs : k ≠ Reg.secCtrl := by rintro rfl; exact h5 rfl
  have hm : marginWord k = false := by simp [marginWord, plain_ne h (b := 0x08) rfl, plain_ne h (b := 0x09) rfl]
  unfold State.landing
  simp [hk, hs, hm]

theorem State.testBit_landing_plain (s : State) {k : Nat} (v i : Nat) (h : plainBlocks.contains (blockOf k) = true) :
    (s.landing k v).testBit i = if v.testBit i && (clearMask k).testBit i then false
      else if (writeMask k).testBit i then v.testBit i else (s.get k).testBit i := by
  rw [s.landing_plain v h, testBit_mix, testBit_mix, Nat.testBit_and, Nat.zero_testBit]

/-- Nothing follows the write of a plain word. -/
theorem State.afterWrite_plain (s : State) {k : Nat} (v old : Nat) (h : plainBlocks.contains (blockOf k) = true) :
    s.afterWrite k v old = s := by
  unfold State.afterWrite
  extract_lets
  split
  case h_23 => rfl
  all_goals next hb => exact absurd hb (plain_ne h rfl)

/-- A write of a plain word that lands sets the word, and does nothing else. -/
theorem writeVia_plain {path : WritePath} {k v : Nat} {s : State} (hl : lands path k v s = true)
    (h : plainBlocks.contains (blockOf k) = true) : s.fresh.writeVia path k v = landed path k v s := by
  rw [writeVia_landed hl (fun hc => plain_ne h (b := 0x0C) rfl hc.1), State.afterWrite_plain _ _ _ h]

/-! ### The state a write meets -/

theorem pathState_words (path : WritePath) (s : State) : (pathState path s).words = s.words := by cases path <;> rfl
theorem State.landing_congr {s t : State} (h : s.words = t.words) (k v : Nat) : s.landing k v = t.landing k v := by
  unfold State.landing; rw [State.get_congr h]
theorem get_landed_self (path : WritePath) (k v : Nat) (s : State) : (landed path k v s).get k = s.landing k v % 2 ^ 64 := by
  unfold landed; rw [State.get_set_self, State.landing_congr (pathState_words path s)]
theorem get_landed_ne (path : WritePath) {k j : Nat} (v : Nat) (s : State) (h : j ≠ k) : (landed path k v s).get j = s.get j := by
  unfold landed; rw [State.get_set_ne _ _ h, State.get_congr (pathState_words path s)]
theorem landed_frame (path : WritePath) (k v : Nat) (s : State) : { landed path k v s with words := s.words } = pathState path s := by
  cases path <;> rfl

/-! ### Refused writes -/

/-- A refusal that is not that of a ring's ENABLE leaves nothing behind. -/
theorem State.enableRefused_none {s : State} {k v : Nat} (h : ringRefused k (s.landing k v) = none) : s.enableRefused k v = s := by
  unfold State.enableRefused; rw [h]

/-- A refused entry of a PARAM command changes nothing. -/
theorem State.paramEntry_refused {s : State} {m : Master} {k v : Nat} {e : Err} (he : s.writeErr false m k v = some e)
    (hr : ringRefused k (s.landing k v) = none) : s.paramEntry m k v = s := by
  unfold State.paramEntry
  rw [he]
  simp only [State.enableRefused_none hr, ite_self]

/-- A refused BAR0 write of a whole word is discarded, after the host's activity. -/
theorem State.bar0Write_refused {s : State} {offset v : Nat} {e : Err} (hu : s.bar0Up = true) (ho : offset < 2 ^ 28)
    (ha : offset % 8 = 0) (hm : msixWord (bar0Mark offset) = false) (hp : userPage (bar0Mark offset) = false)
    (he : (s.active .host).writeErr true .host (bar0Mark offset) v = some e)
    (hr : ringRefused (bar0Mark offset) (s.landing (bar0Mark offset) v) = none) :
    s.bar0Write offset 8 v = (s.active .host).bar0Discard offset e := by
  have hk : (s.active .host).enableRefused (bar0Mark offset) v = s.active .host :=
    State.enableRefused_none ((congrArg _ (State.landing_congr rfl _ _)).trans hr)
  unfold State.bar0Write
  rw [hu, decide_eq_false (Nat.not_le.2 ho), ha]
  simp only [hm, hp, he, hk, ite_self]
  rfl

/-- A write discarded for its lease: CMD_BAR0_LEASE_DROP counts it, and its event may be raised. -/
theorem State.get_bar0Discard_lease (s : State) (offset : Nat) {e : Err} {j : Nat} (h : e.st = .lease) (hj : j ∉ eventWords) :
    (s.bar0Discard offset e).get j = (s.count Reg.cmdBar0LeaseDrop 0 32 1).get j := by
  unfold State.bar0Discard
  rw [if_pos h]
  extract_lets
  split
  · rw [State.get_raise _ _ _ hj, State.get_mk, State.toNat_get]
  · rfl
/-- A write discarded for another reason: CMD_BAR0_REFUSED counts it, and its event may be raised. -/
theorem State.get_bar0Discard_other (s : State) (offset : Nat) {e : Err} {j : Nat} (h : e.st ≠ .lease) (hj : j ∉ eventWords) :
    (s.bar0Discard offset e).get j = (s.count Reg.cmdBar0Refused 0 32 1).get j := by
  unfold State.bar0Discard
  rw [if_neg h]
  extract_lets
  split
  · rw [State.get_raise _ _ _ hj, State.get_mk, State.toNat_get]
  · rfl
/-- A discard changes no word but its two counts and what raising its event writes. -/
theorem State.get_bar0Discard (s : State) (offset : Nat) (e : Err) {j : Nat} (h : j ∉ discardWords) :
    (s.bar0Discard offset e).get j = s.get j := by
  simp only [discardWords, List.mem_cons, List.not_mem_nil, or_false, not_or] at h
  obtain ⟨hd, hr, -, hp, hl, hs, hb⟩ := h
  have hj : j ∉ eventWords := by simp [eventWords, hp, hl, hs, hb]
  by_cases h : e.st = .lease
  · rw [s.get_bar0Discard_lease offset h hj, State.get_count_ne _ _ _ _ hd]
  · rw [s.get_bar0Discard_other offset h hj, State.get_count_ne _ _ _ _ hr]

/-! ### REGISTER_WRITE -/

/-- Settles O21: a landing write of a plain word sets its writable bits and no more; a refused one leaves its path's counts. -/
theorem registerWriteChangesOneWord : Obligations.RegisterWriteChangesOneWord := by
  intro path addr k value s ha
  have hx : exec (.registerWrite path addr value) s = .next (s.fresh.writeVia path k value.toNat) := by
    cases path <;> (subst ha; rfl)
  refine ⟨fun hl => ⟨_, hx, fun hb => ?_⟩, ?_, ?_⟩
  · rw [writeVia_plain hl hb]
    refine ⟨rfl, fun i hi => ?_, fun j hj => get_landed_ne path _ s hj, landed_frame path k _ s⟩
    rw [get_landed_self, Nat.testBit_mod_two_pow, decide_eq_true hi, Bool.true_and, State.testBit_landing_plain s _ i hb]
  · rintro m e rfl he hr
    exact hx.trans (congrArg _ (State.paramEntry_refused he hr))
  · rintro e rfl hu ho hk h8 hm hp he hr
    have hd : s.fresh.bar0Write (bar0Offset k) 8 value.toNat = (s.fresh.active .host).bar0Discard (bar0Offset k) e :=
      State.bar0Write_refused hu ho h8 (by rw [hk, hm]) (by rw [hk, hp]) (by rw [hk, he]) (by rw [hk]; exact hr)
    refine ⟨_, hx.trans (congrArg _ hd), fun _ hj => State.get_bar0Discard _ _ _ hj, fun h => ?_, fun h => ?_⟩
    · rw [State.f_congr (State.get_bar0Discard_lease _ _ h (by decide)), State.f_count_self _ _ (by decide)]
      rfl
    · rw [State.f_congr (State.get_bar0Discard_other _ _ h (by decide)), State.f_count_self _ _ (by decide)]
      rfl

end Sys2Proof.Machine
end

section
/-! PROOF. Timers, silences, engines, the mailbox deadline, BAR0 reads and moderation (O26). -/
namespace Sys2Proof.Machine
open Sys2Proof.Safety

/-! ### Sessions and masters (R65, R67, R89) -/

theorem execChainTimeout_ends {via : Via} {s : State} {ch : Chain} (hc : (s.transport via).session.chain = some ch)
    (ht : ch.last + 125000000 < s.ticks) (hr : via = .sideband → s.sbRoom = true) :
    execChainTimeout via s =
      .next ((s.fresh.setSession via (fun ses => { ses with chain := none })).fail ch.dest true (.plain .truncated)) := by
  have hf : (s.fresh.transport via).session.chain = some ch := hc
  have hroom : (via != .sideband || s.fresh.sbRoom) = true := by
    cases via with
    | sideband => exact hr rfl
    | pcie | inband => rfl
  have hg : (decide (ch.last + 125000000 < s.fresh.ticks) && (via != .sideband || s.fresh.sbRoom)) = true := by
    rw [hroom, Bool.and_true]; exact decide_eq_true ht
  unfold execChainTimeout State.endChain
  simp only [hf]
  rw [if_pos hg]

theorem execAuthLockoutEnd_ends {via : Via} {s : State} {t : Nat} (hl : (s.transport via).lockout = some t)
    (ht : t + 1250000000 ≤ s.ticks) :
    execAuthLockoutEnd via s = .next (s.fresh.setTransport via (fun x => { x with lockout := none, authRun := 0 })) := by
  have hf : (s.fresh.transport via).lockout = some t := hl
  unfold execAuthLockoutEnd
  simp only [hf]
  exact congrArg _ (if_pos ht)

theorem execHostSilent_reports {s : State} (h : s.f Reg.cmdHostSilenceMs 0 16 < s.idleMs .host) (hn : s.ctl.hostSilentSent = false) :
    execHostSilent s = .next (State.raiseSb { s with out := [], ctl := { s.ctl with hostSilentSent := true } } 7 0 0
      (toLe 4 (s.idleMs .host))) := by
  have hc : (s.fresh.f Reg.cmdHostSilenceMs 0 16 < s.fresh.idleMs .host && !s.fresh.ctl.hostSilentSent) = true := by
    simpa using ⟨h, hn⟩
  exact congrArg _ (if_pos hc)

theorem execSbSilent_reports {s : State} (h : s.f Reg.cmdSbSilenceMs 0 16 < s.idleMs .sideband) (hn : s.ctl.sbSilentSent = false) :
    execSbSilent s = .next (State.raiseHost { s with out := [], ctl := { s.ctl with sbSilentSent := true } } 8 0 0
      (toLe 4 (s.idleMs .sideband))) := by
  have hc : (s.fresh.f Reg.cmdSbSilenceMs 0 16 < s.fresh.idleMs .sideband && !s.fresh.ctl.sbSilentSent) = true := by
    simpa using ⟨h, hn⟩
  exact congrArg _ (if_pos hc)

/-! ### Engines (R44) -/

/-- An event row of a unit that the part has. -/
theorem atUnit_lt {n m : Nat} (s t : State) (h : n < m) : atUnit n m s t = .next t := congrArg _ (if_pos h)

theorem execEngineWatchdogExpiry_stops {e : Nat} {s : State} (he : e < 12) (hr : (s.engine e).running = true) :
    execEngineWatchdogExpiry e s = .next ((((s.fresh.stopEngines [e]).setEngine e
      (fun g => { g with restarts := min (g.restarts + 1) (2 ^ 32 - 1) })).mark 7).answerQueued [e]).refresh :=
  (atUnit_lt _ _ he).trans (congrArg _ (if_pos hr))

theorem execEngineRestart_runs {e : Nat} {s : State} (he : e < 12) (hs : (s.engine e).selected = true)
    (hr : (s.engine e).running = false) (hn : (s.engine e).restarts ≠ 0) (hh : s.engineHost e = true)
    (hl : s.imageLoaded e = true) :
    execEngineRestart e s = .next (((s.fresh.runEngines [e]).raise 0x103
      (toLe 1 e ++ zeros 3 ++ toLe 4 (s.engine e).restarts)).refresh) := by
  have hc : ((s.engine e).selected && !(s.engine e).running && (s.engine e).restarts != 0 && s.engineHost e &&
      s.imageLoaded e) = true := by simp [hs, hr, hn, hh, hl]
  exact (atUnit_lt _ _ he).trans (congrArg _ (if_pos hc))

/-- A request that passes every check, whose engine then misses its deadline: INTERNAL, its step completed or not. -/
theorem execute_silent {c : Cmd} {x : Ctx} {u : State} (completed : Bool) (h : refusal c x u = none) :
    c.execute (.silent completed) x u = ((((((if completed then
        (match c.run x u with | .reply _ _ t => c.after x t | .later _ t => t | .error _ _ => u) else u).fail x.dest true
      ⟨.internal, 0xFFFF, 6, bit completed⟩).deviceFault).setEngine (c.serving x u) (fun g => { g with stalled := true })).answerQueued
        [c.serving x u]).refresh) := by
  unfold refusal at h
  unfold Cmd.execute
  rewrite [h]
  rfl

/-- A request that arrives with its opcode known goes to its engine's mailbox, which does not reply. -/
theorem execMailboxReplyDeadline_arrived {c : Cmd} {q : Request} {s u : State} {x : Ctx} (completed : Bool)
    (ha : arrived c q s = some (x, u))
    (hf : ∀ y t body, s.fresh.accept c.opcode q = (y, some (t, body)) → cmdOf c.opcode (y.joined t body) = some c)
    (hc : cmdOf c.opcode (s.fresh.joined (replyToOf q c.opcode none) (if q.flags.testBit 6 then q.payload.drop 32 else q.payload))
      = some c) :
    execMailboxReplyDeadline q c.opcode completed s = .next (c.execute (.silent completed) x u) := by
  unfold execMailboxReplyDeadline
  extract_lets v t body
  rw [show cmdOf c.opcode (v.joined t body) = some c from hc, if_pos (arrived_slot ha)]
  exact congrArg _ (serve_arrived ha (cmdOf c.opcode) (.silent completed) hf)

/-! ### BAR0 reads (R25, R27) -/

/-- A BAR0 read while the link is down, or past the 256 MiB, reaches nothing. -/
theorem execBar0Read_unreached {s : State} {offset : Nat} (h : s.bar0Up = false ∨ 2 ^ 28 ≤ offset) :
    execBar0Read offset s = .next s.fresh := by
  have hc : (!s.fresh.bar0Up || decide (2 ^ 28 ≤ offset)) = true := by
    rcases h with h | h
    · rw [show s.fresh.bar0Up = false from h]; rfl
    · rw [decide_eq_true h, Bool.or_true]
  exact if_pos hc

/-- A BAR0 read that reaches the part: a word of MSI-X, a word whose domain is on, or zero. -/
theorem execBar0Read_reached {s : State} {offset : Nat} (hu : s.bar0Up = true) (ho : offset < 2 ^ 28) :
    execBar0Read offset s =
      if msixWord (bar0Mark offset) then .next { s with out := [.bar0 (s.get (bar0Mark offset))] }
      else if defined (bar0Mark offset) && s.on (pdOfWord (bar0Mark offset)) then
        .next ((s.fresh.afterRead 0 (bar0Mark offset)).emit (.bar0 (s.fresh.shown 0 (bar0Mark offset))))
      else .next { s with out := [.bar0 0] } := by
  have hc : ¬ (!s.fresh.bar0Up || decide (2 ^ 28 ≤ offset)) = true := by
    rw [show s.fresh.bar0Up = true from hu, decide_eq_false (Nat.not_le.2 ho)]; decide
  exact if_neg hc

/-! ### Moderation (R81) -/

/-- A vector whose MOD_US has passed since its last signal is signalled. -/
theorem State.signal_due (s : State) (v m : Nat) (h : ∀ t, assoc s.ctl.lastSignal v = some t → t + m * 1250 ≤ s.ticks) :
    s.signal v m = { s.msix v with ctl := { (s.msix v).ctl with
      lastSignal := assocSet (s.msix v).ctl.lastSignal v (s.msix v).ticks, held := (s.msix v).ctl.held.filter (· != v) } } := by
  unfold State.signal
  extract_lets due
  have hd : due = true := by
    unfold due
    split
    · exact Bool.or_true _
    · next t ht => rw [decide_eq_true (h t ht), Bool.or_true]
  rw [if_pos hd]

theorem execMsixModerationTimer_signals {v : Nat} {s : State} (hv : v < 64) (hh : v ∈ s.ctl.held)
    (hm : ∀ t, assoc s.ctl.lastSignal v = some t → t + s.modUs v * 1250 ≤ s.ticks) :
    execMsixModerationTimer v s = .next { s.fresh.msix v with ctl := { (s.fresh.msix v).ctl with
      lastSignal := assocSet (s.fresh.msix v).ctl.lastSignal v (s.fresh.msix v).ticks,
      held := (s.fresh.msix v).ctl.held.filter (· != v) } } := by
  have hc : s.fresh.ctl.held.contains v = true := List.contains_iff_mem.2 hh
  have hs := s.fresh.signal_due v (s.fresh.modUs v) hm
  exact (atUnit_lt _ _ hv).trans (congrArg _ ((if_pos hc).trans hs))

/-- Settles O26: a lemma for each row that acts, where its condition holds; the reads of BAR0 by the cases of a read that reaches
the part. -/
theorem timersAndEnginesAct : Obligations.TimersAndEnginesAct := by
  intro s
  refine ⟨fun via ch hc ht hr => execChainTimeout_ends hc ht hr, fun via t hl ht => execAuthLockoutEnd_ends hl ht,
    execHostSilent_reports, execSbSilent_reports, fun e => execEngineWatchdogExpiry_stops, ?_, ?_,
    fun offset k hk => ⟨execBar0Read_unreached, fun hu ho hm => ?_, fun hu ho hm hd hp => ?_, fun hu ho hm hn => ?_⟩, ?_⟩
  · rintro e he g rfl hs hr hn hh hl
    exact execEngineRestart_runs he hs hr hn hh hl
  · rintro c q u v x completed e ha hr hf hc rfl rfl
    exact (execMailboxReplyDeadline_arrived completed ha hf hc).trans (congrArg _ (execute_silent completed hr))
  · subst hk
    exact (execBar0Read_reached hu ho).trans (if_pos hm)
  · subst hk
    have hc : (defined (bar0Mark offset) && s.on (pdOfWord (bar0Mark offset))) = true := by rw [hd, hp]; rfl
    rw [show exec (.bar0Read offset) s = _ from execBar0Read_reached hu ho, hm, if_neg Bool.false_ne_true, if_pos hc]
  · subst hk
    have hc : (defined (bar0Mark offset) && s.on (pdOfWord (bar0Mark offset))) = false := by
      rcases hn with hn | hn
      · rw [hn]; rfl
      · rw [hn, Bool.and_false]
    rw [show exec (.bar0Read offset) s = _ from execBar0Read_reached hu ho, hm, if_neg Bool.false_ne_true, hc,
      if_neg Bool.false_ne_true]
  · rintro v hv hh hm t rfl
    exact execMsixModerationTimer_signals hv hh hm

end Sys2Proof.Machine
end

section
/-! PROOF. The invariant holds at reset (O4), and every step keeps it and takes exactly the front of the queue (O5). -/
namespace Sys2Proof.Machine
open Sys2Proof.Safety

/-- Settles O4: the reset state lists no word and no cell of the flash, has each list of units in its length, and holds no event
and no reply. -/
theorem invariantHoldsAtReset : Obligations.InvariantHoldsAtReset where
  words := ⟨.nil, List.forall_mem_nil _⟩
  flash := ⟨.nil, List.forall_mem_nil _⟩
  engines := rfl
  domains := rfl
  ledger := List.length_replicate
  outputs := List.length_replicate
  instances := rfl
  selectors := rfl
  dplls := rfl
  events := Nat.zero_le _
  keptPcie := Nat.zero_le _
  keptInband := Nat.zero_le _
  keptSideband := Nat.zero_le _

/-- Settles O5: the state that a step answers is the one of `step_completes`, where `State.tick_keeps` (an empty queue) and
`exec_keeps` (a command at its front) give the invariant and the queue. -/
theorem everyStepKeepsInvariant : Obligations.EveryStepKeepsInvariant := by
  intro s t i ht
  obtain ⟨u, hu, iu, hq⟩ := step_completes i
  obtain rfl : u = t := Host.Outcome.next.inj (hu.symm.trans ht)
  exact ⟨iu, hq⟩

end Sys2Proof.Machine
end

section
/-! PROOF. Ends of power transitions, flash operations, activations and trials (O29). -/
namespace Sys2Proof.Machine
open Sys2Proof.Safety

/-! ### Power transitions (R121, R122) -/

theorem execPowerUpComplete_starts {n : Nat} {s : State} (hn : n < 16) (hp : s.pd n = 1) (hr : (requires n).all s.on = true) :
    execPowerUpComplete n s = .next (((s.fresh.setPd n 2).startDomain n).portsChanged (portsOfPd n)).refresh := by
  have hc : (s.pd n == 1 && (requires n).all s.on) = true := by rw [hp, hr]; rfl
  exact (atUnit_lt _ _ hn).trans (congrArg _ (if_pos hc))

/-- Every domain that requires domain n is off, in the words of the row. -/
theorem requirers_off {n : Nat} {s : State} (h : ∀ m < 16, n ∈ requires m → s.pd m = 0) :
    (List.range 16).all (fun m => !(requires m).contains n || s.pd m == 0) = true := by
  rw [List.all_eq_true]
  intro m hm
  by_cases hq : n ∈ requires m
  · rw [h m (List.mem_range.1 hm) hq, beq_self_eq_true, Bool.or_true]
  · simp [hq]

theorem execPowerDownComplete_cuts {n : Nat} {frames : List Nat} {s v : State} (hn : n < 16) (hp : s.pd n = 3)
    (hr : ∀ m < 16, n ∈ requires m → s.pd m = 0)
    (hv : v = if framesPass n then s.fresh.forEach (frames.filter (· < 83)) (fun p s => s.stat p 0x47 1) else s.fresh) :
    execPowerDownComplete n frames s = .next (((v.setPd n 0).cutDomain n).portsChanged (portsOfPd n)).refresh := by
  subst hv
  have hc : (s.pd n == 3 && (List.range 16).all (fun m => !(requires m).contains n || s.pd m == 0)) = true := by
    rw [hp, requirers_off hr]; rfl
  exact (atUnit_lt _ _ hn).trans (congrArg _ (if_pos hc))

/-! ### The flash and its images (R113, R114) -/

theorem execFlashOperationDone_open {d : Deferred} {kind slot offset : Nat} {erase final ok : Bool} {data : List Byte} {s v : State}
    (hd : s.ctl.deferred.find? Deferred.stages = some d) (hj : d.job = .flash kind slot erase final offset data)
    (hs : s.serves 0 = true) (hv : v = s.fresh.staged kind slot erase offset data) :
    execFlashOperationDone ok s = .next (if ok then
      (if final && v.finalCode kind slot == 1 then v.passSlot kind slot else v).answerDeferred d .ok
        (if final then toLe 1 (v.finalCode kind slot) else [])
      else (s.fresh.failDeferred d ⟨.internal, 0xFFFF, 6, 0⟩).deviceFault) := by
  subst hv
  have hf : s.fresh.serves 0 = true := hs
  unfold execFlashOperationDone
  simp only [State.fresh_ctl, hd, hj]
  rw [hf]
  cases ok <;> rfl

theorem execImageActivationDone_starts {d : Deferred} {kind slot : Nat} {s : State}
    (hd : s.ctl.deferred.find? Deferred.activates = some d) (hj : d.job = .activate kind slot) (ho : s.on 2 = true)
    (hs : s.serves 0 = true) :
    execImageActivationDone s = .next ((s.fresh.startImage kind slot).answerDeferred d .ok []) := by
  have hc : (s.fresh.on 2 && s.fresh.serves 0) = true := Bool.and_eq_true_iff.2 ⟨ho, hs⟩
  unfold execImageActivationDone
  simp only [State.fresh_ctl, hd, hj]
  rw [if_pos hc]

/-- v has the previous slot primary again and the trial ended; w also runs an image's kind from that slot, where PD2 is on. -/
theorem execTrialReverted_over {kind t prev : Nat} {s v w : State} (h1 : 1 ≤ kind) (h3 : kind ≤ 3)
    (ht : assoc s.boot.trialAt kind = some t) (hs : s.serves 0 = true) (hb : s.primaryNow.2.testBit (kind - 1) = true)
    (hd : t + s.f Reg.fwTrialS 0 32 * 1250000000 ≤ s.ticks) (hp : prev = 1 - bits s.primaryNow.1 (kind - 1) 1)
    (hv : v = (s.fresh.setPrimary (setBits s.primaryNow.1 (kind - 1) 1 prev) (setBits s.primaryNow.2 (kind - 1) 1 0)).endTrial kind)
    (hw : w = if kind = 3 || !v.on 2 then v else (v.stopImage kind).startImage kind prev) :
    execTrialReverted kind s =
      .next (w.raise 0x102 (toLe 1 kind ++ toLe 1 (if kind = 3 then w.boot.cfgSlot.getD prev else prev))) := by
  subst hp hv hw
  have hk : (decide (1 ≤ kind) && decide (kind ≤ 3)) = true := by rw [decide_eq_true h1, decide_eq_true h3]; rfl
  have hc : (s.serves 0 && s.primaryNow.2.testBit (kind - 1) &&
      decide (t + s.f Reg.fwTrialS 0 32 * 1250000000 ≤ s.ticks)) = true := by rw [hs, hb, decide_eq_true hd]; rfl
  unfold execTrialReverted
  simp only [State.fresh_boot, hk, ↓reduceIte, ht]
  exact congrArg _ (if_pos hc)

/-- Settles O29: a lemma for each row that ends something, where its condition holds. -/
theorem powerAndFlashEventsAct : Obligations.PowerAndFlashEventsAct := by
  rintro s u rfl
  refine ⟨fun n hn hp hr => execPowerUpComplete_starts hn hp hr,
    fun n hn frames v hp hr hv => execPowerDownComplete_cuts hn hp hr hv, ?_,
    fun d kind slot hd hj ho hs => execImageActivationDone_starts hd hj ho hs, ?_⟩
  · intro d kind slot erase final offset data hd hj hs
    refine ⟨execFlashOperationDone_open hd hj hs rfl, ?_⟩
    rintro v code hv rfl
    have hx : execFlashOperationDone true s = _ := execFlashOperationDone_open hd hj hs hv
    refine ⟨?_, ?_, ?_⟩
    · rintro rfl
      exact hx
    · rintro rfl hc
      rw [beq_false_of_ne hc] at hx
      exact hx
    · rintro rfl hc
      rw [hc] at hx
      exact hx
  · intro kind t h1 h3 ht hs hb hd prev v hp hv
    have hx := execTrialReverted_over h1 h3 ht hs hb hd hp hv rfl
    refine ⟨?_, fun hk ho => ?_, fun hk ho => ?_⟩
    · rintro rfl
      exact hx
    · rw [if_neg hk, ho, decide_eq_false hk] at hx
      exact hx
    · rw [if_neg hk, ho, decide_eq_false hk] at hx
      exact hx

end Sys2Proof.Machine
end

section
/-! PROOF. Faults of islands and memories, and the boundary at which immediate steps land (O30). -/
namespace Sys2Proof.Machine
open Sys2Proof.Safety

/-! ### Islands (R50-R52) -/

/-- v has the clock stopped, w its engines stopped and what lay inside the island lost, x its ports or links told. -/
theorem execIslandLockLoss_stops {i : Nat} {s v w x : State} {es : List Nat} (hi : i < 22) (hu : s.islandUp i = true)
    (h1 : i ≠ 1) (h2 : i ≠ 2)
    (hv : v = (State.setf (if i = 18 then s.fresh.stopTime else s.fresh) (Reg.clkIslStatus i) 0 2 0).count
      (Reg.clkIslLockLoss i) 0 32 1)
    (he : es = (islandEngines i).filter (fun e => (v.engine e).running))
    (hw : w = ((v.stopEngines es).answerQueued es).islandDrops i)
    (hx : x = if 14 ≤ i && i ≤ 17 then w.forEach (islandPorts i) (fun p s => s.linkDown p 1) else w.portsChanged (islandPorts i)) :
    execIslandLockLoss i s =
      .next (State.islandFault (if i = 4 then { x with boot := { x.boot with linkUp := false } } else x) 0 i).refresh := by
  subst hv he hw hx
  have hc : ¬ (!s.islandUp i || i == 1 || i == 2) = true := by
    rw [hu, beq_false_of_ne h1, beq_false_of_ne h2]; decide
  exact (atUnit_lt _ _ hi).trans (congrArg _ (if_neg hc))

theorem execIslandRestart_runs {i : Nat} {s v w : State} (hi : i < 22) (hu : s.islandUp i = false)
    (ho : s.on (islandPd i) = true) (hv : v = if i = 0 then s.fresh.setIslands 0 3 else s.fresh.set (Reg.clkIslStatus i) 3)
    (hw : w = v.runEngines ((islandEngines i).filter (fun e => (v.engine e).selected && v.engineHost e && v.imageLoaded e))) :
    execIslandRestart i s = .next ((State.portsChanged (if i = 18 then w.restartTime else
      if i = 11 then w.moveK.poolCheck.pfcCheckAll.refillAll else w) (islandPorts i))).refresh := by
  subst hv hw
  have hc : ¬ (s.islandUp i || !s.on (islandPd i)) = true := by rw [hu, ho]; decide
  exact (atUnit_lt _ _ hi).trans (congrArg _ (if_neg hc))

/-! ### Buffer memories (R217) and boundaries of the replicas (R39, R306) -/

theorem execBufMemFault_uncorrected {mem : Nat} {frame : Option Nat} {cells : List Nat} {s v w : State} (hm : mem < 3)
    (hv : v = (s.fresh.count Reg.bufMemErr 32 32 1).raise 0x507 (toLe 1 mem ++ toLe 1 ((frame.bind s.frame).elim 0xFF (·.port))))
    (hw : w = v.faultCells mem frame cells) :
    execBufMemFault mem false frame cells s = .next (frame.elim w (fun id => w.dropFrame id)) := by
  subst hv hw
  cases frame <;> exact atUnit_lt _ _ hm

theorem execReplicaRealign_lands {s : State} (hu : s.timeUp = true) (ht : s.ticks % 1024 = 0) :
    execReplicaRealign s = .next (State.forEach { s with out := [], clock := { s.clock with landings := [] } }
      s.clock.landings (fun l s => s.land l)) := by
  have hc : (s.timeUp && s.ticks % 1024 == 0) = true := by rw [hu, ht]; rfl
  exact congrArg _ (if_pos hc)

/-- Settles O30: a lemma for each row, where its condition holds; a lost clock by the kind of its island. -/
theorem islandAndMemoryFaultsAct : Obligations.IslandAndMemoryFaultsAct := by
  rintro s u rfl
  refine ⟨?_, fun i hi hu ho v w hv hw => execIslandRestart_runs hi hu ho hv hw, fun i hi => atUnit_lt _ _ hi,
    fun mem hm frame cells => ⟨atUnit_lt _ _ hm, fun v w hv hw => execBufMemFault_uncorrected hm hv hw⟩,
    execReplicaRealign_lands⟩
  intro i hi hu h1 h2 v w es hv he hw
  have hx := execIslandLockLoss_stops hi hu h1 h2 hv he hw rfl
  refine ⟨fun hl hg => ?_, ?_, fun h4 hr => ?_⟩
  · have hp : (decide (14 ≤ i) && decide (i ≤ 17)) = true := by simp [hl, hg]
    rw [if_neg (by omega : i ≠ 4), if_pos hp] at hx
    exact hx
  · rintro rfl x rfl
    exact hx
  · have hp : ¬ (decide (14 ≤ i) && decide (i ≤ 17)) = true := by
      simp only [Bool.and_eq_true, decide_eq_true_eq]; omega
    rw [if_neg h4, if_neg hp] at hx
    exact hx

end Sys2Proof.Machine
end

section
/-! PROOF. PERST_N and the PCIe link (O57). -/
namespace Sys2Proof.Machine

/-- No write of another word turns a power domain on or off. -/
theorem State.on_set_ne (s : State) {k : Nat} (v n : Nat) (h : Reg.pwrState ≠ k) : (s.set k v).on n = s.on n := by
  unfold State.on State.pd
  rw [State.f_congr (State.get_set_ne s v h)]

/-- PERST_N low is held and is the reset cause (R100); only a controller with PD1 on is reset. -/
theorem execPerstAssert_held {s u : State}
    (hu : u = ({ s with out := [], boot := { s.boot with perstLow := true } } : State).set Reg.devResetCause 16) :
    execPerstAssert s = .next (if s.on 1 then u.cutPcie.refresh else u) := by
  subst hu
  have ho := State.on_set_ne { s with out := [], boot := { s.boot with perstLow := true } } 16 1
    (by decide : Reg.pwrState ≠ Reg.devResetCause)
  unfold execPerstAssert
  exact congrArg _ (if_congr (Bool.eq_iff_iff.1 ho) rfl rfl)

theorem execPcieLinkUp_if (s : State) : execPcieLinkUp s = .next (if s.on 1 && s.islandUp 4 && !s.boot.perstLow then
    State.refresh { s with out := [], boot := { s.boot with linkUp := true } } else { s with out := [] }) := rfl

/-- Settles O57: PERST_N low and the link's training each by whether their condition holds; the other two rows have none. -/
theorem perstAndPcieLinkAct : Obligations.PerstAndPcieLinkAct := by
  intro s
  refine ⟨fun u hu => ⟨fun ho => ?_, fun ho => ?_⟩, rfl, fun hc => ?_, fun hc => ?_, rfl⟩
  · exact (execPerstAssert_held hu).trans (congrArg _ (if_pos ho))
  · exact (execPerstAssert_held hu).trans (congrArg _ (if_neg (Bool.not_eq_true _ ▸ ho)))
  · exact (execPcieLinkUp_if s).trans (congrArg _ (if_pos hc))
  · exact (execPcieLinkUp_if s).trans (congrArg _ (if_neg (Bool.not_eq_true _ ▸ hc)))

end Sys2Proof.Machine
end

section
/-! PROOF. Requests that a check of R58 refuses (O8). -/
namespace Sys2Proof.Machine
open Sys2Proof.Safety

/-- The row of every Mivik command runs that command. -/
theorem exec_commandRow {r : Cmd × (Request → Instr)} (hr : r ∈ commandRows) (q : Request) (s : State) :
    exec (r.2 q) s = .next (runCmd r.1 q s) := by
  fin_cases hr <;> rfl

/-- A refusal leaves nothing behind but with PARAM_WRITE and PARAM_RMW (R82). -/
theorem commandRow_refused {r : Cmd × (Request → Instr)} (hr : r ∈ commandRows) (ho : r.1.opcode ∉ [0x0101, 0x0102]) (x : Ctx)
    (u : State) (e : Err) : r.1.refused x u e = u := by
  fin_cases hr
  iterate 5 rfl
  -- PARAM_WRITE and PARAM_RMW
  iterate 2 exact absurd (by decide) ho
  all_goals rfl

/-- Settles O8: a row runs its command, and a refused command answers the first error on what it says a refusal leaves. -/
theorem refusedRequestOnlyAnswers : Obligations.RefusedRequestOnlyAnswers := by
  intro r hr q s u x e ha he
  exact ⟨(exec_commandRow hr q s).trans (congrArg _ (runCmd_refused ha he)), fun ho => commandRow_refused hr ho x u e⟩

end Sys2Proof.Machine
end

section
/-! PROOF. Sessions and the identity (O9). -/
namespace Sys2Proof.Machine
open Sys2Proof.Safety

/-- A SESSION_OPEN with the cold-boot count known starts a session (R62, R64). -/
theorem sessionOpenRun_known {x : Ctx} {u : State} {num : Nat} (hk : u.boot.countKnown = true)
    (hn : num = u.f Reg.fwColdBoots 0 32 * 2 ^ 32 + (u.ctl.sessionOpens + 1) % 2 ^ 32) :
    sessionOpenRun x u = .ok (toLe 8 num) (((({ u with ctl := { u.ctl with sessionOpens := u.ctl.sessionOpens + 1 } } : State).endSession
      x.dest.via).setSession x.dest.via (fun _ => ⟨num, if u8 x.p 0 = 0xFF then none else some (u8 x.p 0), some x.dest.seq, [], none⟩)).set
      Reg.secSessionNum num) := by
  subst hn
  unfold sessionOpenRun
  exact if_neg (by rw [hk]; decide)

/-- Settles O9: each command has one reply, once SESSION_OPEN knows the cold-boot count. -/
theorem sessionCommandsAnswer : Obligations.SessionCommandsAnswer := by
  intro q s u x
  exact ⟨fun h => congrArg _ (runCmd_reply h rfl), fun num hn h hk => congrArg _ (runCmd_reply h (sessionOpenRun_known hk hn)),
    fun h => congrArg _ (runCmd_reply h rfl), fun h => congrArg _ (runCmd_reply h rfl)⟩

end Sys2Proof.Machine
end

section
/-! PROOF. The parameter commands (O10). -/
namespace Sys2Proof.Machine
open Sys2Proof.Safety

/-! ### Reads (R71, R74) -/

/-- One word of a list read, after the bytes read before it: a word that is not defined reads zero. -/
def State.readOnto (path : Nat) (a : List Byte × State) (k : Nat) : List Byte × State :=
  if defined k then (a.1 ++ toLe 8 (a.2.shown path k), a.2.afterRead path k) else (a.1 ++ zeros 8, a.2)

theorem foldl_readOnto (path : Nat) (l : List Nat) (p : List Byte) (s : State) :
    l.foldl (State.readOnto path) (p, s) = (p ++ (s.readWords path l).1, (s.readWords path l).2) := by
  induction l generalizing p s with
  | nil => simp [State.readWords]
  | cons k ks ih =>
    rw [List.foldl_cons, State.readOnto]
    by_cases hd : defined k = true
    · rw [if_pos hd, ih, State.readWords, if_pos hd, List.append_assoc]; rfl
    · rw [if_neg hd, ih, State.readWords, if_neg hd, List.append_assoc, ← (by decide : toLe 8 0 = zeros 8)]

/-- Words read in order are those of a fold over the list. -/
theorem State.readWords_eq_foldl (s : State) (path : Nat) (l : List Nat) :
    s.readWords path l = l.foldl (State.readOnto path) ([], s) := by
  rw [foldl_readOnto, List.nil_append]

/-- A list of checks that gives no error has none that does. -/
theorem firstErr_none {l : List (Option Err)} (h : firstErr l = none) : ∀ o ∈ l, o = none :=
  List.findSome?_eq_none_iff.1 h

/-- PARAM_READ takes defined words only (R71). -/
theorem paramRead_defined {q : Request} {s u : State} {x : Ctx} (h : served paramReadCmd q s = some (x, u)) :
    ∀ k ∈ entryMarks x.p 4, defined k = true := by
  obtain ⟨-, hc, -⟩ := served_passes h
  have hd := firstErr_none hc _ (List.mem_cons_of_mem _ (List.mem_singleton_self _))
  rw [Option.map_eq_none_iff, List.find?_eq_none] at hd
  intro k hk
  obtain ⟨i, hi, rfl⟩ := List.mem_iff_getElem.1 hk
  simpa [List.getElem?_eq_getElem hi] using hd i (List.mem_range.2 hi)

/-! ### Writes (R72, R73) -/

/-- The state that a list of entries leaves is that of its writes alone. -/
theorem State.writeEntriesIn_snd (s : State) (m : Master) (es : List ParamEntry) :
    (s.writeEntriesIn m es).2 = es.foldl (fun (t : State) e => t.writeWord e.k (t.entryValue m e)) s :=
  (List.foldl_hom Prod.snd (fun _ _ => rfl)).symm

/-- An entry of a PARAM_WRITE has every bit in its mask. -/
theorem writeEntries_mask {p : List Byte} {e : ParamEntry} (h : e ∈ writeEntries p) : e.mask = 2 ^ 64 - 1 := by
  obtain ⟨i, -, rfl⟩ := List.mem_map.1 h
  rfl

/-- Settles O10: reads and writes of lists are folds over their words; PARAM_READ's words are all defined, and PARAM_WRITE's
masks are full. -/
theorem paramCommandsReadAndWrite : Obligations.ParamCommandsReadAndWrite := by
  intro q s u x
  refine ⟨fun h r hr => ?_, fun h r hr => ?_, fun h => ?_, fun h r hr => ?_⟩
  · obtain rfl : r = u.readWords (latchOf x.master) (entryMarks x.p 4) := by
      rw [hr, u.readWords_eq_foldl]
      exact (List.foldl_ext _ _ _ fun a k hk => if_pos (paramRead_defined h k hk)).symm
    exact congrArg _ (runCmd_reply h rfl)
  · obtain rfl : r = u.readWords (latchOf x.master) (blockMarks x.p) := hr.trans (u.readWords_eq_foldl _ _).symm
    exact congrArg _ (runCmd_reply h rfl)
  · have hw : (u.writeEntriesIn x.master (writeEntries x.p)).2 = (writeEntries x.p).foldl (fun (t : State) e =>
        t.writeWord e.k (mix (t.shown (latchOf x.master) e.k) e.value (2 ^ 64 - 1))) u := by
      rw [u.writeEntriesIn_snd]
      exact List.foldl_ext _ _ _ fun t e he => by rw [State.entryValue, writeEntries_mask he]
    rw [← hw]
    exact congrArg _ (runCmd_reply h rfl)
  · subst hr
    exact congrArg _ (runCmd_reply h rfl)

end Sys2Proof.Machine
end

section
/-! PROOF. A write that lands, and what follows it, block by block: shared by the statements about single words. -/
namespace Sys2Proof.Machine
open Sys2Proof.Safety

/-- A row that writes a word, where the write lands on any word but a port type: it leaves what follows the write. -/
theorem next_landed {path : WritePath} {k v : Nat} {s w t : State} (h : lands path k v s = true) (hw : w = landed path k v s)
    (hb : blockOf k ≠ 0x0C) (ha : w.afterWrite k v (s.get k) = t) :
    (.next (s.fresh.writeVia path k v) : Host.Outcome State Fault Refusal) = .next t := by
  subst hw ha
  rw [writeVia_landed h (fun hc => hb hc.1)]

theorem State.afterWrite_dev (s : State) {k : Nat} (v old : Nat) (h : blockOf k = 0x00) :
    s.afterWrite k v old = if k = Reg.devReset then s.resetWritten v else s := by
  unfold State.afterWrite; rw [h]; rfl
theorem State.afterWrite_cmd (s : State) {k : Nat} (v old : Nat) (h : blockOf k = 0x04) :
    s.afterWrite k v old = s.afterCmd k v (!old.testBit 31 && s.b k 31) := by
  unfold State.afterWrite; rw [h]; rfl
theorem State.afterWrite_sec (s : State) {k : Nat} (v old : Nat) (h : blockOf k = 0x05) :
    s.afterWrite k v old = if keyWord k then s.keyWritten (k - Reg.secKeyW 0) else s := by
  unfold State.afterWrite; rw [h]; rfl
theorem State.afterWrite_fdb (s : State) {k : Nat} (v old : Nat) (h : blockOf k = 0x11) :
    s.afterWrite k v old = if k = Reg.fdbFlush then s.fdbFlush v else s := by
  unfold State.afterWrite; rw [h]; rfl
theorem State.afterWrite_buf (s : State) {k : Nat} (v old : Nat) (h : blockOf k = 0x18) : s.afterWrite k v old =
    if k = Reg.bufPoolCfg || (decide (instOf k < 0x3FF) && decide (indexOf k < 8)) then s.poolCheck.moveK else s := by
  unfold State.afterWrite; rw [h]; rfl
theorem State.afterWrite_stack (s : State) {k : Nat} (v old : Nat) (h : blockOf k = 0x19) :
    s.afterWrite k v old = s.afterStack k old := by
  unfold State.afterWrite; rw [h]; rfl
theorem State.afterWrite_qmon (s : State) {k : Nat} (v old : Nat) (h : blockOf k = 0x1E) :
    s.afterWrite k v old = if k = Reg.qmonDb then s.qmonDoorbell (v % 2 ^ 32)
      else if k = Reg.qmonRingCtrl && (!old.testBit 31 && s.b k 31) then s.qmonEnable else s := by
  unfold State.afterWrite; rw [h]; rfl
theorem State.afterWrite_ledger (s : State) {k : Nat} (v old : Nat) (h : blockOf k = 0x21) :
    s.afterWrite k v old = if 4 ≤ instOf k then s else if indexOf k = 2 then s.ledgerDoorbell (instOf k) v
      else if indexOf k = 1 && (!old.testBit 31 && s.b k 31) then s.ledgerEnable (instOf k) else s := by
  unfold State.afterWrite; rw [h]; rfl
theorem State.afterWrite_pair (s : State) {k : Nat} (v old : Nat) (h : blockOf k = 0x2A) :
    s.afterWrite k v old = s.afterPair k old := by
  unfold State.afterWrite; rw [h]; rfl
theorem State.afterWrite_perf (s : State) {k : Nat} (v old : Nat) (h : blockOf k = 0x30) : s.afterWrite k v old =
    if decide (instOf k < 64) && decide (indexOf k = 4) && v.testBit 0 then s.clearOvf (instOf k) else s := by
  unfold State.afterWrite; rw [h]; rfl
theorem State.afterWrite_gpio (s : State) {k : Nat} (v old : Nat) (h : blockOf k = 0x34) : s.afterWrite k v old =
    if decide (0x100 ≤ instOf k) && decide (indexOf k = 1) && v.testBit 63 then s.i2cStart (instOf k - 0x100) else s := by
  unfold State.afterWrite; rw [h]; rfl

end Sys2Proof.Machine
end

section
/-! PROOF. Doorbells, and rings enabled (O22). -/
namespace Sys2Proof.Machine
open Sys2Proof.Safety

/-- A count that is refused when it is past its limit, in the words of one that is within it. -/
theorem next_ite_lt (m n : Nat) (a b : State) :
    (.next (if n < m then b else a) : Host.Outcome State Fault Refusal) = if m ≤ n then .next a else .next b := by
  by_cases h : m ≤ n
  · rw [if_pos h, if_neg (Nat.not_lt.2 h)]
  · rw [if_neg h, if_pos (Nat.not_le.1 h)]

/-! ### Doorbells (R78 to R80, R201, R270, R327) -/

/-- The words of a P80 ring lie apart from those of the command, reply and event rings. -/
theorem shelf_cmd_ne (x y : Nat) (hy : y < 4096) : shelf 4 3 x ≠ shelf 4 0 y := by unfold shelf; omega

theorem State.afterWrite_cmdDbCmd (s : State) (v old : Nat) :
    s.afterWrite Reg.cmdDbCmd v old = s.commandDoorbell (v % 65536) := by
  rw [s.afterWrite_cmd v old rfl, State.afterCmd, if_pos rfl]
theorem State.afterWrite_cmdDbRpl (s : State) (v old : Nat) : s.afterWrite Reg.cmdDbRpl v old = s.replyDoorbell (v % 65536) := by
  rw [s.afterWrite_cmd v old rfl, State.afterCmd, if_neg (by decide), if_pos rfl]
theorem State.afterWrite_cmdDbEvt (s : State) (v old : Nat) : s.afterWrite Reg.cmdDbEvt v old = s.eventDoorbell (v % 65536) := by
  rw [s.afterWrite_cmd v old rfl, State.afterCmd, if_neg (by decide), if_neg (by decide), if_pos rfl]
theorem blockOf_p80RingDb {r : Nat} (hr : r < 10) : blockOf (Reg.p80RingDb r) = 0x04 := blockOf_shelf (by decide) (by omega)
theorem State.afterWrite_p80RingDb (s : State) {r : Nat} (v old : Nat) (hr : r < 10) :
    s.afterWrite (Reg.p80RingDb r) v old = s.p80Doorbell r (v % 65536) := by
  have hi : instOf (Reg.p80RingDb r) = 3 := instOf_shelf (by decide) (by omega)
  have hx : indexOf (Reg.p80RingDb r) = 2 + 8 * r := indexOf_shelf (by omega)
  have hm : (2 + 8 * r) % 8 = 2 ∧ (2 + 8 * r) / 8 = r := by omega
  rw [s.afterWrite_cmd v old (blockOf_p80RingDb hr)]
  unfold State.afterCmd
  simp [hi, hx, hm, shelf_cmd_ne]
theorem blockOf_ledgerRingDb {r : Nat} (hr : r < 4) : blockOf (Reg.ledgerRingDb r) = 0x21 := blockOf_shelf (by omega) (by decide)
theorem State.afterWrite_ledgerRingDb (s : State) {r : Nat} (v old : Nat) (hr : r < 4) :
    s.afterWrite (Reg.ledgerRingDb r) v old = s.ledgerDoorbell r v := by
  have hi : instOf (Reg.ledgerRingDb r) = r := instOf_shelf (by omega) (by decide)
  have hx : indexOf (Reg.ledgerRingDb r) = 2 := indexOf_shelf (by decide)
  rw [s.afterWrite_ledger v old (blockOf_ledgerRingDb hr), hi, hx, if_neg (by omega), if_pos rfl]

/-- A P80 doorbell by the host's lead, or, of the completion ring, its lag. -/
theorem State.next_p80Doorbell (s : State) (r c : Nat) : (.next (s.p80Doorbell r c) : Host.Outcome State Fault Refusal) =
    if (if r = 9 then s.f (Reg.p80RingDev r) 0 16 + 65536 - c else c + 65536 - s.f (Reg.p80RingDev r) 0 16) % 65536 ≤
      2 ^ s.f (Reg.p80RingCtrl r) 0 4
    then .next { s with rings := { s.rings with counts := modifyAt s.rings.counts r (fun _ => c) } }
    else .next (s.doorbellRefused (Reg.p80RingCtrl r) (8 + r)) := by
  unfold State.p80Doorbell
  extract_lets dev gap
  rw [next_ite_lt, show gap = _ from (apply_ite (· % 65536) (r = 9) (dev + 65536 - c) (c + 65536 - dev)).symm]
theorem State.next_qmonDoorbell (s : State) {d : Nat} (h : d < 2 ^ 32) :
    (.next (s.qmonDoorbell d) : Host.Outcome State Fault Refusal) =
      if (s.f Reg.qmonProd 0 32 + 2 ^ 32 - d) % 2 ^ 32 ≤ 2 ^ s.f Reg.qmonRingCtrl 0 5
      then .next (State.qmonGap { s with qmon := { s.qmon with cons := d } })
      else .next ((s.setf Reg.qmonRingCtrl 31 1 0).ringError 18 1) := by
  unfold State.qmonDoorbell
  rw [Nat.mod_eq_of_lt h, next_ite_lt]
theorem State.next_ledgerDoorbell (s : State) (r v : Nat) :
    (.next (s.ledgerDoorbell r v) : Host.Outcome State Fault Refusal) =
      if (s.f (Reg.ledgerRingProd r) 0 32 + 2 ^ 32 - v % 2 ^ 32) % 2 ^ 32 ≤ 2 ^ s.f (Reg.ledgerRingCtrl r) 0 5
      then .next (s.setLedger r (fun x => { x with cons := v % 2 ^ 32 }))
      else .next ((s.setf (Reg.ledgerRingCtrl r) 31 1 0).ringError (4 + r) 1) := by
  unfold State.ledgerDoorbell
  rw [next_ite_lt]

/-! ### Rings enabled (R78, R80, R201, R270, R325 to R327) -/

theorem State.afterCmd_cmdCmdrCtrl (s : State) (v : Nat) (on : Bool) :
    s.afterCmd Reg.cmdCmdrCtrl v on = if on then s.commandRingOn else s := by
  unfold State.afterCmd; cases on <;> simp [shelf, instOf]
theorem State.afterCmd_cmdRplrCtrl (s : State) (v : Nat) (on : Bool) :
    s.afterCmd Reg.cmdRplrCtrl v on = if on then s.replyRingOn else s := by
  unfold State.afterCmd; cases on <;> simp [shelf, instOf]
theorem State.afterCmd_cmdEvtrCtrl (s : State) (v : Nat) (on : Bool) :
    s.afterCmd Reg.cmdEvtrCtrl v on = if on then s.eventRingOn else s := by
  unfold State.afterCmd; cases on <;> simp [shelf, instOf]
theorem State.afterCmd_p80RingCtrl (s : State) {r : Nat} (v : Nat) (on : Bool) (hr : r < 10) :
    s.afterCmd (Reg.p80RingCtrl r) v on = if on then s.p80RingOn r else s := by
  have hi : instOf (Reg.p80RingCtrl r) = 3 := instOf_shelf (by decide) (by omega)
  have hx : indexOf (Reg.p80RingCtrl r) = 1 + 8 * r := indexOf_shelf (by omega)
  have hm : (1 + 8 * r) % 8 = 1 ∧ (1 + 8 * r) / 8 = r := by omega
  unfold State.afterCmd
  cases on <;> simp [hi, hx, hm, shelf_cmd_ne]

theorem blockOf_ringCtrl_ne {ring : RingId} (h : ringExists ring = true) : blockOf (ringCtrl ring) ≠ 0x0C := by
  cases ring with
  | command | reply | event | qmon => decide
  | p80 r =>
    have hr : r < 10 := of_decide_eq_true h
    rw [ringCtrl, blockOf_shelf (by decide) (by omega)]; decide
  | ledger r =>
    have hr : r < 4 := of_decide_eq_true h
    rw [ringCtrl, blockOf_shelf (by omega) (by decide)]; decide
/-- A write of a ring's CTRL word restarts the ring if it sets ENABLE anew, and does nothing else. -/
theorem State.afterWrite_ringCtrl (s : State) {ring : RingId} (v old : Nat) (h : ringExists ring = true) :
    s.afterWrite (ringCtrl ring) v old = if !old.testBit 31 && s.b (ringCtrl ring) 31 then ringRestarted ring s else s := by
  cases ring with
  | command => exact (s.afterWrite_cmd v old rfl).trans (s.afterCmd_cmdCmdrCtrl v _)
  | reply => exact (s.afterWrite_cmd v old rfl).trans (s.afterCmd_cmdRplrCtrl v _)
  | event => exact (s.afterWrite_cmd v old rfl).trans (s.afterCmd_cmdEvtrCtrl v _)
  | p80 r =>
    have hr : r < 10 := of_decide_eq_true h
    rw [ringCtrl, s.afterWrite_cmd v old (blockOf_shelf (by decide) (by omega)), s.afterCmd_p80RingCtrl v _ hr]
    rfl
  | qmon =>
    rw [ringCtrl, s.afterWrite_qmon v old rfl, if_neg (by decide), decide_eq_true rfl, Bool.true_and]
    rfl
  | ledger r =>
    have hr : r < 4 := of_decide_eq_true h
    have hi : instOf (Reg.ledgerRingCtrl r) = r := instOf_shelf (by omega) (by decide)
    have hx : indexOf (Reg.ledgerRingCtrl r) = 1 := indexOf_shelf (by decide)
    rw [ringCtrl, s.afterWrite_ledger v old (blockOf_shelf (by omega) (by decide)), hi, hx, if_neg (by omega), if_neg (by decide),
      decide_eq_true rfl, Bool.true_and]
    rfl

/-- Settles O22: a doorbell by whether the count it gives is within its ring, a ring's CTRL word by whether it sets ENABLE anew. -/
theorem doorbellAndRingWritesAct : Obligations.DoorbellAndRingWritesAct := by
  rintro path value s v c d w rfl rfl rfl refuse rfl
  refine ⟨fun hl hw => ?_, fun hl hw => ?_, fun hl hw => ?_, fun r hr hl hw => ?_, fun hl hw => ?_, fun r hr hl hw => ?_,
    fun ring hr hl hw => ?_⟩
  · exact (next_landed hl hw (by decide) (w.afterWrite_cmdDbCmd _ _)).trans (next_ite_lt ..)
  · exact (next_landed hl hw (by decide) (w.afterWrite_cmdDbRpl _ _)).trans (next_ite_lt ..)
  · exact (next_landed hl hw (by decide) (w.afterWrite_cmdDbEvt _ _)).trans (next_ite_lt ..)
  · have hx := next_landed hl hw (by rw [blockOf_p80RingDb hr]; decide) (w.afterWrite_p80RingDb _ _ hr)
    exact (atUnit_lt _ _ hr).trans (hx.trans (w.next_p80Doorbell r _))
  · have hx := next_landed hl hw (by decide) ((w.afterWrite_qmon _ _ rfl).trans (if_pos rfl))
    exact hx.trans (w.next_qmonDoorbell (Nat.mod_lt _ (by decide)))
  · have hx := next_landed hl hw (by rw [blockOf_ledgerRingDb hr]; decide) (w.afterWrite_ledgerRingDb _ _ hr)
    exact (atUnit_lt _ _ hr).trans (hx.trans (w.next_ledgerDoorbell r _))
  · have hx := next_landed hl hw (blockOf_ringCtrl_ne hr) (w.afterWrite_ringCtrl _ _ hr)
    exact (congrArg _ (if_pos hr)).trans <| hx.trans <| (apply_ite _ _ _ _).trans (if_congr (by simp) rfl rfl)

end Sys2Proof.Machine
end

section
/-! PROOF. Single-word writes with an effect of their own: resets, keys, the lock, pools, stacks, the FDB, the pair, performance
counters and I2C (O23). -/
namespace Sys2Proof.Machine
open Sys2Proof.Safety

/-! ### Bits -/

theorem bits_one (v i : Nat) : bits v i 1 = (v.testBit i).toNat := by
  rw [Nat.toNat_testBit, bits, Nat.shiftRight_eq_div_pow, Nat.pow_one]
/-- A bit of a parameter word, by its test. -/
theorem State.testBit_get (s : State) (k i : Nat) : (s.get k).testBit i = s.b k i := by
  unfold State.b State.f
  rw [bits_one]
  cases (s.get k).testBit i <;> rfl

/-- Under a mask of all 64 bits a word is replaced. -/
theorem mix_full {old new : Nat} (ho : old < 2 ^ 64) (hn : new < 2 ^ 64) : mix old new (2 ^ 64 - 1) = new := by
  rw [mix, Nat.and_two_pow_sub_one_of_lt_two_pow ho, Nat.and_two_pow_sub_one_of_lt_two_pow hn, Nat.xor_self, Nat.zero_or]
theorem mix_zero (old new : Nat) : mix old new 0 = old := by simp [mix]

/-! ### Keys and the lock (R65) -/

/-- The tables give the key words no other mask than all their bits, and no bit that a 1 clears. -/
theorem keyWord_masks : ∀ n < 16, writeMask (Reg.secKeyW n) ||| (2 ^ 64 - 1) = 2 ^ 64 - 1 ∧ clearMask (Reg.secKeyW n) = 0 := by
  decide +kernel
theorem blockOf_secKeyW {n : Nat} (hn : n < 16) : blockOf (Reg.secKeyW n) = 0x05 := blockOf_shelf (by decide) (by omega)
theorem keyWord_secKeyW {n : Nat} (hn : n < 16) : keyWord (Reg.secKeyW n) = true := by
  unfold keyWord Reg.secKeyW shelf; simp; omega

/-- A key word holds what is written. -/
theorem State.landing_secKeyW (s : State) {n v : Nat} (hn : n < 16) (hv : v < 2 ^ 64) : s.landing (Reg.secKeyW n) v = v := by
  obtain ⟨hw, hc⟩ := keyWord_masks n hn
  have hb := blockOf_secKeyW hn
  have hs : Reg.secKeyW n ≠ Reg.secCtrl := by unfold Reg.secKeyW Reg.secCtrl shelf; omega
  have hm : marginWord (Reg.secKeyW n) = false := by rw [marginWord, hb]; rfl
  unfold State.landing
  rw [keyWord_secKeyW hn, if_pos rfl, hw, hc, if_neg hs, hm, mix_full (s.get_lt _) hv, Nat.and_zero, mix_zero]
  rfl

theorem State.afterWrite_secKeyW (s : State) {n : Nat} (v old : Nat) (hn : n < 16) :
    s.afterWrite (Reg.secKeyW n) v old = s.keyWritten n := by
  have hd : Reg.secKeyW n - Reg.secKeyW 0 = n := by unfold Reg.secKeyW shelf; omega
  rw [s.afterWrite_sec v old (blockOf_secKeyW hn), if_pos (keyWord_secKeyW hn), hd]

/-- LOCK is set by a write of 1, and no write of SEC_CTRL as it stands changes SB_AUTH_REQ. -/
theorem State.landing_secLock (s : State) : (s.landing Reg.secCtrl (setBits (s.get Reg.secCtrl) 0 1 1)).testBit 0 = true ∧
    (s.landing Reg.secCtrl (setBits (s.get Reg.secCtrl) 0 1 1)).testBit 1 = (s.get Reg.secCtrl).testBit 1 := by
  have hc : (clearMask Reg.secCtrl).testBit 1 = false := by decide +kernel
  have h0 : bits (setBits (s.get Reg.secCtrl) 0 1 1) 0 1 = 1 := bits_setBits_same _ _ _ _
  unfold State.landing
  rw [if_pos rfl, h0]
  constructor
  · rw [testBit_setBits]; simp
  · simp [testBit_setBits, testBit_mix, hc]

/-! ### Resets (R101) -/

theorem State.afterWrite_devReset (s : State) {cold : Bool} {code : Nat} (old : Nat)
    (h : cold = true ∧ code = 0xC0 ∨ cold = false ∧ code = 0xA0) : s.afterWrite Reg.devReset code old =
      if s.boot.resetDue.isSome then s else { s with boot := { s.boot with resetDue := some (cold, s.ticks + 1250000) } } := by
  rw [s.afterWrite_dev _ _ rfl, if_pos rfl]
  obtain ⟨rfl, rfl⟩ | ⟨rfl, rfl⟩ := h <;> rfl

/-! ### The stacks (R242, R243) -/

theorem blockOf_retiredKey {c entry : Nat} (hc : c < 2) (he : entry < 4096) : blockOf (retiredKey c entry) = 0x19 :=
  blockOf_shelf (by omega) (by omega)

/-- A write of a retirement entry counts its list, and a channel in service whose list is full leaves it. -/
theorem State.afterWrite_retiredKey (s : State) {c entry n : Nat} (v old : Nat) (hc : c < 2) (he : entry < 4096)
    (hn : n = (s.retiredList c).length) :
    s.afterWrite (retiredKey c entry) v old = if 4096 ≤ n ∧ s.f (Reg.stackChStatus (1 + c)) 0 4 = 2
      then (s.set (Reg.stackChRetiredN (1 + c)) n).channelLeave c 3 4 else s.set (Reg.stackChRetiredN (1 + c)) n := by
  subst hn
  have hi : instOf (retiredKey c entry) = 0x10 + 8 * c + entry / 512 := instOf_shelf (by omega) (by omega)
  have hk : retiredKey c entry ≠ Reg.stackCfg := fun h => by
    have h0 : instOf Reg.stackCfg = 0 := rfl
    rw [← h, hi] at h0; omega
  have hg : (decide (0x10 ≤ instOf (retiredKey c entry)) && decide (instOf (retiredKey c entry) < 0x20)) = true := by
    rw [hi]; simp; omega
  have hd : (instOf (retiredKey c entry) - 0x10) / 8 = c := by rw [hi]; omega
  have hs (x : Nat) : (s.set (Reg.stackChRetiredN (1 + c)) x).channel c = s.f (Reg.stackChStatus (1 + c)) 0 4 :=
    State.f_congr (State.get_set_ne s x (by unfold Reg.stackChStatus Reg.stackChRetiredN shelf; omega)) _ _
  rw [s.afterWrite_stack v old (blockOf_retiredKey hc he), State.afterStack, if_neg hk, if_pos hg, hd, State.retiredCheck]
  exact if_congr (by rw [hs]; simp) rfl rfl

/-- Clearing bits of CH_EN takes their channels out of service. -/
theorem State.afterWrite_stackCfg (s t : State) (v : Nat) : s.afterWrite Reg.stackCfg v (t.get Reg.stackCfg) =
    s.forEach [0, 1] (fun c u => if t.b Reg.stackCfg c && !u.b Reg.stackCfg c && u.channel c == 2 then u.channelLeave c 3 6 else u) := by
  rw [s.afterWrite_stack _ _ rfl, State.afterStack, if_pos rfl, State.chEnCleared]
  simp only [State.testBit_get]

/-! ### The pair (R419), performance counters (R445) and I2C (R470) -/

/-- A change of MODE enters the mode written. -/
theorem State.afterWrite_pairCfg (s : State) {old : Nat} (v : Nat) (h : bits old 0 2 ≠ s.f Reg.pairCfg 0 2) :
    s.afterWrite Reg.pairCfg v old = if s.pairMode then s.enterPair else s.enterAlone := by
  rw [s.afterWrite_pair v old rfl, State.afterPair, if_neg (by simp), if_pos (by simpa using h)]

theorem blockOf_perfStatus {n : Nat} (hn : n < 64) : blockOf (Reg.perfStatus n) = 0x30 := blockOf_shelf (by omega) (by decide)
theorem State.afterWrite_perfStatus (s : State) {n : Nat} (v old : Nat) (hn : n < 64) :
    s.afterWrite (Reg.perfStatus n) v old = if v.testBit 0 then s.clearOvf n else s := by
  have hi : instOf (Reg.perfStatus n) = n := instOf_shelf (by omega) (by decide)
  have hx : indexOf (Reg.perfStatus n) = 4 := indexOf_shelf (by decide)
  rw [s.afterWrite_perf v old (blockOf_perfStatus hn), hi, hx]
  simp [hn]

theorem blockOf_i2cXfer {k : Nat} (hk : k < 4) : blockOf (Reg.i2cXfer (0x100 + k)) = 0x34 := blockOf_shelf (by omega) (by decide)
/-- GO starts a transfer. -/
theorem State.afterWrite_i2cXfer (s : State) {k : Nat} (v old : Nat) (hk : k < 4) :
    s.afterWrite (Reg.i2cXfer (0x100 + k)) (setBits v 63 1 1) old = s.i2cStart k := by
  have hi : instOf (Reg.i2cXfer (0x100 + k)) = 0x100 + k := instOf_shelf (by omega) (by decide)
  have hx : indexOf (Reg.i2cXfer (0x100 + k)) = 1 := indexOf_shelf (by decide)
  rw [s.afterWrite_gpio _ old (blockOf_i2cXfer hk), hi, hx]
  simp [testBit_setBits]

/-- Settles O23: each row writes one word, and what follows it is its block's operation. -/
theorem systemWritesAct : Obligations.SystemWritesAct := by
  rintro path value s v rfl
  refine ⟨?_, fun n hn hl w hw => ⟨?_, ?_⟩, ?_, fun hl => ?_, fun c hc entry he hl w n hw hn => ?_, fun hl => ?_, fun hl => ?_,
    fun hl w hw hm => ?_, fun n hn hl w hw => ?_, ?_⟩
  · rintro cold code c (⟨rfl, rfl, rfl⟩ | ⟨rfl, rfl, rfl⟩) hl w hw
    · exact next_landed hl hw (by decide) (w.afterWrite_devReset _ (.inl ⟨rfl, rfl⟩))
    · exact next_landed hl hw (by decide) (w.afterWrite_devReset _ (.inr ⟨rfl, rfl⟩))
  · exact (atUnit_lt _ _ hn).trans (next_landed hl hw (by rw [blockOf_secKeyW hn]; decide) (w.afterWrite_secKeyW _ _ hn))
  · rw [hw, get_landed_self, s.landing_secKeyW hn value.isLt]
    exact Nat.mod_eq_of_lt value.isLt
  · rintro x w rfl hl hw
    obtain ⟨h0, h1⟩ := s.landing_secLock
    refine ⟨next_landed hl hw (by decide) (w.afterWrite_sec _ _ rfl), ?_, ?_⟩
    · rw [hw, ← State.testBit_get, get_landed_self, Nat.testBit_mod_two_pow, h0]; rfl
    · rw [hw, State.f, get_landed_self, bits_one, Nat.testBit_mod_two_pow, h1, State.f, bits_one]; rfl
  · exact next_landed hl rfl (by decide) (State.afterWrite_buf _ _ _ rfl)
  · exact (atUnit_lt _ _ (by rwa [if_pos hc])).trans
      (next_landed hl hw (by rw [blockOf_retiredKey hc he]; decide) (w.afterWrite_retiredKey _ _ hc he hn))
  · exact next_landed hl rfl (by decide) (State.afterWrite_stackCfg _ _ _)
  · exact next_landed hl rfl (by decide) ((State.afterWrite_fdb _ _ _ rfl).trans (if_pos rfl))
  · exact next_landed hl hw (by decide) (w.afterWrite_pairCfg _ hm)
  · exact (atUnit_lt _ _ hn).trans (next_landed hl hw (by rw [blockOf_perfStatus hn]; decide) (w.afterWrite_perfStatus _ _ hn))
  · rintro k hk x w rfl hl hw
    exact (atUnit_lt _ _ hk).trans (next_landed hl hw (by rw [blockOf_i2cXfer hk]; decide) (w.afterWrite_i2cXfer _ _ hk))

end Sys2Proof.Machine
end

section
/-! PROOF. The command ring, in-band control and the side-band SPI (O25). -/
namespace Sys2Proof.Machine
open Sys2Proof.Safety

/-! ### The command ring (R79) -/

/-- Of the entries fetched from an enabled ring, class 0 runs first. -/
theorem execCommandFetch_runs {entries : List RingEntry} {s u : State} {l : List (ReplyTo × List Byte)} (hu : s.bar0Up = true)
    (he : s.b Reg.cmdCmdrCtrl 31 = true)
    (ha : s.fresh.acceptEntries (s.ringSize Reg.cmdCmdrCtrl 4) (entries.take
      (min ((s.ctl.cmdProd + 65536 - s.f Reg.cmdCmdrCons 0 16) % 65536)
        (s.replyFree - s.ctl.outstanding - bit s.ctl.pcie.session.chain.isSome))) = (u, l)) :
    execCommandFetch entries s = .next ((l.filter isUrgent ++ l.filter (fun x => !isUrgent x)).foldl State.runAccepted u) := by
  have hc : (s.fresh.bar0Up && s.fresh.b Reg.cmdCmdrCtrl 31) = true := Bool.and_eq_true_iff.2 ⟨hu, he⟩
  refine (if_pos hc).trans ?_
  exact congrArg (fun a : State × List (ReplyTo × List Byte) =>
    Host.Outcome.next ((a.2.filter isUrgent ++ a.2.filter (fun x => !isUrgent x)).foldl State.runAccepted a.1)) ha

/-! ### In-band control (R83, R84) -/

/-- The bytes of an in-band control frame after its Ethertype. -/
def inbandBody (d : List Byte) : List Byte := d.drop (if be16 d 12 = 0x88B5 then 14 else 18)
/-- The request of an in-band control frame of a port, before its packet is read. -/
def inbandRequest (p : Nat) (d : List Byte) : Request :=
  { blankRequest .inband with port := p, src := be48 d 6, vlan := if be16 d 12 = 0x88B5 then none else some (be32 d 12) }

/-- Where the reply to an in-band control frame goes. -/
def inbandReply (p : Nat) (d : List Byte) : ReplyTo :=
  replyToOf (requestOf (inbandRequest p d) (inbandBody d)) (u16 (inbandBody d) 4) none

/-- What becomes of a control frame: dropped where the port or E1 does not serve it, refused when 16 are outstanding, or received. -/
theorem State.inband_eq (s : State) (p : Nat) (d : List Byte) : s.inband p d =
    if !s.inbandPort p || !s.serves 1 then s.count Reg.cmdInbandDrop 0 32 1
    else if hasMarker (inbandBody d) && decide (16 ≤ s.ctl.inbandOut) then
      s.fail { inbandReply p d with flags := (inbandReply p d).flags % 4 } false (.busy 1000)
    else
      let a := s.receivePacket (inbandRequest p d) (inbandBody d)
      a.2.elim a.1 a.1.runAccepted := by
  have hb : inbandBody d = d.drop (if be16 d 12 != 0x88B5 then 18 else 14) := by
    simp only [inbandBody, bne_iff_ne, ne_eq, ite_not]
  have hq : inbandRequest p d = { blankRequest .inband with
      port := p, src := be48 d 6, vlan := if be16 d 12 != 0x88B5 then some (be32 d 12) else none } := by
    simp only [inbandRequest, bne_iff_ne, ne_eq, ite_not]
  rw [inbandReply, hb, hq]
  unfold State.inband
  refine congrArg (ite _ _) (congrArg (ite _ _) ?_)
  dsimp only
  cases (s.receivePacket _ _).2 <;> rfl

theorem State.inband_unserved {s : State} {p : Nat} {d : List Byte} (h : s.inbandPort p = false ∨ s.serves 1 = false) :
    s.inband p d = s.count Reg.cmdInbandDrop 0 32 1 := by
  rw [s.inband_eq, if_pos]
  obtain h | h := h <;> simp [h]
theorem State.inband_full {s : State} {p : Nat} {d : List Byte} (hp : s.inbandPort p = true) (hs : s.serves 1 = true)
    (hm : hasMarker (inbandBody d) = true) (ho : 16 ≤ s.ctl.inbandOut) :
    s.inband p d = s.fail { inbandReply p d with flags := (inbandReply p d).flags % 4 } false (.busy 1000) := by
  rw [s.inband_eq, if_neg (by simp [hp, hs]), if_pos (by simp [hm, ho])]
theorem State.inband_received {s v : State} {p : Nat} {d : List Byte} {o : Option (ReplyTo × List Byte)}
    (hp : s.inbandPort p = true) (hs : s.serves 1 = true) (ho : s.ctl.inbandOut < 16)
    (hr : s.receivePacket (inbandRequest p d) (inbandBody d) = (v, o)) : s.inband p d = o.elim v v.runAccepted := by
  rw [s.inband_eq, if_neg (by simp [hp, hs]), if_neg (by simp [ho]), hr]

/-- A frame that is taken whole, by whether it is a control request. -/
theorem execInbandControlFrame_taken {p : Nat} {frame d : List Byte} {s w : State} (hp : p < 80)
    (h : taken p frame s.fresh = some (d, w)) : execInbandControlFrame p frame s =
      .next (if w.isInband d then (w.mirrorTaken p d frame.length).inband p d else w.good p d frame.length) :=
  (atUnit_lt _ _ hp).trans (congrArg _ (arrive_taken h _ _))

/-! ### The side-band SPI (R85, R86) -/

/-- A reply or event read in part stays. -/
theorem take_append_zeros_of_lt {b : List Byte} {n : Nat} (h : n < b.length) : (b ++ zeros n).take n = b.take n :=
  List.take_append_of_le_length h.le
/-- One read whole is followed by zeros. -/
theorem take_append_zeros_of_le {b : List Byte} {n : Nat} (h : b.length ≤ n) :
    (b ++ zeros n).take n = b ++ zeros (n - b.length) := by
  rw [List.take_append, List.take_of_length_le h, zeros, List.take_replicate, Nat.min_eq_left (Nat.sub_le _ _)]; rfl

theorem execReqWrite_unmarked {packet : List Byte} {s : State} (h : hasMarker packet = false) :
    execReqWrite packet s = .next ((s.fresh.spiBytes (1 + packet.length)).markerWrong (blankRequest .sideband) packet) :=
  congrArg _ (if_pos (by rw [h]; rfl))
theorem execReqWrite_full {packet : List Byte} {s u : State} {t : ReplyTo} (hu : u = s.fresh.spiBytes (1 + packet.length))
    (hm : hasMarker packet = true) (h8 : 8 ≤ s.ctl.sbReq.length + s.ctl.sbAccepted.length)
    (ht : t = replyToOf (requestOf (blankRequest .sideband) packet) (u16 packet 4) none) :
    execReqWrite packet s = .next (u.fail { t with flags := t.flags % 4 } false (.plain .busy)) := by
  subst hu ht
  exact congrArg _ ((if_neg (by rw [hm]; decide)).trans (if_pos h8))
theorem execReqWrite_queued {packet : List Byte} {s u : State} (hu : u = s.fresh.spiBytes (1 + packet.length))
    (hm : hasMarker packet = true) (h8 : s.ctl.sbReq.length + s.ctl.sbAccepted.length < 8) :
    execReqWrite packet s = .next (State.sbCheck 8 { u with ctl := { u.ctl with sbReq := s.ctl.sbReq ++ [packet] } }) := by
  subst hu
  exact congrArg _ ((if_neg (by rw [hm]; decide)).trans (if_neg (Nat.not_le.2 h8)))

section
variable {n : Nat} {s u : State} {b : List Byte} {rest : List (List Byte)} (hu : u = s.fresh.spiBytes (2 + n))
include hu

theorem execReplyRead_none (h : s.ctl.sbReplies = []) : execReplyRead n s = .next { u with out := [.spi (zeros n)] } := by
  subst hu
  unfold execReplyRead
  simp only [State.spiBytes, State.fresh_ctl, h]
  rfl
theorem execReplyRead_part (h : s.ctl.sbReplies = b :: rest) (hn : n < b.length) :
    execReplyRead n s = .next { u with out := [.spi (b.take n)] } := by
  subst hu
  unfold execReplyRead
  simp only [State.spiBytes, State.fresh_ctl, h]
  rw [if_neg (Nat.not_le.2 hn), take_append_zeros_of_lt hn]
  rfl
theorem execReplyRead_whole (h : s.ctl.sbReplies = b :: rest) (hn : b.length ≤ n) : execReplyRead n s =
    .next (State.sbPromote 8 (State.attnAfter
      { u with out := [.spi (b ++ zeros (n - b.length))], ctl := { u.ctl with sbReplies := rest } })) := by
  subst hu
  unfold execReplyRead
  simp only [State.spiBytes, State.fresh_ctl, h]
  rw [if_pos hn, take_append_zeros_of_le hn]
  rfl
theorem execEventRead_none (h : s.ctl.sbEvents = []) : execEventRead n s = .next { u with out := [.spi (zeros n)] } := by
  subst hu
  unfold execEventRead
  simp only [State.spiBytes, State.fresh_ctl, h]
  rfl
theorem execEventRead_part (h : s.ctl.sbEvents = b :: rest) (hn : n < b.length) :
    execEventRead n s = .next { u with out := [.spi (b.take n)] } := by
  subst hu
  unfold execEventRead
  simp only [State.spiBytes, State.fresh_ctl, h]
  rw [if_neg (Nat.not_le.2 hn), take_append_zeros_of_lt hn]
  rfl
theorem execEventRead_whole (h : s.ctl.sbEvents = b :: rest) (hn : b.length ≤ n) : execEventRead n s =
    .next (State.attnAfter (State.flushSbLost
      { u with out := [.spi (b ++ zeros (n - b.length))], ctl := { u.ctl with sbEvents := rest } })) := by
  subst hu
  unfold execEventRead
  simp only [State.spiBytes, State.fresh_ctl, h]
  rw [if_pos hn, take_append_zeros_of_le hn]
  rfl
end

/-- No command byte of R85 is 0 or past 4. -/
theorem execSpiInvalidCommand_counts {b : Nat} {s t : State} (hb : b = 0 ∨ 4 < b)
    (ht : t = (s.fresh.spiBytes 1).count Reg.cmdSbFramingErr 0 32 1) :
    execSpiInvalidCommand b s = .next { t with ctl := { t.ctl with sbFraming := true } } := by
  subst ht
  exact congrArg _ (if_neg (by simp; omega))

/-- The first class 0 request, or the first where none is class 0, starts once its reply has a slot. -/
theorem execSidebandCommandStart_runs {s u : State} {x : ReplyTo × List Byte} (hu : u = s.fresh.sbCheck 8)
    (hx : u.ctl.sbAccepted.find? isUrgent = some x ∨
      (u.ctl.sbAccepted.find? isUrgent = none ∧ u.ctl.sbAccepted.head? = some x))
    (hf : u.slotFree (cmdOf x.1.opcode (u.joined x.1 x.2)) x.1 = true) :
    execSidebandCommandStart s =
      .next (State.runAccepted { u with ctl := { u.ctl with sbAccepted := u.ctl.sbAccepted.erase x } } x) := by
  have hn : (u.ctl.sbAccepted.find? isUrgent).orElse (fun _ => u.ctl.sbAccepted.head?) = some x := by
    obtain h | ⟨h, hh⟩ := hx
    · rw [h]; rfl
    · rw [h]; exact hh
  subst hu
  unfold execSidebandCommandStart
  simp only [hn, hf, if_true]

/-- Settles O25: a lemma for each row and each way it goes. -/
theorem packetTransportsServe : Obligations.PacketTransportsServe := by
  intro s u
  refine ⟨?_, fun p hp frame d b q w ht => ?_, ?_, ?_, fun n hu => ⟨execReplyRead_none hu, fun _ _ => execReplyRead_part hu,
    fun _ _ => execReplyRead_whole hu, execEventRead_none hu, fun _ _ => execEventRead_part hu,
    fun _ _ => execEventRead_whole hu⟩, ?_, fun x hu hx hf => execSidebandCommandStart_runs hu hx hf⟩
  · rintro entries hu he waiting room l rfl rfl ha
    exact execCommandFetch_runs hu he ha
  · have hx : execInbandControlFrame p frame s = _ := execInbandControlFrame_taken hp ht
    refine ⟨fun hi => hx.trans (congrArg _ (if_neg (by rw [hi]; decide))), ?_⟩
    rintro hi rfl rfl rfl
    replace hx := hx.trans (congrArg _ (if_pos hi))
    refine ⟨fun h => hx.trans (congrArg _ (State.inband_unserved h)), ?_, fun hport hserves ho v o hr => ?_⟩
    · rintro hport hserves hm ho t rfl
      exact hx.trans (congrArg _ (State.inband_full hport hserves hm ho))
    · refine (hx.trans (congrArg _ (State.inband_received hport hserves ho hr))).trans ?_
      cases o <;> rfl
  · intro packet hu
    refine ⟨?_, fun hm h8 t ht => execReqWrite_full hu hm h8 ht, execReqWrite_queued hu⟩
    rintro hm t rfl
    subst hu
    exact execReqWrite_unmarked hm
  · rintro rfl
    rfl
  · rintro b rfl hb t ht
    exact execSpiInvalidCommand_counts hb ht

end Sys2Proof.Machine
end

section
/-! PROOF. Pair and power commands (O15). -/
namespace Sys2Proof.Machine
open Sys2Proof.Safety

/-- PWR_SET with no named or added domain in transition (R121). -/
theorem pwrSetRun_idle {x : Ctx} {u : State} (h : u.setBusy x.p = none) :
    pwrSetRun x u = .ok (toLe 2 (maskOf (u.setAdded x.p)) ++ toLe 2 (u.setTarget x.p))
      ((u.forEach (u.setUps x.p) (fun n t => t.setPd n 1)).forEach ((u.setDowns x.p).filter (· != 1))
        (fun n t => t.beginOff n)) := by
  unfold pwrSetRun
  rw [h]

/-- Settles O15: PAIR_TAKE by its ways to succeed, PWR_SET by whether PD1 goes off once the reply has been sent. -/
theorem pairAndPowerCommandsAct : Obligations.PairAndPowerCommandsAct := by
  intro q s u x
  refine ⟨?_, fun h hp hv => ?_, fun h => ?_, ?_, ?_⟩
  · rintro h h3 reply rfl
    obtain ⟨hactive, hforced, hrequest, htake⟩ := pairTakeRun_cases u x h3
    refine ⟨fun h2 => congrArg _ (runCmd_reply h (hactive h2)), ?_, ?_, ?_⟩
    · rintro h2 ha hf v rfl
      exact congrArg _ (runCmd_reply h (hforced h2 ha hf))
    · rintro h2 ha hf v rfl
      exact congrArg _ (runCmd_reply h (hrequest h2 ha hf))
    · rintro h2 ha hv v rfl
      exact congrArg _ (runCmd_reply h (htake h2 ha hv))
  · exact congrArg _ (runCmd_reply h (pairYieldRun_ok u x hp hv))
  · exact congrArg _ (runCmd_reply h rfl)
  · rintro h hb v rfl
    have hx : exec (.pwrSet q) s = _ := congrArg Host.Outcome.next (runCmd_reply h (pwrSetRun_idle hb))
    refine ⟨fun h1 h2 => ?_, fun hn => ?_⟩
    · exact hx.trans (congrArg _ (if_pos (by rw [h1, h2]; rfl)))
    · refine hx.trans (congrArg _ (if_neg ?_))
      obtain hn | hn := hn
      · rw [hn, Bool.false_and]; exact Bool.false_ne_true
      · rw [beq_false_of_ne hn, Bool.and_false]; exact Bool.false_ne_true
  · rintro h es v rfl rfl
    exact congrArg _ (runCmd_reply h rfl)

end Sys2Proof.Machine
end

section
/-! PROOF. Snapshot and firmware commands (O19). -/
namespace Sys2Proof.Machine
open Sys2Proof.Safety

/-- Settles O19: each command by its ways to succeed, of which some reply at once and some later. -/
theorem flashAndSnapshotCommandsAct : Obligations.FlashAndSnapshotCommandsAct := by
  intro q s u x
  refine ⟨?_, fun h hs => ?_, ?_, ?_⟩
  · rintro h hb d t v w rfl rfl rfl hw
    obtain ⟨hnow, hlate, hsched⟩ := statSnapshotRun_cases u x hb
    exact ⟨fun hf => congrArg _ (runCmd_later h (hnow hf)), fun hf hl => congrArg _ (runCmd_later h (hlate hf hl)),
      fun hf hl ha => congrArg _ (runCmd_reply h (hsched hf hl ha w hw))⟩
  · exact congrArg _ (runCmd_later h (if_neg (by rw [hs]; decide)))
  · rintro h kind v w rfl hv rfl
    obtain ⟨hnext, hnow⟩ := fwActivateRun_cases u x v hv
    exact ⟨fun hf => congrArg _ (runCmd_reply h (hnext hf)), fun hf => congrArg _ (runCmd_later h (hnow hf))⟩
  · rintro h kind v w rfl rfl rfl
    exact congrArg _ (runCmd_reply h rfl)

end Sys2Proof.Machine
end

section
/-! PROOF. Resets, by pin and by code (O27). -/
namespace Sys2Proof.Machine
open Sys2Proof.Safety

/-! ### The cold reset (R98) -/

/-- A word that no entry of a store kept reads its reset value. -/
theorem Words.get_filter_dropped {f : Nat × Word → Bool} {k : Nat} (ws : List (Nat × Word)) (h : ∀ p, p.1 = k → f p = false) :
    Words.get (ws.filter f) k = resetWord k := by
  have hn : Words.find (ws.filter f) k = none := by
    rw [Words.find, Option.map_eq_none_iff, List.find?_eq_none]
    intro p hp hk
    have hf := (List.mem_filter.1 hp).2
    rw [h p (beq_iff_eq.1 hk)] at hf
    exact Bool.false_ne_true hf
  rw [Words.get, hn, Option.getD_none]

/-- Over the two words that a cold reset keeps (R98) it writes four. -/
theorem State.coldReset_released (s : State) (pref : Bool) (cause : Nat) : ∃ (base : State) (keys : Nat),
    base.words = s.words.filter (fun x => x.1 == Reg.devId || x.1 == Reg.devUid) ∧ s.coldReset false pref cause =
      (((base.set Reg.devResetCause cause).set Reg.devStraps 0).setf Reg.pairState 1 1 (bit pref)).set Reg.fwKeyStatus keys :=
  ⟨_, _, rfl, rfl⟩

theorem State.get_coldReset_cause (s : State) (pref : Bool) (cause : Nat) :
    (s.coldReset false pref cause).get Reg.devResetCause = cause % 2 ^ 64 := by
  obtain ⟨base, keys, -, ht⟩ := s.coldReset_released pref cause
  rw [ht, State.get_set_ne _ _ (by decide), State.get_setf_ne _ _ _ _ (by decide), State.get_set_ne _ _ (by decide),
    State.get_set_self]

/-- Every word but the six that a cold reset keeps or writes reads its reset value. -/
theorem State.get_coldReset_ne (s : State) (pref : Bool) (cause : Nat) {k : Nat}
    (hk : k ∉ [Reg.devId, Reg.devUid, Reg.devResetCause, Reg.devStraps, Reg.pairState, Reg.fwKeyStatus]) :
    (s.coldReset false pref cause).get k = (resetWord k).toNat := by
  obtain ⟨base, keys, hw, ht⟩ := s.coldReset_released pref cause
  simp only [List.mem_cons, List.not_mem_nil, or_false, not_or] at hk
  obtain ⟨hid, huid, hcause, hstraps, hpair, hkeys⟩ := hk
  have hd : ∀ p : Nat × Word, p.1 = k → (p.1 == Reg.devId || p.1 == Reg.devUid) = false := by
    rintro p rfl
    rw [beq_false_of_ne hid, beq_false_of_ne huid]; rfl
  rw [ht, State.get_set_ne _ _ hkeys, State.get_setf_ne _ _ _ _ hpair, State.get_set_ne _ _ hstraps,
    State.get_set_ne _ _ hcause, State.get, hw, Words.get_filter_dropped _ hd]

/-- PD0 alone is on. -/
theorem State.pd_coldReset (s : State) (pref : Bool) (cause n : Nat) :
    (s.coldReset false pref cause).pd n = if n = 0 then 2 else 0 := by
  have hg : (s.coldReset false pref cause).get Reg.pwrState = State.reset.get Reg.pwrState :=
    (s.get_coldReset_ne pref cause (by decide)).trans (State.get_reset _).symm
  split
  · next h => rw [h]; rfl
  · next h =>
    have hp := State.pd_reset h
    unfold State.pd at hp ⊢
    rw [if_neg h] at hp ⊢
    rw [State.f_congr hg, hp]

/-! ### The codes of DEV_RESET (R101) -/

theorem execColdReset_due {s : State} {t : Nat} (hr : s.boot.resetDue = some (true, t)) (ht : t ≤ s.ticks) :
    execColdReset none s = .next (s.coldReset (s.b Reg.devStraps 0) (s.b Reg.pairState 1) 2) := by
  unfold execColdReset
  simp only [hr]
  rw [if_pos ht]
theorem execWarmReset_due {s : State} {t : Nat} (hr : s.boot.resetDue = some (false, t)) (ht : t ≤ s.ticks) :
    execWarmReset false s = .next (s.fresh.warmReset 8) := by
  unfold execWarmReset
  simp only [State.fresh_boot, hr]
  exact congrArg _ (if_pos ht)
theorem execColdReset_none {s : State} (hr : s.boot.resetDue = none) : execColdReset none s = .next s.fresh := by
  unfold execColdReset
  simp only [hr]
theorem execWarmReset_none {s : State} (pin : Bool) (hr : s.boot.resetDue = none) :
    execWarmReset pin s = .next (if pin then s.fresh.warmReset 4 else s.fresh) := by
  unfold execWarmReset
  simp only [State.fresh_boot, hr]

/-- Settles O27: the pins and the codes each name their reset; the state of a cold reset is its definition's, its words and domains
by the lemmas on its reads. -/
theorem resetsAct : Obligations.ResetsAct := by
  intro s
  refine ⟨fun hold pref => rfl, fun t => execColdReset_due, fun pref cause => ?_, rfl, fun t => execWarmReset_due,
    fun pin hr => ⟨execColdReset_none hr, execWarmReset_none pin hr⟩⟩
  refine ⟨_, rfl, ?_, rfl, rfl, rfl, rfl, rfl, rfl, rfl, rfl, rfl, rfl, s.get_coldReset_cause pref cause,
    fun n _ => s.pd_coldReset pref cause n, fun k hk => s.get_coldReset_ne pref cause hk⟩
  rintro rfl
  rfl

end Sys2Proof.Machine
end

section
/-! PROOF. The steps of start-up (O28). -/
namespace Sys2Proof.Machine
open Sys2Proof.Safety

/-! ### The cold-boot count (R103) -/

theorem execColdBootCount_programs {s u : State} {n : Nat} {m : List Host.Cell} (hu : u = s.fresh.e0Start)
    (hk : u.boot.countKnown = false) (hj : journalNext u.boot.flash = (n, m)) : execColdBootCount true true s =
      .next (State.set { u with boot := { u.boot with flash := m, countKnown := true } } Reg.fwColdBoots n) := by
  subst hu
  unfold execColdBootCount
  simp only [hk, hj]
  rfl
theorem execColdBootCount_fails {s u : State} {r p : Bool} (hu : u = s.fresh.e0Start) (hk : u.boot.countKnown = false)
    (hf : (r && p) = false) : execColdBootCount r p s =
      .next (State.set { u with boot := { u.boot with countKnown := true } } Reg.fwColdBoots (2 ^ 32)) := by
  subst hu
  unfold execColdBootCount
  simp only [hk, hf]
  rfl

/-! ### The boot header (R102, R104 to R106) -/

/-- E0 uses copy c of the boot header, whose bytes are x. -/
def State.useHeader (s : State) (c : Nat) (x : List Byte) : State :=
  { s with boot := { s.boot with stage := 1, headerCopy := some c, header := x } }

section
variable {s u : State} (hu : u = s.fresh.e0Start) (h0 : u.boot.stage = 0) (hs : u.serves 0 = true)
include hu h0 hs

/-- The header is read once, by a running E0: BOOT_HOLD first, then a copy, if one is found. -/
theorem execBootHeaderRead_reads : execBootHeaderRead s = .next (
    if u.b Reg.devStraps 0 then u.holdBoot 4
    else (if u.boot.flashMib < 256 then none else headerNow u.boot.flash).elim (u.holdBoot 5) fun c =>
      let v := u.useHeader c (headerAt u.boot.flash c)
      (v.set Reg.fwBootResult (c * 2 ^ 25)).set Reg.fwPrimary (v.primaryNow.2 % 8 * 8 + v.primaryNow.1 % 8)) := by
  have hn : ¬ (u.boot.stage != 0 || !u.serves 0) = true := by rw [h0, hs]; decide
  unfold execBootHeaderRead
  extract_lets +onlyGivenNames w
  obtain rfl : w = u := hu.symm
  rw [if_neg hn]
  refine congrArg _ (congrArg (ite _ _) ?_)
  cases (if w.boot.flashMib < 256 then none else headerNow w.boot.flash) <;> rfl

theorem execBootHeaderRead_held (hb : u.b Reg.devStraps 0 = true) : execBootHeaderRead s = .next (u.holdBoot 4) :=
  (execBootHeaderRead_reads hu h0 hs).trans (congrArg _ (if_pos hb))
theorem execBootHeaderRead_none (hb : u.b Reg.devStraps 0 = false)
    (hn : u.boot.flashMib < 256 ∨ headerNow u.boot.flash = none) : execBootHeaderRead s = .next (u.holdBoot 5) := by
  have hc : (if u.boot.flashMib < 256 then none else headerNow u.boot.flash) = none := by
    obtain hn | hn := hn
    · exact if_pos hn
    · rw [hn, ite_self]
  rw [execBootHeaderRead_reads hu h0 hs, hb, hc]
  rfl
theorem execBootHeaderRead_found {c : Nat} {x : List Byte} (hb : u.b Reg.devStraps 0 = false) (hm : 256 ≤ u.boot.flashMib)
    (hc : headerNow u.boot.flash = some c) (hx : x = headerAt u.boot.flash c) : execBootHeaderRead s =
      .next ((State.set { u with boot := { u.boot with stage := 1, headerCopy := some c, header := x } }
        Reg.fwBootResult (c * 2 ^ 25)).set Reg.fwPrimary (u8 x 14 % 8 * 8 + u8 x 13 % 8)) := by
  have hn : (if u.boot.flashMib < 256 then none else headerNow u.boot.flash) = some c :=
    (if_neg (Nat.not_lt.2 hm)).trans hc
  rw [execBootHeaderRead_reads hu h0 hs, hb, hn, Option.elim_some, if_neg Bool.false_ne_true, ← hx]
  rfl
end

/-! ### Images (R108 to R110) -/

theorem execImageSelection_selects {cfg : ConfigBody} {copy : Nat} {s : State} (hc : s.boot.headerCopy = some copy)
    (h1 : s.boot.stage = 1) (hs : s.serves 0 = true) :
    execImageSelection cfg s = .next (s.fresh.selectImages cfg.values cfg.ids copy) := by
  have hn : ¬ (s.boot.stage != 1 || !s.serves 0) = true := by rw [h1, hs]; decide
  unfold execImageSelection
  simp only [State.fresh_boot, hc]
  exact congrArg _ (if_neg hn)

theorem execImageLoadDone_starts {kind slot : Nat} {s : State} (hk : kind = 1 ∨ kind = 2)
    (hl : (if kind = 1 then s.boot.opSlot else s.boot.timeSlot) = some slot) (h2 : s.boot.stage = 2) (ho : s.on 2 = true)
    (hr : s.runningSlot kind = 0xFF) (hs : s.serves 0 = true) (hc : s.slotCode s.boot.header kind slot = 1) :
    execImageLoadDone kind s = .next (s.fresh.startImage kind slot) := by
  have hn : (decide (s.boot.stage = 2) && s.on 2 && s.runningSlot kind == 0xFF && s.serves 0 &&
      s.slotCode s.boot.header kind slot == 1) = true := by rw [h2, ho, hr, hs, hc]; rfl
  unfold execImageLoadDone
  simp only [State.fresh_boot, hl]
  exact congrArg _ ((if_pos hk).trans (if_pos hn))

/-- Settles O28: a lemma for each step and each way it goes; the two that load tables have one condition each. -/
theorem startUpStepsAct : Obligations.StartUpStepsAct := by
  intro s u hu
  refine ⟨fun hk => ⟨fun n m hj => execColdBootCount_programs hu hk hj, fun r p hf => execColdBootCount_fails hu hk hf⟩,
    fun h0 hs => ⟨execBootHeaderRead_held hu h0 hs, execBootHeaderRead_none hu h0 hs,
      fun hb hm c hc x hx => execBootHeaderRead_found hu h0 hs hb hm hc hx⟩,
    fun cfg copy hc h1 hs => execImageSelection_selects hc h1 hs,
    fun kind slot hk hl h2 ho hr hs hc => execImageLoadDone_starts hk hl h2 ho hr hs hc, ?_,
    fun h => congrArg _ (if_pos h)⟩
  rintro entries calendars h num changes v rfl rfl rfl
  exact congrArg _ (if_pos h)

end Sys2Proof.Machine
end

section
/-! PROOF. Loops that lock and unlock, and the holdover estimate (O47). -/
namespace Sys2Proof.Machine
open Sys2Proof.Safety

/-! ### Lock (R374) -/

/-- An ACQUIRING loop that has been calm for its lock time. -/
theorem execDpllLock_calm {i t : Nat} {s : State} (hi : i < 10) (hs : s.selects = true) (hl : s.level i = 1)
    (hv : (s.dpll i).live = true) (hp : (s.dpll i).pending = 0) (ht : (s.dpll i).calmAt = some t)
    (hd : t + s.f (Reg.dpllCfg i) 48 8 * 1250000000 ≤ s.ticks) : execDpllLock i s = .next (s.fresh.setLevel i 2) := by
  unfold execDpllLock
  extract_lets u x calm
  have hx : x.calmAt = some t := ht
  have hcalm : calm = true := by
    unfold calm
    rw [hx]
    exact decide_eq_true hd
  have hc : (s.selects && s.level i == 1 && (s.dpll i).live && (s.dpll i).pending == 0 && calm) = true := by
    rw [hs, hl, hv, hp, hcalm]; rfl
  exact (atUnit_lt _ _ hi).trans (congrArg _ (if_pos hc))

/-- v has the phase reading taken; e is its error with what remains to slew. -/
theorem execDpllUnlock_reads {i : Nat} {phi e : Int} {s v : State} (hi : i < 10) (hs : s.timeUp = true) (hl : s.level i = 2)
    (hd : (s.dpll i).live = true) (hv : v = s.fresh.loopReading i (s.dpll i).base phi)
    (he : e = signed 64 (v.get (Reg.dpllPhaseErr i)) + (s.dpll i).pending / (fine16 : Int)) :
    execDpllUnlock i phi s =
      .next (if v.f (Reg.dpllCfg i) 0 32 * 65536 < e.natAbs * 1000 then v.setLevel i 1 else v) := by
  subst hv he
  have hc : (s.timeUp && s.level i == 2 && (s.dpll i).live) = true := by rw [hs, hl, hd]; rfl
  exact (atUnit_lt _ _ hi).trans (congrArg _ (if_pos hc))

/-! ### Holdover (R111, R375) -/

/-- What has not been done yet, or was last done at least n ticks ago, is due. -/
theorem due_of_elapsed {o : Option Nat} {n now : Nat} : (∀ t, o = some t → t + n ≤ now) →
    (match o with | some t => decide (t + n ≤ now) | none => true) = true := by
  intro h
  cases o with
  | none => rfl
  | some t => exact decide_eq_true (h t rfl)

/-- The history from a to b is averaged into f; where none of it lies there, f is the present frequency. -/
theorem execHoldoverEstimateWrite_due {i : Nat} {s v : State} {a b : Nat} {h : List (Nat × Int)} {f : Int} (hi : i < 10)
    (hs : s.timeUp = true) (hl : s.level i = 2) (hd : ∀ t, (s.dpll i).wroteAt = some t → t + 1250000000 ≤ s.ticks)
    (hv : v = s.fresh.setDpll i (fun x => { x with wroteAt := some s.ticks }))
    (hb : b = v.ticks - v.f (Reg.dpllHoCfg i) 32 16 * 1250000) (hh : h = (v.dpll i).hist)
    (ha : a = max (b - v.f (Reg.dpllHoCfg i) 48 16 * 1250000000) ((h.head?.map (·.1)).getD b))
    (hf : f = if a < b then roundDiv (histArea a b h) (b - a) else v.dpllFreq i) :
    execHoldoverEstimateWrite i s = .next ((v.setf (Reg.dpllHoFreq i) 0 32 (unsigned 32 f)).showValid i) := by
  subst hf ha hb hh hv
  unfold execHoldoverEstimateWrite
  extract_lets +onlyGivenNames u due
  have hdue : due = true := due_of_elapsed hd
  have hc : (s.timeUp && s.level i == 2 && due) = true := by rw [hs, hl, hdue]; rfl
  exact (atUnit_lt _ _ hi).trans (congrArg _ (if_pos hc))

/-- The estimate of a LOCKED domain is stored every ten minutes at most. -/
theorem execHoldoverStore_due {d : Nat} {s : State} (hi : d < 8) (hs : s.selects = true) (hl : s.tdLevel d = 2)
    (hd : ∀ t, assoc s.boot.storedTick d = some t → t + 750000000000 ≤ s.ticks) :
    execHoldoverStore d s = .next { s.fresh with boot := { s.boot with
      holdover := assocSet s.boot.holdover d (s.hoFreq d, s.f Reg.fwColdBoots 0 32)
      storedTick := assocSet s.boot.storedTick d s.ticks } } := by
  unfold execHoldoverStore
  extract_lets u due
  have hdue : due = true := due_of_elapsed hd
  have hc : (s.selects && s.tdLevel d == 2 && due) = true := by rw [hs, hl, hdue]; rfl
  exact (atUnit_lt _ _ hi).trans (congrArg _ (if_pos hc))

/-- Settles O47: a lemma for each row, where its condition holds; an unlock by its error, an estimate by whether any history lies in
its span. -/
theorem loopsLockAndHold : Obligations.LoopsLockAndHold := by
  rintro s u rfl
  refine ⟨fun i hi t hs hl hv hp ht hd => execDpllLock_calm hi hs hl hv hp ht hd, ?_, ?_,
    fun d hi hs hl hd => execHoldoverStore_due hi hs hl hd⟩
  · intro i hi phi v e hs hl hd hv he
    have hx : exec (.dpllUnlock i phi) s = _ := execDpllUnlock_reads hi hs hl hd hv he
    exact ⟨fun hg => hx.trans (congrArg _ (if_pos hg)), fun hg => hx.trans (congrArg _ (if_neg (Nat.not_lt.2 hg)))⟩
  · intro i hi hs hl hd v a b h f hv hb hh ha hlt hle
    refine execHoldoverEstimateWrite_due hi hs hl hd hv hb hh ha ?_
    split
    · next hab => exact hlt hab
    · next hab => exact hle (Nat.not_lt.1 hab)

end Sys2Proof.Machine
end

section
/-! PROOF. PAM4 symbols, and the precoding that the receiver undoes (O59). -/
namespace Sys2Proof.Machine

/-! ### Symbols (R129) -/

theorem pam4Gray_lt (a b : Bool) : pam4Gray a b < 4 := by cases a <;> cases b <;> decide
theorem pam4Pair_pam4Gray (a b : Bool) : pam4Pair (pam4Gray a b) = [a, b] := by cases a <;> cases b <;> rfl
theorem pam4Level_mem {v : Nat} (h : v < 4) : pam4Level v ∈ [-3, -1, 1, 3] := by
  revert v; decide

theorem pam4Map_lt : ∀ bs : List Bool, ∀ v ∈ pam4Map bs, v < 4
  | [] | [_] => List.forall_mem_nil _
  | a :: b :: rest => List.forall_mem_cons.2 ⟨pam4Gray_lt a b, pam4Map_lt rest⟩

/-- Every pair of bits is read back from its symbol. -/
theorem flatMap_pam4Map : ∀ bs : List Bool, bs.length % 2 = 0 → (pam4Map bs).flatMap pam4Pair = bs
  | [], _ => rfl
  | [_], h => absurd h Nat.one_ne_zero
  | a :: b :: rest, h => by
    have hr : rest.length % 2 = 0 := (Nat.add_mod_right _ 2).symm.trans h
    rw [pam4Map, List.flatMap_cons, pam4Pair_pam4Gray, flatMap_pam4Map rest hr]; rfl

/-- The first symbol is that of the first two bits. -/
theorem tail_pam4Map : ∀ bs : List Bool, (pam4Map bs).tail = pam4Map (bs.drop 2)
  | [] | [_] | _ :: _ :: _ => rfl

/-! ### Precoding (R130) -/

theorem precode_lt (p : Nat) (gs : List Nat) : ∀ v ∈ precode p gs, v < 4 := by
  induction gs generalizing p with
  | nil => exact List.forall_mem_nil _
  | cons g gs ih => exact List.forall_mem_cons.2 ⟨Nat.mod_lt _ (by decide), ih _⟩

/-- The receive precoder undoes the transmit precoder, whatever the transmitter's history, but for the first symbol, which is
its own history. -/
theorem unprecode_precode (p : Nat) (gs : List Nat) (h : ∀ g ∈ gs, g < 4) : unprecode (precode p gs) = gs.tail := by
  induction gs generalizing p with
  | nil => rfl
  | cons g gs ih =>
    obtain ⟨-, hgs⟩ := List.forall_mem_cons.1 h
    cases gs with
    | nil => rfl
    | cons g' gs =>
      have hsum : ((g + 4 - p) % 4 + (g' + 4 - (g + 4 - p) % 4) % 4) % 4 = g' := by
        have hg' : g' < 4 := hgs g' List.mem_cons_self
        omega
      exact congrArg₂ List.cons hsum (ih _ hgs)

/-! ### A lane in a PAM4 mode -/

theorem State.txSymbols_pam4 {s : State} {l : Lane} (h : s.pam4 l = true) (bs : List Bool) :
    s.txSymbols l bs = if s.b (laneKey l 1) 6 then precode 0 (pam4Map bs) else pam4Map bs := if_pos h
theorem State.rxBits_pam4 {s : State} {l : Lane} (h : s.pam4 l = true) (v : List Nat) :
    s.rxBits l v = (if s.b (laneKey l 1) 5 then unprecode v else v).flatMap pam4Pair := if_pos h

theorem State.txSymbols_lt {s : State} {l : Lane} (h : s.pam4 l = true) (bs : List Bool) : ∀ v ∈ s.txSymbols l bs, v < 4 := by
  rw [s.txSymbols_pam4 h]
  split
  · exact precode_lt 0 _
  · exact pam4Map_lt bs

/-- Settles O59: the pairs read back what the Gray map took, and the receive precoder, by induction on the symbols, gives all of
them but the first. -/
theorem precodingLosesNothing : Obligations.PrecodingLosesNothing := by
  intro s l bs hp heven
  refine ⟨fun v hv => ?_, fun htx hrx => ?_, fun htx hrx => ?_⟩
  · have hlt := s.txSymbols_lt hp bs v hv
    exact ⟨hlt, pam4Level_mem hlt⟩
  · rw [s.rxBits_pam4 hp, s.txSymbols_pam4 hp, if_neg (by rw [hrx]; decide), if_neg (by rw [htx]; decide),
      flatMap_pam4Map bs heven]
  · have hdrop : (bs.drop 2).length % 2 = 0 := by rw [List.length_drop]; omega
    rw [s.rxBits_pam4 hp, s.txSymbols_pam4 hp, if_pos hrx, if_pos htx, unprecode_precode 0 _ (pam4Map_lt bs), tail_pam4Map,
      flatMap_pam4Map _ hdrop]

end Sys2Proof.Machine
end

section
/-! PROOF. Writes that act on lanes, port types, links, a domain's user offset and transmit planes (O24). -/
namespace Sys2Proof.Machine
open Sys2Proof.Safety

/-! ### Words of a lane (R126) -/

theorem laneNum_lt {l : Lane} (h : laneExists l = true) : laneNum l < 4096 := by
  cases l <;> exact (of_decide_eq_true h).trans (by decide)
theorem blockOf_laneKey {l : Lane} {x : Nat} (h : laneExists l = true) (hx : x < 4096) : blockOf (laneKey l x) = laneBlock l :=
  blockOf_shelf (laneNum_lt h) hx
theorem blockOf_laneKey_ne {l : Lane} {x : Nat} (h : laneExists l = true) (hx : x < 4096) : blockOf (laneKey l x) ≠ 0x0C := by
  rw [blockOf_laneKey h hx]; cases l <;> simp [laneBlock]
theorem State.afterWrite_laneKey (s : State) {l : Lane} {x : Nat} (v old : Nat) (h : laneExists l = true) (hx : x < 4096) :
    s.afterWrite (laneKey l x) v old = s.afterLane l x v := by
  have hi : instOf (laneKey l x) = laneNum l := instOf_shelf (laneNum_lt h) hx
  have hj : indexOf (laneKey l x) = x := indexOf_shelf hx
  unfold State.afterWrite
  rw [blockOf_laneKey h hx, hi, hj]
  cases l <;> rfl

/-- A row of a lane that the part has. -/
theorem atLane_exists {l : Lane} (s t : State) (h : laneExists l = true) :
    (.next (if laneExists l then t else s) : Host.Outcome State Fault Refusal) = .next t := congrArg _ (if_pos h)

/-- A write to a lane's word that lands leaves what follows it there. -/
theorem next_landed_lane {path : WritePath} {l : Lane} {x v : Nat} {s w : State} (h : laneExists l = true) (hx : x < 4096)
    (hl : lands path (laneKey l x) v s = true) (hw : w = landed path (laneKey l x) v s) :
    (.next (if laneExists l then s.fresh.writeVia path (laneKey l x) v else s.fresh) : Host.Outcome State Fault Refusal) =
      .next (w.afterLane l x v) :=
  (atLane_exists _ _ h).trans (next_landed hl hw (blockOf_laneKey_ne h hx) (w.afterWrite_laneKey _ _ h hx))

/-! ### Restarts and margin probes (R135, R140, R151) -/

theorem State.restartTx_eq (s : State) (l : Lane) : s.restartTx l = if s.txState l = 0 then s else s.txStart l :=
  if_congr beq_iff_eq rfl rfl
theorem State.restartRx_eq (s : State) (l : Lane) : s.restartRx l = if s.rxState l = 4 then s.lockLost l 5 2
    else if s.rxState l = 3 ∨ s.rxState l = 6 then s.setf (laneKey l 5) 0 4 2 else s :=
  if_congr beq_iff_eq rfl (if_congr (by simp) rfl rfl)
theorem State.marginStart_eq (s : State) (l : Lane) : s.marginStart l = if s.f (laneKey l 0x13) 0 8 = 1 then s
    else if s.rxState l = 4 then
      ((s.set (laneKey l 0x13) 0).setf (laneKey l 0x13) 0 10 (1 + s.probeEye l * 256)).setf (laneKey l 0x12) 4 1 1
    else (s.set (laneKey l 0x13) (if laneKind l = 0 then 0 else 256)).marginEnd l 4 :=
  if_congr beq_iff_eq rfl (if_congr beq_iff_eq rfl rfl)

/-- MARGIN_START is set in what the row writes. -/
theorem testBit_marginStart (target : Nat) : (target % 16 + 16).testBit 4 = true := by
  have h : target % 16 < 2 ^ 4 := Nat.mod_lt _ (by decide)
  have ht : (2 ^ 4 + target % 16).testBit 4 = true := by rw [Nat.testBit_two_pow_add_eq, Nat.testBit_lt_two_pow h]; rfl
  rwa [Nat.add_comm] at ht

/-! ### Port types (R155) -/

theorem State.writeWord_macPortType (s : State) {p : Nat} (v : Nat) (hp : p < 83) : s.writeWord (Reg.macPortType p) v =
    if bits (s.landing (Reg.macPortType p) v) 0 8 = s.portType p then s
    else s.typeWritten p (bits (s.landing (Reg.macPortType p) v) 0 8) := by
  have hb : blockOf (Reg.macPortType p) = 0x0C := blockOf_shelf (by omega) (by decide)
  have hi : instOf (Reg.macPortType p) = p := instOf_shelf (by omega) (by decide)
  have hx : indexOf (Reg.macPortType p) = 0 := indexOf_shelf (by decide)
  unfold State.writeWord
  rw [hb, hi, hx]
  rfl

/-! ### Link control (R352, R354), CLEAR_OFFSET (R381) and transmit planes (R378, R380) -/

theorem testBit_setBits_self (v i : Nat) : (setBits v i 1 1).testBit i = true := by
  rw [testBit_setBits]; simp

theorem blockOf_pcsLinkCtrl {p : Nat} (hp : p < 80) : blockOf (Reg.pcsLinkCtrl p) = 0x0A := blockOf_shelf (by omega) (by decide)
theorem State.afterWrite_pcsLinkCtrl (s : State) {p : Nat} (v old : Nat) (hp : p < 80) :
    s.afterWrite (Reg.pcsLinkCtrl p) v old = s.linkCtrl p v := by
  have hi : instOf (Reg.pcsLinkCtrl p) = p := instOf_shelf (by omega) (by decide)
  have hx : indexOf (Reg.pcsLinkCtrl p) = 8 := indexOf_shelf (by decide)
  unfold State.afterWrite
  rw [blockOf_pcsLinkCtrl hp, hi, hx]
  rfl
theorem State.linkCtrl_remeasure (s : State) (p v : Nat) :
    s.linkCtrl p (setBits v 1 1 1) = (s.linkInvalid p 3).linkProgress p 3 := if_pos (testBit_setBits_self v 1)
/-- With ACCEPT set, REMEASURE acts alone, and a SUSPECT link becomes VALID. -/
theorem State.linkCtrl_accept (s : State) (p v : Nat) : s.linkCtrl p (setBits v 0 1 1) =
    if v.testBit 1 then (s.linkInvalid p 3).linkProgress p 3
    else if s.linkState p = 2 then s.linkValid p 6 (assoc s.link.suspect p) else s := by
  have h1 : (setBits v 0 1 1).testBit 1 = v.testBit 1 := by rw [testBit_setBits]; rfl
  unfold State.linkCtrl
  rw [h1, testBit_setBits_self, Bool.true_and]
  exact if_congr Iff.rfl rfl (if_congr decide_eq_true_iff rfl rfl)

theorem blockOf_dpllCtrl {d : Nat} (hd : d < 8) : blockOf (Reg.dpllCtrl d) = 0x25 := blockOf_shelf (by omega) (by decide)
theorem State.afterWrite_dpllCtrl (s : State) {d : Nat} (v old : Nat) (hd : d < 8) :
    s.afterWrite (Reg.dpllCtrl d) (setBits v 0 1 1) old = s.clearUser d := by
  have hi : instOf (Reg.dpllCtrl d) = d := instOf_shelf (by omega) (by decide)
  have hx : indexOf (Reg.dpllCtrl d) = 4 := indexOf_shelf (by decide)
  unfold State.afterWrite
  rw [blockOf_dpllCtrl hd, hi, hx]
  exact (if_pos rfl).trans (if_pos (by rw [testBit_setBits_self, decide_eq_true hd]; rfl))

theorem blockOf_refselPortCfg {p : Nat} (hp : p < 80) : blockOf (Reg.refselPortCfg (0x200 + p)) = 0x24 :=
  blockOf_shelf (by omega) (by decide)
/-- The transmit plane written, PLANE in bits 63:62 and ESMC_RX in bit 60; t is the state before. -/
theorem State.afterWrite_refselPortCfg (s t : State) {p k : Nat} {u : State} (v : Nat) (hp : p < 80)
    (hk : k = Reg.refselPortCfg (0x200 + p))
    (hu : u = if t.f k 62 2 = s.f k 62 2 then s
      else s.forEach (s.portLanes p) (fun l t => if t.txState l = 0 then t else t.txStart l)) :
    s.afterWrite k v (t.get k) = if t.b k 60 = true ∧ u.b k 60 = false
      then ({ u with ref := { u.ref with heard := assocDel u.ref.heard p } } : State).setQl p 0xF 0 else u := by
  have hi : instOf (Reg.refselPortCfg (0x200 + p)) = 0x200 + p := instOf_shelf (by omega) (by decide)
  have hx : indexOf (Reg.refselPortCfg (0x200 + p)) = 0 := indexOf_shelf (by decide)
  subst hk
  have hr : (fun (l : Lane) (t : State) => t.restartTx l) = fun l t => if t.txState l = 0 then t else t.txStart l :=
    funext₂ fun l t => t.restartTx_eq l
  unfold State.afterWrite
  rw [blockOf_refselPortCfg hp, hi, hx]
  show s.afterRef (0x200 + p) 0 _ = _
  unfold State.afterRef
  rw [if_neg (by omega), if_pos (by simp), Nat.add_sub_cancel_left]
  extract_lets _ w
  obtain rfl : u = w := hu.trans (by rw [← hr, ← ite_not]; exact if_congr bne_iff_ne.symm rfl rfl)
  refine if_congr ?_ rfl rfl
  rw [Bool.and_eq_true, Bool.not_eq_true', decide_eq_true_eq]
  exact and_congr_left' beq_iff_eq.symm

/-- Settles O24: each row writes one word, and what follows it is its block's operation. -/
theorem laneAndPlaneWritesAct : Obligations.LaneAndPlaneWritesAct := by
  rintro path value s v rfl
  refine ⟨fun l h hl w hw => ?_, fun l h hl w hw => ?_, fun l target h hl w hw => ?_, ?_, ?_, ?_, ?_, ?_⟩
  · exact (next_landed_lane h (by decide) hl hw).trans (congrArg _ (w.restartTx_eq l))
  · exact (next_landed_lane h (by decide) hl hw).trans (congrArg _ (w.restartRx_eq l))
  · have hm : w.afterLane l 0x12 (target % 16 + 16) = w.marginStart l := if_pos (testBit_marginStart target)
    exact (next_landed_lane h (by decide) hl hw).trans (congrArg _ (hm.trans (w.marginStart_eq l)))
  · rintro p hp hl b n rfl rfl
    exact (atUnit_lt _ _ hp).trans (congrArg _ ((writeVia_lands hl).trans (State.writeWord_macPortType _ _ hp)))
  · rintro p hp x w rfl hl hw
    exact (atUnit_lt _ _ hp).trans (next_landed hl hw (by rw [blockOf_pcsLinkCtrl hp]; decide)
      ((w.afterWrite_pcsLinkCtrl _ _ hp).trans (w.linkCtrl_remeasure p _)))
  · rintro p hp x w rfl hl hw
    exact (atUnit_lt _ _ hp).trans (next_landed hl hw (by rw [blockOf_pcsLinkCtrl hp]; decide)
      ((w.afterWrite_pcsLinkCtrl _ _ hp).trans (w.linkCtrl_accept p _)))
  · rintro d hd x w rfl hl hw
    exact (atUnit_lt _ _ hd).trans (next_landed hl hw (by rw [blockOf_dpllCtrl hd]; decide) (w.afterWrite_dpllCtrl _ _ hd))
  · rintro p hp k w rfl hl hw u hu
    exact (atUnit_lt _ _ hp).trans (next_landed hl hw (by rw [blockOf_refselPortCfg hp]; decide)
      (w.afterWrite_refselPortCfg s _ hp rfl hu))

end Sys2Proof.Machine
end

section
/-! PROOF. The receive states of lanes (O31). -/
namespace Sys2Proof.Machine

/-! ### Signal, clock and locks (R133, R135, R137, R138, R141, R142) -/

theorem execLaneSignalDetect_eq {l : Lane} {s : State} (h : laneExists l = true) : execLaneSignalDetect l s =
    .next (if s.rxState l = 1 then (s.fresh.setf (laneKey l 5) 0 4 2).setf (laneKey l 5) 11 1 1
      else s.fresh.setf (laneKey l 5) 11 1 1) :=
  (atLane_exists _ _ h).trans (congrArg _ (if_congr beq_iff_eq rfl rfl))

/-- The peaking in use is the host's under FIXED and the search's else, up to the greatest of the lane's kind. -/
theorem execLaneClockStable_aligns {l : Lane} {found : Nat} {s : State} (h : laneExists l = true) (hr : s.rxState l = 2) :
    execLaneClockStable l found s = .next ((s.fresh.setf (laneKey l 5) 0 4 3).setf (laneKey l 4) 0 4
      (min (if s.f (laneKey l 3) 8 2 = 0 then s.f (laneKey l 3) 0 4 else found) (if laneKind l = 0 then 15 else 11))) := by
  have hc : (s.fresh.rxState l == 2) = true := beq_iff_eq.2 hr
  have hfix : (if s.fresh.f (laneKey l 3) 8 2 == 0 then s.fresh.f (laneKey l 3) 0 4 else found) =
      if s.f (laneKey l 3) 8 2 = 0 then s.f (laneKey l 3) 0 4 else found := if_congr beq_iff_eq rfl rfl
  rw [← hfix]
  exact (atLane_exists _ _ h).trans (congrArg _ (if_pos hc))

/-- The lanes of a port, each with its report, lock together where their skew is in range. -/
theorem execLaneLock_locks {p : Nat} {reports : List LaneReport} {single : Bool} {rs : List (Lane × LaneReport)} {s v w x : State}
    (hp : p < 80) (hne : s.portLanes p ≠ []) (hall : ∀ l ∈ s.portLanes p, s.rxState l = 3 ∨ s.rxState l = 6)
    (hsingle : single = ((s.portLanes p).length == 1))
    (hrs : rs = (s.portLanes p).zip (reports ++ List.replicate 4 (⟨0, 0, 0, 0⟩ : LaneReport)))
    (hskew : single = true ∨ ∀ x ∈ rs, x.2.deskew ≤ deskewMax x.1)
    (hv : v = s.fresh.forEach rs (fun x s => s.laneReport x.1 single x.2))
    (hw : w = v.forEach (s.portLanes p) (fun l s => (s.setLaneReady l true).ctleLocked l))
    (hx : x = ((w.linkInvalid p 0).linkRxDelay p).forEach (s.portLanes p) (fun l s => s.laneLockEvent l)) :
    execLaneLock p reports s = .next (((x.linkProgress p 0).advertise p).portRefresh p) := by
  have hc : (!(s.portLanes p).isEmpty && (s.portLanes p).all (fun l => s.rxState l == 3 || s.rxState l == 6) &&
      (single || rs.all (fun x => decide (x.2.deskew ≤ deskewMax x.1)))) = true := by
    simpa [hne, -Prod.forall] using ⟨hall, hskew⟩
  subst hx hw hv hrs hsingle
  exact (atUnit_lt _ _ hp).trans (congrArg _ (if_pos hc))

theorem execDeskewRetry_counts {p : Nat} {s : State} (hp : p < 80) (hn : 1 < (s.portLanes p).length)
    (hall : ∀ l ∈ s.portLanes p, s.rxState l = 3) :
    execDeskewRetry p s = .next (s.fresh.count (laneKey (lowestLane p) 0x0B) 32 32 1) := by
  have hc : (decide (1 < (s.portLanes p).length) && (s.portLanes p).all (fun l => s.rxState l == 3)) = true := by
    simpa using ⟨hn, hall⟩
  exact (atUnit_lt _ _ hp).trans (congrArg _ (if_pos hc))

/-! ### Loss of lock (R135 to R137) -/

/-- What the loss of a LOCKED direction's lock leaves, by its cause. -/
def State.losesLock (s : State) (l : Lane) : LockLoss → State
  | .signal => (s.setf (laneKey l 5) 11 1 0).lockLost l 0 1
  | .alignment _ => s.lockLost l 1 3
  | .clock => s.lockLost l 2 2

theorem execLaneLockLost_locked {l : Lane} {c : LockLoss} {s : State} (h : laneExists l = true) (hc : s.lossHolds l c = true)
    (hr : s.rxState l = 4) : execLaneLockLost l c s = .next (s.fresh.losesLock l c) := by
  have hh : (laneExists l && s.fresh.lossHolds l c) = true := Bool.and_eq_true_iff.2 ⟨h, by cases c <;> exact hc⟩
  have h4 : (s.fresh.rxState l == 4) = true := beq_iff_eq.2 hr
  cases c <;> exact congrArg _ ((if_pos hh).trans (if_pos h4))

/-- In WAKE it is the wake that fails, whatever the cause. -/
theorem execLaneLockLost_wake {l : Lane} {c : LockLoss} {s : State} (h : laneExists l = true) (hc : s.lossHolds l c = true)
    (hr : s.rxState l = 6) : execLaneLockLost l c s = .next (s.fresh.wakeFailed l) := by
  have hh : (laneExists l && s.fresh.lossHolds l c) = true := Bool.and_eq_true_iff.2 ⟨h, by cases c <;> exact hc⟩
  have h4 : ¬ (s.fresh.rxState l == 4) = true := by rw [beq_iff_eq]; exact fun h4 => absurd (hr.symm.trans h4) (by decide)
  have h6 : (s.fresh.rxState l == 6) = true := beq_iff_eq.2 hr
  exact congrArg _ ((if_pos hh).trans ((if_neg h4).trans (if_pos h6)))

/-- A finding that does not meet the criterion of the lane's line code is no loss of alignment. -/
theorem execLaneLockLost_unfounded {l : Lane} {c : LockLoss} {s : State} (hc : s.lossHolds l c = false) :
    execLaneLockLost l c s = .next s.fresh := by
  have hh : ¬ (laneExists l && s.fresh.lossHolds l c) = true := by
    rw [show s.fresh.lossHolds l c = false by cases c <;> exact hc, Bool.and_false]; decide
  exact congrArg _ (if_neg hh)

/-! ### Sleep and wake (R146, R148) -/

theorem lpiType_iff (c : Nat) : lpiType c = true ↔ c ∈ [1, 3, 4, 5] := by simp [lpiType, or_assoc]
theorem State.eeeAdvertised_iff (s : State) (p : Nat) : s.eeeAdvertised p = true ↔
    s.codeInUse p ∈ [1, 3, 4, 5] ∧ s.b (Reg.pwrPlanP p) 1 = true ∧ s.rxTiming (lowestLane p) = false := by
  unfold State.eeeAdvertised
  rw [Bool.and_eq_true, Bool.and_eq_true, lpiType_iff, Bool.not_eq_true', and_assoc]

section
variable {p : Nat} {s : State} (hp : p < 80)
include hp

/-- LPI received by a port that advertises it. -/
theorem execLaneReceiveSleep_sleeps {l : Lane} {v w : State} (hl : l = lowestLane p) (hr : s.rxState l = 4)
    (he : s.eeeAdvertised p = true)
    (hv : v = ((s.fresh.setf (laneKey l 5) 0 4 5).marginAbort l).setf (Reg.macLinkStatus p) 12 1 1)
    (hw : w = v.setSide p (fun x => { x with sleptRx := s.ticks })) :
    execLaneReceiveSleep p s = .next (((w.set (laneKey l 0x10) 0).set (laneKey l 0x11) 0).stat p 0x4A 1) := by
  subst hw hv hl
  have h4 : (s.fresh.rxState (lowestLane p) == 4) = true := beq_iff_eq.2 hr
  have he' : s.fresh.eeeAdvertised p = true := he
  exact (atUnit_lt _ _ hp).trans (congrArg _ ((if_pos h4).trans (if_pos he')))

/-- LPI received by a port that does not advertise it is a loss of signal. -/
theorem execLaneReceiveSleep_loses {l : Lane} (hl : l = lowestLane p) (hr : s.rxState l = 4) (he : ¬ s.eeeAdvertised p = true) :
    execLaneReceiveSleep p s = .next ((s.fresh.setf (laneKey l 5) 11 1 0).lockLost l 0 1) := by
  subst hl
  have h4 : (s.fresh.rxState (lowestLane p) == 4) = true := beq_iff_eq.2 hr
  have he' : ¬ s.fresh.eeeAdvertised p = true := he
  exact (atUnit_lt _ _ hp).trans (congrArg _ ((if_pos h4).trans (if_neg he')))

theorem execLaneWake_wakes {l : Lane} {v : State} (hl : l = lowestLane p) (hr : s.rxState l = 5)
    (hv : v = ((s.fresh.setf (laneKey l 5) 0 4 6).count (laneKey l 0x0C) 32 32 1).setf (Reg.macLinkStatus p) 12 1 0) :
    execLaneWake p s = .next { v with cal := { v.cal with running := assocDel v.cal.running (2 * p) } } := by
  subst hv hl
  have h5 : (s.fresh.rxState (lowestLane p) == 5) = true := beq_iff_eq.2 hr
  exact (atUnit_lt _ _ hp).trans (congrArg _ (if_pos h5))
end

/-- Settles O31: a lemma for each row and each way it goes; a loss of lock by its cause, and LPI by whether the port advertises it. -/
theorem laneStatesMove : Obligations.LaneStatesMove := by
  rintro s u rfl
  refine ⟨fun l h => ⟨fun hr => ?_, fun hr => ?_, ?_, fun hs hr => ⟨?_, fun ha => ?_, fun ha => ?_, ?_⟩, fun c hc hr => ?_⟩,
    fun p hp reports single rs hne hall hsingle hrs hskew v w x hv hw hx =>
      execLaneLock_locks hp hne hall hsingle hrs hskew hv hw hx,
    fun p hp hn hall => execDeskewRetry_counts hp hn hall, ?_, fun p hp l v hl hr hv => execLaneWake_wakes hp hl hr hv⟩
  · exact (execLaneSignalDetect_eq h).trans (congrArg _ (if_pos hr))
  · exact (execLaneSignalDetect_eq h).trans (congrArg _ (if_neg hr))
  · rintro found hr top rfl
    have hx : exec (.laneClockStable l found) s = _ := execLaneClockStable_aligns h hr
    exact ⟨fun h0 => by rw [hx, if_pos h0], fun h0 => by rw [hx, if_neg h0]⟩
  · exact execLaneLockLost_locked h rfl hr
  · exact execLaneLockLost_locked h ha hr
  · exact execLaneLockLost_unfounded ha
  · exact execLaneLockLost_locked h rfl hr
  · exact execLaneLockLost_wake h hc hr
  · rintro p hp l c hl rfl hr
    have he := hl ▸ s.eeeAdvertised_iff p
    refine ⟨fun hcode hplan ht v w hv hw => ?_, fun hn => ?_⟩
    · exact execLaneReceiveSleep_sleeps hp hl hr (he.2 ⟨hcode, hplan, ht⟩) hv hw
    · refine execLaneReceiveSleep_loses hp hl hr fun ha => ?_
      obtain ⟨hcode, hplan, ht⟩ := he.1 ha
      rcases hn with hn | hn | hn
      · exact hn hcode
      · exact absurd (hplan.symm.trans hn) (by decide)
      · exact absurd (ht.symm.trans hn) (by decide)

end Sys2Proof.Machine
end

section
/-! PROOF. Measurements of lanes, timing marks and port links (O32). -/
namespace Sys2Proof.Machine

/-! ### Equaliser steps and eyes (R133, R134, R150) -/

section
variable {l : Lane} {s : State} (h : laneExists l = true)
include h

theorem execCtleAdaptStep_moves {c : Nat} (up : Bool) (hr : s.rxState l = 4) (ha : s.f (laneKey l 3) 8 2 = 2)
    (ht : s.rxTiming l = false) (hc : c = s.f (laneKey l 4) 0 4) : execCtleAdaptStep l up s =
      .next (s.fresh.setf (laneKey l 4) 0 4 (if up then min (c + 1) (if laneKind l = 0 then 15 else 11) else c - 1)) := by
  subst hc
  have hg : (s.rxState l == 4 && s.f (laneKey l 3) 8 2 == 2 && !s.rxTiming l) = true := by rw [hr, ha, ht]; rfl
  exact (atLane_exists _ _ h).trans (congrArg _ (if_pos hg))

/-- The eyes of a locked lane: the middle one, and in PAM4 the two others. -/
theorem execEyeRefresh_locked {heights widths : List Nat} {snr : Nat} {eh ew : Nat → Nat} (hr : s.rxState l = 4)
    (hh : ∀ i, eh i = if s.f (laneKey l 0) 4 4 = 1 ∨ i = 1 then min (heights.getD i 0) 255 else 0)
    (hw : ∀ i, ew i = if s.f (laneKey l 0) 4 4 = 1 ∨ i = 1 then min (widths.getD i 0) 255 else 0) :
    execEyeRefresh l heights widths snr s = .next ((s.fresh.set (laneKey l 0x10) (ew 0 + ew 1 * 2 ^ 8 + ew 2 * 2 ^ 16 +
      eh 0 * 2 ^ 24 + eh 1 * 2 ^ 32 + eh 2 * 2 ^ 40)).set (laneKey l 0x11) (min snr 65535)) := by
  have hopen (xs : List Nat) {e : Nat → Nat}
      (he : ∀ i, e i = if s.f (laneKey l 0) 4 4 = 1 ∨ i = 1 then min (xs.getD i 0) 255 else 0) :
      e = fun i => if s.f (laneKey l 0) 4 4 == 1 || i == 1 then min (xs.getD i 0) 255 else 0 :=
    funext fun i => (he i).trans (if_congr (by simp) rfl rfl)
  have h4 : (s.fresh.rxState l == 4) = true := beq_iff_eq.2 hr
  rw [hopen heights hh, hopen widths hw]
  exact (atLane_exists _ _ h).trans (congrArg _ (if_pos h4))

theorem execEyeRefresh_unlocked {heights widths : List Nat} {snr : Nat} (hr : s.rxState l ≠ 4) :
    execEyeRefresh l heights widths snr s = .next ((s.fresh.set (laneKey l 0x10) 0).set (laneKey l 0x11) 0) := by
  have h4 : ¬ (s.fresh.rxState l == 4) = true := fun h4 => hr (beq_iff_eq.1 h4)
  exact (atLane_exists _ _ h).trans (congrArg _ (if_neg h4))

/-! ### Margin probes (R151, R435) -/

/-- A probe that the host started ends with its margins. -/
theorem execMarginDone_host {margins : List Nat} {m : Nat → Nat} {w : Nat} (hm : ∀ i, m i = min (margins.getD i 0) 255)
    (hw : w = m 3 + m 2 * 2 ^ 8 + m 1 * 2 ^ 16 + m 0 * 2 ^ 24) (hr : s.f (laneKey l 0x13) 0 8 = 1) :
    execMarginDone l margins s = .next ((s.fresh.setf (laneKey l 0x13) 16 32 w).marginEnd l 2) := by
  obtain rfl : m = fun i => min (margins.getD i 0) 255 := funext hm
  subst hw
  have hrun : (s.fresh.f (laneKey l 0x13) 0 8 == 1) = true := beq_iff_eq.2 hr
  have hown : (s.fresh.f (laneKey l 0x13) 0 8 != 1 && s.fresh.rxState l == 4 && s.fresh.selfTest 2) = false := by
    unfold bne; rw [hrun]; rfl
  simp only [execMarginDone, hrun, hown, h, Bool.or_false, Bool.false_eq_true, if_true, if_false]

/-- With none running, the margin self-test makes one of its own on a locked lane, and takes its width. -/
theorem execMarginDone_selfTest {margins : List Nat} {m : Nat → Nat} {w : Nat} {x : State}
    (hm : ∀ i, m i = min (margins.getD i 0) 255) (hw : w = m 3 + m 2 * 2 ^ 8 + m 1 * 2 ^ 16 + m 0 * 2 ^ 24)
    (hn : s.f (laneKey l 0x13) 0 8 ≠ 1) (hr : s.rxState l = 4) (ht : s.selfTest 2 = true)
    (hx : x = ((s.fresh.marginStart l).setf (laneKey l 0x13) 16 32 w).marginEnd l 2) : execMarginDone l margins s =
      .next (x.tested (decide (x.f Reg.healthCfg 16 8 ≤ m 0) && decide (x.f Reg.healthCfg 16 8 ≤ m 1))) := by
  obtain rfl : m = fun i => min (margins.getD i 0) 255 := funext hm
  subst hx hw
  have hown : (s.fresh.f (laneKey l 0x13) 0 8 != 1 && s.fresh.rxState l == 4 && s.fresh.selfTest 2) = true := by
    have hg : (s.f (laneKey l 0x13) 0 8 != 1 && s.rxState l == 4 && s.selfTest 2) = true := by
      rw [bne_iff_ne.2 hn, hr, ht]; rfl
    exact hg
  simp only [execMarginDone, hown, h, Bool.or_true, if_true]
end

/-! ### Timing marks (R143 to R145) -/

/-- A port of type 0, or without marks, has its marks shown alone; else its marked directions wake, and it returns to full speed. -/
theorem execTimingMarkEvaluation_eq {p : Nat} {rx tx : Bool} {s v : State} (hp : p < 80) (hm : s.timingMarks p = (rx, tx))
    (hv : v = s.fresh.forEach (s.portLanes p) (fun l s => s.markLane l (bit rx + 2 * bit tx))) :
    execTimingMarkEvaluation p s = .next (if v.portType p = 0 ∨ (rx = false ∧ tx = false) then v
      else (if rx then (if tx then v.txWake p else v).rxWake p else if tx then v.txWake p else v).restoreSpeed p 3) := by
  subst hv
  have hm' : s.fresh.timingMarks p = (rx, tx) := hm
  have hnew : bit rx + 2 * bit tx = 0 ↔ rx = false ∧ tx = false := by cases rx <;> cases tx <;> decide
  unfold execTimingMarkEvaluation
  simp only [hm']
  refine (atUnit_lt _ _ hp).trans (congrArg _ (if_congr ?_ rfl rfl))
  rw [Bool.or_eq_true, decide_eq_true_eq, decide_eq_true_eq, hnew]
  rfl

/-! ### Port links (R118, R167, R181) -/

theorem execPortLinkUp_links {p cause : Nat} {s v w : State} (hp : p < 80) (ht : s.portType p ≠ 0)
    (hall : ∀ l ∈ s.portLanes p, s.rxState l = 4) (hd : s.b (Reg.macLinkStatus p) 8 = false) (ho : s.on (portPd p) = true)
    (hu : s.islandUp (portIsland p) = true) (hv : v = s.fresh.setf (Reg.macLinkStatus p) 8 1 1)
    (hw : w = (if v.f (Reg.macStepStatus p) 4 4 = 3 then (v.setf (Reg.macStepStatus p) 4 4
      (bit (v.codeInUse p != v.portType p))).setSide p (fun x => { x with stepEnd := some v.ticks }) else v)) :
    execPortLinkUp p cause s =
      .next (((w.raise 0x300 (toLe 1 p ++ [1] ++ toLe 1 (min cause 4) ++ toLe 1 (w.codeInUse p))).mergeInit p).portRefresh p) := by
  have hc : (s.portType p != 0 && (s.portLanes p).all (fun l => s.rxState l == 4) && !s.b (Reg.macLinkStatus p) 8 &&
      s.on (portPd p) && s.islandUp (portIsland p)) = true := by
    rw [bne_iff_ne.2 ht, List.all_eq_true.2 fun l hl => beq_iff_eq.2 (hall l hl), hd, ho, hu]; rfl
  subst hw hv
  exact (atUnit_lt _ _ hp).trans (congrArg _ (if_pos hc))

/-- Settles O32: a lemma for each row and each way it goes; a margin probe by who started it, timing marks by whether there are any. -/
theorem laneMeasuresAndPortLinksAct : Obligations.LaneMeasuresAndPortLinksAct := by
  rintro s u rfl
  refine ⟨fun l h => ⟨fun hr ha ht c hc => ?_, fun heights widths snr hr eh ew hh hw => execEyeRefresh_locked h hr hh hw,
      fun heights widths snr hr => execEyeRefresh_unlocked h hr, fun margins m hm w hw => ?_⟩,
    fun p hp rx tx hm v hv => ?_,
    fun p hp cause ht hall hd ho hu v w hv hw => execPortLinkUp_links hp ht hall hd ho hu hv hw,
    fun p hp cause => atUnit_lt _ _ hp⟩
  · exact ⟨execCtleAdaptStep_moves h true hr ha ht hc, execCtleAdaptStep_moves h false hr ha ht hc⟩
  · exact ⟨execMarginDone_host h hm hw, fun hn hr ht x hx => execMarginDone_selfTest h hm hw hn hr ht hx⟩
  · have hx : exec (.timingMarkEvaluation p) s = _ := execTimingMarkEvaluation_eq hp hm hv
    refine ⟨fun hnone => hx.trans (congrArg _ (if_pos hnone)), fun ht hmark w hw => ?_⟩
    have hn : ¬ (v.portType p = 0 ∨ rx = false ∧ tx = false) := by
      rintro (h0 | ⟨rfl, rfl⟩)
      · exact ht h0
      · simp at hmark
    rw [hx, if_neg hn, hw]

end Sys2Proof.Machine
end

section
/-! PROOF. Actions at their time (O37). -/
namespace Sys2Proof.Machine

/-- An arm that answers one state where a test holds and another where it does not. -/
theorem next_ite {o : Host.Outcome State Fault Refusal} {b : Bool} {x y : State} (h : o = .next (if b then x else y)) :
    (b = true → o = .next x) ∧ (b = false → o = .next y) :=
  ⟨fun hb => h.trans (congrArg _ (if_pos hb)), fun hb => h.trans (congrArg _ (if_neg (ne_true_of_eq_false hb)))⟩

/-! ### The due action (R307, R318) -/

theorem State.turn_iff (s : State) (a : Action) :
    s.turn a = true ↔ ∀ b ∈ s.clock.actions, b.dom = a.dom → b.before a = false := by
  unfold State.turn
  rw [List.all_eq_true]
  refine forall₂_congr fun b _ => ?_
  rw [Bool.or_eq_true, bne_iff_ne, Bool.not_eq_true', ← imp_iff_not_or]

/-- The due action of a handle and an opcode is the pending one of that handle: of that opcode, at its T, and first in its domain. -/
theorem State.dueAction_iff (s : State) (h op : Nat) (a : Action) : s.dueAction h op = some a ↔
    s.action h = some a ∧ a.opcode = op ∧ a.t ≤ s.now a.dom ∧ s.timeUp = true ∧
      ∀ b ∈ s.clock.actions, b.dom = a.dom → b.before a = false := by
  unfold State.dueAction
  rw [Option.filter_eq_some_iff, Bool.and_eq_true, Bool.and_eq_true, Bool.and_eq_true, beq_iff_eq, decide_eq_true_eq,
    s.turn_iff a, and_assoc, and_assoc]

section
variable {s : State} {h op : Nat} {ready : Action → Bool} {fire : Action → State → State}

theorem State.atTime_none (hd : s.dueAction h op = none) : s.fresh.atTime h op ready fire = s.fresh := by
  have hd' : s.fresh.dueAction h op = none := hd
  unfold State.atTime
  rw [hd']

/-- A due action fires where its function is ready, and else is cancelled with NOT_READY. -/
theorem State.atTime_due {a : Action} (hd : s.dueAction h op = some a) : s.fresh.atTime h op ready fire =
    if ready a then fire a (s.fresh.dropAction h) else (s.fresh.dropAction h).outcome a 0x102 (s.outcomeTime a.dom) := by
  have hd' : s.fresh.dueAction h op = some a := hd
  unfold State.atTime
  rw [hd']
  rfl

/-! ### Proof starts, steps and frequency changes (R299, R313, R315) -/

variable {a : Action}

theorem execScheduledProofStart_due (hd : s.dueAction h 0x0D01 = some a) : execScheduledProofStart h s = .next (
    if s.proofUp then (s.fresh.dropAction h).proofGo a.dom a.t (maskSlots a.data)
    else (s.fresh.dropAction h).proofCancel.outcome a 0x102 (s.outcomeTime a.dom)) := by
  have hd' : s.fresh.dueAction h 0x0D01 = some a := hd
  simp only [execScheduledProofStart, hd']
  rfl

theorem execScheduledStep_due {l : Landing} (hd : s.dueAction h 0x0301 = some a) (hl : l = stepOf a.data) :
    execScheduledStep h s = .next (if l.real then (s.fresh.dropAction h).landAt a.dom 0 a.t (l.result a.t)
      ((a.t * fine16 : Int) - ((s.fresh.dropAction h).dom a.dom).shift).toNat else s.fresh.dropAction h) := by
  have hd' : s.fresh.dueAction h 0x0301 = some a := hd
  subst hl
  simp only [execScheduledStep, hd']

theorem execScheduledFreqChange_due (hd : s.dueAction h 0x0302 = some a) : execScheduledFreqChange h s = .next (
    if (s.fresh.dropAction h).steered a.dom then (s.fresh.dropAction h).outcome a 0x205 ((s.fresh.dropAction h).now a.dom)
    else (s.fresh.dropAction h).adjFreq a.dom (adjOf a.data)) := by
  have hd' : s.fresh.dueAction h 0x0302 = some a := hd
  simp only [execScheduledFreqChange, hd']

theorem execScheduledProofStart_none (hd : s.dueAction h 0x0D01 = none) : execScheduledProofStart h s = .next s.fresh := by
  have hd' : s.fresh.dueAction h 0x0D01 = none := hd
  simp only [execScheduledProofStart, hd']

theorem execScheduledStep_none (hd : s.dueAction h 0x0301 = none) : execScheduledStep h s = .next s.fresh := by
  have hd' : s.fresh.dueAction h 0x0301 = none := hd
  simp only [execScheduledStep, hd']

theorem execScheduledFreqChange_none (hd : s.dueAction h 0x0302 = none) : execScheduledFreqChange h s = .next s.fresh := by
  have hd' : s.fresh.dueAction h 0x0302 = none := hd
  simp only [execScheduledFreqChange, hd']
end

/-- Settles O37: an action at its time by whether it is due and its function ready. -/
theorem scheduledActionsExecute : Obligations.ScheduledActionsExecute := by
  rintro s u rfl h
  refine ⟨s.dueAction_iff h, ?_, ?_⟩
  · rintro a v rfl
    refine ⟨fun hd => next_ite ?_, fun hd => next_ite ?_, fun hd => next_ite (execScheduledProofStart_due hd), fun hd => ?_,
      fun hd => ?_, fun hd l hl => next_ite (execScheduledStep_due hd hl), fun hd => next_ite (execScheduledFreqChange_due hd)⟩
    · exact congrArg _ (State.atTime_due hd)
    · exact congrArg _ (State.atTime_due hd)
    · exact congrArg _ ((State.atTime_due hd).trans (if_pos rfl))
    · exact congrArg _ ((State.atTime_due hd).trans (if_pos rfl))
  · exact ⟨fun hd => congrArg _ (State.atTime_none hd), fun hd => congrArg _ (State.atTime_none hd), execScheduledProofStart_none,
      fun hd => congrArg _ (State.atTime_none hd), fun hd => congrArg _ (State.atTime_none hd), execScheduledStep_none,
      execScheduledFreqChange_none⟩

end Sys2Proof.Machine
end

section
/-! PROOF. Epochs, statistics snapshots and mirror sessions (O38). -/
namespace Sys2Proof.Machine

/-! ### Epochs (R206, R208) -/

section
variable {s : State} {o : OtherEpoch} (ho : s.fwd.other = some o)
include ho

/-- A pending commit whose domain has reached T_eff: its tables are in force, the epoch before drains, and its handle is gone. -/
theorem execEpochCommitted_due {v w : State} (h1 : o.state = 1) (ht : o.t ≤ s.now o.dom)
    (hv : v = s.fresh.newEpoch o.num o.dom o.t o.changes)
    (hw : w = (v.clock.actions.filter (fun a => a.opcode == 0x0201)).foldl (fun s a => s.dropAction a.handle)
      { v with fwd := { v.fwd with other := some ⟨2, s.f Reg.catEpochCurrent 0 32, o.dom, s.fwd.epochT, [], [], v.ticks, false⟩ } }) :
    execEpochCommitted s = .next (w.setf Reg.catEpochState 0 2 2) := by
  subst hw hv
  have hc : (decide (o.state = 1) && decide (o.t ≤ s.fresh.now o.dom)) = true :=
    Bool.and_eq_true_iff.2 ⟨decide_eq_true h1, decide_eq_true ht⟩
  unfold execEpochCommitted State.epochDue
  simp only [State.fresh_fwd, ho]
  exact congrArg _ (if_pos hc)

theorem execEpochCommitted_early (ht : s.now o.dom < o.t) : execEpochCommitted s = .next s.fresh := by
  have hc : ¬ (decide (o.state = 1) && decide (o.t ≤ s.fresh.now o.dom)) = true := fun hc =>
    absurd (of_decide_eq_true (Bool.and_eq_true_iff.1 hc).2) (Nat.not_le.2 ht)
  unfold execEpochCommitted State.epochDue
  simp only [State.fresh_fwd, ho]
  exact congrArg _ (if_neg hc)

/-- A draining epoch retires once no frame of it is left. -/
theorem execEpochRetired_draining (h2 : o.state = 2) : execEpochRetired s = .next (if s.framesOf o.num = 0 then
    (State.setf { s with out := [], fwd := { s.fwd with other := none } } Reg.catEpochState 0 2 0).raise 0x401 (toLe 4 o.num)
    else s.fresh) := by
  unfold execEpochRetired
  simp only [State.fresh_fwd, ho]
  refine congrArg _ (if_congr ?_ rfl rfl)
  rw [decide_eq_true h2, Bool.true_and, beq_iff_eq]
  rfl

/-- The warning is due of an epoch that drains for longer than DRAIN_WARN_MS and has not been reported. -/
theorem execEpochDrainSlow_eq : execEpochDrainSlow s = .next (
    if o.state = 2 ∧ o.slow = false ∧ o.since + s.f Reg.catEpochCfg 32 16 * 1250000 < s.ticks then
      State.raise { s with out := [], fwd := { s.fwd with other := some { o with slow := true } } } 0x402
        (toLe 4 o.num ++ toLe 4 (s.framesOf o.num))
    else s.fresh) := by
  unfold execEpochDrainSlow
  simp only [State.fresh_fwd, ho]
  refine congrArg _ (if_congr ?_ rfl rfl)
  rw [Bool.and_eq_true, Bool.and_eq_true, decide_eq_true_eq, Bool.not_eq_true', decide_eq_true_eq, and_assoc]
  rfl
end

/-! ### Snapshots (R179) -/

theorem execStatSnapshotDone_captured {s v : State} {l : List (Nat × Nat)} {b : Nat} (hc : s.snap.captured = some l)
    (hb : b = s.snap.bank) (hv : v = s.fresh.fillBank b l) : execStatSnapshotDone s = .next (
      if v.snap.scheduled then v.raise 0x303 (v.snapBytes b) else v.forEach v.snapsOpen (fun d s => s.answerSnapshot b d)) := by
  subst hv hb
  simp only [execStatSnapshotDone, State.fresh_snap, hc]
  rfl

theorem execStatSnapshotDone_none {s : State} (hc : s.snap.captured = none) : execStatSnapshotDone s = .next s.fresh := by
  simp only [execStatSnapshotDone, State.fresh_snap, hc]

/-! ### Mirror sessions (R196) -/

/-- A session resumes where it is paused by its queue alone, which has held fewer than RESUME_CELLS for RESUME_MS. -/
theorem execMirrorResume_eq {m : Nat} {e : List Byte} {s : State} (hm : m < 8) (he : assoc s.fwd.tables.mirr m = some e) :
    execMirrorResume m s = .next (if s.f (Reg.mirrStatus m) 0 2 = 2 ∧ (u8 e 0).testBit 1 = false ∧
      s.occ (u8 e 1) (u8 e 2) < u16 e 12 ∧ (s.mirror m).high + u16 e 14 * 1250000 ≤ s.ticks then s.fresh.mirrorMode m 1 2
      else s.fresh) := by
  unfold execMirrorResume
  simp only [State.fresh_fwd, he]
  refine (atUnit_lt _ _ hm).trans (congrArg _ (if_congr ?_ rfl rfl))
  rw [Bool.and_eq_true, Bool.and_eq_true, Bool.and_eq_true, beq_iff_eq, Bool.not_eq_true', decide_eq_true_eq, decide_eq_true_eq,
    and_assoc, and_assoc]
  rfl

/-- Settles O38: a lemma for each row and each way it goes. -/
theorem epochsSnapshotsMirrorsAct : Obligations.EpochsSnapshotsMirrorsAct := by
  rintro s u rfl
  refine ⟨fun o ho => ⟨fun h1 ht v w hv hw => execEpochCommitted_due ho h1 ht hv hw, fun _ ht => execEpochCommitted_early ho ht,
      fun h2 h0 => ?_, fun h2 h0 => ?_, fun h2 hs ht => ?_, fun hs => ?_⟩,
    fun l b v hc hb hv => next_ite (execStatSnapshotDone_captured hc hb hv), execStatSnapshotDone_none,
    fun m hm e he h2 => ⟨fun h0 hq ht => ?_, fun hq => ?_⟩⟩
  · exact (execEpochRetired_draining ho h2).trans (congrArg _ (if_pos h0))
  · exact (execEpochRetired_draining ho h2).trans (congrArg _ (if_neg h0))
  · exact (execEpochDrainSlow_eq ho).trans (congrArg _ (if_pos ⟨h2, hs, ht⟩))
  · refine (execEpochDrainSlow_eq ho).trans (congrArg _ (if_neg ?_))
    rintro ⟨_, hn, _⟩
    exact absurd (hs.symm.trans hn) (by decide)
  · exact (execMirrorResume_eq hm he).trans (congrArg _ (if_pos ⟨h2, h0, hq, ht⟩))
  · refine (execMirrorResume_eq hm he).trans (congrArg _ (if_neg ?_))
    rintro ⟨_, _, hlt, _⟩
    exact Nat.not_lt.2 hq hlt

end Sys2Proof.Machine
end

section
/-! PROOF. Speed steps of single-lane edge ports (O36). -/
namespace Sys2Proof.Machine

/-! ### Proposals (R174) -/

section
variable {p : Nat} {s : State} (hp : p < 80)
include hp

/-- A port that may step, has dwelt, and has no step pending proposes its configured speed when it runs below it and a queue is deep or the
load high; else a lower speed when it is quiet and has not been refused lately; else nothing. -/
theorem execSpeedStepEvaluate_ready {rxDown txDown rxUp txUp cfg : Nat} {deep busy quiet refused : Bool}
    (hcfg : cfg = Reg.macStepCfg p)
    (hready : (s.maySteps p && s.dwelt p && decide (s.f (Reg.macStepStatus p) 4 4 < 2) && (s.side p).stepCode == 0xFF &&
      s.portReady p) = true)
    (hdeep : deep = (List.range 8).any (fun q => decide (s.f cfg 32 16 ≤ s.occ p q)))
    (hbusy : busy = (decide (s.f cfg 24 8 < rxUp) || decide (s.f cfg 24 8 < txUp)))
    (hquiet : quiet = (decide (s.lowestSpeed p < speedOf (s.codeInUse p)) && decide (rxDown < s.f cfg 16 8) &&
      decide (txDown < s.f cfg 16 8)))
    (hrefused : refused = (match (s.side p).stepRefused with
      | some t => decide (s.ticks < t + s.f cfg 0 16 * 1250000000) | none => false)) :
    execSpeedStepEvaluate p rxDown txDown rxUp txUp s = .next (
      if decide (speedOf (s.codeInUse p) < speedOf (s.portType p)) && (deep || busy) then
        s.fresh.propose p (s.portType p) (if busy then 1 else 2)
      else if quiet && !refused then s.fresh.propose p (speedOf (s.codeInUse p) - 1) 0
      else s.fresh) := by
  subst hrefused hquiet hbusy hdeep hcfg
  exact (atUnit_lt _ _ hp).trans (congrArg _ (if_pos hready))

/-! ### TLVs (R175) -/

/-- The partner's answer to the proposal that the port has made: its number, with 0xFF or the proposed code. -/
theorem execStepTlvReceive_answer {code number : Nat} {loadOk : Bool} (hc : s.f Reg.macStepTlv 0 32 ≠ 0)
    (h2 : s.f (Reg.macStepStatus p) 4 4 = 2) (hn : number % 256 = s.f (Reg.macStepStatus p) 8 8)
    (hcode : code = 0xFF ∨ code = (s.side p).stepCode) :
    execStepTlvReceive p code number loadOk s = .next (s.fresh.stepAnswered p code) := by
  have hopen : ¬ (decide (s.f Reg.macStepTlv 0 32 = 0) || s.f (Reg.macStepStatus p) 4 4 == 3) = true := by
    rw [h2, decide_eq_false hc]; decide
  have hown : (s.f (Reg.macStepStatus p) 4 4 == 2 && number % 256 == s.f (Reg.macStepStatus p) 8 8 &&
      (code == 0xFF || code == (s.side p).stepCode)) = true := by
    simp [h2, hn, hcode]
  exact (atUnit_lt _ _ hp).trans (congrArg _ ((if_neg hopen).trans (if_pos hown)))

/-- A TLV with a code, to a port that has made no proposal, is a proposal of the partner. -/
theorem execStepTlvReceive_proposal {code number : Nat} {loadOk : Bool} (hc : s.f Reg.macStepTlv 0 32 ≠ 0)
    (h2 : s.f (Reg.macStepStatus p) 4 4 < 2) (hcode : code ≠ 0xFF) :
    execStepTlvReceive p code number loadOk s = .next (s.fresh.stepProposed p code number loadOk) := by
  have hopen : ¬ (decide (s.f Reg.macStepTlv 0 32 = 0) || s.f (Reg.macStepStatus p) 4 4 == 3) = true := by
    simp [hc]; omega
  have hown : ¬ (s.f (Reg.macStepStatus p) 4 4 == 2 && number % 256 == s.f (Reg.macStepStatus p) 8 8 &&
      (code == 0xFF || code == (s.side p).stepCode)) = true := by
    simp [Nat.ne_of_lt h2]
  exact (atUnit_lt _ _ hp).trans (congrArg _ ((if_neg hopen).trans ((if_neg hown).trans (if_neg hcode))))

/-! ### Agreement carried out, and a proposal without an answer (R175) -/

theorem execStepRetune_agreed {code : Nat} (hs : (s.side p).stepSent = true) (hh : (s.side p).stepHeard = true)
    (hcode : (s.side p).stepCode ≠ 0xFF) (ht : (s.side p).stepAt + 62500000 ≤ s.ticks)
    (hc : code = if speedOf (s.side p).stepCode = speedOf (s.portType p) then s.portType p else (s.side p).stepCode) :
    execStepRetune p s = .next (s.fresh.retune p code (s.side p).stepCause) := by
  subst hc
  have hg : ((s.side p).stepSent && (s.side p).stepHeard && (s.side p).stepCode != 0xFF &&
      decide ((s.side p).stepAt + 62500000 ≤ s.ticks)) = true := by
    rw [hs, hh, bne_iff_ne.2 hcode, decide_eq_true ht]; rfl
  exact (atUnit_lt _ _ hp).trans (congrArg _ (if_pos hg))

theorem execStepProposalTimeout_unanswered (h2 : s.f (Reg.macStepStatus p) 4 4 = 2) (hh : (s.side p).stepHeard = false)
    (ht : (s.side p).stepAt + 3750000000 ≤ s.ticks) : execStepProposalTimeout p s = .next (s.fresh.withdrawStep p) := by
  have hg : (s.f (Reg.macStepStatus p) 4 4 == 2 && !(s.side p).stepHeard &&
      decide ((s.side p).stepAt + 3750000000 ≤ s.ticks)) = true := by
    rw [h2, hh, decide_eq_true ht]; rfl
  exact (atUnit_lt _ _ hp).trans (congrArg _ (if_pos hg))
end

/-- What has never been refused, or was last at least n ticks ago, is not refused now. -/
theorem not_recent_of_elapsed {o : Option Nat} {n now : Nat} : (∀ t, o = some t → t + n ≤ now) →
    (match o with | some t => decide (now < t + n) | none => false) = false := by
  intro h
  cases o with
  | none => rfl
  | some t => exact decide_eq_false (Nat.not_lt.2 (h t rfl))

/-- Settles O36: an evaluation by what its port finds, a TLV by whose proposal it answers or makes. -/
theorem speedStepsAct : Obligations.SpeedStepsAct := by
  rintro s u rfl p hp cur st x rfl rfl rfl
  refine ⟨fun rxDown txDown rxUp txUp deep busy quiet cfg hcfg hready hdeep hbusy hquiet => ?_,
    fun code number loadOk hc => ⟨fun h2 hn => ⟨fun hcode => ?_, fun hne hcode => ?_⟩, fun h2 hcode down v hd hv => ?_⟩,
    fun hs hh hcode ht code hc => execStepRetune_agreed hp hs hh hcode ht hc,
    fun h2 hh ht => execStepProposalTimeout_unanswered hp h2 hh ht⟩
  · have hx := execSpeedStepEvaluate_ready (rxDown := rxDown) (txDown := txDown) (rxUp := rxUp) (txUp := txUp) hp hcfg hready hdeep hbusy
      hquiet rfl
    have hstay (hn : speedOf (s.portType p) ≤ speedOf (s.codeInUse p) ∨ (deep = false ∧ busy = false)) :
        ¬ (decide (speedOf (s.codeInUse p) < speedOf (s.portType p)) && (deep || busy)) = true := by
      rcases hn with hle | ⟨rfl, rfl⟩
      · simp [Nat.not_lt.2 hle]
      · simp
    refine ⟨fun hlt hb => ?_, fun hlt hb hd => ?_, fun hn hq hr => ?_, fun hn hq => ?_⟩
    · refine hx.trans (congrArg _ ?_)
      simp [hlt, hb]
    · refine hx.trans (congrArg _ ?_)
      simp [hlt, hb, hd]
    · refine hx.trans (congrArg _ ((if_neg (hstay hn)).trans (if_pos ?_)))
      rw [hq, Bool.true_and, Bool.not_eq_true']
      exact not_recent_of_elapsed hr
    · refine hx.trans (congrArg _ ((if_neg (hstay hn)).trans (if_neg ?_)))
      simp [hq]
  · rintro v w rfl rfl
    exact (execStepTlvReceive_answer hp hc h2 hn (.inl hcode)).trans (congrArg _ (if_pos hcode))
  · exact (execStepTlvReceive_answer hp hc h2 hn (.inr hcode)).trans (congrArg _ (if_neg hne))
  · subst hd hv
    exact next_ite (execStepTlvReceive_proposal hp hc h2 hcode)

end Sys2Proof.Machine
end

section
/-! PROOF. The transmitter of a port (O34). -/
namespace Sys2Proof.Machine

/-! ### What a free transmitter takes (R249, R252) -/

section
variable {s : State} {p buf : Nat}

theorem State.startNext_strict {q : Nat} (hq : s.strict p = some q) : s.startNext p buf = s.start p q buf := by
  simp only [State.startNext, hq]

theorem State.startNext_preempted {t : Sending} (hn : s.strict p = none) (ht : (s.side p).preempted = some t) :
    s.startNext p buf = s.resume p t := by
  simp only [State.startNext, hn, ht]

theorem State.startNext_chosen {x : State} {q : Nat} (hn : s.strict p = none) (ht : (s.side p).preempted = none)
    (hc : s.choose p = (x, some q)) : s.startNext p buf = x.start p q buf := by
  simp only [State.startNext, hn, ht, hc]

theorem State.startNext_none {x : State} (hn : s.strict p = none) (ht : (s.side p).preempted = none)
    (hc : s.choose p = (x, none)) : s.startNext p buf = x := by
  simp only [State.startNext, hn, ht, hc]

/-! ### A transmitter that is free, cut free or busy (R180, R252, R256) -/

theorem State.sendNext_idle (h : (s.side p).sending = none) : s.sendNext p buf = s.startNext p buf := by
  simp only [State.sendNext, h]

theorem State.sendNext_cut {t : Sending} {n : Nat} (h : (s.side p).sending = some t) (hc : s.cutPoint p t = some n) :
    s.sendNext p buf = (s.cutAt p n t).startNext p buf := by
  simp only [State.sendNext, h, hc]

theorem State.sendNext_busy {t : Sending} (h : (s.side p).sending = some t) (hc : s.cutPoint p t = none) :
    s.sendNext p buf = s := by
  simp only [State.sendNext, h, hc]
end

section
variable {p : Nat} {s : State} (hp : p < 83)
include hp

theorem execEgressFrameStart_eq {v : State} (buf : Nat) (hv : v = s.fresh.epochDue.egressReady p) :
    execEgressFrameStart p buf s = .next (v.sendNext p buf) := by
  rw [hv]
  exact atUnit_lt _ _ hp

/-! ### Departures (R35, R250) -/

theorem execCopyDeparture_idle (h : (s.side p).sending = none) : execCopyDeparture p s = .next s.fresh := by
  have h' : (s.fresh.side p).sending = none := h
  simp only [execCopyDeparture, h']
  exact atUnit_lt _ _ hp

/-- The frame under way has left: a last fragment counts, its queue's cells are released, and a visit that can send no more ends. -/
theorem execCopyDeparture_sent {t : Sending} {v w : State} (h : (s.side p).sending = some t)
    (hv : v = if 0 < t.fragments then s.fresh.stat p 0x2B 1 else s.fresh)
    (hw : w = ((v.setSide p (fun x => { x with sending := none })).busy p).released p t.queue) :
    execCopyDeparture p s = .next (if (w.strict p).isNone then w.endVisit p else w) := by
  subst hw hv
  have h' : (s.fresh.side p).sending = some t := h
  simp only [execCopyDeparture, h']
  exact atUnit_lt _ _ hp

/-! ### Ageing heads (R233, R234) -/

theorem execHeadAgeExpiry_eq (q : Nat) : execHeadAgeExpiry p q s = .next (
    if q < 5 then (s.fresh.cleanHead p q (s.q p q).copies.length).released p q else s.fresh) := atUnit_lt _ _ hp
end

/-- Settles O34: a start by whether the transmitter is free, cut free or busy, and by what it then takes. -/
theorem egressSendsAndReleases : Obligations.EgressSendsAndReleases := by
  intro s p hp
  refine ⟨fun buf v hv t w hw => ?_, fun buf v t hv h hc => ?_, execCopyDeparture_idle hp,
    fun t h v w hv hw => next_ite (execCopyDeparture_sent hp h hv hw),
    fun q => ⟨fun hq => ?_, fun hq => ?_⟩⟩
  · have hfree : v.sendNext p buf = w.startNext p buf := by
      rcases hw with ⟨h, rfl⟩ | ⟨h, n, hc, hcut⟩
      · exact State.sendNext_idle h
      · rw [hcut _ _ rfl rfl]
        exact State.sendNext_cut h hc
    have hx : exec (.egressFrameStart p buf) s = .next (w.startNext p buf) := by
      rw [← hfree]
      exact execEgressFrameStart_eq hp buf hv
    refine ⟨fun q hq => ?_, fun hn r hr => ?_, fun hn hr => ⟨fun x q hc => ?_, fun x hc => ?_⟩⟩
    · rw [hx, State.startNext_strict hq]
    · refine next_ite ?_
      rw [hx, State.startNext_preempted hn hr, State.resume]
    · rw [hx, State.startNext_chosen hn hr hc]
    · rw [hx, State.startNext_none hn hr hc]
  · exact (execEgressFrameStart_eq hp buf hv).trans (congrArg _ (State.sendNext_busy h hc))
  · exact (execHeadAgeExpiry_eq hp q).trans (congrArg _ (if_pos hq))
  · exact (execHeadAgeExpiry_eq hp q).trans (congrArg _ (if_neg (Nat.not_lt.2 hq)))

end Sys2Proof.Machine
end

section
/-! PROOF. Flow control, low-power idle and merge verification (O35). -/
namespace Sys2Proof.Machine

section
variable {p : Nat} {s : State} (hp : p < 80)
include hp

/-! ### PFC sent and received, PAUSE (R169, R170) -/

/-- A refresh repeats XOFF for the named priorities that are stopped, half of their quanta after their last, and still above XON. -/
theorem execPfcXoffRefresh_eq {pri : Nat} {l : List Nat}
    (hl : l = (bitsSet pri 7).filter (fun k => s.b (Reg.pauseStatus p) (8 + k) &&
      (match assoc (s.side p).xoffAt k with
        | some t => decide (t + s.quantaTicks p (s.f (Reg.pfcQuanta p) 0 16) / 2 ≤ s.ticks) | none => true) &&
      decide (s.f (Reg.pfcWmP p k) 0 18 < s.pfcCells p k))) :
    execPfcXoffRefresh p pri s = .next (if l.isEmpty then s.fresh else s.fresh.sendPfc p l []) := by
  rw [hl]
  exact atUnit_lt _ _ hp

theorem execPauseFrameReceive_received (hr : s.receives p = true) (quanta : Nat) :
    execPauseFrameReceive p quanta s = .next ((s.fresh.controlCounted p).pauseReceived p quanta) :=
  (atUnit_lt _ _ hp).trans (congrArg _ (if_pos hr))

theorem execPfcFrameReceive_received (hr : s.receives p = true) (enable : Nat) (quanta : List Nat) :
    execPfcFrameReceive p enable quanta s = .next ((s.fresh.controlCounted p).pfcReceived p enable quanta) :=
  (atUnit_lt _ _ hp).trans (congrArg _ (if_pos hr))

/-! ### The watchdog (R171) -/

/-- A trip releases what has been stopped for longer than PAUSE_WD_MS, and ignores its pauses from now. -/
theorem execPauseWatchdogTrip_trips {m : Nat} {l : List Nat}
    (hl : l = s.stopsOf p m (fun t => decide (t.1 + s.f (Reg.pauseWd p) 0 16 * 1250000 < s.ticks))) (hne : l ≠ []) :
    execPauseWatchdogTrip p m s =
      .next ((s.fresh.endStops p l).watchdogTrip p (maskOf l) (if m = 0xFF then 0xFF else maskOf l)) := by
  have hc : ¬ l.isEmpty = true := fun h => hne (List.isEmpty_iff.1 h)
  rw [hl] at hc ⊢
  exact (atUnit_lt _ _ hp).trans (congrArg _ (if_neg hc))

/-- The pauses whose ignoring has lasted PAUSE_IGNORE_MS are honoured again. -/
theorem execPauseIgnoreEnd_ends {m old k left : Nat} {due : Nat → Bool} (hold : old = (s.side p).ignoring)
    (hdue : due = (fun (k : Nat) => match assoc (s.side p).ignores k with
      | some t => decide (t + s.f (Reg.pauseWd p) 16 16 * 1250000 ≤ s.ticks) | none => true))
    (hk : k = maskOf ((if m = 0xFF then [8] else bitsSet m 7).filter (fun k => old.testBit k && due k))) (h0 : k ≠ 0)
    (hleft : left = maskOf ((bitsSet old 9).filter (fun i => !k.testBit i))) : execPauseIgnoreEnd p m s = .next (
      ((s.fresh.setSide p (fun x => { x with ignoring := left })).setf (Reg.pauseStatus p) 17 1 (bit (left != 0))).raise 0x301
        (toLe 1 p ++ [1] ++ toLe 1 (if k = 0x100 then 0xFF else k))) := by
  rw [hdue, hold] at hk
  rw [hold, hk] at hleft
  rw [hk] at h0 ⊢
  rw [hleft]
  exact (atUnit_lt _ _ hp).trans (congrArg _ (if_neg h0))

/-! ### LPI (R146, R147) -/

/-- A port that may sleep, whose partner hears it, and that has been idle for MAC_LPI_IDLE_US, enters LPI. -/
theorem execLpiEntry_enters {l : Lane} {v : State} (hl : l = lowestLane p) (hcode : lpiType (s.codeInUse p) = true)
    (hplan : s.b (Reg.pwrPlanP p) 0 = true) (ht : s.txTiming l = false) (hr : s.portReady p = true) (hi : s.portIdle p = true)
    (hq : (s.side p).lastBusy + s.f (Reg.macLpiIdleUs p) 0 20 * 1250 ≤ s.ticks) (hx : s.txState l = 2)
    (hv : v = s.fresh.setSide p (fun x => { x with sleptTx := s.ticks })) : execLpiEntry p true s = .next (
      (((v.setf (laneKey l 5) 4 4 3).count (laneKey l 0x0C) 0 32 1).setf (Reg.macLinkStatus p) 11 1 1).stat p 0x49 1) := by
  subst hl
  have hc : (lpiType (s.codeInUse p) && s.b (Reg.pwrPlanP p) 0 && !s.txTiming (lowestLane p) && true && s.portReady p &&
      s.portIdle p && decide ((s.side p).lastBusy + s.f (Reg.macLpiIdleUs p) 0 20 * 1250 ≤ s.ticks) &&
      s.txState (lowestLane p) == 2) = true := by
    rw [hcode, hplan, ht, hr, hi, decide_eq_true hq, hx]; rfl
  rw [hv]
  exact (atUnit_lt _ _ hp).trans (congrArg _ (if_pos hc))

/-- A partner that does not advertise LPI keeps the port awake. -/
theorem execLpiEntry_unadvertised : execLpiEntry p false s = .next s.fresh := by
  simp only [execLpiEntry, Bool.and_false, Bool.false_and, Bool.false_eq_true, if_false]
  exact atUnit_lt _ _ hp

theorem execLpiTransmitExit_eq : execLpiTransmitExit p s = .next (if s.portIdle p then s.fresh else s.fresh.txWake p) :=
  atUnit_lt _ _ hp

/-! ### Merge verification (R167, R180) -/

/-- What the verification of a port with link does next, in state st: it begins, succeeds, waits for the verify time, fails at its last
try, or tries again. -/
theorem execMergeVerifyTimer_linked (answered : Bool) (hu : s.b (Reg.macLinkStatus p) 8 = true) :
    execMergeVerifyTimer p answered s = .next (
      if s.f (Reg.macMergeStatus p) 0 4 = 1 then
        ((s.fresh.setSide p (fun x => { x with mergeTries := 1, mergeAt := s.ticks })).mergeSet p 2).emit (.mpacket p false)
      else if s.f (Reg.macMergeStatus p) 0 4 = 2 then
        if answered then s.fresh.mergeSet p 3
        else if s.ticks < (s.side p).mergeAt + s.f (Reg.macMergeCfg p) 16 8 * 1250000 then s.fresh
        else if s.f (Reg.macMergeCfg p) 24 4 ≤ (s.side p).mergeTries then s.fresh.mergeSet p 4
        else (s.fresh.setSide p (fun x => { x with mergeTries := (s.side p).mergeTries + 1, mergeAt := s.ticks })).emit
          (.mpacket p false)
      else s.fresh) := by
  have hc : ¬ (!s.b (Reg.macLinkStatus p) 8) = true := by rw [hu]; decide
  exact (atUnit_lt _ _ hp).trans (congrArg _ (if_neg hc))
end

/-- Settles O35: a lemma for each row and each way it goes; the verification by its state. -/
theorem flowControlAndLpiAct : Obligations.FlowControlAndLpiAct := by
  rintro s u rfl p hp
  refine ⟨fun pri l hl => ⟨fun h0 => ?_, fun hne => ?_⟩,
    fun hr => ⟨execPauseFrameReceive_received hp hr, execPfcFrameReceive_received hp hr⟩, fun m => atUnit_lt _ _ hp,
    fun m l hl hne => execPauseWatchdogTrip_trips hp hl hne,
    fun m old due k left hold hdue hk h0 hleft => execPauseIgnoreEnd_ends hp hold hdue hk h0 hleft,
    fun l hl hcode hplan ht hr hi hq hx v hv => execLpiEntry_enters hp hl hcode hplan ht hr hi hq hx hv,
    execLpiEntry_unadvertised hp, (next_ite (execLpiTransmitExit_eq hp)).2, (next_ite (execLpiTransmitExit_eq hp)).1, ?_⟩
  · exact (next_ite (execPfcXoffRefresh_eq hp hl)).1 (List.isEmpty_iff.2 h0)
  · exact (next_ite (execPfcXoffRefresh_eq hp hl)).2 (List.isEmpty_eq_false_iff.2 hne)
  · rintro st n rfl rfl hu
    have hx (a : Bool) : exec (.mergeVerifyTimer p a) s = _ := execMergeVerifyTimer_linked hp a hu
    refine ⟨fun a h1 => ?_, fun h2 => ?_, fun h2 ht hn => ?_, fun h2 ht hn => ?_⟩
    · rw [hx, if_pos h1]
    · rw [hx, if_neg (h2 ▸ by decide), if_pos h2, if_pos rfl]
    · rw [hx, if_neg (h2 ▸ by decide), if_pos h2, if_neg Bool.false_ne_true, if_neg (Nat.not_lt.2 ht), if_pos hn]
    · rw [hx, if_neg (h2 ▸ by decide), if_pos h2, if_neg Bool.false_ne_true, if_neg (Nat.not_lt.2 ht), if_neg (Nat.not_le.2 hn)]

end Sys2Proof.Machine
end

section
/-! PROOF. Reception, learning, ageing, snooping and host frames (O33). -/
namespace Sys2Proof.Machine

/-! ### Frames from the wire (R157 to R159, R167, R168) -/

section
variable {p : Nat} {frame : List Byte} {pcs : PcsReport} {under : List Nat} {s v : State} (hp : p < 83)
  (hv : v = s.fresh.pcsCount p pcs)
include hp hv

theorem execFrameReceive_deaf (hh : v.hears p = false) : execFrameReceive p frame pcs under s = .next v := by
  rw [hv] at hh ⊢
  have hc : (!(s.fresh.pcsCount p pcs).hears p) = true := by rw [hh]; rfl
  exact (atUnit_lt _ _ hp).trans (congrArg _ (if_pos hc))

/-- A port that receives judges the frame with what the PCS found, reassembly and the Verify mPacket only with merging enabled. -/
theorem execFrameReceive_heard {x : PcsReport} {w : State} (hh : v.hears p = true)
    (hx : x = { pcs with assembly := pcs.assembly && v.b (Reg.macMergeCfg p) 0 })
    (hw : w = (if pcs.verify && v.b (Reg.macMergeCfg p) 0 then v.emit (.mpacket p true) else v).epochDue.calRxEnd p) :
    execFrameReceive p frame pcs under s = .next (
      if w.rxErr p frame.length x frame ≠ 0 then w.errored p (w.rxErr p frame.length x frame) frame under
      else (w.countGood p (frame.take (frame.length - 4)) frame.length).good p (frame.take (frame.length - 4)) frame.length) := by
  have hc : ¬ (!v.hears p) = true := by rw [hh]; decide
  have hr : s.fresh.receive p frame pcs under = if !v.hears p then v else if w.rxErr p frame.length x frame != 0 then
      w.errored p (w.rxErr p frame.length x frame) frame under
      else (w.countGood p (frame.take (frame.length - 4)) frame.length).good p (frame.take (frame.length - 4)) frame.length := by
    rw [hw, hx, hv]
    rfl
  exact (atUnit_lt _ _ hp).trans (congrArg _ (hr.trans ((if_neg hc).trans (if_congr bne_iff_ne rfl rfl))))
end

/-! ### Learning (R189) -/

section
variable {s : State}

theorem execFdbLearn_nil (h : s.fwd.learnQueue = []) : execFdbLearn s = .next s.fresh := by
  simp only [execFdbLearn, State.learnOne, State.fresh_fwd, h]

theorem execFdbLearn_cons {key port t : Nat} {rest : List (Nat × Nat × Nat)} {v : State}
    (h : s.fwd.learnQueue = (key, port, t) :: rest) (hv : v = { s with out := [], fwd := { s.fwd with learnQueue := rest } }) :
    execFdbLearn s = .next (v.learn key port t) := by
  simp only [execFdbLearn, State.learnOne, State.fresh_fwd, h, hv]
  rfl

theorem State.learn_static {key port t : Nat} (h : (assoc s.fwd.tables.fdb key).isSome = true) : s.learn key port t = s :=
  if_pos h

theorem State.learn_known {key port t : Nat} {x : Learned} (h : assoc s.fwd.tables.fdb key = none)
    (hx : s.fwd.learned.find? (fun x => x.key == key) = some x) : s.learn key port t =
      s.setLearned (if x.final = some (0, port) then { x with renewed := max x.renewed t } else
        Learned.change { x with renewed := max x.renewed t } (t + learnDelay) (s.runNow s.fwdDom) (some (0, port))) := by
  simp only [State.learn, h, hx, Option.isSome_none, Bool.false_eq_true, if_false]

theorem State.learn_new {key port t : Nat} (h : assoc s.fwd.tables.fdb key = none)
    (hx : s.fwd.learned.find? (fun x => x.key == key) = none) : s.learn key port t =
      s.addLearned ⟨key, [(t + learnDelay, some (0, port))], t, false⟩ := by
  simp only [State.learn, h, hx, Option.isSome_none, Bool.false_eq_true, if_false]

/-! ### Snooping (R190) -/

variable {fid mac key now : Nat} {dest : Option (Nat × Nat)} (hs : s.serves 10 = true ∨ s.serves 11 = true)
  (hmac : mac.testBit 40 = true) (hkey : key = fdbKey (fid % 4096) (mac % 2 ^ 48)) (hnow : now = s.runNow s.fwdDom)
include hs hmac hkey hnow

theorem execIgmpMldSnooping_known {x : Learned} (hx : s.fwd.learned.find? (fun x => x.key == key) = some x) :
    execIgmpMldSnooping fid mac dest s =
      .next (s.fresh.setLearned (Learned.change { x with snooped := true, renewed := now } (now + learnDelay) now dest)) := by
  subst hkey hnow
  have hc : ((s.fresh.serves 10 || s.fresh.serves 11) && mac.testBit 40) = true := by
    rw [hmac, Bool.and_true, Bool.or_eq_true]; exact hs
  simp only [execIgmpMldSnooping, hc, if_true, State.fresh_fwd, hx]
  rfl

theorem execIgmpMldSnooping_new (hx : s.fwd.learned.find? (fun x => x.key == key) = none) :
    execIgmpMldSnooping fid mac dest s =
      .next (if dest.isSome then s.fresh.addLearned ⟨key, [(now + learnDelay, dest)], now, true⟩ else s.fresh) := by
  subst hkey hnow
  have hc : ((s.fresh.serves 10 || s.fresh.serves 11) && mac.testBit 40) = true := by
    rw [hmac, Bool.and_true, Bool.or_eq_true]; exact hs
  simp only [execIgmpMldSnooping, hc, if_true, State.fresh_fwd, hx]
  rfl
end

/-! ### Host frames (R162, R201, R202) -/

section
variable {s : State} {entry frame : List Byte}

/-- The transmit ring gives its next entry when it is enabled, holds one, and P80's limits let it in. -/
theorem execHostFrameSubmit_fetches {a v : State} (hon : (s.on 1 && s.b (Reg.p80RingCtrl 8) 31) = true)
    (hdev : s.f (Reg.p80RingDev 8) 0 16 ≠ s.rings.counts.getD 8 0) (hin : s.rings.nextIn ≤ 60 * s.ticks)
    (ha : a = { s with out := [], rings := { s.rings with
      nextIn := nextFree 80 s.rings.nextIn s.ticks (max 60 (u16 entry 8) + 4) } })
    (hv : v = (State.setf a (Reg.p80RingDev 8) 0 16 (s.f (Reg.p80RingDev 8) 0 16 + 1)).epochDue) :
    execHostFrameSubmit entry frame s = .next (v.submit entry frame) := by
  have hc : (s.on 1 && s.b (Reg.p80RingCtrl 8) 31 && s.f (Reg.p80RingDev 8) 0 16 != s.rings.counts.getD 8 0 &&
      decide (s.rings.nextIn ≤ 60 * s.ticks)) = true := by
    rw [hon, bne_iff_ne.2 hdev, decide_eq_true hin]; rfl
  rw [hv, ha]
  exact if_pos hc

/-- An entry's frame is of a length that no port or the named port does not take. -/
theorem State.submit_length (h : u16 entry 8 < 14 ∨ 15996 < u16 entry 8 ∨
      (u8 entry 10 < 80 ∧ s.f (Reg.macMaxFrame (u8 entry 10)) 0 14 - 4 < u16 entry 8)) :
    s.submit entry frame = (s.stat 80 0x2E 1).complete (u32 entry 12) 1 := by
  have hc : (decide (u16 entry 8 < 14) || decide (15996 < u16 entry 8) || (decide (u8 entry 10 < 80) &&
      decide (s.f (Reg.macMaxFrame (u8 entry 10)) 0 14 - 4 < u16 entry 8))) = true := by
    simpa [or_assoc] using h
  exact if_pos hc

variable (h14 : 14 ≤ u16 entry 8) (hmax : u16 entry 8 ≤ 15996)
  (hport : u8 entry 10 < 80 → u16 entry 8 ≤ s.f (Reg.macMaxFrame (u8 entry 10)) 0 14 - 4)
include h14 hmax hport

/-- None of the faults of a length stands. -/
theorem State.length_accepted : ¬ (decide (u16 entry 8 < 14) || decide (15996 < u16 entry 8) || (decide (u8 entry 10 < 80) &&
    decide (s.f (Reg.macMaxFrame (u8 entry 10)) 0 14 - 4 < u16 entry 8))) = true := by
  simpa [h14, hmax] using hport

theorem State.submit_unready (hp : u8 entry 10 ≠ 127) (hr : 80 ≤ u8 entry 10 ∨ s.portReady (u8 entry 10) = false) :
    s.submit entry frame = s.complete (u32 entry 12) 2 := by
  have hc : (u8 entry 10 != 0x7F && (decide (80 ≤ u8 entry 10) || !s.portReady (u8 entry 10))) = true := by
    simpa [hp] using hr
  exact (if_neg (State.length_accepted h14 hmax hport)).trans (if_pos hc)

/-- A frame that is let in is counted, gets the checksums it asks for, and goes to the pipeline or to the port it names. -/
theorem State.submit_admitted {d : List Byte} {w x : State} {r : List Byte × Bool} {ts : Option Nat}
    (hp : u8 entry 10 = 127 ∨ u8 entry 10 < 80 ∧ s.portReady (u8 entry 10) = true)
    (hd : d = frame.take (u16 entry 8) ++ zeros (60 - (frame.take (u16 entry 8)).length))
    (hw : w = s.countGood 80 d (d.length + 4))
    (hr : r = hostCsum (w.parsed 80 d) d ((u8 entry 11).testBit 3) ((u8 entry 11).testBit 4))
    (hx : x = if r.2 then w.stat 80 0x2F 1 else w)
    (hts : ts = if (u8 entry 11).testBit 5 then some (u32 entry 12) else none) : s.submit entry frame =
      if u8 entry 10 = 127 then x.submitLookup (bits (u8 entry 11) 3 2) (u32 entry 12) ts r.1
      else x.submitTo (u8 entry 10) (u8 entry 11 % 8) (bits (u8 entry 11) 3 2) (u32 entry 12) ts r.1 := by
  have hc : ¬ (u8 entry 10 != 0x7F && (decide (80 ≤ u8 entry 10) || !s.portReady (u8 entry 10))) = true := by
    rcases hp with hp | ⟨hp, hready⟩
    · simp [hp]
    · simp [hready, Nat.not_le.2 hp]
  rw [hx, hr, hw, hd, hts]
  refine (if_neg (State.length_accepted h14 hmax hport)).trans ((if_neg hc).trans ?_)
  by_cases h127 : u8 entry 10 = 127
  · exact (if_neg (by simp [h127])).trans (if_pos h127).symm
  · exact (if_pos (bne_iff_ne.2 h127)).trans (if_neg h127).symm
end

/-- Settles O33: a lemma for each row and each way it goes; a learned address by whether its entry is static, known or new. -/
theorem framesReceivedAndLearned : Obligations.FramesReceivedAndLearned := by
  rintro s u rfl
  refine ⟨fun p hp frame pcs under v hv => ⟨execFrameReceive_deaf hp hv, fun hh x w hx hw => ⟨fun he => ?_, fun he d hd => ?_⟩⟩,
    execFdbLearn_nil, fun key port t rest v hq hv => ?_, ?_, fun fid mac dest hs hmac key now hkey hnow =>
      ⟨fun x hx => execIgmpMldSnooping_known hs hmac hkey hnow hx, fun hx => ⟨fun d hd => ?_, fun hd => ?_⟩⟩,
    fun entry frame hon hdev hin a v port n fl ha hv hport hn hfl => ?_⟩
  · exact (execFrameReceive_heard hp hv hh hx hw).trans (congrArg _ (if_pos he))
  · subst hd
    exact (execFrameReceive_heard hp hv hh hx hw).trans (congrArg _ (if_neg (not_not.2 he)))
  · have hx : exec .fdbLearn s = .next (v.learn key port t) := execFdbLearn_cons hq hv
    refine ⟨fun hs => hx.trans (congrArg _ (State.learn_static hs)), fun hs => ⟨fun x hf y hy => ?_, fun hf => ?_⟩⟩
    · subst hy
      have hk := hx.trans (congrArg _ (State.learn_known hs hf))
      exact ⟨fun he => hk.trans (by rw [if_pos he]), fun he => hk.trans (by rw [if_neg he])⟩
    · exact hx.trans (congrArg _ (State.learn_new hs hf))
  · rintro v now aged rfl rfl rfl
    rfl
  · subst hd
    exact execIgmpMldSnooping_new hs hmac hkey hnow hx
  · subst hd
    exact execIgmpMldSnooping_new hs hmac hkey hnow hx
  · subst hport hn hfl
    have hx : exec (.hostFrameSubmit entry frame) s = .next (v.submit entry frame) := execHostFrameSubmit_fetches hon hdev hin ha hv
    refine ⟨fun h => hx.trans (congrArg _ (State.submit_length h)), fun h14 hmax hport =>
      ⟨fun hp hr => hx.trans (congrArg _ (State.submit_unready h14 hmax hport hp hr)), fun d w r x ts hd hw hr hxs hts =>
        ⟨fun hp => ?_, fun hp hready => ?_⟩⟩⟩
    · rw [hx, State.submit_admitted h14 hmax hport (.inl hp) hd hw hr hxs hts, if_pos hp]
    · rw [hx, State.submit_admitted h14 hmax hport (.inr ⟨hp, hready⟩) hd hw hr hxs hts, if_neg (by omega)]

end Sys2Proof.Machine
end

section
/-! PROOF. The table commands (O11). -/
namespace Sys2Proof.Machine
open Sys2Proof.Safety

/-- Settles O11: TABLE_STAGE and EPOCH_STATUS have one reply each; a TABLE_COMMIT with nothing in its way replies at once, late or
scheduled. -/
theorem tableCommandsStageAndCommit : Obligations.TableCommandsStageAndCommit := by
  intro q s u x
  refine ⟨fun h => ?_, fun h => ?_, fun h => ?_, ?_, fun h => ?_⟩
  · exact congrArg _ (runCmd_reply h rfl)
  · exact congrArg _ (runCmd_reply h rfl)
  · exact congrArg _ (runCmd_reply h rfl)
  · rintro h bs dom num rfl rfl rfl hother hgate
    obtain ⟨hnow, hlate, hsched⟩ := tableCommitRun_free u x hother hgate
    exact ⟨fun hf t ht => congrArg _ (runCmd_reply h (hnow hf t ht)), fun hf hl => congrArg _ (runCmd_reply h (hlate hf hl)),
      fun hf hl ha => congrArg _ (runCmd_reply h (hsched hf hl ha))⟩
  · exact congrArg _ (runCmd_reply h rfl)

end Sys2Proof.Machine
end

section
/-! PROOF. Spill pages, DDR5 channels, the inventory audit and queue monitoring (O39). -/
namespace Sys2Proof.Machine

/-! ### Pages (R227-R229, R240, R241) -/

section
variable {s u : State} (hu : u = s.fresh)
include hu

theorem execPagePackTimer_packs {p q : Nat} (hp : p < 83) (hst : (u.q p q).state = 1) (hm : u.maySpill p q = true)
    (hd : u.packDue p q = true) : execPagePackTimer p q s = .next (u.packPage p q) := by
  subst hu
  have hc : ((s.fresh.q p q).state == 1 && s.fresh.maySpill p q && s.fresh.packDue p q) = true := by rw [hst, hm, hd]; rfl
  exact (atUnit_lt _ _ hp).trans (congrArg _ (if_pos hc))

/-- A page write under way ends on a free page of the channel whose turn it is, in error or not. -/
theorem execPageWriteDone_ends {p q page c : Nat} {failed : Bool} {v : State} (hp : p < 83) (hup : u.spillUp = true)
    (hw : (u.q p q).writing ≠ []) (hn : u.nextChannel = some c) (hf : u.pageFree c page = true)
    (hv : v = State.occurs { u with buf := { u.buf with lastChannel := c } } 0x0D c 1) :
    execPageWriteDone p q page failed s = .next (if failed then v.retirePage c page 1 0 else v.pageWritten p q c page) := by
  subst hu hv
  have hc : (s.fresh.spillUp && !(s.fresh.q p q).writing.isEmpty) = true := by simp [hup, hw]
  refine (atUnit_lt _ _ hp).trans (congrArg _ ((if_pos hc).trans ?_))
  simp only [hn]
  exact if_pos hf

/-- The oldest page read of a queue ends: its corrected errors are counted, and it fills its cells or loses its frames. -/
theorem execPageReadDone_ends {p q corrected : Nat} {bad : Bool} {g : Page} {rest : List Page} {v : State} (hp : p < 83)
    (hch : (u.q p q).chain = g :: rest) (hup : u.spillUp = true) (hg : u.channelUp g.ch = true) (hr : (u.q p q).reads ≠ 0)
    (hv : v = (u.count (Reg.stackChEcc (1 + g.ch)) 0 32 corrected).occurs 0x0C g.ch 1) :
    execPageReadDone p q corrected bad s = .next (if bad then
      ((((v.setQ p q { u.q p q with chain := rest, reads := (u.q p q).reads - 1 }).dropSerials p q (serialsIn [g])).retirePage g.ch
        g.num 2 ((u.q p q).copies.filter (fun c => (serialsIn [g]).contains c.serial)).length).uncorrectable g.ch).released p q
      else (v.pageRead p q g rest).released p q) := by
  subst hu hv
  have hc : (s.fresh.spillUp && s.fresh.channelUp g.ch && (s.fresh.q p q).reads != 0) = true := by simp [hup, hg, hr]
  refine (atUnit_lt _ _ hp).trans (congrArg _ ?_)
  simp only [hch]
  exact if_pos hc

theorem execStackChainAbandoned_freed {k n : Nat} {x : List (Nat × Nat)} {rest : List (Nat × Nat × List (Nat × Nat))}
    (ha : u.buf.abandoned = (k, n, x) :: rest) :
    execStackChainAbandoned s = .next (State.raise { u with buf := { u.buf with abandoned := rest } } 0x503
      (toLe 1 (k / 8) ++ toLe 1 (k % 8) ++ zeros 2 ++ toLe 4 n)) := by
  subst hu
  simp only [execStackChainAbandoned, ha]

/-! ### Training (R236, R238) -/

/-- Training ends: a failing step, or an organisation other than that of the channel in service, puts the channel out of service. -/
theorem execDdrTrainingDone_ends {c step rd wr vref org : Nat} {v : State} {put : Nat → Nat → State} (hc : c < 2)
    (hon : u.on (8 + c) = true) (hi : u.islandUp (12 + c) = true) (ht : u.channel c = 1)
    (horg : org = u.f (Reg.stackChOrg (1 + c)) 0 8)
    (hv : v = u.set (Reg.stackChTrain (1 + c)) (min rd 255 * 2 ^ 24 + min wr 255 * 2 ^ 16 + min vref 255 * 2 ^ 8 + min step 6))
    (hput : put = fun st cause => (v.setf (Reg.stackChStatus (1 + c)) 0 4 st).setf (Reg.stackChStatus (1 + c)) 8 8 cause) :
    execDdrTrainingDone c step rd wr vref s = .next (
      if step ≠ 0 then (put 3 1).refresh
      else if v.channel (1 - c) = 2 ∧ assoc v.buf.trainedOrg (1 - c) ≠ some org then (put 3 2).refresh
      else (State.retiredCheck { put 2 0 with buf := { (put 2 0).buf with
        trainedOrg := assocSet (put 2 0).buf.trainedOrg c org } } c).refresh) := by
  subst hu horg hput hv
  have hg : (s.fresh.on (8 + c) && s.fresh.islandUp (12 + c) && s.fresh.channel c == 1) = true := by rw [hon, hi, ht]; rfl
  refine (atUnit_lt _ _ hc).trans (congrArg _ ((if_pos hg).trans ?_))
  exact if_congr bne_iff_ne rfl (if_congr (by rw [Bool.and_eq_true, beq_iff_eq, bne_iff_ne]) rfl rfl)

/-! ### The audit (R244-R247) and queue monitoring (R268) -/

/-- A pass is due PERIOD_US after the one before it. -/
theorem execAuditPass_due {crosslinks strayed : List Nat} {z v w x : State} (hon : u.b Reg.auditCfg 0 = true)
    (hup : u.spillUp = true) (hd : ∀ t, u.buf.auditTick = some t → t + u.f Reg.auditCfg 12 20 * 1250 ≤ u.ticks)
    (hz : z = u.upset crosslinks strayed) (hv : v = { z with buf := { z.buf with auditTick := some z.ticks } })
    (hw : w = v.forEach ((v.buf.desk.filter (fun x => x.2 == 2 && !v.auditMarks.contains x.1)).map (·.1)) (fun c s => s.auditLeak c))
    (hx : x = w.forEach (w.buf.crossed.filter (fun c => v.auditMarks.contains c)) (fun c s => s.auditCross c)) :
    execAuditPass crosslinks strayed s = .next ((x.forEach x.auditMismatches
      (fun _ s => (s.count Reg.auditCountErr 0 32 1).finding 3 0 0)).wrap Reg.auditStatus 32 32 1) := by
  subst hu hx hw hv hz
  unfold execAuditPass
  extract_lets f due
  have hdue : due = true := by
    unfold due
    split
    · rfl
    · next t ht => exact decide_eq_true (hd t ht)
  have hc : (f.b Reg.auditCfg 0 && f.spillUp && due) = true := by rw [hdue, Bool.and_true]; exact Bool.and_eq_true_iff.2 ⟨hon, hup⟩
  exact congrArg _ (if_pos hc)

theorem execQmonSample_takes (hen : u.b Reg.qmonRingCtrl 31 = true) (hon : u.on 4 = true) (ht : u.timeUp = true)
    (hs : u.qmon.sampled ≠ some u.qmonInstant) : execQmonSample s =
      .next (State.qmonRecords { u with qmon := { u.qmon with sampled := some u.qmonInstant } } u.qmonInstant) := by
  subst hu
  have hc : (s.fresh.b Reg.qmonRingCtrl 31 && s.fresh.on 4 && s.fresh.timeUp &&
      s.fresh.qmon.sampled != some s.fresh.qmonInstant) = true := by rw [hen, hon, ht, bne_iff_ne.2 hs]; rfl
  exact congrArg _ (if_pos hc)
end

/-- DQS drift shows in no parameter, of a channel that the part has or of another. -/
theorem execDqsDriftTrack_eq (c : Nat) (s : State) : execDqsDriftTrack c s = .next s.fresh := congrArg _ (ite_self _)

/-- Settles O39: a lemma for each row; a page write or read by whether it failed, training by its step and the other channel. -/
theorem stacksAuditAndMonitoringAct : Obligations.StacksAuditAndMonitoringAct := by
  intro s u hu
  refine ⟨fun p hp q hst hm hd => execPagePackTimer_packs hu hp hst hm hd,
    fun p hp q page c hup hw hn hf v hv => ⟨?_, ?_⟩,
    fun p hp q corrected g rest hch hup hg hr v l hv hl => ⟨execPageReadDone_ends hu hp hch hup hg hr hv, ?_⟩,
    fun k n x rest ha => execStackChainAbandoned_freed hu ha,
    fun c hc step rd wr vref hon hi ht org v put horg hv hput => ?_,
    fun c => hu ▸ execDqsDriftTrack_eq c s,
    fun hon hup hd crosslinks strayed z v w x hz hv hw hx => execAuditPass_due hu hon hup hd hz hv hw hx,
    execQmonSample_takes hu⟩
  · exact execPageWriteDone_ends hu hp hup hw hn hf hv
  · exact (next_ite (execPageWriteDone_ends hu hp hup hw hn hf hv)).1 rfl
  · rintro w n rfl rfl
    subst hl
    exact execPageReadDone_ends hu hp hch hup hg hr hv
  · have hx : exec (.ddrTrainingDone c step rd wr vref) s = _ := execDdrTrainingDone_ends hu hc hon hi ht horg hv hput
    refine ⟨fun hs => ?_, fun hs h2 ho => ?_, ?_⟩
    · exact hx.trans (congrArg _ (if_pos hs))
    · exact hx.trans (congrArg _ ((if_neg (not_not.2 hs)).trans (if_pos ⟨h2, ho⟩)))
    · rintro hs hsame w rfl
      refine hx.trans (congrArg _ ((if_neg (not_not.2 hs)).trans (if_neg ?_)))
      rintro ⟨h2, ho⟩
      exact hsame.elim (· h2) ho

end Sys2Proof.Machine
end

section
/-! PROOF. Copies that the admission test refuses (O56). -/
namespace Sys2Proof.Machine

theorem State.enqueue_refused {s : State} {p q n : Nat} {c : Copy} (h : s.admits p q n c.lent = false) :
    s.enqueue p q n c = (s.stat p (0x58 + q) 1, false) := if_neg (by rw [h]; decide)

/-- Each of a port's drop counters of R223 stands for one performance event (R441). -/
theorem statEvent_dropAdmit (p : Nat) {q : Nat} (hq : q < 8) : statEvent p (0x58 + q) = some (0x07, 8 * p + q) := by
  unfold statEvent
  rw [if_neg (by simp; omega), if_neg (by omega), if_neg (by simp; omega), if_pos (by simp; omega), Nat.add_sub_cancel_left]

/-- A counter that stands for a performance event counts in both, while PD4 has power. -/
theorem State.stat_event {s : State} {p idx code inst : Nat} (n : Nat) (h4 : 2 ≤ s.pd 4) (he : statEvent p idx = some (code, inst)) :
    s.stat p idx n = (s.wrap (shelf 0x0E (0x100 + p) idx) 0 64 n).occurs code inst n := by
  unfold State.stat
  simp only [he, if_pos h4]

/-- The field of all 64 bits is the word. -/
theorem State.f_word (s : State) (k : Nat) : s.f k 0 64 = s.get k := Nat.mod_eq_of_lt (s.get_lt k)

theorem State.get_wrap_word (s : State) (k n : Nat) : (s.wrap k 0 64 n).get k = (s.get k + n) % 2 ^ 64 := by
  rw [← State.f_word, State.f_wrap_self s n (by decide), State.f_word]

theorem State.assoc_occurs_self (s : State) (code inst n : Nat) : assoc (s.occurs code inst n).perf.occ (1024 * code + inst) =
    some ((assoc s.perf.occ (1024 * code + inst)).getD 0 + n) := assoc_assocSet_self _ _ _
theorem State.assoc_occurs_ne (s : State) {code inst j : Nat} (n : Nat) (h : j ≠ 1024 * code + inst) :
    assoc (s.occurs code inst n).perf.occ j = assoc s.perf.occ j := assoc_assocSet_other _ _ _ _ h

/-- A counter of a word and the occurrences of an event are all that counting in both changes. -/
theorem State.occurs_wrap_frame (s : State) (k lo m code inst n : Nat) :
    { (s.wrap k lo m n).occurs code inst n with
      words := s.words, perf := { ((s.wrap k lo m n).occurs code inst n).perf with occ := s.perf.occ } } = s := rfl

/-- Settles O56: the refused copy is one more of its counter, whose performance event has the same instance. -/
theorem refusedCopyIsCounted : Obligations.RefusedCopyIsCounted := by
  rintro s p q n c k e - hq h4 h rfl rfl
  rw [State.enqueue_refused h, State.stat_event 1 h4 (statEvent_dropAdmit p hq)]
  refine ⟨rfl, ?_, fun j hj => ?_, ?_, fun j hj => ?_, State.occurs_wrap_frame s _ 0 64 7 (8 * p + q) 1⟩
  · rw [State.get_occurs, State.get_wrap_word]
  · rw [State.get_occurs, State.get_wrap_ne s 0 64 1 hj]
  · rw [State.assoc_occurs_self, State.wrap_perf]
  · rw [State.assoc_occurs_ne _ 1 hj, State.wrap_perf]

end Sys2Proof.Machine
end

section
/-! PROOF. GATE_LOAD and GATE_SWITCH (O14). -/
namespace Sys2Proof.Machine
open Sys2Proof.Safety

/-- GATE_LOAD of a calendar that passes every check stages it, and replies its gate waits (R261). -/
theorem gateLoadRun_stages {x : Ctx} {u : State} (h : (u.loadCheck x.p).1 = 0) :
    gateLoadRun false x u = .ok (toLe 1 0 ++ toLe 1 (u.loadCheck x.p).2.1 ++ toLe 2 (u.loadCheck x.p).2.2 ++ zeros 4 ++
      (u.loadCalendar x.p).waits.flatMap (toLe 8))
      (u.stageCalendar (u8 x.p 0) (u8 x.p 2) (u32 x.p 8) (timeAt x.p 12) (u.loadCalendar x.p)) := by
  simp only [gateLoadRun, h, u.loadWaits_good x.p 0 (.inl rfl), Bool.false_eq_true, if_false]

/-- With CHECK_ONLY it replies the first failed check and the gate waits that check leaves, with nothing staged (R260). -/
theorem gateLoadRun_checkOnly {x : Ctx} {u : State} {w : List Byte × State} (h : u.loadWaits x.p (u.loadCheck x.p).1 = w) :
    gateLoadRun true x u = .ok (toLe 1 (u.loadCheck x.p).1 ++ toLe 1 (u.loadCheck x.p).2.1 ++ toLe 2 (u.loadCheck x.p).2.2 ++
      zeros 4 ++ w.1) w.2 := by
  subst h
  rfl

/-- Settles O14: GATE_LOAD has passed every check; CHECK_ONLY by whether the failed check leaves gate waits; GATE_SWITCH by its ways to
succeed. -/
theorem gateCommandsLoadAndSwitch : Obligations.GateCommandsLoadAndSwitch := by
  rintro q s u x w rfl
  refine ⟨fun h => ?_, ?_, ?_⟩
  · obtain ⟨-, hc, -⟩ := served_passes h
    exact congrArg _ (runCmd_reply h (gateLoadRun_stages (gateLoad_passes hc)))
  · rintro h r rfl
    exact ⟨fun hgood => congrArg _ (runCmd_reply h (gateLoadRun_checkOnly (u.loadWaits_good x.p _ hgood))),
      fun h0 h6 => congrArg _ (runCmd_reply h (gateLoadRun_checkOnly (u.loadWaits_bad x.p _ h0 h6)))⟩
  · rintro h hb d t rfl rfl
    obtain ⟨hnow, hlate, hsched⟩ := gateSwitchRun_cases u x hb
    exact ⟨fun hf => congrArg _ (runCmd_reply h (hnow hf)), fun hf hl => congrArg _ (runCmd_reply h (hlate hf hl)),
      fun hf hl ha => congrArg _ (runCmd_reply h (hsched hf hl ha))⟩

end Sys2Proof.Machine
end

section
/-! PROOF. Calendars that come into force and resume, recovery functions and the watch (O40). -/
namespace Sys2Proof.Machine

section
variable {s u : State} (hu : u = s.fresh)
include hu

/-! ### Calendars (R262, R265, R266) -/

/-- The row, for a port that the part has, does what `State.gateActive` says of the port. -/
theorem execGateActive_eq {p : Nat} (hp : p < 80) : execGateActive p s = .next (u.gateActive p) := by
  subst hu
  exact atUnit_lt _ _ hp

theorem execGateRestart_resumes {p k resume : Nat} {c : Calendar} (hp : p < 80) (hh : (u.gate p).hold = some (k, resume))
    (ho : (u.gate p).oper = some c) (hr : resume ≤ u.now c.dom) :
    execGateRestart p s = .next ((u.setGate p (fun x => { x with hold := none })).setf (Reg.gateStatus p) 40 2 1) := by
  subst hu
  refine (atUnit_lt _ _ hp).trans (congrArg _ ?_)
  simp only [hh, ho]
  exact if_pos hr

/-! ### Recovery functions (R286, R289) -/

theorem execFrerResetTimer_resets {r t : Nat} {e : List Byte} (hr : r < 8192) (he : u.rcvy r = some e)
    (ht : assoc u.red.lastPass r = some t) (hd : u16 e 4 ≤ (u.ticks - t) / msTicks) :
    execFrerResetTimer r s = .next ((State.setf { u with red := { u.red with lastPass := assocDel u.red.lastPass r } }
      (rcvyKey r 7) 16 1 1).rcvyCount r 6 1) := by
  subst hu
  refine (atUnit_lt _ _ hr).trans (congrArg _ ?_)
  simp only [he, ht]
  exact if_pos hd

/-- A latent test that is due records itself, and an excess over LATENT_DIFF is an error with a new base. -/
theorem execLatentTest_due {r : Nat} {e : List Byte} {d : Int} {v : State} (hr : r < 8192) (he : u.rcvy r = some e)
    (h5 : u.serves 5 = true) (hen : (u8 e 0).testBit 3 = true) (hdue : (u.latentSince r).2 + u16 e 24 * msTicks ≤ u.ticks)
    (hd : d = u.latentValue r e - (assoc u.red.latentBase r).getD 0) (hv : v = u.latentMade r false) :
    execLatentTest r s = .next (if (u16 e 22 : Int) < d then
      ((v.count (rcvyKey r 7) 48 16 1).raise 0x700 (toLe 2 r ++ zeros 2 ++ toLe 4 d.toNat)).latentRecord r e else v) := by
  subst hu hd hv
  refine (atUnit_lt _ _ hr).trans (congrArg _ ?_)
  simp only [he]
  exact if_pos (by rw [h5, hen, decide_eq_true hdue]; rfl)

theorem execLatentBaseReset_due {r : Nat} {e : List Byte} (hr : r < 8192) (he : u.rcvy r = some e) (h5 : u.serves 5 = true)
    (hen : (u8 e 0).testBit 3 = true) (hdue : (u.latentSince r).1 + u32 e 28 * msTicks ≤ u.ticks) :
    execLatentBaseReset r s = .next ((u.latentRecord r e).latentMade r true) := by
  subst hu
  refine (atUnit_lt _ _ hr).trans (congrArg _ ?_)
  simp only [he]
  exact if_pos (by rw [h5, hen, decide_eq_true hdue]; rfl)

/-! ### Stream watch (R294) -/

/-- The watch entries are evaluated a millisecond after the last time, or at once where there was none. -/
theorem execWatchEvaluate_due {v : State} (hup : u.watchUp = true) (h5 : u.serves 5 = true)
    (hd : ∀ t, u.red.evaluated = some t → t + msTicks ≤ u.ticks) (hv : v = { u with red := { u.red with evaluated := some u.ticks } }) :
    execWatchEvaluate s = .next ((v.forEach (v.red.watches.map (·.1)) (fun e s => s.watchOne e)).watchCounted) := by
  subst hu hv
  unfold execWatchEvaluate
  extract_lets f due
  have hdue : due = true := by
    unfold due
    split
    · next t ht => exact decide_eq_true (hd t ht)
    · rfl
  exact congrArg _ (if_pos (by rw [hdue, Bool.and_true]; exact Bool.and_eq_true_iff.2 ⟨hup, h5⟩))
end

/-- Settles O40: a lemma for each row, where its condition holds; a latent test by whether it finds an excess. -/
theorem gatesRecoveryAndWatchAct : Obligations.GatesRecoveryAndWatchAct := by
  intro s u hu
  refine ⟨?_, fun p hp k c resume hh ho hr => execGateRestart_resumes hu hp hh ho hr,
    fun r hr e he => ⟨?_, fun h5 hen => ⟨fun hdue d v hd hv => ?_, execLatentBaseReset_due hu hr he h5 hen⟩⟩,
    fun hup h5 hd v hv => execWatchEvaluate_due hu hup h5 hd hv⟩
  · rintro p hp k start dom hk hs old c v w x y rfl rfl rfl rfl rfl rfl
    refine (execGateActive_eq hu hp).trans (congrArg _ ?_)
    unfold State.gateActive
    rw [hk]
    exact if_neg (Nat.not_lt.2 hs)
  · rintro t v ht hd rfl
    exact execFrerResetTimer_resets hu hr he ht hd
  · have hx : exec (.latentTest r) s = _ := execLatentTest_due hu hr he h5 hen hdue hd hv
    exact ⟨fun hle => hx.trans (congrArg _ (if_neg (not_lt.2 hle))), fun hlt => hx.trans (congrArg _ (if_pos hlt))⟩

end Sys2Proof.Machine
end

section
/-! PROOF. Watch, proof and performance commands (O20). -/
namespace Sys2Proof.Machine
open Sys2Proof.Safety

/-- An abort of a running run: its slot in progress ends with verdict 6, and the run ends (R299). -/
theorem State.proofAbort_running {s v : State} (h : s.proof = 2) (hv : v = s.setf (slotKey s.proofSlot 8) 56 8 6) :
    s.proofAbort = State.proofEnd { v with red := { v.red with proofSlots := [] } } true := by
  subst hv
  exact if_pos h

/-- The checks of a PROOF_RUN abort leave only a running run. -/
theorem proofAbort_passes {x : Ctx} {u : State} (h : proofAbortCmd.check x u = none) : u.proof = 2 := by
  have hrun := firstErr_none h (errIf (u.proof != 2) .range) (by simp)
  simpa [errIf] using hrun

/-- Settles O20: WATCH_SET by its operation; PROOF_RUN starts by its ways to succeed, and what an abort's checks leave; the performance
commands have one reply each. -/
theorem watchProofAndPerfCommandsAct : Obligations.WatchProofAndPerfCommandsAct := by
  intro q s u x
  refine ⟨?_, ?_, fun h v hv => ?_, ?_, fun h => ?_⟩
  · rintro op c (⟨rfl, rfl⟩ | ⟨rfl, rfl⟩ | ⟨rfl, rfl⟩) h <;> exact congrArg _ (runCmd_reply h rfl)
  · rintro h hidle d t v w rfl rfl hv rfl
    obtain ⟨hnow, hlate, hsched⟩ := proofStartRun_cases u x hidle v hv
    exact ⟨fun hf => congrArg _ (runCmd_reply h (hnow hf)), fun hf hl => congrArg _ (runCmd_reply h (hlate hf hl)),
      fun hf hl ha => congrArg _ (runCmd_reply h (hsched hf hl ha))⟩
  · obtain ⟨-, hcheck, -⟩ := served_passes h
    rw [← State.proofAbort_running (proofAbort_passes hcheck) hv]
    exact congrArg _ (runCmd_reply h rfl)
  · rintro h n sel v rfl rfl rfl
    exact congrArg _ (runCmd_reply h rfl)
  · exact congrArg _ (runCmd_reply h rfl)

end Sys2Proof.Machine
end

section
/-! PROOF. Evening primrose: probes, echoes and the ends of slots (O41). -/
namespace Sys2Proof.Machine
open Sys2Proof.Safety

/-! ### Probes sent (R296) -/

/-- The next probe of the slot in progress, once due, counts as sent; P82 takes it, or drops it where it is not ready. -/
theorem execProbeSend_due {s u v : State} {n i q : Nat} {f : Frame} (hu : u = s.fresh) (hn : n = u.proofSlot) (hi : i = u.red.probesSent)
    (hrun : u.proof = 2) (hup : u.proofUp = true) (hleft : i < u.slotProbes n)
    (hdue : u.red.slotStart + i * u.f (slotKey n 2) 18 20 * 1250 ≤ u.ticks) (hq : q = u.f (slotKey n 0) 44 3)
    (hf : f = { u.ownFrame 82 q (u.probeFrame n i) with action := n })
    (hv : v = State.setf { u with red := { u.red with probesSent := i + 1 } } (slotKey n 8) 32 16 (i + 1)) :
    execProbeSend s = .next (if v.portReady 82 then
        ((v.storeFrame f).enqueue 82 q (cellsOf f.len) { Copy.of f f.len (decide (q < 5)) with kind := 5 }).1.collect
      else v.wrap (Reg.mcastDropLink 82) 0 64 1) := by
  subst hu hn hi hq hf hv
  refine congrArg _ (if_pos ?_)
  rw [hrun, hup, decide_eq_true hleft, decide_eq_true hdue]; rfl

/-! ### Probes reflected and echoes taken (R297, R298) -/

section
variable {p : Nat} {frame d : List Byte} {s w : State} (hp : p < 80) (ht : taken p frame s.fresh = some (d, w))
include hp ht

/-- A frame that is taken whole, by whether it is for evening primrose, and if so by whether it is a probe. -/
theorem execProbeReflect_taken : execProbeReflect p frame s = .next (
    if w.isProbe d then
      if u8 d (probeOff d + 3) == 1 then (w.mirrorTaken p d frame.length).reflect p d else w.mirrorTaken p d frame.length
    else w.good p d frame.length) :=
  (atUnit_lt _ _ hp).trans (congrArg _ (arrive_taken ht _ _))

theorem execEchoReceive_other (hw : w.isProbe d = false) : execEchoReceive p frame s = .next (w.good p d frame.length) :=
  (atUnit_lt _ _ hp).trans (congrArg _ ((arrive_taken ht _ _).trans (if_neg (by rw [hw]; decide))))

/-- An echo of the run and slot in progress that comes before the slot ends is taken. -/
theorem execEchoReceive_current {y : List Byte} {v : State} (hw : w.isProbe d = true) (hv : v = w.mirrorTaken p d frame.length)
    (hy : y = d.drop (probeOff d)) (hversion : u8 y 2 = 1) (hecho : u8 y 3 = 2) (hrun : v.proof = 2) (hup : v.proofUp = true)
    (hnum : u32 y 4 = v.proofRun) (hslot : u8 y 8 = v.proofSlot) (hdom : u8 y 9 < 8)
    (htime : v.ticks < v.red.slotStart + v.slotTicks v.proofSlot) : execEchoReceive p frame s = .next (v.echoTaken p y) := by
  subst hv hy
  refine (atUnit_lt _ _ hp).trans (congrArg _ ((arrive_taken ht _ _).trans ((if_pos hw).trans (if_pos ?_))))
  simp only [hversion, hecho, hrun, hup, hnum, hslot, decide_eq_true hdom, decide_eq_true htime, BEq.rfl, Bool.and_self]
end

/-! ### Slots that end (R300, R301) -/

/-- Once every probe of the slot in progress is sent and its time is over, it has its verdict and the next slot starts. -/
theorem execSlotEnd_over {s u : State} {n : Nat} (hu : u = s.fresh) (hn : n = u.proofSlot) (hrun : u.proof = 2)
    (hsent : u.red.probesSent = u.slotProbes n) (hover : u.red.slotStart + u.slotTicks n ≤ u.ticks) :
    execSlotEnd s = .next ((u.setf (slotKey n 8) 56 8 (u.slotVerdict n)).nextSlot u.red.proofSlots) := by
  subst hu hn
  refine congrArg _ (if_pos ?_)
  rw [hrun, hsent, decide_eq_true hover, BEq.rfl]; rfl

/-- Settles O41: a lemma for each row; a probe sent by whether P82 is ready, and a frame by whether it is for evening primrose. -/
theorem proofRunsAct : Obligations.ProofRunsAct := by
  intro s u hu
  refine ⟨?_, fun p hp frame d w ht v hv => ?_, fun n hn hrun hsent hover => execSlotEnd_over hu hn hrun hsent hover⟩
  · rintro n i hn hi hrun hup hleft hdue q f v hq hf hv
    have hx : exec .probeSend s = _ := execProbeSend_due hu hn hi hrun hup hleft hdue hq hf hv
    exact ⟨fun hr => hx.trans (congrArg _ (if_pos hr)), fun hr => hx.trans (congrArg _ (if_neg (by rw [hr]; decide)))⟩
  · subst hu
    have hx : exec (.probeReflect p frame) s = _ := execProbeReflect_taken hp ht
    refine ⟨fun hw => ⟨hx.trans (congrArg _ (if_neg (by rw [hw]; decide))), execEchoReceive_other hp ht hw⟩, fun hw hkind => ?_, ?_⟩
    · rw [hx, if_pos hw, if_pos (by rw [hkind]; rfl), hv]
    · rintro hw y hy hversion hecho hrun hup hnum hslot hdom htime
      exact execEchoReceive_current hp ht hw hv hy hversion hecho hrun hup hnum hslot hdom htime

end Sys2Proof.Machine
end

section
/-! PROOF. The time commands (O12). -/
namespace Sys2Proof.Machine
open Sys2Proof.Safety

/-- Settles O12: TIME_STEP by when it executes and whether the step is real, TIME_ADJ_FREQ by when it executes; the others have one
reply each. -/
theorem timeCommandsStepAndSchedule : Obligations.TimeCommandsStepAndSchedule := by
  rintro q s u x d t l r rfl rfl rfl rfl
  refine ⟨fun h => ?_, fun h => ?_, fun h => ?_, fun h => ?_, fun a h ha ht => ?_⟩
  · exact congrArg _ (runCmd_reply h rfl)
  · obtain ⟨hnow, hlate, hsched⟩ := timeStepRun_cases u x
    refine ⟨fun hf hr => ?_, fun hf hr => ?_, fun hf hl hr => ?_, fun hf hl hr => ?_, fun hf hl ha => ?_⟩
    · exact congrArg _ (runCmd_reply h ((hnow hf).trans (u.stepNow_real _ _ _ hr)))
    · exact congrArg _ (runCmd_reply h ((hnow hf).trans (u.stepNow_unreal _ _ _ hr)))
    · exact congrArg _ (runCmd_reply h ((hlate hf hl).trans (u.stepNow_real _ _ _ hr)))
    · exact congrArg _ (runCmd_reply h ((hlate hf hl).trans (u.stepNow_unreal _ _ _ hr)))
    · exact congrArg _ (runCmd_reply h (hsched hf hl ha))
  · obtain ⟨hnow, hlate, hsched⟩ := timeAdjFreqRun_cases u x
    exact ⟨fun hf hs => congrArg _ (runCmd_reply h (hnow hf hs)), fun hf hl hs => congrArg _ (runCmd_reply h (hlate hf hl hs)),
      fun hf hl ha => congrArg _ (runCmd_reply h (hsched hf hl ha))⟩
  · exact congrArg _ (runCmd_reply h rfl)
  · exact congrArg _ (runCmd_reply h (timeScheduleCancelRun_ok u x a ha ht))

end Sys2Proof.Machine
end

section
/-! PROOF. What TIME_GET reports (O58). -/
namespace Sys2Proof.Machine
open Sys2Proof.Safety

/-! ### Bytes and bits -/

@[simp] theorem length_toLe (n v : Nat) : (toLe n v).length = n := by
  induction n generalizing v with
  | zero => rfl
  | succ n ih => rw [toLe, List.length_cons, ih]

@[simp] theorem length_zeros (n : Nat) : (zeros n).length = n := List.length_replicate

theorem mem_bitsSet {m n d : Nat} : d ∈ bitsSet m n ↔ d < n ∧ m.testBit d = true := by
  rw [bitsSet, List.mem_filter, List.mem_range]

theorem bitsSet_pairwise_lt (m n : Nat) : (bitsSet m n).Pairwise (· < ·) := List.pairwise_lt_range.filter _

theorem length_flatMap_const {α β : Type} {f : α → List β} {n : Nat} (h : ∀ a, (f a).length = n) (l : List α) :
    (l.flatMap f).length = n * l.length := by
  simp [List.length_flatMap, h, Nat.mul_comm]

/-! ### Requests that their payload checks refuse -/

/-- A ready request whose payload fails a check of step 8 is answered with that check's error. -/
theorem runCmd_badPayload {c : Cmd} {q : Request} {s u : State} {x : Ctx} {e : Err} (h : arrived c q s = some (x, u))
    (hr : c.notReady x u = none) (he : c.check x u = some e) : runCmd c q s = (c.refused x u e).fail x.dest true e := by
  refine runCmd_refused h ?_
  simp only [refusal, firstErr, List.findSome?_cons, hr, he, id_eq]

theorem firstErr_errIf_cons (c : Bool) (e : Err) (l : List (Option Err)) :
    firstErr (errIf c e :: l) = if c then some e else firstErr l := by
  cases c <;> rfl

/-- TIME_GET takes one byte, a mask other than 0 (R312). -/
theorem timeGet_check (x : Ctx) (u : State) : timeGetCmd.check x u =
    if x.p.length ≠ 1 then some .range else if u8 x.p 0 = 0 then some (.at 0) else none :=
  calc timeGetCmd.check x u
    _ = if x.p.length != 1 then some .range else if !(u8 x.p 0 != 0) then some (.at 0) else none :=
      (firstErr_errIf_cons _ _ _).trans (congrArg _ (firstErr_errIf_cons _ _ _))
    _ = _ := if_congr bne_iff_ne rfl (if_congr (by rw [bne, Bool.not_not, beq_iff_eq]) rfl rfl)

/-- Settles O58: the mask's domains are those of its bits in rising order, each gives 24 bytes, and the two checks of the payload
refuse in their order. -/
theorem timeGetReportsDomains : Obligations.TimeGetReportsDomains := by
  refine ⟨rfl, ?_⟩
  rintro q s u x l rfl
  refine ⟨⟨bitsSet_pairwise_lt _ 8, fun d => mem_bitsSet⟩, fun h => ⟨?_, ?_⟩, fun h hr => ⟨fun hl => ?_, fun hl hm => ?_⟩⟩
  · obtain ⟨-, hc, -⟩ := served_passes h
    rw [timeGet_check] at hc
    by_contra hl
    rw [if_pos hl] at hc
    cases hc
  · rintro p rfl
    exact ⟨length_flatMap_const (fun d => by simp) _, congrArg _ (runCmd_reply h rfl)⟩
  · exact congrArg _ (runCmd_badPayload h hr ((timeGet_check x u).trans (if_pos hl)))
  · exact congrArg _ (runCmd_badPayload h hr ((timeGet_check x u).trans ((if_neg (not_not.2 hl)).trans (if_pos hm))))

end Sys2Proof.Machine
end

section
/-! PROOF. The ledger: anchors, gap records and event inputs (O42). -/
namespace Sys2Proof.Machine

/-! ### Anchors, and rings that resume (R325, R326) -/

section
variable {s u : State} (hu : u = s.fresh)
include hu

/-- A ring with no loss owed anchors each domain that it takes and whose anchor is due: never written, or ANCHOR_MS old. -/
theorem execLedgerAnchor_due {r : Nat} {due : Nat → Bool} (hr : r < 4) (hon : u.ledgerOn r = true) (hup : u.timeUp = true)
    (hlost : (u.ledgerRing r).lost = 0)
    (hold : ∀ d t, assoc (u.ledgerRing r).anchors d = some t →
      due d = decide (t + u.f Reg.ledgerCfg 0 10 * 1000000 * ns16 ≤ u.runNow d))
    (hnew : ∀ d, assoc (u.ledgerRing r).anchors d = none → due d = true) : execLedgerAnchor r s =
      .next (u.forEach ((List.range 8).filter (fun d => u.ledgerDom r d && due d)) (fun d s => s.anchor r d)) := by
  subst hu
  unfold execLedgerAnchor
  extract_lets f g
  have hg : g = due := by
    funext d
    unfold g
    split
    · next t ht => exact (hold d t ht).symm
    · next hn => exact (hnew d hn).symm
  have hc : (f.ledgerOn r && f.timeUp && (f.ledgerRing r).lost == 0) = true := by
    rw [Bool.and_eq_true, Bool.and_eq_true, beq_iff_eq]; exact ⟨⟨hon, hup⟩, hlost⟩
  rw [hg]
  exact (atUnit_lt _ _ hr).trans (congrArg _ (if_pos hc))
end

/-- An enabled ring that lost records and has room for 16 writes its gap record, owes nothing more, and anchors its domains. -/
theorem State.ringResume_resumes {u v : State} {r : Nat} (hon : u.ledgerOn r = true) (hup : u.timeUp = true) (h1 : u.on 1 = true)
    (hlost : (u.ledgerRing r).lost ≠ 0) (hroom : 16 ≤ u.ledgerFree r)
    (hv : v = u.ledgerPut r (min (u.ledgerRing r).lost 0xFFFFFFFF * 2 ^ 32 + 0xFF * 256 + 17) 0) :
    u.ringResume r = (v.setLedger r (fun x => { x with lost := 0, gapNext := true })).anchorAll r := by
  subst hv
  refine if_pos ?_
  rw [hon, hup, h1, bne_iff_ne.2 hlost, decide_eq_true hroom]; rfl

/-! ### The gap record of a port's FIFO (R323) -/

section
variable {u v : State} {p : Nat} {g : FifoGapState} (hg : (u.fifo p).gap = some g) (hh : (u.fifo p).held = [])
  (hv : v = u.setFifo p { u.fifo p with gap := none })
include hg hh hv

theorem State.fifoGap_toEngine (he : g.first.toEngine = true) : u.fifoGap p = v := by
  subst hv
  simp only [State.fifoGap, hg, hh, he, List.isEmpty_nil, Bool.not_true, Bool.false_eq_true, if_false, if_true]

theorem State.fifoGap_noRing (he : g.first.toEngine = false) (hn : v.ringFor g.first.kind g.first.stamp.dom = none) :
    u.fifoGap p = v.count Reg.ledgerNoRing 0 32 1 := by
  subst hv
  simp only [hh] at hn
  simp only [State.fifoGap, hg, hh, he, hn, List.isEmpty_nil, Bool.not_true, Bool.false_eq_true, if_false]

/-- A gap record bound for a ring is written once the ring has resumed, or lost. -/
theorem State.fifoGap_ring {r : Nat} {w : State} (he : g.first.toEngine = false)
    (hr : v.ringFor g.first.kind g.first.stamp.dom = some r) (hw : w = v.ringResume r) : u.fifoGap p =
      if w.ledgerRoom r 1 then w.ledgerPut r (g.count % 2 ^ 32 * 2 ^ 32 + p * 256 + g.first.stamp.dom * 32 + 16)
        (g.first.seq % 65536 * 2 ^ 48 + g.lastSeq % 65536 * 2 ^ 32 + g.first.tag % 2 ^ 32)
      else w.ringLost r 1 := by
  subst hw hv
  simp only [hh] at hr
  simp only [State.fifoGap, hg, hh, he, hr, List.isEmpty_nil, Bool.not_true, Bool.false_eq_true, if_false]
end

/-! ### Event inputs (R408, R409) -/

section
variable {s u v : State} {n : Nat} {l : List (Nat × Nat)} (hu : u = s.fresh) (hn : n < 8) (hup : u.timeUp = true)
  (hen : u.b Reg.ledgerEvinEn n = true) (hv : v = u.setTdc (fun x => { x with evDivs := l }))
include hu hn hup hen hv

/-- An edge that the divider of its input holds back. -/
theorem execEvinEdge_divided (hd : u.divide n u.tdc.evDivs = (false, l)) : execEvinEdge n s = .next v := by
  subst hu hv
  refine (atUnit_lt _ _ hn).trans (congrArg _ ((if_pos (by rw [hup, hen]; rfl)).trans ?_))
  rw [hd]
  exact if_neg Bool.false_ne_true

/-- An edge that is presented is counted, and recorded unless one was within the last 1,250 ticks. -/
theorem execEvinEdge_presented {count d : Nat} {soon : Bool} {w x y : State} {z : Stamp} (hd : u.divide n u.tdc.evDivs = (true, l))
    (hcount : count = (assoc v.tdc.evCount n).getD 0 + 1) (hw : w = v.setTdc (fun x => { x with evCount := assocSet x.evCount n count }))
    (hx : x = if w.armed n then w else w.count (Reg.tdcInCnt n) 32 32 1)
    (hsoon : soon = match assoc x.tdc.evLast n with | some t => decide (x.ticks < t + 1250) | none => false)
    (hy : y = x.setTdc (fun t => { t with evLast := assocSet t.evLast n x.ticks })) (hdom : d = y.f Reg.ledgerCfg 16 3)
    (hz : z = ⟨d, ((y.runNow d : Int) - y.inDelay n).toNat, ((y.now d : Int) - y.inDelay n).toNat, (y.dom d).gen⟩) :
    execEvinEdge n s = .next (if soon then x.count (Reg.tdcInLedgerSkip n) 0 32 1
      else y.record ⟨4, z, y.tdLevel d, n, 0, 0, y.tdcStale, count, false⟩) := by
  subst hz hdom hy hsoon hx hw hcount hv hu
  refine (atUnit_lt _ _ hn).trans (congrArg _ ((if_pos (by rw [hup, hen]; rfl)).trans ?_))
  rw [hd]
  exact if_pos rfl
end

/-- Settles O42: a lemma for each row; a gap record by where its first lost record was bound, an edge by whether its divider presents
it and how long ago the last record was. -/
theorem ledgerFollowsItsRules : Obligations.LedgerFollowsItsRules := by
  intro s u hu
  refine ⟨fun r hr hon hup hlost due hold hnew => execLedgerAnchor_due hu hr hon hup hlost hold hnew,
    fun r hr hon hup h1 hlost hroom v hv => ?_, fun p hp g v hup hg hh hv => ?_,
    fun n hn hup hen fired l v hd hv => ⟨?_, ?_⟩⟩
  · rw [← State.ringResume_resumes hon hup h1 hlost hroom hv, hu]
    exact atUnit_lt _ _ hr
  · have hx : exec (.fifoGap p) s = .next (u.fifoGap p) := by
      subst hu
      exact (atUnit_lt _ _ hp).trans (congrArg _ (if_pos hup))
    refine ⟨fun he => ?_, fun he hn => ?_, fun he r w hr hw => ?_⟩
    · rw [hx, State.fifoGap_toEngine hg hh hv he]
    · rw [hx, State.fifoGap_noRing hg hh hv he hn]
    · rw [State.fifoGap_ring hg hh hv he hr hw] at hx
      exact (next_ite hx).symm
  · rintro rfl
    exact execEvinEdge_divided hu hn hup hen hv hd
  · rintro rfl count w x hcount hw hx
    refine ⟨?_, fun hlong y d z hy hdom hz => ?_⟩
    · rintro ⟨t, ht, hlt⟩
      refine (next_ite (execEvinEdge_presented hu hn hup hen hv hd hcount hw hx rfl rfl rfl rfl)).1 ?_
      rw [ht]
      exact decide_eq_true hlt
    · exact (next_ite (execEvinEdge_presented hu hn hup hen hv hd hcount hw hx rfl hy hdom hz)).2 (not_recent_of_elapsed hlong)

end Sys2Proof.Machine
end

section
/-! PROOF. PTP messages and receipt timeouts (O44). -/
namespace Sys2Proof.Machine
open Sys2Proof.Safety

/-! ### Messages received (R331, R332) -/

section
variable {p : Nat} {frame b : List Byte} {s w : State} {f : PtpFindings} (hp : p < 80) (ht : taken p frame s.fresh = some (b, w))
include hp ht

/-- A frame that no engine-mode instance takes goes the way of every frame. -/
theorem execPtpMessageReceive_other (hn : w.ptpTaken (w.parsed p b) b p = none) :
    execPtpMessageReceive p frame f s = .next (w.good p b frame.length) :=
  (atUnit_lt _ _ hp).trans (congrArg _ ((arrive_taken ht _ _).trans (if_neg (by rw [hn]; decide))))

/-- A message that an instance takes and runs on its engine: beyond the engine's rate it is only counted; within it, it is discarded
where malformed, and else its findings are applied. -/
theorem execPtpMessageReceive_taken {d o : Nat} {room : Bool} {v x y : State} (hw : (w.ptpTaken (w.parsed p b) b p).isSome = true)
    (hv : v = w.mirrorTaken p b frame.length) (hd : v.ptpTaken (v.parsed p b) b p = some d) (hrun : v.instRuns d = true)
    (hh : v.handle (d / 4) = (room, x)) (hy : y = x.count (Reg.ptpPortCnt (ptpPort d p)) 32 32 1) (ho : o = (v.parsed p b).ptpOff) :
    execPtpMessageReceive p frame f s = .next (
      if room then
        if f.malformed then y.ptpDiscard d p
        else (if u8 b o % 16 = 11 then y.announceHeard d p (slice b (o + 20) 10) else y).ptpFindings d p f
      else (x.count (Reg.ptpInstCnt (0x3F0 + d)) 0 16 1).overload (d / 4) 1) := by
  subst ho hy hv
  refine (atUnit_lt _ _ hp).trans (congrArg _ ((arrive_taken ht _ _).trans ((if_pos hw).trans ?_)))
  simp only [hd, hh]
  exact if_pos hrun
end

/-! ### Messages sent, and receipt timeouts (R332, R334, R361) -/

section
variable {s u : State} {d p : Nat} (hu : u = s.fresh) (hd : d < 8) (hrun : u.instRuns d = true)
include hu hd hrun

theorem execPtpMessageSend_sends {dst : Nat} {body : List Byte} {f : PtpFindings} {room : Bool} {x y : State} (hp : p < 80)
    (hon : u.ptpOn d p = true) (hh : u.handle (d / 4) = (room, x))
    (hy : y = (if room then x else x.overload (d / 4) 0).count (Reg.ptpPortCnt (ptpPort d p)) 0 32 1) :
    execPtpMessageSend d p dst body f s = .next ((y.ptpFindings d p f).ptpSend d p (y.ptpFrame d p dst body)) := by
  subst hy hu
  unfold execPtpMessageSend
  rw [if_pos hd]
  refine (atUnit_lt _ _ hp).trans (congrArg _ ((if_pos (by rw [hrun, hon]; rfl)).trans ?_))
  rw [hh]

/-- Neither an accepted result nor a timeout before lies within the timeout: the instance's reference fails. -/
theorem execSyncReceiptTimeout_late {v : State} (hp : p < 80) (hslave : p = u.slavePort d)
    (hlast : ∀ t, (u.inst d).last = some t → t + u.syncTimeout d p < u.ticks)
    (hout : ∀ t, (u.inst d).timedOut = some t → t + u.syncTimeout d p < u.ticks)
    (hv : v = u.setInst d (fun x => { x with timedOut := some u.ticks })) :
    execSyncReceiptTimeout d s = .next ((v.count (Reg.ptpPortErr (ptpPort d p)) 32 16 1).refDown (24 + d)) := by
  subst hv hslave hu
  unfold execSyncReceiptTimeout
  extract_lets f p late
  have hlate {o : Option Nat} (h : ∀ t, o = some t → t + f.syncTimeout d p < f.ticks) : late o = true :=
    match o with
    | none => rfl
    | some t => decide_eq_true (h t rfl)
  refine (atUnit_lt _ _ hd).trans (congrArg _ (if_pos ?_))
  rw [hlate hlast, hlate hout, decide_eq_true hp, Bool.and_true, Bool.and_true, Bool.and_true]
  exact hrun

/-- No Announce within the timeout of an enabled port: its foreign masters go, and what the BMCA then finds is applied. -/
theorem execAnnounceReceiptTimeout_late {f : PtpFindings} {v : State} (hon : u.ptpOn d p = true)
    (hlast : ∀ t, assoc u.ptp.announced (ptpPort d p) = some t → t + u.announceTimeout d p ≤ u.ticks)
    (hv : v = { u with ptp := { u.ptp with
      announced := assocSet u.ptp.announced (ptpPort d p) u.ticks, foreign := assocDel u.ptp.foreign (ptpPort d p) } }) :
    execAnnounceReceiptTimeout d p f s = .next ((v.count (Reg.ptpPortErr (ptpPort d p)) 48 16 1).ptpFindings d p f) := by
  subst hv hu
  unfold execAnnounceReceiptTimeout
  extract_lets g late
  have hlate : late = true := by
    unfold late
    split
    · next t ht => exact decide_eq_true (hlast t ht)
    · rfl
  refine (atUnit_lt _ _ hd).trans (congrArg _ (if_pos ?_))
  rw [hlate, Bool.and_true, Bool.and_eq_true]
  exact ⟨hrun, hon⟩
end

/-- Settles O44: a frame by whether an instance takes it, a message taken by the engine's rate and its kind; a lemma for each other row. -/
theorem ptpPortsAct : Obligations.PtpPortsAct := by
  intro s u hu
  refine ⟨fun p hp frame b w f ht => ?_, fun d hd p hp dst body f room x y hrun hon hh hy z hz => ?_,
    fun d hd p hp hslave hrun hlast hout v hv => execSyncReceiptTimeout_late hu hd hrun hp hslave hlast hout hv,
    fun d hd p f hrun hon hlast v hv => execAnnounceReceiptTimeout_late hu hd hrun hon hlast hv⟩
  · subst hu
    refine ⟨execPtpMessageReceive_other hp ht, fun hw v d hv hd hrun room x hh => ?_⟩
    have hx {y o} (hy) (ho) := next_ite (execPtpMessageReceive_taken (f := f) (y := y) (o := o) hp ht hw hv hd hrun hh hy ho)
    refine ⟨fun hr => (hx rfl rfl).2 hr, fun hr hm => ((hx rfl rfl).1 hr).trans (congrArg _ (if_pos hm)), fun hr hm y o hy ho => ?_⟩
    have hfound := ((hx hy ho).1 hr).trans (congrArg _ (if_neg (ne_true_of_eq_false hm)))
    exact ⟨fun h11 => hfound.trans (by rw [if_pos h11]), fun h11 => hfound.trans (by rw [if_neg h11])⟩
  · subst hz
    exact execPtpMessageSend_sends hu hd hrun hp hon hh hy

end Sys2Proof.Machine
end

section
/-! PROOF. OUT_FORCE and its release, pin by pin (O18). -/
namespace Sys2Proof.Machine
open Sys2Proof.Safety

/-! ### One pin (R469) -/

/-- A pin forced or freed: its force bit, and its level bit, which is 0 when it is freed. -/
theorem b_forcePin (force : Bool) (levels : Nat) {n m : Nat} (s : State) (hn : n < 32) (hm : m < 32) :
    (forcePin force levels n s).b Reg.gpioForce m = (if m = n then force else s.b Reg.gpioForce m) ∧
    (forcePin force levels n s).b Reg.gpioForce (32 + m) =
      if m = n then force && levels.testBit n else s.b Reg.gpioForce (32 + m) := by
  have hbit (c : Bool) : (bit c % 2 == 1) = c := by cases c <;> rfl
  unfold forcePin
  by_cases h : m = n
  · subst h
    rw [if_pos rfl, if_pos rfl, State.b_setf_apart _ _ (by omega) (by omega), State.b_setf_self _ _ (by omega),
      State.b_setf_self _ _ (by omega), hbit, hbit]
    exact ⟨rfl, rfl⟩
  · rw [if_neg h, if_neg h, State.b_setf_apart _ _ (by omega) (by omega), State.b_setf_apart _ _ (by omega) (by omega),
      State.b_setf_apart _ _ (by omega) (by omega), State.b_setf_apart _ _ (by omega) (by omega)]
    exact ⟨rfl, rfl⟩

theorem get_forcePin_ne (force : Bool) (levels n : Nat) (s : State) {k : Nat} (h : k ≠ Reg.gpioForce) :
    (forcePin force levels n s).get k = s.get k :=
  (State.get_setf_ne _ _ _ _ h).trans (State.get_setf_ne _ _ _ _ h)

/-! ### The pins of a mask -/

/-- Every pin of a list forced or freed. -/
def forcePins (force : Bool) (levels : Nat) (l : List Nat) (s : State) : State := s.forEach l (forcePin force levels)

theorem b_forcePins (force : Bool) (levels : Nat) {l : List Nat} {m : Nat} (s : State) (hl : ∀ n ∈ l, n < 32) (hm : m < 32) :
    (forcePins force levels l s).b Reg.gpioForce m = (if m ∈ l then force else s.b Reg.gpioForce m) ∧
    (forcePins force levels l s).b Reg.gpioForce (32 + m) =
      if m ∈ l then force && levels.testBit m else s.b Reg.gpioForce (32 + m) := by
  induction l generalizing s with
  | nil => exact ⟨rfl, rfl⟩
  | cons n l ih =>
    obtain ⟨hforce, hlevel⟩ := ih (forcePin force levels n s) (fun k hk => hl k (List.mem_cons_of_mem _ hk))
    obtain ⟨hforce1, hlevel1⟩ := b_forcePin force levels s (hl n List.mem_cons_self) hm
    rw [hforce1] at hforce
    rw [hlevel1] at hlevel
    refine ⟨hforce.trans ?_, hlevel.trans ?_⟩ <;> by_cases h : m = n <;> simp [h]

/-- Of a mask: the pins of its bits, and no other. -/
theorem b_forcePins_mask (force : Bool) (levels mask : Nat) {m : Nat} (s : State) (hm : m < 32) :
    (forcePins force levels (bitsSet mask 32) s).b Reg.gpioForce m = (if mask.testBit m then force else s.b Reg.gpioForce m) ∧
    (forcePins force levels (bitsSet mask 32) s).b Reg.gpioForce (32 + m) =
      if mask.testBit m then force && levels.testBit m else s.b Reg.gpioForce (32 + m) := by
  simpa only [mem_bitsSet, hm, true_and] using b_forcePins force levels s (fun n hn => (mem_bitsSet.1 hn).1) hm

/-- No other word changes, and nothing but words. -/
theorem forcePins_frame (force : Bool) (levels : Nat) (l : List Nat) (s : State) :
    (∀ k, k ≠ Reg.gpioForce → (forcePins force levels l s).get k = s.get k) ∧
    { forcePins force levels l s with words := s.words } = s :=
  ⟨fun k hk => State.forEach_keeps (fun t => t.get k = s.get k) _ l
      (fun n _ t ht => (get_forcePin_ne force levels n t hk).trans ht) s rfl,
    State.forEach_keeps (fun t => { t with words := s.words } = s) (forcePin force levels) l (fun _ _ _ ht => ht) s rfl⟩

/-- Settles O18: by induction on the pins of the mask, for both operations at once. -/
theorem outForceSetsPins : Obligations.OutForceSetsPins := by
  intro q s u x
  refine ⟨fun h => ⟨forcePins true (u32 x.p 4) (bitsSet (u32 x.p 0) 32) u, congrArg _ (runCmd_reply h rfl),
      fun n hn => (b_forcePins_mask _ _ _ u hn).1.trans ?_, fun n hn => (b_forcePins_mask _ _ _ u hn).2, forcePins_frame _ _ _ _⟩,
    fun h => ⟨forcePins false 0 (bitsSet (u32 x.p 0) 32) u, congrArg _ (runCmd_reply h rfl),
      fun n hn => (b_forcePins_mask _ _ _ u hn).1.trans ?_, fun n hn => (b_forcePins_mask _ _ _ u hn).2.trans ?_,
      forcePins_frame _ _ _ _⟩⟩
  all_goals cases (u32 x.p 0).testBit n <;> rfl

end Sys2Proof.Machine
end

section
/-! PROOF. The front of the queue (O1). -/
namespace Sys2Proof.Machine

/-- Settles O1: the step of a queue that is not empty is its front command's, by definition. -/
theorem stepRunsFrontCommand : Obligations.StepRunsFrontCommand := fun _ _ _ => rfl

end Sys2Proof.Machine
end

section
/-! PROOF. Phase detectors and link measurement (O45). -/
namespace Sys2Proof.Machine

/-! ### Readings (R346 to R348) -/

/-- A reading of a detector whose clocks run is published; one that departs from an earlier fit by more than GLITCH_PS is a glitch. -/
theorem execDdmtdReading_up {s u v : State} {d : Detector} {phase rate : Int} (departure : Int) (hu : u = s.fresh)
    (hup : u.detectorUp d = true) (hv : v = u.publish d phase rate) :
    execDdmtdReading d phase rate departure s = .next (
      if u.readings d != 0 && decide (u.f Reg.timeDdmtdCfg 16 16 * 65536 < departure.natAbs * 1000) then v.glitch d departure
      else v.setReadings d (min (u.readings d + 1) 65535)) := by
  subst hv hu
  exact congrArg _ (if_pos hup)

/-! ### Measurement (R353, R354) -/

/-- A MEASURING link that meets R353 completes: a link that was VALID before and whose delay has moved by more than DELAY_TOL_PS is
marked, and SUSPECT unless AUTO_ACCEPT is set; every other link is VALID. -/
theorem execLinkMeasurementComplete_done {s u v w : State} {p delay diff : Nat} {o : Option Nat} (hu : u = s.fresh) (hp : p < 80)
    (ho : o = u.linkDelay p) (h1 : u.linkState p = 1) (hset : u.linkSettled p = true) (hrx : u.staleRx p = false)
    (htx : u.staleTx p = false)
    (havg : ∀ i, u.engineInstance p = some i → min 255 (2 ^ u.f (Reg.ptpServoCfg (0x3F0 + i)) 36 4) ≤ u.f (Reg.pcsLinkState p) 16 8)
    (hnone : o = none → delay = 0 ∧ diff = 0)
    (hsome : ∀ d, o = some d → delay = d ∧ diff = (signed 64 d - signed 64 (u.get (Reg.pcsLinkLast p))).natAbs)
    (hv : v = u.setf (Reg.pcsLinkState p) 14 1 1)
    (hw : w = { v with link := { v.link with suspect := assocSet v.link.suspect p delay } }) :
    execLinkMeasurementComplete p s = .next (
      if u.link.valid.contains p && decide (u.f (Reg.pcsLinkCfg p) 0 32 * 65536 < diff * 1000) then
        if v.b (Reg.pcsLinkCfg p) 32 then v.linkValid p 5 o else w.linkSet p 2 5 delay
      else u.linkValid p 5 o) := by
  subst hw hv ho hu
  unfold execLinkMeasurementComplete
  extract_lets +onlyGivenNames u done
  have hdone : done = true := by
    unfold done
    split
    · next i hi => exact decide_eq_true (havg i hi)
    · rfl
  refine (atUnit_lt _ _ hp).trans (congrArg _ ((if_pos ?_).trans ?_))
  · rw [hdone, hset, hrx, htx, h1]; rfl
  · cases hd : u.linkDelay p with
    | none => obtain ⟨rfl, rfl⟩ := hnone hd; rfl
    | some d => obtain ⟨rfl, rfl⟩ := hsome d hd; rfl

/-- Settles O45: a reading by whether it is a glitch, a completed measurement by whether the delay has changed. -/
theorem phaseDetectorsAndLinksAct : Obligations.PhaseDetectorsAndLinksAct := by
  intro s u hu
  refine ⟨fun d phase rate departure hup v hv => ?_,
    fun p hp delay diff o ho h1 hset hrx htx havg hnone hsome => ⟨fun hc => ?_, fun hmem hgt v w hv hw => ?_⟩⟩
  · have hx := next_ite (o := exec (.ddmtdReading d phase rate departure) s) (execDdmtdReading_up departure hu hup hv)
    refine ⟨fun hc => hx.2 ?_, fun hn hgt => hx.1 ?_⟩
    · rw [Bool.and_eq_false_iff, bne_eq_false_iff_eq, decide_eq_false_iff_not, Nat.not_lt]
      exact hc
    · rw [bne_iff_ne.2 hn, decide_eq_true hgt]; rfl
  · refine (next_ite (o := exec (.linkMeasurementComplete p) s)
      (execLinkMeasurementComplete_done hu hp ho h1 hset hrx htx havg hnone hsome rfl rfl)).2 ?_
    rw [Bool.and_eq_false_iff, ← Bool.not_eq_true, List.contains_iff_mem, decide_eq_false_iff_not, Nat.not_lt]
    exact hc
  · refine next_ite ((next_ite (o := exec (.linkMeasurementComplete p) s)
      (execLinkMeasurementComplete_done hu hp ho h1 hset hrx htx havg hnone hsome hv hw)).1 ?_)
    rw [List.contains_iff_mem.2 hmem, decide_eq_true hgt]; rfl

end Sys2Proof.Machine
end

section
/-! PROOF. Reference and output commands (O13). -/
namespace Sys2Proof.Machine
open Sys2Proof.Safety

/-! ### Bytes -/

theorem leNat_lt (l : List Byte) : leNat l < 256 ^ l.length := by
  induction l with
  | nil => decide
  | cons b bs ih =>
    have hb : b.toNat < 256 := b.isLt
    rw [leNat, List.length_cons, Nat.pow_succ]
    omega

theorem u8_lt (p : List Byte) (i : Nat) : u8 p i < 256 :=
  lt_of_lt_of_le (leNat_lt _) (Nat.pow_le_pow_right (by decide) (List.length_take_le 1 _))

/-! ### REF_FORCE (R372) -/

/-- What a force does to its selector, by whether its reference is qualified and what the selector is doing. -/
theorem State.followForce_cases (w : State) (sel r : Nat) :
    (w.refQualified r = true → w.selState sel = 1 → w.selected sel ≠ r → w.followForce sel r = w.startSwitch sel r) ∧
    (w.refQualified r = true → w.selState sel = 0 → (w.sel sel).holdUntil ≤ w.ticks → w.followForce sel r = w.startSwitch sel r) ∧
    (w.refQualified r = false → w.selState sel = 2 → w.followForce sel r = w.abandon sel) ∧
    (w.refQualified r = false → w.selState sel = 1 → w.followForce sel r = w.deselect sel) ∧
    (w.refQualified r = true → w.selState sel = 1 → w.selected sel = r → w.followForce sel r = w) := by
  unfold State.followForce
  refine ⟨fun hq h1 hne => ?_, fun hq h0 hh => ?_, fun hq h2 => ?_, fun hq h1 => ?_, fun hq h1 he => ?_⟩
  · simp [hq, h1, hne]
  · simp [hq, h0, hh]
  · simp [hq, h2]
  · simp [hq, h1]
  · simp [hq, h1, he]

/-- The force of a selector released reads none. -/
theorem State.forcedRef_release (u : State) (sel : Nat) :
    (u.setf (Reg.refselSelStatus (0x100 + sel)) 40 8 0xFF).forcedRef sel = 0xFF :=
  State.f_setf_self u 0xFF (by decide)

/-- Settles O13: REF_FORCE by its reference and its selector, OUT_REALIGN by when it executes; the others have one reply each. -/
theorem referenceAndOutputCommandsAct : Obligations.ReferenceAndOutputCommandsAct := by
  intro q s u x
  refine ⟨?_, ?_, ?_, ?_, ?_⟩
  · rintro h sel r w v rfl rfl rfl rfl
    exact ⟨congrArg _ (runCmd_reply h rfl), u.recordForce_forced _ _ (u8_lt _ _), State.followForce_cases _ _ _⟩
  · rintro h v rfl
    exact ⟨congrArg _ (runCmd_reply h rfl), u.forcedRef_release _⟩
  · rintro h l rfl
    exact congrArg _ (runCmd_reply h rfl)
  · rintro h v rfl
    exact congrArg _ (runCmd_reply h rfl)
  · rintro h d t rfl rfl
    obtain ⟨hnow, hlate, hsched⟩ := outRealignRun_cases u x
    exact ⟨fun hf => congrArg _ (runCmd_reply h (hnow hf)), fun hf hl => congrArg _ (runCmd_reply h (hlate hf hl)),
      fun hf hl ha => congrArg _ (runCmd_reply h (hsched hf hl ha))⟩

end Sys2Proof.Machine
end

section
/-! PROOF. References judged, marks cleared and switches ended (O46). -/
namespace Sys2Proof.Machine

section
variable {s u : State} (hu : u = s.fresh)
include hu

/-! ### Judgement (R361, R362, R366) -/

/-- An evaluation whose millisecond has come: monitors, forced ends, loops, every reference down and up, then what follows. -/
theorem execRefEvaluate_due {edges : Nat} {freqs : List (Nat × Int)} {loops : List LoopReading} {a b c d : State}
    (hs : u.selects = true) (hr : u.rested 18 1250000 = true)
    (ha : a = { u.mark 18 with ref := { (u.mark 18).ref with edges := edges } })
    (hb : b = (State.forEach a (freqs.filter (fun (x : Nat × Int) => decide (x.1 < 32))) (fun x s =>
      s.setf (Reg.refselRefStatus x.1) 0 32 (unsigned 32 x.2))).forEach (List.range 10) (fun i s => s.takeBack i))
    (hc : c = State.forEach b (loops.filter (fun x => decide (x.dpll < 10))) (fun x s => s.loopReading x.dpll x.freq x.phase))
    (hd : d = (State.forEach c (List.range 32) (fun r s => s.refDown r)).forEach (List.range 32) (fun r s => s.refUp r)) :
    execRefEvaluate edges freqs loops s = .next (State.applyChanges d).showRefs.esmcEvents := by
  subst hd hc hb ha hu
  exact congrArg _ (if_pos (by rw [hs, hr]; rfl))

/-- A failure judges its reference; of a REFIN that has lost its edges, without them. -/
theorem execRefFailure_judges {r : Nat} (lost : Bool) {v : State} (hr : r < 32) (ht : u.timeUp = true)
    (hv : v = { u with ref := { u.ref with edges := setBits u.ref.edges r 1 0 } }) :
    execRefFailure r lost s = .next (if lost && decide (r < 8) then v.refDown r else u.refDown r) := by
  subst hv hu
  exact (atUnit_lt _ _ hr).trans (congrArg _ ((if_pos ht).trans (apply_ite (fun w : State => w.refDown r) _ _ _)))

theorem execRefMonitorPass_monitored {r : Nat} (hr : r < 32) (hs : u.selects = true) (h2 : u.refState r = 2) :
    execRefMonitorPass r s = .next (u.refUp r) := by
  subst hu
  exact (atUnit_lt _ _ hr).trans (congrArg _ (if_pos (by rw [hs, h2]; rfl)))

theorem execWtrExpiry_waiting {r : Nat} (hr : r < 32) (hs : u.selects = true) (h3 : u.refState r = 3) :
    execWtrExpiry r s = .next (u.refUp r) := by
  subst hu
  exact (atUnit_lt _ _ hr).trans (congrArg _ (if_pos (by rw [hs, h3]; rfl)))

/-! ### Marks and switches (R367, R368, R371) -/

/-- A mark is removed once its references have agreed for DISAGREE_CLEAR_S, or where it no longer holds. -/
theorem execDisagreeClear_clears {sel r : Nat} {since : Option Nat} (hsel : sel < 10) (hs : u.selects = true)
    (hm : (u.sel sel).marks.find? (fun m => m.1 == r) = some (r, since))
    (hc : (∃ t, since = some t ∧ t + u.f (Reg.refselSelCfg (0x100 + sel)) 16 16 * 1250000000 ≤ u.ticks) ∨
      u.markHolds sel r = false) :
    execDisagreeClear sel r s = .next (u.unmark sel r) := by
  subst hu
  refine (atUnit_lt _ _ hsel).trans (congrArg _ ?_)
  simp only [hm]
  refine if_pos ?_
  rw [hs, Bool.true_and, Bool.or_eq_true, Bool.not_eq_true']
  refine hc.imp_left ?_
  rintro ⟨t, rfl, ht⟩
  exact decide_eq_true ht

/-- A switch measured for its time, to a target that is still qualified, closes the loop on the target. -/
theorem execSwitchMeasurementEnd_over {sel r : Nat} {phi : Int} {v w : State} (hsel : sel < 10) (hs : u.selects = true)
    (h2 : u.selState sel = 2) (ht : (u.sel sel).since + u.f (Reg.dpllSwitchCfg sel) 48 16 * 1250000 ≤ u.ticks)
    (hq : u.refQualified (u.target sel) = true) (hr : r = u.target sel)
    (hv : v = (u.setSelStatus sel r 0xFF 1).count (Reg.refselSelCnt (0x100 + sel)) 32 32 1)
    (hw : w = (v.close sel r phi).refSwitch sel (u.selected sel) r 1 (v.corrected r phi)) :
    execSwitchMeasurementEnd sel phi s = .next (w.react sel w.ref.view) := by
  subst hw hv hr hu
  exact (atUnit_lt _ _ hsel).trans (congrArg _ (if_pos (by rw [hs, h2, decide_eq_true ht, hq]; rfl)))
end

/-- Settles O46: a lemma for each row, where its condition holds; a failure by whether it is of a REFIN that lost its edges. -/
theorem referencesAreSelected : Obligations.ReferencesAreSelected := by
  intro s u hu
  refine ⟨fun hs hr edges freqs loops a b c d ha hb hc hd => execRefEvaluate_due hu hs hr ha hb hc hd, fun r hr ht v hv => ?_,
    fun r hr hs => ⟨execRefMonitorPass_monitored hu hr hs, execWtrExpiry_waiting hu hr hs⟩,
    fun sel hsel r since hs hm hc => execDisagreeClear_clears hu hsel hs hm hc,
    fun sel hsel phi hs h2 ht hq r v w hr hv hw => execSwitchMeasurementEnd_over hu hsel hs h2 ht hq hr hv hw⟩
  have hx (lost : Bool) := next_ite (o := exec (.refFailure r lost) s) (execRefFailure_judges hu lost hr ht hv)
  exact ⟨fun h8 => (hx true).1 (decide_eq_true h8), fun h8 => (hx true).2 (decide_eq_false (Nat.not_lt.2 h8)), (hx false).2 rfl⟩

end Sys2Proof.Machine
end

section
/-! PROOF. ESMC messages sent, taken and timed out (O48). -/
namespace Sys2Proof.Machine
open Sys2Proof.Safety

/-- An information PDU is due a second after the last, on a ready port with ESMC_TX set. -/
theorem execEsmcInfoSend_due {s u v w : State} {p : Nat} (hu : u = s.fresh) (hp : p < 80) (hs : u.selects = true)
    (htx : u.b (Reg.refselPortCfg (0x200 + p)) 61 = true) (hr : u.portReady p = true)
    (hd : ∀ t, assoc u.ref.esmcSent p = some t → t + 1250000000 ≤ u.ticks)
    (hv : v = { u with ref := { u.ref with esmcSent := assocSet u.ref.esmcSent p u.ticks } })
    (hw : w = v.setf (Reg.refselPortStatus (0x200 + p)) 4 4 (v.qlSent p)) :
    execEsmcInfoSend p s = .next (w.deviceSend p 7 (v.esmcFrame false (v.qlSent p))) := by
  subst hw hv hu
  unfold execEsmcInfoSend
  extract_lets u due
  have hdue : due = true := due_of_elapsed hd
  exact (atUnit_lt _ _ hp).trans (congrArg _ (if_pos (by rw [hs, State.esmcTx, htx, hr, hdue]; rfl)))

section
variable {p : Nat} {frame d : List Byte} {s w : State} (hp : p < 80) (ht : taken p frame s.fresh = some (d, w))
include hp ht

theorem execEsmcReceive_other (hn : esmcValid d = false) : execEsmcReceive p frame s = .next (w.good p d frame.length) :=
  (atUnit_lt _ _ hp).trans (congrArg _ ((arrive_taken ht _ _).trans (if_neg (ne_true_of_eq_false hn))))

/-- A valid PDU gives its port the level it carries and renews the port's timeout, while E4 serves and ESMC_RX is set. -/
theorem execEsmcReceive_valid {v y : State} (hd : esmcValid d = true) (hv : v = w.mirrorTaken p d frame.length)
    (hy : y = { v with ref := { v.ref with heard := assocSet v.ref.heard p v.ticks } }) : execEsmcReceive p frame s =
      .next (if v.selects && v.b (Reg.refselPortCfg (0x200 + p)) 60 then State.setQl y p (u8 d 27 % 16) 0 else v) := by
  subst hy hv
  exact (atUnit_lt _ _ hp).trans (congrArg _ ((arrive_taken ht _ _).trans (if_pos hd)))
end

/-- Five seconds without a PDU make the level 0xF, which is always reported. -/
theorem execEsmcTimeout_over {s u v : State} {p t : Nat} (hu : u = s.fresh) (hp : p < 80) (hh : assoc u.ref.heard p = some t)
    (hs : u.selects = true) (hd : t + 6250000000 ≤ u.ticks)
    (hv : v = { u with ref := { u.ref with heard := assocDel u.ref.heard p } }) :
    execEsmcTimeout p s = .next ((v.setf (Reg.refselPortStatus (0x200 + p)) 0 4 0xF).raise 0xA05
      (toLe 1 p ++ toLe 1 0xF ++ toLe 1 (v.f (Reg.refselPortStatus (0x200 + p)) 0 4) ++ toLe 1 1)) := by
  subst hv hu
  refine (atUnit_lt _ _ hp).trans (congrArg _ ?_)
  simp only [hh]
  exact (if_pos (by rw [hs, decide_eq_true hd]; rfl)).trans (if_neg (by simp))

/-- Settles O48: a lemma for each row; a frame by whether it is a valid PDU, and a valid one by whether the port takes levels. -/
theorem esmcKeepsLevels : Obligations.EsmcKeepsLevels := by
  intro s u hu
  refine ⟨fun p hp hs htx hr hd v w hv hw => execEsmcInfoSend_due hu hp hs htx hr hd hv hw, fun p hp frame d w ht => ?_,
    fun p hp t hh hs hd v hv => execEsmcTimeout_over hu hp hh hs hd hv⟩
  subst hu
  refine ⟨execEsmcReceive_other hp ht, fun hd v hv => ⟨fun hs hrx y hy => ?_, fun hoff => ?_⟩⟩
  · refine (next_ite (execEsmcReceive_valid hp ht hd hv hy)).1 ?_
    rw [hs, hrx]; rfl
  · exact (next_ite (execEsmcReceive_valid hp ht hd hv rfl)).2 (Bool.and_eq_false_iff.2 hoff)

end Sys2Proof.Machine
end

section
/-! PROOF. Outputs driven and realigned, and time-of-day messages (O49). -/
namespace Sys2Proof.Machine

section
variable {s u : State} {i : Nat} (hu : u = s.fresh) (hup : u.timeUp = true)
include hu hup

/-! ### Drive (R386) -/

/-- An output to be driven is driven once its start, if it has one, has come. -/
theorem execOutputDriveChange_starts (hi : i < 18) (hs : u.islandUp 20 = true) (h1 : u.outDesired i = 1) (hn : u.outState i ≠ 1)
    (hd : ∀ t, (u.outp i).startAt = some t → t ≤ u.runNow (u.outSource i)) : execOutputDriveChange i s =
      .next ((((u.setOutState i 1).setOutp i (fun x => { x with startAt := none })).keepLine i false).emit (.drive i true)) := by
  subst hu
  unfold execOutputDriveChange
  extract_lets +onlyGivenNames u
  refine (atUnit_lt _ _ hi).trans (congrArg _ ((if_neg (by rw [hup, hs]; decide)).trans ?_))
  extract_lets +onlyGivenNames want early
  have hearly : early = false := not_recent_of_elapsed (n := 0) hd
  exact (if_pos h1).trans (if_pos (by rw [bne_iff_ne.2 hn, hearly]; rfl))

/-- A driven output that is not to be driven takes the state wanted. -/
theorem execOutputDriveChange_stops (hi : i < 18) (hs : u.islandUp 20 = true) (hn : u.outDesired i ≠ 1) (h1 : u.outState i = 1) :
    execOutputDriveChange i s =
      .next (((u.setOutState i (u.outDesired i)).keepLine i false).emit (.drive i false)) := by
  subst hu
  exact (atUnit_lt _ _ hi).trans (congrArg _ ((if_neg (by rw [hup, hs]; decide)).trans ((if_neg hn).trans (if_pos h1))))

/-! ### Realignment (R387, R388) -/

/-- A slew with nothing left to move completes. -/
theorem execOutRealigned_slewed (hi : i < 18) (hs : (u.outp i).slew = some 0) : execOutRealigned i s =
    .next (((u.setf (Reg.outStatus i) 58 1 0).setOutp i (fun x => { x with slew := none })).realigned i 1) := by
  subst hu
  refine (atUnit_lt _ _ hi).trans (congrArg _ ((if_neg (by rw [hup]; decide)).trans ?_))
  simp only [hs]

/-- A step completes when its lengthened interval ends. -/
theorem execOutRealigned_stepped {t : Nat} (hi : i < 18) (hs : (u.outp i).slew = none) (hd : (u.outp i).doneAt = some t)
    (ht : t ≤ u.runNow (u.outSource i % 8)) :
    execOutRealigned i s = .next ((u.setOutp i (fun x => { x with doneAt := none })).realigned i 0) := by
  subst hu
  refine (atUnit_lt _ _ hi).trans (congrArg _ ((if_neg (by rw [hup]; decide)).trans ?_))
  simp only [hs, hd]
  exact if_pos ht

/-! ### Time of day (R390) -/

/-- The message of the next pulse starts, once the pulse comes within the lead and no message describes it yet: binary, or a ZDA
sentence where the UTC offset is known, which is else counted as suppressed. -/
theorem execTodMessageStart_due {n j d pulse sec : Nat} {body : List Byte} {v : State} (hn : n < 2) (hi : i = 16 + n)
    (hj : j = u.linkedPps i) (hd : d = u.outSource j) (hp : pulse = gridAt 1 (u.outp j).phase (u.outTime j + 1))
    (hsec : sec = pulse / sec16)
    (hs : u.islandUp 20 = true) (hdi : u.outState i = 1) (hdj : u.outState j = 1) (hg : u.outGrid j = true) (h1 : u.outFreq j = 1)
    (hl : pulse - u.outTime j ≤ bits (u.outp i).pulse 16 16 * 1000000 * ns16) (hne : (u.outp i).described ≠ some pulse)
    (hv : v = (u.setOutp j (fun x => { x with described := some pulse, first := false })).setOutp i
      (fun x => { x with described := some pulse }))
    (hb : body = toLe 1 16 ++ [1] ++ toLe 1 (u.tdLevel d + (u.todUtc i d).2 * 4 + bit (u.outp j).first * 32) ++ toLe 6 sec ++
      toLe 2 (unsigned 16 (u.todUtc i d).1) ++ toLe 1 d ++ toLe 1 (u.clockClass d) ++ zeros 2) :
    execTodMessageStart n s = .next (
      if bits (u.outp i).pulse 56 8 = 0 then v.emit (.tod n ([0x7E] ++ body ++ toLe 2 (crc16 body)))
      else if (u.todUtc i d).2 / 4 % 2 = 1 then
        v.emit (.tod n (zda (bits (u.outp i).pulse 32 16) (((sec : Int) - (u.todUtc i d).1).toNat)))
      else v.count (Reg.outStatus i) 0 32 1) := by
  subst hb hv hsec hp hd hj hi hu
  refine (atUnit_lt _ _ hn).trans (congrArg _ (if_pos ?_))
  rw [hup, hs, hdi, hdj, hg, h1, decide_eq_true hl, bne_iff_ne.2 hne]; rfl
end

/-- Settles O49: a lemma for each row and way, and a time-of-day message by its format and whether the UTC offset is known. -/
theorem outputsFollowTheirSources : Obligations.OutputsFollowTheirSources := by
  intro s u hu hup
  refine ⟨fun i hi hs => ⟨fun h1 hn hd => execOutputDriveChange_starts hu hup hi hs h1 hn hd,
      execOutputDriveChange_stops hu hup hi hs⟩,
    fun i hi => ⟨execOutRealigned_slewed hu hup hi, fun hs t => execOutRealigned_stepped hu hup hi hs⟩,
    fun n hn i j pulse d sec v hi hj hd hp hsec hs hdi hdj hg h1 hl hne hv => ?_⟩
  have hx {body} (hb) : exec (.todMessageStart n) s = _ :=
    execTodMessageStart_due (body := body) hu hup hn hi hj hd hp hsec hs hdi hdj hg h1 hl hne hv hb
  exact ⟨fun h0 body hb => (hx hb).trans (congrArg _ (if_pos h0)),
    fun h0 hutc => (hx rfl).trans (congrArg _ ((if_neg h0).trans (if_pos hutc))),
    fun h0 hutc => (hx rfl).trans (congrArg _ ((if_neg h0).trans (if_neg hutc)))⟩

end Sys2Proof.Machine
end

section
/-! PROOF. Calibration and edge measurement commands (O16). -/
namespace Sys2Proof.Machine
open Sys2Proof.Safety

/-- The checks of an abort leave only a PENDING or RUNNING measurement (R416). -/
theorem tdcAbort_passes {x : Ctx} {u : State} (h : tdcAbortCmd.check x u = none) : u.tdcPhase = 1 ∨ u.tdcPhase = 2 := by
  have hphase := firstErr_none h (errIf (!(u.tdcPhase == 1 || u.tdcPhase == 2)) (.at 0)) (by simp)
  simpa [errIf, or_iff_not_imp_left] using hphase

/-- An abort ends the measurement with cause 3; its reply names the measurement and its start, which ending it leaves alone. -/
theorem tdcAbortRun_ends {u : State} (x : Ctx) (h : u.tdcPhase = 1 ∨ u.tdcPhase = 2) :
    tdcAbortRun x u = .ok (toLe 4 u.tdc.number ++ timeBytes u.tdc.began) (u.endTdc 3) := by
  have hstop : u.stopTdc 3 = u.endTdc 3 := if_pos (by simpa using h)
  have htdc : (u.endTdc 3).tdc = u.tdc := by simp [State.endTdc]
  simp only [tdcAbortRun, hstop, htdc]

/-- Settles O16: TDC_ARM by when it executes, an abort from what its checks leave; the others have one reply each. -/
theorem calibrationAndTdcCommandsAct : Obligations.CalibrationAndTdcCommandsAct := by
  intro q s u x
  refine ⟨?_, ?_, ?_, fun h => ?_, ?_⟩
  · intro h hlen items due v hi hd hv
    exact congrArg _ (runCmd_reply h (calRunRun_ok u x hlen items due v hi hd hv))
  · rintro h l n rfl rfl
    exact congrArg _ (runCmd_reply h rfl)
  · rintro h h1 h2 d t v w rfl rfl rfl rfl
    obtain ⟨hnow, hlate, hsched⟩ := tdcArmRun_cases u x h1 h2
    exact ⟨fun hf => congrArg _ (runCmd_reply h (hnow hf)), fun hf hl => congrArg _ (runCmd_reply h (hlate hf hl)),
      fun hf hl ha => congrArg _ (runCmd_reply h (hsched hf hl ha _ rfl))⟩
  · obtain ⟨-, hc, -⟩ := served_passes h
    exact congrArg _ (runCmd_reply h (tdcAbortRun_ends x (tdcAbort_passes hc)))
  · rintro h r stats rfl rfl
    exact congrArg _ (runCmd_reply h rfl)

end Sys2Proof.Machine
end

section
/-! PROOF. Calibration items due, their steps and deadlines (O50). -/
namespace Sys2Proof.Machine

/-! ### Sensors and deadlines (R393, R394) -/

/-- Whether an item is current and its valid sensor has moved by more than TRIGGER since the item last completed. -/
def State.sensorMoved (s : State) (k : Nat) : Bool :=
  bits (s.get (Reg.thermValue (itemSensor k))) 16 1 == 1 && s.itemState k == 1 && decide (s.f Reg.calCfg 8 13 <
    (signed 16 (s.get (Reg.thermValue (itemSensor k))) - signed 16 (s.f (itemPlace k).1 (itemTempLo k) 16)).natAbs)

section
variable {s u : State} (hu : u = s.fresh)
include hu

/-- A sample whose 10 ms have come makes due each item whose sensor has moved. -/
theorem execSensorSample_due {v : State} (hc : u.calRuns = true) (hr : u.rested 17 12500000 = true) (hv : v = u.mark 17) :
    execSensorSample s = .next (v.forEach (v.calItems.filter v.sensorMoved) (fun k s => s.makeDue k)) := by
  subst hv hu
  exact congrArg _ (if_pos (by rw [hc, hr]; rfl))

theorem execCalDeadline_passed {cls i k t : Nat} (hk : k = itemOf cls i) (hup : u.timeUp = true) (hi : k ∈ u.calItems)
    (h2 : u.itemState k = 2) (hd : assoc u.cal.deadlines k = some t) (ht : t ≤ u.ticks) :
    execCalDeadline cls i s = .next ((u.setItem k 3).settleRuns k true) := by
  subst hk hu
  unfold execCalDeadline
  extract_lets u k passed
  have hpassed : passed = true := by
    unfold passed
    simp only [show assoc u.cal.deadlines k = some t from hd]
    exact decide_eq_true ht
  exact congrArg _ (if_pos (by rw [hup, List.contains_iff_mem.2 hi, h2, hpassed]; rfl))

/-! ### Steps started in a gap (R396) -/

theorem execCalStepStart_entry {p run : Nat} (hp : p < 80) (hm : u.mayStep p true = true) (hidle : u.txIdle p = true)
    (ho : u.calEntryOffers p = true) (hsome : ∀ x, u.entryInForce p = some x → run = u.runNow x.1.dom)
    (hnone : u.entryInForce p = none → run = 0) : execCalStepStart (.entry p) s =
      .next ((u.startStep p true false).setSide p (fun x => { x with gapEntry := some run })) := by
  subst hu
  refine (atUnit_lt _ _ hp).trans (congrArg _ ((if_pos (by rw [hm, hidle, ho]; rfl)).trans ?_))
  cases he : s.fresh.entryInForce p with
  | none => rw [hnone he]
  | some x => rw [hsome x he]

theorem execCalStepStart_txIdle {p : Nat} (hp : p < 80) (hm : u.mayStep p true = true) (hg : u.txGap p = true) :
    execCalStepStart (.txIdle p) s = .next ((u.startStep p true false).setSide p (fun x => { x with gapTx := some u.ticks })) := by
  subst hu
  exact (atUnit_lt _ _ hp).trans (congrArg _ (if_pos (by rw [hm, hg]; rfl)))

theorem execCalStepStart_rxIdle {p : Nat} (hp : p < 80) (hm : u.mayStep p false = true) (hg : u.rxGap p = true) :
    execCalStepStart (.rxIdle p) s = .next ((u.startStep p false false).setSide p (fun x => { x with gapRx := some u.ticks })) := by
  subst hu
  exact (atUnit_lt _ _ hp).trans (congrArg _ (if_pos (by rw [hm, hg]; rfl)))

theorem execCalStepStart_sleep {p : Nat} {tx : Bool} (hp : p < 80) (hm : u.mayStep p tx = true) (hg : u.sleepGap p tx = true) :
    execCalStepStart (.sleep p tx) s = .next (u.startStep p tx false) := by
  subst hu
  exact (atUnit_lt _ _ hp).trans (congrArg _ (if_pos (by rw [hm, hg]; rfl)))

theorem execCalStepStart_channel {cls i k : Nat} (hk : k = itemOf cls i) (hcls : 2 ≤ cls) (hb : k ∈ backgroundItems)
    (hc : u.calRuns = true) (hw : u.wants k = true) (hn : k ∉ u.cal.background) : execCalStepStart (.channel cls i) s =
      .next { u with cal := { u.cal with background := u.cal.background ++ [k], began := assocSet u.cal.began (1024 + k) u.ticks } } := by
  subst hk hu
  refine (atUnit_lt _ _ (Nat.zero_lt_succ 79)).trans (congrArg _ (if_pos ?_))
  rw [decide_eq_true hcls, List.contains_iff_mem.2 hb, hc, hw, Bool.eq_false_iff.2 (mt List.contains_iff_mem.1 hn)]; rfl

/-! ### Steps completed (R397, R399) -/

/-- The step of a direction, over, ends: one in a normal gap is abandoned for a frame that may start, every other corrects the items. -/
theorem execCalStepComplete_lane {p k : Nat} {tx : Bool} (values : List (Int × Int)) {v : State} (hp : p < 80) (hk : k = 2 * p + bit tx)
    (hup : u.timeUp = true) (hover : u.stepOver k = true) (hrun : (u.calStep k).isSome = true)
    (hv : v = (u.calDrop k).count (Reg.calPortSteps p) (if tx then 32 else 0) 32 1) :
    execCalStepComplete (.lane p tx) values s = .next (
      if tx && u.calStep k == some false && u.mayStart p then u.calYield p
      else v.forEach ((v.laneItems p tx).zip (values ++ List.replicate 4 (0, 0))) (fun x s => s.itemStep x.1 x.2 [])) := by
  subst hv hk hu
  refine (atUnit_lt _ _ hp).trans (congrArg _ (if_congr Iff.rfl rfl (if_pos ?_)))
  rw [hrun, hup, hover]; rfl

theorem execCalStepComplete_item {cls i k : Nat} (values : List (Int × Int)) {v : State} (hk : k = itemOf cls i)
    (hb : k ∈ u.cal.background) (hup : u.timeUp = true) (hover : u.stepOver (1024 + k) = true)
    (hv : v = { u with cal := { u.cal with background := u.cal.background.filter (· != k) } }) :
    execCalStepComplete (.item cls i) values s = .next (State.itemStep v k (values.headD (0, 0)) values) := by
  subst hv hk hu
  refine congrArg _ (if_pos ?_)
  rw [List.contains_iff_mem.2 hb, hup, hover]; rfl

/-! ### Forced windows (R401) -/

/-- An idle port with forcing on, an item of which is stale or near its deadline, is given a forced step, which is counted. -/
theorem execForcedWindow_forces {p : Nat} {v : State} (hp : p < 80) (hm : u.mayStep p true = true) (hf : u.b (Reg.calPortCfg p) 16 = true)
    (hidle : (u.side p).sending = none)
    (hnear : ∃ k ∈ u.laneItems p true, staleState (u.itemState k) = true ∨ (u.itemState k = 2 ∧
      ∃ t, assoc u.cal.deadlines k = some t ∧ t ≤ u.ticks + u.f Reg.calForceCfg 32 16 * 1250000))
    (hr : ∀ t, assoc u.cal.forced p = some t → t + u.f Reg.calForceCfg 0 32 * 1250 ≤ u.ticks)
    (hv : v = (u.startStep p true true).count (Reg.calPortCnt p) 16 16 1) :
    execForcedWindow p s = .next { v with cal := { v.cal with forced := assocSet v.cal.forced p v.ticks } } := by
  subst hv hu
  unfold execForcedWindow
  extract_lets +onlyGivenNames u
  refine (atUnit_lt _ _ hp).trans (congrArg _ ?_)
  extract_lets +onlyGivenNames lead near rested
  have hrested : rested = true := due_of_elapsed hr
  have hany : (u.laneItems p true).any near = true := by
    obtain ⟨k, hk, hc⟩ := hnear
    refine List.any_eq_true.2 ⟨k, hk, Bool.or_eq_true_iff.2 (hc.imp_right ?_)⟩
    rintro ⟨h2, t, hd, ht⟩
    simp only [show u.itemState k = 2 from h2, show assoc u.cal.deadlines k = some t from hd]
    exact decide_eq_true ht
  refine if_pos ?_
  rw [hm, hf, hidle, hany, hrested]; rfl
end

/-- Settles O50: a lemma for each row and kind of gap; a step that is over by whether it is abandoned for a frame. -/
theorem calibrationStepsAct : Obligations.CalibrationStepsAct := by
  intro s u hu
  refine ⟨fun hc hr v hv => execSensorSample_due hu hc hr hv,
    fun p hp => ⟨fun run => execCalStepStart_entry hu hp, execCalStepStart_txIdle hu hp, execCalStepStart_rxIdle hu hp,
      fun tx => execCalStepStart_sleep hu hp, fun tx values k hk hup hover hrun => ?_,
      fun hm hf hidle hnear hr v hv => execForcedWindow_forces hu hp hm hf hidle hnear hr hv⟩,
    fun cls i k hk => ⟨execCalStepStart_channel hu hk,
      fun values hb hup hover v hv => execCalStepComplete_item hu values hk hb hup hover hv,
      fun t hup hi h2 => execCalDeadline_passed hu hk hup hi h2⟩⟩
  have hx {v} (hv) := next_ite (o := exec (.calStepComplete (.lane p tx) values) s)
    (execCalStepComplete_lane (v := v) hu values hp hk hup hover hrun hv)
  refine ⟨fun hc v hv => (hx hv).2 ?_, fun htx hn hm => (hx rfl).1 ?_⟩
  · rw [Bool.and_eq_false_iff, Bool.and_eq_false_iff, beq_eq_false_iff_ne, or_assoc]
    exact hc
  · rw [htx, hn, hm]; rfl

end Sys2Proof.Machine
end

section
/-! PROOF. Edges measured, intervals paired, and a measurement that times out (O43). -/
namespace Sys2Proof.Machine

section
variable {s u : State} (hu : u = s.fresh) (hup : u.timeUp = true)
include hu hup

/-! ### Edges (R408, R410, R411) -/

section
variable {i fine : Nat} {l : List (Nat × Nat)} {v : State} (hi : i < 30) (ha : u.armed i = true) (hlive : u.inputLive i = true)
  (hv : v = u.setTdc (fun x => { x with divs := l }))
include hi ha hlive hv

/-- An edge that the divider of its input holds back. -/
theorem execTdcEdge_divided (hd : u.divide i u.tdc.divs = (false, l)) : execTdcEdge i fine s = .next v := by
  subst hv hu
  refine (atUnit_lt _ _ hi).trans (congrArg _ ((if_pos (by rw [hup, ha, hlive]; rfl)).trans ?_))
  rw [hd]
  exact if_neg Bool.false_ne_true

/-- An edge that is presented counts; of a measurement that runs from before it, it is captured by the delay line whose turn it is, or
missed where that line is still busy. -/
theorem execTdcEdge_presented {w : State} {z : Int} {run t : Nat} (hd : u.divide i u.tdc.divs = (true, l))
    (hw : w = v.count (Reg.tdcInCnt i) 32 32 1) (hz : z = ((fine % 512 * 128 : Nat) : Int) - w.inDelay i)
    (hrun : run = ((w.runNow w.tdc.dom / 128 * 128 : Nat) + z).toNat) (ht : t = ((w.now w.tdc.dom / 128 * 128 : Nat) + z).toNat) :
    execTdcEdge i fine s = .next (
      if w.tdcPhase = 2 ∧ w.tdc.start ≤ run then
        if w.tdc.lines.getD w.tdc.next 0 ≤ w.ticks then
          (w.setTdc (fun x => { x with lines := modifyAt x.lines x.next (fun _ => w.ticks + 20), next := 1 - x.next })).captured i run t
        else ((w.count (Reg.tdcInCnt i) 0 32 1).setTdc (fun x => { x with missed := x.missed + 1 })).setf Reg.tdcState 9 1 1
      else w) := by
  subst ht hrun hz hw hv hu
  refine (atUnit_lt _ _ hi).trans (congrArg _ ((if_pos (by rw [hup, ha, hlive]; rfl)).trans ?_))
  rw [hd]
  refine (if_pos rfl).trans (if_congr ?_ rfl rfl)
  rw [Bool.and_eq_true, decide_eq_true_eq, decide_eq_true_eq]
end

/-! ### Intervals and timeouts (R413, R416) -/

/-- The oldest edge of B, a grid period old, gives the sample of the edge of A that pairs with it, or is unpaired. -/
theorem execTdcIntervalSample_over {b : Nat × Nat} {rest : List (Nat × Nat)} (hb : u.tdc.edgesB = b :: rest) (h2 : u.tdcPhase = 2)
    (h1 : u.tdc.mode = 1) (hover : b.1 + u.tdc.grid ≤ u.runNow u.tdc.dom) : execTdcIntervalSample s = .next (
      match u.tdc.partner b.1 with
      | some a =>
        ((u.setTdc (fun x => { x with edgesB := rest, edgesA := x.edgesA.filter (· != a) })).dropOldA).sample ((b.1 : Int) - a.1) b.2
      | none => (u.setTdc (fun x => { x with edgesB := rest, unpaired := x.unpaired + 1 })).dropOldA) := by
  subst hu
  unfold execTdcIntervalSample
  extract_lets +onlyGivenNames u
  refine congrArg _ ?_
  simp only [show u.tdc.edgesB = b :: rest from hb]
  refine (if_pos ?_).trans rfl
  rw [hup, h2, h1, decide_eq_true hover]; rfl

theorem execTdcTimeout_over (h2 : u.tdcPhase = 2) (hover : u.tdc.lastTick + u.tdc.timeout * 1250000000 ≤ u.ticks) :
    execTdcTimeout s = .next (u.endTdc 2) := by
  subst hu
  exact congrArg _ (if_pos (by rw [hup, h2, decide_eq_true hover]; rfl))
end

/-- Settles O43: an edge by whether its divider presents it, and a presented one by the measurement and its delay line; an interval by
whether its edge of B has a partner. -/
theorem tdcMeasures : Obligations.TdcMeasures := by
  intro s u hu hup
  refine ⟨fun i hi fine fired l v w ha hlive hd hv hw => ⟨?_, ?_⟩, fun b rest hb h2 h1 hover => ?_, execTdcTimeout_over hu hup⟩
  · rintro rfl
    exact execTdcEdge_divided hu hup hi ha hlive hv hd
  · rintro rfl z run t hz hrun ht
    have hx : exec (.tdcEdge i fine) s = _ := execTdcEdge_presented hu hup hi ha hlive hv hd hw hz hrun ht
    refine ⟨fun hout => hx.trans (congrArg _ (if_neg ?_)), fun h2 hs hfree => hx.trans (congrArg _ ?_),
      fun h2 hs hbusy => hx.trans (congrArg _ ?_)⟩
    · rw [not_and_or, Nat.not_le]
      exact hout
    · exact (if_pos ⟨h2, hs⟩).trans (if_pos hfree)
    · exact (if_pos ⟨h2, hs⟩).trans (if_neg (Nat.not_le.2 hbusy))
  · have hx : exec .tdcIntervalSample s = _ := execTdcIntervalSample_over hu hup hb h2 h1 hover
    exact ⟨fun a ha => hx.trans (by rw [ha]), fun hn => hx.trans (by rw [hn])⟩

end Sys2Proof.Machine
end

section
/-! PROOF. The partner watched: bellflowers, silent paths and takeovers (O51). -/
namespace Sys2Proof.Machine
open Sys2Proof.Safety

section
variable {s u : State} (hu : u = s.fresh) (hpair : u.pairMode = true)
include hu hpair

/-! ### Bellflowers (R424 to R426) -/

theorem execBellflowerSend_due (hm : u.mode ≠ 3) (hd : ∀ t, u.pair.sentAt = some t → t + u.f Reg.pairCfg 32 16 * 1250 ≤ u.ticks) :
    execBellflowerSend s = .next (u.setPair (fun x => { x with sentAt := some u.ticks })).sendBellflower := by
  subst hu
  unfold execBellflowerSend
  extract_lets u due
  have hdue : due = true := due_of_elapsed hd
  exact congrArg _ (if_pos (by rw [hpair, bne_iff_ne.2 hm, hdue]; rfl))

/-- What arrives on path A is heard by its length and its CRC. -/
theorem execBellflowerReceive_pathA (bytes : List Byte) : execBellflowerReceive 0 bytes s =
    .next (u.hear 0 (bytes.length == 52 && bytes.drop 48 == toLe 4 (crc32c (bytes.take 48))) (bytes.take 48)) := by
  subst hu
  exact (atUnit_lt _ _ Nat.zero_lt_two).trans (congrArg _ (if_neg (by rw [hpair]; decide)))

/-- What arrives on path B while the path is on is a frame of its port, by its FCS. -/
theorem execBellflowerReceive_pathB {bytes : List Byte} {p : Nat} (hport : p = u.f Reg.pairCfg 8 8) (hp : p < 80)
    (hon : u.pathState 1 ≠ 0) :
    execBellflowerReceive 1 bytes s = .next (
      if crc32 (bytes.take (bytes.length - 4)) = leNat (bytes.drop (bytes.length - 4)) then
        u.arrive p bytes (fun d s => s.isBellflower p d) (fun d s => s.hear 1 true (d.drop (probeOff d)))
      else (u.arrive p bytes (fun _ _ => true) (fun _ s => s)).count Reg.pairRxErr 16 16 1) := by
  subst hport hu
  refine (atUnit_lt _ _ Nat.one_lt_two).trans (congrArg _ ((if_neg (by rw [hpair]; decide)).trans ?_))
  refine (if_neg Nat.one_ne_zero).trans ((if_pos ?_).trans (if_congr beq_iff_eq rfl rfl))
  rw [decide_eq_true hp, bne_iff_ne.2 hon]; rfl

/-! ### Silence (R426, R428) -/

/-- A path that no bellflower keeps alive is SILENT and reported, and counted while the partner is heard active. -/
theorem execPathSilent_silent {path : Nat} {v : State} (hpath : path < 2) (h2 : u.pathState path = 2) (hl : u.pathLive path = false)
    (hv : v = (u.setf Reg.pairState (20 + 2 * path) 2 1).raise 0xD01 (toLe 1 path ++ [0])) : execPathSilent path s = .next (
      if v.partnerActive then (v.count Reg.pairCnt (if path = 0 then 16 else 0) 16 1).wtrCheck.checkBlocked
      else v.wtrCheck.checkBlocked) := by
  subst hv hu
  refine (atUnit_lt _ _ hpath).trans (congrArg _ ((if_pos (by rw [hpair, h2, hl]; rfl)).trans ?_))
  exact apply_ite (fun w : State => w.wtrCheck.checkBlocked) _ _ _

/-! ### Takeovers (R421, R427) -/

/-- INIT that has lasted its time ends in a takeover, or in STANDBY where the unit may not take over. -/
theorem execPairInitTimeout_over (h0 : u.role = 0) (hs : u.pair.settle = none)
    (ht : u.pair.initSince + u.f Reg.pairTimers 32 16 * (if u.preferred then 1 else 2) * 1250000 ≤ u.ticks) : execPairInitTimeout s =
      .next (if u.mayTake then u.beginTake u.bothSilent 0 0 else (u.takeRole 1 0).checkBlocked) := by
  subst hu
  exact congrArg _ (if_pos (by rw [hpair, h0, decide_eq_true ht, hs]; rfl))
end

theorem execTakeover_standby {s u : State} (hu : u = s.fresh) (h1 : u.role = 1) :
    execTakeover s = .next (if u.mayTake then u.beginTake u.bothSilent 1 2 else u.checkBlocked) := by
  subst hu
  exact congrArg _ (if_pos h1)

/-- A takeover in silence drives the fence first, and waits for it to settle. -/
theorem State.beginTake_silent {u : State} (silent other : Nat) (h : u.bothSilent = true) :
    u.beginTake u.bothSilent silent other = (u.fenceOut true).setPair (fun x => { x with settle := some (u.ticks, silent) }) := if_pos h

theorem State.beginTake_heard {u : State} (silent other : Nat) (h : u.bothSilent = false) :
    u.beginTake u.bothSilent silent other = u.takeOver other := if_neg (ne_true_of_eq_false h)

/-- Settles O51: a lemma for each row; path B by the frame's FCS and kind, a takeover by whether the unit may and whether both paths are
silent. -/
theorem pairWatchesItsPartner : Obligations.PairWatchesItsPartner := by
  intro s u hu hpair
  refine ⟨execBellflowerSend_due hu hpair, execBellflowerReceive_pathA hu hpair,
    fun bytes p hport hp hon => ⟨fun hfcs d w ht => ?_, fun hfcs => ?_⟩,
    fun path hpath h2 hl v hv => next_ite (o := exec (.pathSilent path) s) (execPathSilent_silent hu hpair hpath h2 hl hv),
    fun h0 hs ht => ?_, fun h1 => ?_⟩
  · have hx : exec (.bellflowerReceive 1 bytes) s = _ := (execBellflowerReceive_pathB hu hpair hport hp hon).trans
      (congrArg _ ((if_pos hfcs).trans (arrive_taken ht _ _)))
    exact next_ite hx
  · exact (execBellflowerReceive_pathB hu hpair hport hp hon).trans (congrArg _ (if_neg hfcs))
  · obtain ⟨htake, hnot⟩ := next_ite (o := exec .pairInitTimeout s) (execPairInitTimeout_over hu hpair h0 hs ht)
    exact ⟨fun hm hb => (htake hm).trans (congrArg _ (State.beginTake_silent 0 0 hb)),
      fun hm hb => (htake hm).trans (congrArg _ (State.beginTake_heard 0 0 hb)), hnot⟩
  · obtain ⟨htake, hnot⟩ := next_ite (o := exec .takeover s) (execTakeover_standby hu h1)
    exact ⟨fun hm hb => (htake hm).trans (congrArg _ (State.beginTake_silent 1 2 hb)),
      fun hm hb => (htake hm).trans (congrArg _ (State.beginTake_heard 1 2 hb)), hnot⟩

end Sys2Proof.Machine
end

section
/-! PROOF. The fence and the pair's timers (O52). -/
namespace Sys2Proof.Machine

section
variable {s u : State} (hu : u = s.fresh)
include hu

/-! ### The fence (R427, R429) -/

theorem execFenceSettle_settled {t cause : Nat} (hs : u.pair.settle = some (t, cause)) (hpair : u.pairMode = true)
    (ht : t + u.f Reg.pairTimers 16 16 * 1250 ≤ u.ticks) : execFenceSettle s = .next (u.takeOver cause) := by
  subst hu
  simp only [execFenceSettle, hs]
  exact congrArg _ (if_pos (by rw [hpair, decide_eq_true ht]; rfl))

/-- A fall in PAIR mode fences the unit and releases every driver of the pair. -/
theorem execFenceInFall_eq {v w : State} (hv : v = u.setPair (fun x => { x with fenceLow := true }))
    (hw : w = (v.setf Reg.pairState 25 1 1).takeRole 3 5) : execFenceInFall s = .next (
      if v.pairMode then
        (w.forEach ((List.range 18).filter (fun i => w.f (Reg.outCfg i) 60 2 == 3 && w.outState i == 1)) (fun i s =>
          ((s.setOutState i 0).keepLine i (s.outLevel i)).emit (.drive i false))).checkBlocked
      else v) := by
  subst hw hv hu
  rfl

/-- A rise in PAIR mode makes a FENCED unit STANDBY. -/
theorem execFenceInRise_eq {v w : State} (hv : v = u.setPair (fun x => { x with fenceLow := false }))
    (hw : w = v.setf Reg.pairState 25 1 0) :
    execFenceInRise s = .next (if v.pairMode then (if w.role = 3 then w.takeRole 1 5 else w) else v) := by
  subst hw hv hu
  rfl

/-! ### Requests and the wait to restore (R432) -/

/-- A request to take that has had no answer for three periods is given up, and reported with reason 2. -/
theorem execTakeReqTimeout_over {t : Nat} {v : State} (hr : u.pair.takeReq = some t) (ht : t + u.threePeriods ≤ u.ticks)
    (hv : v = u.setPair (fun x => { x with takeReq := none })) :
    execTakeReqTimeout s = .next (v.raise 0xD02 (toLe 1 2 ++ zeros 3 ++ toLe 4 (v.f Reg.healthReport 32 32))) := by
  subst hv hu
  simp only [execTakeReqTimeout, hr]
  exact congrArg _ (if_pos ht)

/-- The wait to restore, over with no request standing, sends one and starts again. -/
theorem execPairWtrExpiry_over {t : Nat} {v : State} (hv : v = u.wtrCheck) (hw : v.pair.wtrSince = some t)
    (ht : t + v.f Reg.pairCfg 16 16 * 1250000000 ≤ v.ticks) (hr : v.pair.takeReq = none) :
    execPairWtrExpiry s = .next (v.setPair (fun x => { x with takeReq := some v.ticks, wtrSince := some v.ticks })) := by
  subst hv hu
  simp only [execPairWtrExpiry, hw]
  exact congrArg _ (if_pos (by rw [decide_eq_true ht, hr]; rfl))
end

/-- Settles O52: a lemma for each row; a change of the fence's level by the mode, and a rise by the role. -/
theorem fenceAndPairTimersAct : Obligations.FenceAndPairTimersAct := by
  intro s u hu
  refine ⟨fun t cause => execFenceSettle_settled hu, fun v w hv hw => next_ite (o := exec .fenceInFall s) (execFenceInFall_eq hu hv hw),
    fun v w hv hw => ?_, fun t hr ht v => execTakeReqTimeout_over hu hr ht, fun t v => execPairWtrExpiry_over hu⟩
  obtain ⟨hpair, halone⟩ := next_ite (o := exec .fenceInRise s) (execFenceInRise_eq hu hv hw)
  exact ⟨fun hm h3 => (hpair hm).trans (congrArg _ (if_pos h3)), fun hm h3 => (hpair hm).trans (congrArg _ (if_neg h3)), halone⟩

end Sys2Proof.Machine
end

section
/-! PROOF. Health reports and self-tests (O53). -/
namespace Sys2Proof.Machine

/-! ### Loops compared (R435) -/

/-- Some locked loop is far from another that is locked on the same reference. -/
theorem any_locked_far (v : State) : (((List.range 10).filter (fun i => v.level i == 2)).any (fun i =>
      ((List.range 10).filter (fun i => v.level i == 2)).any (fun j => i != j && v.selected i == v.selected j &&
        decide (v.f Reg.healthCfg 24 8 * 2 ^ 40 < (v.dpllFreq i - v.dpllFreq j).natAbs * 1000000000)))) = true ↔
    ∃ i < 10, ∃ j < 10, v.level i = 2 ∧ v.level j = 2 ∧ i ≠ j ∧ v.selected i = v.selected j ∧
      v.f Reg.healthCfg 24 8 * 2 ^ 40 < (v.dpllFreq i - v.dpllFreq j).natAbs * 1000000000 := by
  simp only [List.any_eq_true, List.mem_filter, List.mem_range, Bool.and_eq_true, beq_iff_eq, bne_iff_ne, decide_eq_true_eq]
  constructor
  · rintro ⟨i, ⟨hi, hli⟩, j, ⟨hj, hlj⟩, ⟨hne, hsel⟩, hfar⟩
    exact ⟨i, hi, j, hj, hli, hlj, hne, hsel, hfar⟩
  · rintro ⟨i, hi, j, hj, hli, hlj, hne, hsel, hfar⟩
    exact ⟨i, ⟨hi, hli⟩, j, ⟨hj, hlj⟩, ⟨hne, hsel⟩, hfar⟩

section
variable {s u : State} (hu : u = s.fresh)
include hu

/-! ### The report (R433, R434) -/

/-- A report, a period after the last: the counts of the audits since then, the last results of evening primrose, and the verdict,
bad where a finding that counts is set. -/
theorem execHealthReport_due {b v w : State} (h6 : u.serves 6 = true)
    (hd : ∀ t, u.health.reported = some t → t + u.f Reg.healthCfg 0 10 * 1250000 ≤ u.ticks)
    (hb : b = u.set Reg.healthAudit (u.health.leaks % 65536 * 2 ^ 32 + u.health.crosslinks % 65536 * 2 ^ 16 + u.health.countErrors % 65536))
    (hv : v = { b with health := { b.health with reported := some b.ticks, leaks := 0, crosslinks := 0, countErrors := 0 } })
    (hw : w = ((State.set v Reg.healthProofSummary (State.get v Reg.proofSummary)).set (Reg.healthProofLast 0)
      ((State.set v Reg.healthProofSummary (State.get v Reg.proofSummary)).get (Reg.proofSummary + 1))).set (Reg.healthProofLast 1)
      ((State.set v Reg.healthProofSummary (State.get v Reg.proofSummary)).get (Reg.proofSummary + 2))) :
    execHealthReport s =
      .next (w.setVerdict (bit (w.findings &&& (w.f Reg.healthCfg 32 32 ||| 8) != 0)) w.findings).wtrCheck.checkBlocked := by
  subst hw hv hb hu
  unfold execHealthReport
  extract_lets +onlyGivenNames u due
  have hdue : due = true := due_of_elapsed hd
  exact congrArg _ (if_pos (by rw [h6, hdue]; rfl))

/-! ### Self-tests (R435) -/

theorem execScrubPass_due (bad : Bool) {v : State} (ht : u.selfTest 0 = true) (hr : u.rested 21 12500000000 = true) (hv : v = u.mark 21) :
    execScrubPass bad s = .next (State.tested { v with health := { v.health with memory := v.health.memory || bad } } (!bad)) := by
  subst hv hu
  exact congrArg _ (if_pos (by rw [ht, hr]; rfl))

/-- A cell test, with the cells that it needs, holds the failing cells not in use off the lists. -/
theorem execCellTest_runs {failing bad : List Nat} {v : State} (ht : u.selfTest 1 = true) (hp : 1600 ≤ u.cellsPresent)
    (hf : 16 ≤ u.cellsFree)
    (hb : bad = (failing.filter (fun c => decide (c < u.cellsPresent) && !u.offLists.contains c)).eraseDups.take 16)
    (hv : v = { u with buf := { u.buf with testHeld := u.buf.testHeld ++ bad } }) : execCellTest failing s =
      .next (State.tested { v with health := { v.health with memory := v.health.memory || !bad.isEmpty } } bad.isEmpty) := by
  subst hv hb hu
  exact congrArg _ (if_pos (by rw [ht, decide_eq_true hp, decide_eq_true hf]; rfl))

/-- A cross-check, a second after the last, marks the finding where loops locked on one reference are far apart. -/
theorem execCrossCheck_due {v : State} {bad : Bool} (ht : u.selfTest 3 = true) (hup : u.timeUp = true)
    (hr : u.rested 19 1250000000 = true) (hv : v = u.mark 19)
    (hb : bad = true ↔ ∃ i < 10, ∃ j < 10, v.level i = 2 ∧ v.level j = 2 ∧ i ≠ j ∧ v.selected i = v.selected j ∧
      v.f Reg.healthCfg 24 8 * 2 ^ 40 < (v.dpllFreq i - v.dpllFreq j).natAbs * 1000000000) :
    execCrossCheck s = .next ((if bad then v.mark 2 else v).tested (!bad)) := by
  rw [Bool.eq_iff_iff.2 (hb.trans (any_locked_far v).symm)]
  subst hv hu
  exact congrArg _ (if_pos (by rw [ht, hup, hr]; rfl))

theorem execFenceLoopTest_due {readback bad : Bool} {v : State} (ht : u.selfTest 4 = true) (hr : u.rested 20 1250000000 = true)
    (hv : v = u.mark 20) (hb : bad = (readback != v.b Reg.pairState 24)) :
    execFenceLoopTest readback s = .next (State.tested { v with health := { v.health with fenceLoop := bad } } (!bad)) := by
  subst hb hv hu
  exact congrArg _ (if_pos (by rw [ht, hr]; rfl))
end

/-- Settles O53: a lemma for each row, where it is enabled and due. -/
theorem healthTestsAct : Obligations.HealthTestsAct := by
  intro s u hu
  refine ⟨?_, fun bad ht hr v => execScrubPass_due hu bad ht hr, fun failing bad v => execCellTest_runs hu,
    fun ht hup hr v bad => execCrossCheck_due hu ht hup hr, fun readback bad ht hr v => execFenceLoopTest_due hu ht hr⟩
  rintro h6 hd a b v w rfl hb hv hw
  exact execHealthReport_due hu h6 hd hb hv hw

end Sys2Proof.Machine
end

section
/-! PROOF. PAIR_STATUS (O55). -/
namespace Sys2Proof.Machine
open Sys2Proof.Safety

/-- PAIR_STATUS takes no payload (R438). -/
theorem pairStatus_check (x : Ctx) (u : State) : pairStatusCmd.check x u = if x.p.length ≠ 0 then some .range else none :=
  if_congr bne_iff_ne rfl rfl

/-- A request that a check of its payload refuses is refused, if not by readiness before. -/
theorem refusal_of_check {c : Cmd} {x : Ctx} {u : State} {e : Err} (h : c.check x u = some e) : (refusal c x u).isSome = true := by
  rw [Option.isSome_iff_ne_none]
  intro hn
  have hc : c.check x u = none := firstErr_none hn _ (by simp)
  rw [h] at hc
  cases hc

/-- Settles O55: the reply is four words of eight bytes, and the one check of the payload is its length. -/
theorem pairStatusReportsFourWords : Obligations.PairStatusReportsFourWords := by
  intro q s u x
  refine ⟨?_, fun _ hl => refusal_of_check ((pairStatus_check x u).trans (if_pos hl))⟩
  rintro h p rfl
  exact ⟨by simp, congrArg _ (runCmd_reply h rfl)⟩

end Sys2Proof.Machine
end

section
/-! PROOF. Performance overflows, sensor conversions and two-wire transfers (O54). -/
namespace Sys2Proof.Machine

section
variable {s u : State} (hu : u = s.fresh)
include hu

/-- The wrap of a counter is captured with its context, and signals vector 7; with a sample not yet taken it is counted as lost. -/
theorem execPerfOverflow_wrapped {n address after ctx : Nat} {w : Nat × Nat} {v : State} (hn : n < 64)
    (hw : u.perf.wrapped.find? (fun x => x.1 == n) = some w)
    (hv : v = { u with perf := { u.perf with wrapped := u.perf.wrapped.erase w } })
    (hctx : ctx = if 0x40 ≤ v.f (Reg.perfSel n) 40 8 then 2 ^ 63 + 2 ^ 62 + v.f (Reg.perfSel n) 48 4 * 2 ^ 48 + address % 2 ^ 48
      else 2 ^ 63 + (w.2 + min after 16) % 2 ^ 48) : execPerfOverflow n address after s = .next (
      if v.b (Reg.perfStatus n) 0 then v.count (Reg.perfStatus n) 16 16 1
      else ((v.set (Reg.perfSample n) ctx).setf (Reg.perfStatus n) 0 1 1).signal 7 (v.modUs 7)) := by
  subst hctx hv hu
  refine (atUnit_lt _ _ hn).trans (congrArg _ ?_)
  simp only [hw]

theorem execThermConversion_due (values : List (Option Int)) (hr : u.rested 16 1250000 = true) :
    execThermConversion values s = .next ((u.mark 16).forEach ((List.range 12).zip values) (fun x s => s.convert x.1 x.2)) := by
  subst hu
  exact congrArg _ (if_pos hr)

section
variable {k : Nat} (hk : k < 4) (hb : u.i2cBusy k = true)
include hk hb

/-- A transfer ends by whether it was acknowledged; a read that was leaves its byte. -/
theorem execI2cDone_busy (ack : Bool) (value : Nat) : execI2cDone k ack value s = .next
    ((if ack && u.boot.i2cReads.contains k then u.setf (Reg.i2cStatus (0x100 + k)) 0 8 value else u).i2cEnd k (if ack then 0 else 1)) := by
  subst hu
  exact (atUnit_lt _ _ hk).trans (congrArg _ (if_pos hb))

theorem execI2cBusStuck_busy : execI2cBusStuck k s = .next (u.i2cEnd k 2) := by
  subst hu
  exact (atUnit_lt _ _ hk).trans (congrArg _ (if_pos hb))
end
end

/-- Settles O54: an overflow by whether a sample stands and by its event, a transfer by its acknowledgement and its kind. -/
theorem countersSensorsAndBusesAct : Obligations.CountersSensorsAndBusesAct := by
  intro s u hu
  refine ⟨fun n hn address after w v hw hv => ?_, fun values hr => execThermConversion_due hu values hr, fun k hk hb => ?_⟩
  · have hx {ctx} (hctx) := next_ite (o := exec (.perfOverflow n address after) s) (execPerfOverflow_wrapped (ctx := ctx) hu hn hw hv hctx)
    refine ⟨(hx rfl).1, fun h0 ctx hengine hother => (hx ?_).2 h0⟩
    split
    · next hcode => exact hengine hcode
    · next hcode => exact hother (Nat.not_le.1 hcode)
  · have hx (ack : Bool) (value : Nat) : exec (.i2cDone k ack value) s = _ := execI2cDone_busy hu hk hb ack value
    refine ⟨fun value hread => (hx true value).trans ?_, fun value hwrite => (hx true value).trans ?_, hx false,
      execI2cBusStuck_busy hu hk hb⟩
    · rw [Bool.true_and, if_pos (List.contains_iff_mem.2 hread), if_pos rfl]
    · rw [Bool.true_and, if_neg (mt List.contains_iff_mem.1 hwrite), if_pos rfl]

end Sys2Proof.Machine
end
